-- ==== Sys2Proof/Word.lean ====
section
/-! DEFINITION. The plain types of the model: bytes, Reel positions, channel, die and port numbers (R2, R10, R13, R27, R349). -/

namespace Sys2Proof

/-- One byte of a frame, an object or a record (R7). -/
abbrev Byte := BitVec 8

/-- A Reel position: [63:32] cycle count, [31:0] phase fraction (R10). -/
abbrev Pos := BitVec 64

/-- A 64-bit word of a queue, a take or a record (R32, R149). -/
abbrev Word64 := BitVec 64

/-- A channel number, 0 to 23 (R2). -/
abbrev Ch := Fin 24

/-- A Channel die number, 0 to 5 (R2). -/
abbrev Die := Fin 6

/-- The channel's die, ⌊n/4⌋ (R27). -/
def Ch.die (n : Ch) : Die := ⟨n.val / 4, by omega⟩

/-- The channel's number on its die, n mod 4 (R27). -/
def Ch.loc (n : Ch) : Fin 4 := ⟨n.val % 4, by omega⟩

/-- The five partner ports (R19, R349), in the fixed order N, S, C, X, D. -/
inductive Port where
  | n | s | c | x | d
  deriving DecidableEq, Repr

/-- The port's place in the order of R19. -/
def Port.idx : Port → Fin 5
  | .n => 0 | .s => 1 | .c => 2 | .x => 3 | .d => 4

/-- The two measure arrays of a channel. -/
inductive ArrId where
  | vm | im
  deriving DecidableEq, Repr

/-- 0 VM, 1 IM, as Table 10.1 and Table 5.6 number the arrays. -/
def ArrId.idx : ArrId → Nat
  | .vm => 0 | .im => 1

/-- The eight engines of a channel, in the order of ENGINE_FAULT (Table 11.14). -/
inductive ChEngine where
  | le | sq | mpv | mpi | se | ge | pe0 | pe1
  deriving DecidableEq, Repr

/-- The engine's bit in ENGINE_FAULT (Table 11.14). -/
def ChEngine.idx : ChEngine → Nat
  | .le => 0 | .sq => 1 | .mpv => 2 | .mpi => 3 | .se => 4 | .ge => 5 | .pe0 => 6 | .pe1 => 7

/-- An engine of a Channel die, as a bank change reaches it (Table 13.14): one of a channel of the die, or a service. -/
inductive BankEngine where
  | channel (c : Fin 4) (e : ChEngine)
  | service (i : Fin 8)
  deriving DecidableEq, Repr

/-- An engine of the device (Table 1.2). -/
inductive Engine where
  | chan (n : Ch) (e : ChEngine)
  | ds (k : Die) (i : Fin 8)
  | core (i : Fin 16)
  deriving DecidableEq, Repr

end Sys2Proof
end

