-- ==== Sys2Proof/Syntax.lean ====
section
/-! DEFINITION. The commands of spec/opcode_table.json: one constructor of `Instr` per row, with the row's operands.
Operands that stand for what only the outside can supply (converter outputs, temperatures, levels, received frames)
are part of the command. -/

namespace Sys2Proof

/-- A message of Paore's fabric protocol as it reaches its end of a link (R36, R41, R42). -/
inductive FabMsg where
  /-- A take on its way to the Control die's PDO image (Table 1.10). -/
  | take (n : Ch) (a : ArrId) (w pos : Word64)
  /-- A source code on its way to SRC_CODE (Table 1.11). -/
  | code (n : Ch) (v : BitVec 40)
  /-- A setpoint on its way to LOOP_SP (Table 1.11). -/
  | setpoint (n : Ch) (v : BitVec 40)
  /-- The oldest record of a queue on its way to its Control-die queue (R168). -/
  | record (n : Ch) (q : Nat)
  /-- A vote of the link's die for a slot of a port (R314). -/
  | vote (p : Port) (slot : Nat)
  /-- A commit or abort decision on its way to the link's die (R316). -/
  | decision (p : Port) (slot : Nat)
  deriving DecidableEq, Repr

/-- One sample of a converter array over a window: the demodulated outputs y_j of the modulator clocks that overlap it,
oldest first (R110), and, where the overload detector fired, the sign of the first overloaded clock
(true positive) and the end tick of the last one (R137). -/
structure Conv where
  ys : List Int
  ovr : Option (Bool × Nat)
  deriving DecidableEq, Repr

/-- What an RxPDO image carries for one channel (Table 11.5). -/
structure RxImage where
  ctrl : BitVec 8
  srcCode : BitVec 40
  loopSp : BitVec 40
  cutArg : BitVec 16
  qCount : BitVec 8
  qCodes : List (BitVec 40)
  deriving DecidableEq, Repr

/-- The header of a request frame of Ports S, C and D (Table 12.1). -/
structure Frame where
  tag : Byte
  index : BitVec 16
  sub : Byte
  flags : Byte
  len : BitVec 16
  offset : BitVec 32
  data : List Byte
  /-- The two CRC bytes as received. -/
  crc : BitVec 16
  /-- Byte 0 where it is none of the operations of Table 12.1; none where it is the OP of the command. -/
  byte0 : Option Byte
  deriving DecidableEq, Repr

/-- What a converter of one slice gave in a calibration phase (Table 4.8): a value in code units, or Q39 for a gain. -/
structure PhaseResult where
  value : Int
  deriving DecidableEq, Repr

/-- Trims found by the power-up calibration of one slice (R126). -/
structure SliceTrim where
  local_ : Fin 4
  arr : ArrId
  slice : Fin 7
  offset : Int
  gain : Int
  deriving DecidableEq, Repr

/-- Trims found by the power-up self-calibration of one source path and mode (R281). -/
structure SourceTrim where
  local_ : Fin 4
  current : Bool
  offset : Int
  gain : Int
  deriving DecidableEq, Repr

/-- The supply inputs of Table 13.1. -/
inductive Supply where
  | vsys | avp | avn | vio
  deriving DecidableEq, Repr

/-- The four readings of the supply inputs, mV (Table 13.16). -/
structure Levels where
  vsys : Int
  avp : Int
  avn : Int
  vio : Int
  deriving DecidableEq, Repr

/-- A monitor's number: 0 V, 1 I, 2 AUX, 3 guard (Table 8.1). -/
abbrev Mon := Fin 4

/-- A CoE SDO Information service (Table 11.1). -/
inductive SdoInfo where
  | odList
  | object (index : BitVec 16)
  | entry (index : BitVec 16) (sub : Byte)
  deriving DecidableEq, Repr

/-- An edge on a TRIG_IN pin: its sense, and for how many clocks the new level has held; a channel whose TRIG_FILTER asks for more
has not seen it yet (R228). -/
structure TrigEdge where
  falling : Bool
  samples : BitVec 8
  deriving DecidableEq, Repr

/-- A vector lane in the compare window: its level, and for how many ticks of the window it has stood (R236). -/
structure LaneSample where
  lane : Fin 8
  level : Bool
  held : BitVec 8
  deriving DecidableEq, Repr

/-- A scan of the boundary register (Table 12.5): what it holds afterwards, by cell. With `keep` no instruction is shifted before it: it goes through
the instruction in force, as EXTEST does with one pattern after the other. -/
structure BoundaryScan where
  pattern : List (Nat × Bool)
  keep : Bool
  deriving DecidableEq, Repr

/-- A mailbox type the device does not serve (Table 11.1). -/
inductive MailboxType where
  | eoe | soe | aoe | voe
  deriving DecidableEq, Repr

/-- The AL state a master asks for (Table 11.1). -/
inductive AlReq where
  | init | preop | safeop | op | boot
  deriving DecidableEq, Repr

/-- The causes of Table 13.12 that start a restart, but for power-up. -/
inductive RestartCause where
  | activation | fallback | core | ecc | host | retry
  deriving DecidableEq, Repr

/-- The commands: one constructor per row of spec/opcode_table.json, in the table's order. -/
inductive Instr where
  | engineSelfCheckFail (e : Engine)
  | spareTakeoverComplete (k : Die)
  | fabricMessageDelivered (k : Die) (m : FabMsg)
  | messageRetry (k : Die)
  | linkTrainingAttemptEnd (k : Die) (width : Option (BitVec 2)) (rate8 : Bool)
  | linkTrainingRetry (k : Die)
  | fabricCounterClear (p : Port) (v : BitVec 8)
  | refLinkFault
  | refLinkRecover
  | inputBoundaryEvent (stamp : Nat) (mv : Nat)
  | sourceLossTimeout
  | reelCycleBoundary
  | holdoverAlarm
  | cadenceRecordArrival (k : Die)
  | dieRecordExtend (k : Die)
  | recordAdoption (k : Die)
  | reelCounterClear (p : Port) (v : BitVec 8)
  | zhewickFrameTx
  | zhewickFrameRx (stamp : Nat) (bytes : List Byte)
  | zhewickFrameLoss
  | returnMarkerTx
  | returnFrameRx (stamp : Nat) (bytes : List Byte)
  | syncIssue (p : Port) (num : BitVec 16)
  | syncEvent
  | sourceSampleSlot (n : Ch)
  | modulatorClock (n : Ch) (outLimit compliance : Bool)
  | stepHoldRelease (n : Ch)
  | holdForced (n : Ch)
  | srcCodeWrite (p : Port) (n : Ch) (v : BitVec 40)
  | srcQueueDataWrite (p : Port) (n : Ch) (data : List Byte)
  | srcCounterClear (p : Port) (n : Ch) (v : BitVec 8)
  | gndClampOpen (n : Ch)
  | forceEnAssert (n : Ch)
  | sourceRelease (n : Ch)
  | disableRampEnd (n : Ch)
  | disableComplete (n : Ch)
  | rangeBreak (n : Ch)
  | rangeChangeRelease (n : Ch)
  | resetGndClamp (n : Ch)
  | refSrcSettle (n : Ch)
  | slotStart (n : Ch) (a : ArrId)
  | apertureEnd (n : Ch) (a : ArrId) (c : Conv)
  | takeFormation (n : Ch) (a : ArrId)
  | powerupCalibrationComplete (k : Die) (slices : List SliceTrim) (sources : List SourceTrim)
  | rotation (n : Ch) (a : ArrId)
  | calPhaseComplete (n : Ch) (a : ArrId) (r : PhaseResult)
  | sliceRetirement (n : Ch) (a : ArrId) (i : Fin 7)
  | refSettledSet (n : Ch) (a : ArrId)
  | calStale (n : Ch) (a : ArrId)
  | urgentReq (p : Port) (n : Ch) (a : ArrId) (v : BitVec 8)
  | urgentRequestArrival (n : Ch) (a : ArrId)
  | urgentApertureEnd (n : Ch) (a : ArrId) (c : Conv)
  | tapSample (n : Ch) (a : ArrId) (v : Option (BitVec 40)) (overload : Bool)
  | arrayCounterClear (p : Port) (n : Ch) (a : ArrId) (v : BitVec 8)
  | mcfgTableWrite (p : Port) (n : Ch) (data : List Byte)
  | queueConfigWrite (p : Port) (n : Ch) (data : List Byte)
  | ctrlQueueConfigWrite (p : Port) (data : List Byte)
  | queueDrain (p : Port) (n : Option Ch)
  | queueFlush (p : Port) (n : Ch) (q : BitVec 16)
  | queueForward (n : Ch) (q : BitVec 16)
  | takeCounterClear (p : Port) (n : Ch) (v : BitVec 8)
  | peResultWrite (n : Ch) (pe : Fin 2)
  | peRestart (p : Port) (n : Ch) (pe : Fin 2) (v : BitVec 8)
  | loopPeriodBoundary (n : Ch)
  | lawHandoff (n : Ch) (eccCorrections : Nat)
  | softTripAtLe (n : Ch) (m : Mon)
  | xoverRelease (p : Port) (n : Ch) (v : BitVec 8)
  | loopSpWrite (p : Port) (n : Ch) (v : BitVec 40)
  | safeRampBegin (n : Ch)
  | safeRampEnd (n : Ch)
  | loopFaultClear (p : Port) (n : Ch) (v : BitVec 8)
  | loopCounterClear (p : Port) (n : Ch) (v : BitVec 8)
  | decisionPoint (n : Ch)
  | courseStart (n : Ch)
  | seqStart (p : Port) (n : Ch)
  | seqStop (p : Port) (n : Ch)
  | seqHold (p : Port) (n : Ch)
  | seqResume (p : Port) (n : Ch)
  | bankWrite (p : Port) (n : Ch) (b : Fin 2) (data : List Byte)
  | bankHeaderWrite (p : Port) (n : Ch) (b : Fin 2) (sub : Fin 3) (v : BitVec 16)
  | cutReq (p : Port) (n : Ch) (v : BitVec 16)
  | trigInEdge (k : Die) (pin : Fin 4) (edge : TrigEdge)
  | chainCut (p : Port) (v : BitVec 16)
  | groupArrival (n : Ch) (g : Fin 8)
  | groupReleasePosition (n : Ch)
  | vectorDriveEdge (n : Ch)
  | vectorCompareFailure (n : Ch) (x : LaneSample)
  | markerEdge (n : Ch) (m : Fin 2)
  | markerPulseEnd (n : Ch) (m : Fin 2)
  | seqCounterClear (p : Port) (n : Ch) (v : BitVec 8)
  | monitorFirstDecision (n : Ch) (m : Mon) (x : Int)
  | monitorStateChange (n : Ch) (m : Mon) (x : Int)
  | tripQualify (n : Ch) (m : Mon)
  | escalationExpiry (n : Ch) (m : Mon)
  | blankingEnd (n : Ch) (m : Mon) (x : Int)
  | guardLatchClear (p : Port) (n : Ch) (v : BitVec 8)
  | verifyReq (p : Port) (n : Ch) (v : BitVec 8)
  | verifyPeriodicDue (n : Ch) (m : Mon)
  | verifyComplete (n : Ch) (m : Mon) (hi lo : Int)
  | verifyStale (n : Ch) (m : Mon)
  | guardCounterClear (p : Port) (n : Ch) (v : BitVec 8)
  | ovenRegulating
  | ovenWarmupLong
  | ovenOutEntry
  | ovenOutExit
  | ovenFault (dieSensorFailed : Bool)
  | refTrimUpdate (dieTemp subTemp : Int) (heaterMw : Nat)
  | extLevelMeasurement (microvolt : Int)
  | cmpStart (p : Port)
  | cmpAbandon (p : Port)
  | comparisonStart
  | comparisonPhaseEnd
  | comparisonBackgroundDue
  | srcSelfcal (p : Port) (n : Ch) (v : BitVec 8)
  | selfcalComplete (n : Ch) (current : Bool) (offset gain : Int)
  | applyMarkProgram
  | calSealOpen
  | calSealClose
  | ledgerAppend (notBlank : Nat)
  | baselineReq (p : Port) (label : BitVec 128)
  | checkpoint
  | ledgerScanComplete (torn : Bool) (broken : Option Nat)
  | calLoaded
  | driftRun (p : Port) (v : BitVec 8)
  | unitRequest (cls : Fin 15) (inst : BitVec 12) (unit : BitVec 8) (deadline : Pos)
  | unitGrant (unit : BitVec 8)
  | unitRelease (cls : Fin 15) (inst : BitVec 12) (unit : BitVec 8)
  | holdOverrun (unit : BitVec 8)
  | backgroundLate (cls : Fin 15) (inst : BitVec 12) (unit : BitVec 8)
  | waitGraphScan
  | hostRelease (p : Port) (v : BitVec 8)
  | arbCommit (p : Port) (pos : Pos)
  | arbCommitApply
  | arbClear (p : Port) (v : BitVec 8)
  | txnOpen (p : Port) (v : BitVec 8)
  | rkWriteStage (p : Port) (index : BitVec 16) (sub : Byte) (data : List Byte)
  | keystone (p : Port) (slot flags : BitVec 8) (pos : Pos)
  | txnAbort (p : Port) (v : BitVec 8)
  | prepareAtDie (p : Port) (slot : Fin 16) (die : Fin 8)
  | dieVote (p : Port) (slot : Fin 16) (die : Fin 8)
  | voteDeadline (p : Port) (slot : Fin 16)
  | decisionArrival (p : Port) (slot : Fin 16) (die : Fin 8)
  | presumedAbort (p : Port) (slot : Fin 16) (die : Fin 8)
  | keystoneApply (p : Port) (slot : Fin 16)
  | sdoDownload (index : BitVec 16) (sub : Byte) (complete : Bool) (total : Nat) (data : List Byte)
  | sdoUpload (index : BitVec 16) (sub : Byte) (complete : Bool)
  | sdoSegment (toggle last : Bool) (data : List Byte)
  | sdoSegmentTimeout
  | sdoAbortByMaster
  | sdoInformation (q : SdoInfo)
  | foeWrite (target : Option Bool) (last : Bool) (data : List Byte)
  | foeRead
  | unsupportedMailbox (t : MailboxType)
  | alStateRequest (r : AlReq)
  | ethercatLinkLoss (port : Fin 2)
  | pdoMappingWrite (index : BitVec 16) (sub : Byte) (v : BitVec 32)
  | rxpdoLatch (images : List (Ch × RxImage)) (newBuffer : Bool)
  | rxpdoAct (n : Ch)
  | txpdoInputLoad
  | sm2WatchdogExpiry
  | emergencySend
  | chFaultClear (p : Port) (n : Ch) (v : BitVec 16)
  | portnCounterClear (p : Port) (v : BitVec 8)
  | fetch (p : Port)
  | read (p : Port) (f : Frame)
  | write (p : Port) (f : Frame)
  | drain (p : Port) (f : Frame)
  | cancel (p : Port) (f : Frame)
  | responseReady (p : Port)
  | peerCmd (p : Port) (v : BitVec 128)
  | peerMessageRx (fromUpstream : Bool) (field : BitVec 128)
  | peerTimeout
  | bypass
  | idcode
  | samplePreload (scan : BoundaryScan)
  | extest
  | objAccess (op : BitVec 8) (f : Frame)
  | debug
  | trst
  | fuseBlow (p : Port) (v : BitVec 32)
  | fuseBlowComplete
  | attestNonce (p : Port) (nonce : BitVec 256)
  | attestReportReady (p : Port)
  | fwUpload (p : Port) (data : List Byte)
  | imageVerifyComplete (slot : Fin 4) (flashOk : Bool)
  | fwConfirm (p : Port) (v : BitVec 8)
  | trialExpiry
  | fwChLoad (p : Port) (v : BitVec 8)
  | fwChLoadComplete (k : Die) (ok : Bool)
  | microcodeBankChange (k : Die) (e : BankEngine)
  | fwFloorRaise (p : Port) (v : BitVec 8)
  | powerUpRelease
  | timingTreeCalComplete
  | controlImageRunning
  | supplyWarning (inputs : BitVec 4) (l : Levels)
  | supplyRecovering (recovering : Bool) (l : Levels)
  | supplyRecoveryComplete
  | supplyReset
  | dieRailFault
  | dieRailRemoval
  | trkPwmPeriod (n : Ch)
  | slateInEdge (falling : Bool)
  | slateNow (p : Port) (v : BitVec 8)
  | slateAt (p : Port) (pos : Pos)
  | slateAtReached
  | slateChain (p : Port) (pos : Pos)
  | chainSlateReached
  | slateCapture
  | slateRingTransfer
  | slateCounterClear (p : Port) (v : BitVec 8)
  | scrubPass (k : Option Die) (corrected : BitVec 32) (pool : List (Fin 4 × BitVec 32))
  | eccUncorrectable (k : Option Die) (cls : Fin 5) (addr : BitVec 24) (where_ : Nat)
  | mcReloadComplete (k : Die)
  | telemetryReport (k : Die) (temp : Int) (vCore vAnaP : BitVec 16) (vAnaN : BitVec 16)
  | dieCounterClear (p : Port) (k : Die) (v : BitVec 8)
  | supplyCounterClear (p : Port) (v : BitVec 8)
  | restartReq (p : Port) (v : BitVec 16)
  | controlDieRestart (cause : RestartCause)
  | restartTimeout
  | objectWrite (p : Port) (index : BitVec 16) (sub : Byte) (data : List Byte)
  | phyRstRelease
  | miiPortLinkUp (port : Fin 2)
  | siiStationAliasWrite (word : Nat) (v : BitVec 16)
  | mailboxSm1Read
  deriving DecidableEq, Repr

end Sys2Proof
end

