-- ==== Sys2Proof/Decode.lean ====
section
/-! DEFINITION. The command a word spells by the bits of spec/opcode_table.json. No row of the table gives bits: the block's commands are
accesses and events, and no word spells one. -/

namespace Sys2Proof

/-- The command of a word numbered as spec/opcode_table.json numbers bits: none, since every row's list of fields is empty. -/
def decodeTableWord (_nbits _w : Nat) : Option Instr := none

end Sys2Proof
end

