-- ==== Sys2Proof/Config.lean ====
section
/-! DEFINITION. What provisioning, calibration or the manual's silence leaves open: constants with no body, so that no proof
rests on a value of theirs. -/

namespace Sys2Proof.Config

/-- The calibrated default ("cal") of an object, by index and subindex (R21, R283). -/
opaque calEntry : Nat → Nat → Nat
/-- The serial number (0x1018:04, "prov"). -/
opaque provSerial : Nat
/-- The authority key a part is shipped with (R288). -/
opaque provAuthKey : Nat
/-- DEVICE_PUBKEY (R361). -/
opaque provPubkey : Nat
/-- The issue UTC and production signature of DEVICE_CERT (R361). -/
opaque provCert : Nat

/-- Which neighbour a quotient is rounded to where the manual states no rounding (log 4). -/
opaque roundsUp : Int → Int → Bool
/-- The length in 1/256 tick that the loop filter of the Cadence Unit sets for a record (R57, R67): the manual gives the filter's
order, damping and bandwidth, not its arithmetic. Applied to a counter of free values. -/
opaque loopFilterLength : Nat → Nat
/-- The frequency in Hz measured on REFCLK_IN while another source is in force, by tick; none where it shows no edges (R46, R72): edges at an input
that is not selected reach the model by no command (log 118). -/
opaque refclkMeasured : Nat → Option Nat
/-- L_hold, the loop filter's frequency term at the last good measurement (Table 2.2). -/
opaque loopFilterHold : Nat → Nat

/-! ### The source path, the arrays, the lanes -/

/-- Whether entry i of the quarter-wave sine table lies above or below its exact value (R82): the manual names the table, not its rounding. -/
opaque sineRoundsUp : Nat → Bool
/-- The result of a ratio block whose Σi is 0 (Table 5.10), by Σv: none is stated (log 5). -/
opaque ratioOfZero : Int → Int
/-- Whether the overload detector fired in the converted part of a slot that was cut short, where no tap sample shows it, by channel, array and
place of the slot; and the ticks from the start of that part to the end of the overrange (R137): no command carries either (log 31). -/
opaque detectorFired : Nat → Nat → Nat → Bool
/-- The ticks of `detectorFired`. -/
opaque detectorEnd : Nat → Nat → Nat → Nat
/-- The provisioned content of the emulated SII, by word (11 R325): the spec gives none. -/
opaque siiContent : Nat → BitVec 16

/-- Whether the overload detector fires on a modulator clock, by channel, array and number of the clock, where no command has told it (log 31). -/
opaque detectorOn : Nat → Nat → Nat → Bool
/-- y_FS − 1: the modulator output at full scale (R110), which the manual does not give. -/
opaque fullScaleOutput : Nat
/-- The level at a vector lane the device does not drive, by channel, lane slot and tick (VEC_LEVELS). -/
opaque laneLevel : Nat → Nat → Nat → Bool

/-- A comparison's U_A, V_INT, U_INT (0, 1, 2) where R278 divides by 0 or takes a root of no spread: none is stated (log 33). -/
opaque cmpUndefined : Nat → Int
/-- A drift result (0 to 4: slope, U_slope, prediction, U_pred, χ²) where R293 divides by a U_INT of 0 or leaves the object's type: none is
stated (log 33). -/
opaque driftUndefined : Nat → Int

/-- Fields of a Zhewick frame that nothing fills: SYNC_POS, SLATE_POS, SYNC_NUM with no target, HOP of a follower that has received none
(log 43). -/
opaque idleField : Nat → Nat
/-- The factory receiver-asymmetry trim, 1/256 tick (R67). -/
opaque receiverAsymmetry : Int
/-- The calibrated turnaround of the upstream device, 1/256 tick (R67). -/
opaque turnaround : Nat

/-- The ticks from an edge at SLATE_IN to its capture, of which the manual gives the bound 4 (Table 13.6). Applied to a counter of free
values. -/
opaque slateInDelay : Nat → Nat

/-- What SAMPLE/PRELOAD, EXTEST and DEBUG capture: the manual gives no layout of the boundary register or of the debug view. Applied to a counter
of free values. -/
opaque scanCapture : Nat → Nat

/-! ### Hashes and signatures: the manual names the functions of FIPS 202 and RFC 8032 and does not define them -/

/-- The 64-byte SHAKE256 output over bytes, as a little-endian number. -/
opaque shake256 : List Byte → Nat
/-- The Ed448 signature by the device identity key, empty context, as a little-endian number. -/
opaque identitySign : List Byte → Nat
/-- Ed448 verification: public key, message, signature. -/
opaque edVerify : Nat → List Byte → Nat → Bool
/-- Paore's firmware keys 0 and 1. -/
opaque firmwareKey : Nat → Nat

/-- The law ticks of microcode whose cycle costs differ from Table 6.2, by IMAGE_HASH (R210): fixed ones and those of each biquad; none where they
are those of Table 6.2. The layout of an image's body is Paore's own. -/
opaque microcodeCosts : Nat → Option (Nat × Nat)

/-! ### What a part ships with -/

/-- HEAD_SEQ of the shipped ledger. -/
opaque shippedSeq : Nat
/-- HEAD_HASH of the shipped ledger. -/
opaque shippedHash : Nat
/-- Blank pages of the shipped ledger. -/
opaque shippedFree : Nat
/-- A record of the shipped ledger as stored, by SEQ. -/
opaque shippedRecord : Nat → List Byte
/-- Byte offset in the ledger region of a torn record (0) or of the record a broken chain starts at, which a NOTICE names (log 36). -/
opaque noticeOffset : Nat → Nat
/-- AGE of the last shipped record, ms. -/
opaque shippedAge : Nat
/-- POWER_UPS of the last shipped record. -/
opaque shippedPowerUps : Nat
/-- AUTH_SEQ of the last record applied before shipping. -/
opaque shippedAuthSeq : Nat
/-- REF_COMPARISON records of the shipped ledger: their number, and by index SEQ, AGE, UTC, STATUS, OVEN, V_INT, U_INT. -/
opaque shippedComparisons : Nat
/-- One of them. -/
opaque shippedComparison : Nat → Nat × Nat × Nat × Nat × Nat × Int × Nat
/-- VERSION, ROLLBACK and IMAGE_HASH of a shipped image, by slot. -/
opaque slotVersion : Nat → Nat
/-- ROLLBACK of a shipped image. -/
opaque slotRollback : Nat → Nat
/-- IMAGE_HASH of a shipped image. -/
opaque slotHash : Nat → Nat
/-- FW_ROLLBACK_FLOOR as shipped. -/
opaque provFloor : Nat
/-- KEY1_PRESENT (Table 12.6). -/
opaque provKey1 : Bool
/-- SW_VERSION of an image, by its version number: the text of 0x100A:00. -/
opaque versionText : Nat → Nat
/-- SEQ of the shipped CAL_SET whose value of a correction entry is in force as shipped, by the entry's key (R283, R292). -/
opaque shippedCalSeq : Nat → Nat
/-- Bytes of the emulated SII (R325), by word. -/
opaque siiWord : Nat → Nat
/-- The reading of a supply input or of the Control-die sensor (VSYS, AVP, AVN, VIO in mV, CTRL_TEMP: 0 to 4), by the ms it is taken in. -/
opaque supplyReading : Nat → Nat → Int
/-- What DEBUG and the boundary register capture, by tick (R358). -/
opaque tapCapture : Nat → Nat

end Sys2Proof.Config
end

