-- ==== Sys2Proof/Machine/Dictionary.lean ====
section
/-! DEFINITION. The object dictionary (Table 11.3): one row per object of the object maps of 01 to 13, with its index,
subindex, type (R330), access (Table 0.4), port rights (R19), default (R21) and the values its Meaning admits. -/

namespace Sys2Proof.Machine

/-- The access codes of Table 0.4. -/
inductive Acc where
  | ro | rw | rk | w1c | wo
  deriving DecidableEq, Repr

/-- What the Ports column gives one port (R19): the access named, read only, or neither. -/
inductive Right where
  | full | read | none
  deriving DecidableEq, Repr

/-- What an object's Meaning admits (R330, 0x0F10_0003): any value of the type, a range, a list of values, or any value whose
bits of the mask `rsv`, the reserved bits of R8, are 0. -/
inductive Lim where
  | any
  | rng (lo hi : Int)
  | vals (l : List Int)
  | bits (rsv : Nat)
  deriving DecidableEq, Repr

/-- The Default column (R21): one value, one value per subindex, one per last index digit,
or a function of index and subindex (a provisioned table, the default mapping of R337). -/
inductive Dflt where
  | c (v : Nat)
  | tbl (l : List Nat)
  | lastDim (l : List Nat)
  | f (g : Nat → Nat → Nat)

/-- One row of an object map. `dims` are the (stride, count) pairs of the index beyond `ix`, greatest stride first; `subs` is the
(stride, count) of the subindex beyond `sub`; `size` is in bytes, 0 for a DOMAIN; `code` is the CoE type code of Table 11.4. -/
structure Row where
  ix : Nat
  dims : List (Nat × Nat)
  sub : Nat
  subs : Nat × Nat
  size : Nat
  code : Nat
  signed : Bool
  acc : Acc
  rights : List Right
  dflt : Dflt
  perPort : Bool
  lim : Lim

/-- The Ports column "--C--" (R19); in the names of these columns z stands for a dash. -/
def pzzCzz : List Right := [.none, .none, .full, .none, .none]
/-- The Ports column "N---D" (R19). -/
def pNzzzD : List Right := [.full, .none, .none, .none, .full]
/-- The Ports column "N---r" (R19). -/
def pNzzzr : List Right := [.full, .none, .none, .none, .read]
/-- The Ports column "NS--D" (R19). -/
def pNSzzD : List Right := [.full, .full, .none, .none, .full]
/-- The Ports column "NS-XD" (R19). -/
def pNSzXD : List Right := [.full, .full, .none, .full, .full]
/-- The Ports column "NSC-D" (R19). -/
def pNSCzD : List Right := [.full, .full, .full, .none, .full]
/-- The Ports column "NSCXD" (R19). -/
def pNSCXD : List Right := [.full, .full, .full, .full, .full]
/-- The Ports column "NSr-D" (R19). -/
def pNSrzD : List Right := [.full, .full, .read, .none, .full]
/-- The Ports column "Nr--D" (R19). -/
def pNrzzD : List Right := [.full, .read, .none, .none, .full]
/-- The Ports column "Nrr-D" (R19). -/
def pNrrzD : List Right := [.full, .read, .read, .none, .full]
/-- The Ports column "Nrr-r" (R19). -/
def pNrrzr : List Right := [.full, .read, .read, .none, .read]
/-- The Ports column "rS--D" (R19). -/
def prSzzD : List Right := [.read, .full, .none, .none, .full]
/-- The Ports column "rrC-r" (R19). -/
def prrCzr : List Right := [.read, .read, .full, .none, .read]

/-- The default RxPDO mapping: every subindex of 0x7000 + 0x10 n in ascending order (R337, Table 11.5). -/
def rxMapDefault (index sub : Nat) : Nat :=
  (0x7000 + 0x10 * (index - 0x1600)) * 65536 + sub * 256 + (if sub == 1 || sub == 5 then 8 else if sub == 4 then 16 else 40)

/-- The default TxPDO mapping: every subindex of 0x6000 + 0x10 n in ascending order (R337, Table 5.11). -/
def txMapDefault (index sub : Nat) : Nat :=
  (0x6000 + 0x10 * (index - 0x1A00)) * 65536 + sub * 256 + (if sub == 13 then 8 else 64)

/-- The correction entries of a shipped part (R156, R283): the provisioned ones hold values the manual leaves to Paore (free values, log 7),
every other holds 0. -/
def corrDefault (index sub : Nat) : Nat :=
  let t := index % 0x100
  let held := t == 0xC2 || sub ≤ 6 || (t == 0xC0 && (sub == 33 || sub == 34))
  if held then 2 ^ 80 + Config.calEntry index sub % 2 ^ 80 else 0

/-- A compensation point of a shipped part (R269): temperature and trim are Paore's (free values, log 7). -/
def compPointDefault (index sub : Nat) : Nat :=
  Config.calEntry index sub % 2 ^ 32 + Config.calEntry index sub / 2 ^ 32 % 2 ^ 16 * 2 ^ 48

/-- COMP_COUNT of a shipped part, 2 to 16 (R269). -/
def compCountDefault (index sub : Nat) : Nat := 2 + Config.calEntry index sub % 15

/-- 0x2010:00 Die count (01 R40). -/
def oDieCount : Row := ⟨0x2010, [], 0x00, (1, 1), 1, 0x05, false, .ro, pNSCzD, .c 8, false, .any⟩
/-- 0x2010:01 Control die descriptor (01 R40). -/
def oCtrlDieDesc : Row := ⟨0x2010, [], 0x01, (1, 1), 4, 0x07, false, .ro, pNSCzD, .c 0x10B000C0, false, .any⟩
/-- 0x2010:02–07 Channel die k descriptor (01 R40). -/
def oChDieDesc : Row := ⟨0x2010, [], 0x02, (1, 6), 4, 0x07, false, .ro, pNSCzD, .c 0, false, .any⟩
/-- 0x2010:08 Reference die descriptor (01 R40). -/
def oRefDieDesc : Row := ⟨0x2010, [], 0x08, (1, 1), 4, 0x07, false, .ro, pNSCzD, .c 0x30B000C0, false, .any⟩
/-- 0x2011:00 Link count (01 R40). -/
def oLinkCount : Row := ⟨0x2011, [], 0x00, (1, 1), 1, 0x05, false, .ro, pNSCzD, .c 6, false, .any⟩
/-- 0x2011:01–06 Link status, Channel die k (01 R40). -/
def oLinkStatus : Row := ⟨0x2011, [], 0x01, (1, 6), 4, 0x07, false, .ro, pNSCzD, .c 0x000000E2, false, .any⟩
/-- 0x2012:00 Fabric counter clear (01 R40). -/
def oFabricClear : Row := ⟨0x2012, [], 0x00, (1, 1), 1, 0x05, false, .wo, pNSzzD, .c 0, false, .bits 0xC0⟩
/-- 0x2100:01 REEL_SOURCE (02 R72). -/
def oReelSource : Row := ⟨0x2100, [], 0x01, (1, 1), 1, 0x05, false, .rk, pNSrzD, .c 4, false, .rng 0 4⟩
/-- 0x2100:02 MAINS_BAND (02 R72). -/
def oMainsBand : Row := ⟨0x2100, [], 0x02, (1, 1), 1, 0x05, false, .rk, pNSrzD, .c 0, false, .rng 0 1⟩
/-- 0x2100:03 REFCLK_DIV (02 R72). -/
def oRefclkDiv : Row := ⟨0x2100, [], 0x03, (1, 1), 4, 0x07, false, .rk, pNSrzD, .c 1000, false, .rng 1 4294967295⟩
/-- 0x2100:04 PPS_MULT (02 R72). -/
def oPpsMult : Row := ⟨0x2100, [], 0x04, (1, 1), 2, 0x06, false, .rk, pNSrzD, .c 1, false, .rng 1 10000⟩
/-- 0x2100:05 REEL_NOM (02 R72). -/
def oReelNom : Row := ⟨0x2100, [], 0x05, (1, 1), 4, 0x07, false, .rk, pNSrzD, .c 50000, false, .rng 1000 10000000⟩
/-- 0x2100:06 PLL_BW (02 R72). -/
def oPllBw : Row := ⟨0x2100, [], 0x06, (1, 1), 1, 0x05, false, .rk, pNSrzD, .c 2, false, .rng 0 4⟩
/-- 0x2100:07 LOCK_THRESH (02 R72). -/
def oLockThresh : Row := ⟨0x2100, [], 0x07, (1, 1), 4, 0x07, false, .rk, pNSrzD, .c 0x00418937, false, .any⟩
/-- 0x2100:08 SLEW_LIMIT (02 R72). -/
def oSlewLimit : Row := ⟨0x2100, [], 0x08, (1, 1), 2, 0x06, false, .rk, pNSrzD, .c 200, false, .rng 1 1000⟩
/-- 0x2100:09 MAINS_PHASE (02 R72). -/
def oMainsPhase : Row := ⟨0x2100, [], 0x09, (1, 1), 4, 0x07, false, .rk, pNSrzD, .c 0, false, .any⟩
/-- 0x2100:0A PPS_EDGE (02 R72). -/
def oPpsEdge : Row := ⟨0x2100, [], 0x0A, (1, 1), 1, 0x05, false, .rk, pNSrzD, .c 0, false, .bits 0xFE⟩
/-- 0x2100:0B HOLDOVER_ALARM (02 R72). -/
def oHoldoverAlarm : Row := ⟨0x2100, [], 0x0B, (1, 1), 4, 0x07, false, .rk, pNSrzD, .c 3000, false, .any⟩
/-- 0x2101:01 REEL_STATUS (02 R72). -/
def oReelStatus : Row := ⟨0x2101, [], 0x01, (1, 1), 4, 0x07, false, .ro, pNSCzD, .c 0x00000140, false, .any⟩
/-- 0x2101:02 REEL_NOW (02 R72). -/
def oReelNow : Row := ⟨0x2101, [], 0x02, (1, 1), 8, 0x1B, false, .ro, pNSCzD, .c 0, false, .any⟩
/-- 0x2101:03 CYCLE_LEN (02 R72). -/
def oCycleLen : Row := ⟨0x2101, [], 0x03, (1, 1), 5, 0x18, false, .ro, pNSCzD, .c 0x004B000000, false, .any⟩
/-- 0x2101:04 PHASE_ERR (02 R72). -/
def oPhaseErr : Row := ⟨0x2101, [], 0x04, (1, 1), 4, 0x04, true, .ro, pNSCzD, .c 0, false, .any⟩
/-- 0x2101:05 HOLDOVER_COUNT (02 R72). -/
def oHoldoverCount : Row := ⟨0x2101, [], 0x05, (1, 1), 4, 0x07, false, .ro, pNSCzD, .c 0, false, .any⟩
/-- 0x2101:06 SLIP_TOTAL (02 R72). -/
def oSlipTotal : Row := ⟨0x2101, [], 0x06, (1, 1), 8, 0x15, true, .ro, pNSCzD, .c 0, false, .any⟩
/-- 0x2101:07 LAST_HOLDOVER (02 R72). -/
def oLastHoldover : Row := ⟨0x2101, [], 0x07, (1, 1), 4, 0x07, false, .ro, pNSCzD, .c 0, false, .any⟩
/-- 0x2101:08 COUNTER_CLEAR (02 R72). -/
def oReelCounterClear : Row := ⟨0x2101, [], 0x08, (1, 1), 1, 0x05, false, .wo, pNSzzD, .c 0, false, .bits 0xF8⟩
/-- 0x2102:01 CYCLE_PRESET (02 R72). -/
def oCyclePreset : Row := ⟨0x2102, [], 0x01, (1, 1), 4, 0x07, false, .rk, pNSzzD, .c 0, false, .any⟩
/-- 0x2110:01 HOP (02 R72). -/
def oHop : Row := ⟨0x2110, [], 0x01, (1, 1), 1, 0x05, false, .ro, pNSCzD, .c 0, false, .any⟩
/-- 0x2110:02 ROUND_TRIP (02 R72). -/
def oRoundTrip : Row := ⟨0x2110, [], 0x02, (1, 1), 4, 0x07, false, .ro, pNSCzD, .c 0, false, .any⟩
/-- 0x2110:03 ONE_WAY (02 R72). -/
def oOneWay : Row := ⟨0x2110, [], 0x03, (1, 1), 4, 0x07, false, .ro, pNSCzD, .c 0, false, .any⟩
/-- 0x2110:04 LINK_TIMING (02 R72). -/
def oLinkTiming : Row := ⟨0x2110, [], 0x04, (1, 1), 1, 0x05, false, .ro, pNSCzD, .c 0, false, .any⟩
/-- 0x2110:05 CRC_ERRORS (02 R72). -/
def oCrcErrors : Row := ⟨0x2110, [], 0x05, (1, 1), 4, 0x07, false, .ro, pNSCzD, .c 0, false, .any⟩
/-- 0x2110:06 ASYM_TRIM (02 R72). -/
def oAsymTrim : Row := ⟨0x2110, [], 0x06, (1, 1), 2, 0x03, true, .rw, pNSrzD, .c 0, false, .any⟩
/-- 0x2110:07 DOWNSTREAM_EN (02 R72). -/
def oDownstreamEn : Row := ⟨0x2110, [], 0x07, (1, 1), 1, 0x05, false, .rk, pNSrzD, .c 1, false, .rng 0 1⟩
/-- 0x2111:01 SYNC_POS (02 R72). -/
def oSyncPos : Row := ⟨0x2111, [], 0x01, (1, 1), 8, 0x1B, false, .rw, pNSzzD, .c 0, false, .any⟩
/-- 0x2111:02 SYNC_ISSUE (02 R72). -/
def oSyncIssue : Row := ⟨0x2111, [], 0x02, (1, 1), 2, 0x06, false, .wo, pNSzzD, .c 0, false, .any⟩
/-- 0x2111:03 SYNC_LAST_NUM (02 R72). -/
def oSyncLastNum : Row := ⟨0x2111, [], 0x03, (1, 1), 2, 0x06, false, .ro, pNSCzD, .c 0, false, .any⟩
/-- 0x2111:04 SYNC_LAST_POS (02 R72). -/
def oSyncLastPos : Row := ⟨0x2111, [], 0x04, (1, 1), 8, 0x1B, false, .ro, pNSCzD, .c 0, false, .any⟩
/-- 0x2111:05 SYNC_LATE (02 R72). -/
def oSyncLate : Row := ⟨0x2111, [], 0x05, (1, 1), 4, 0x07, false, .ro, pNSCzD, .c 0, false, .any⟩
/-- C(n)+0x10:01 SRC_ENABLE (03 R108). -/
def oSrcEnable : Row := ⟨0x3010, [(0x100, 24)], 0x01, (1, 1), 1, 0x05, false, .rk, pNSrzD, .c 0, false, .rng 0 1⟩
/-- C(n)+0x10:02 SRC_MODE (03 R108). -/
def oSrcMode : Row := ⟨0x3010, [(0x100, 24)], 0x02, (1, 1), 1, 0x05, false, .rk, pNSrzD, .c 0, false, .rng 0 1⟩
/-- C(n)+0x10:03 SRC_ORIGIN (03 R108). -/
def oSrcOrigin : Row := ⟨0x3010, [(0x100, 24)], 0x03, (1, 1), 1, 0x05, false, .rk, pNSrzD, .c 0, false, .rng 0 4⟩
/-- C(n)+0x10:04 SRC_CODE (03 R108). -/
def oSrcCode : Row := ⟨0x3010, [(0x100, 24)], 0x04, (1, 1), 5, 0x12, true, .rw, pNSzzD, .c 0, false, .any⟩
/-- C(n)+0x10:05 SRC_RATE_NUM (03 R108). -/
def oSrcRateNum : Row := ⟨0x3010, [(0x100, 24)], 0x05, (1, 1), 4, 0x07, false, .rk, pNSrzD, .c 20, false, .rng 1 4294967295⟩
/-- C(n)+0x10:06 SRC_RATE_DEN (03 R108). -/
def oSrcRateDen : Row := ⟨0x3010, [(0x100, 24)], 0x06, (1, 1), 2, 0x06, false, .rk, pNSrzD, .c 1, false, .rng 1 65535⟩
/-- C(n)+0x10:07 SRC_START (03 R108). -/
def oSrcStart : Row := ⟨0x3010, [(0x100, 24)], 0x07, (1, 1), 8, 0x1B, false, .rk, pNSrzD, .c 0, false, .any⟩
/-- C(n)+0x10:08 SRC_INTERP (03 R108). -/
def oSrcInterp : Row := ⟨0x3010, [(0x100, 24)], 0x08, (1, 1), 1, 0x05, false, .rk, pNSrzD, .c 2, false, .rng 0 2⟩
/-- C(n)+0x10:09 SRC_REF (03 R108). -/
def oSrcRef : Row := ⟨0x3010, [(0x100, 24)], 0x09, (1, 1), 1, 0x05, false, .rk, pNSrzD, .c 0, false, .rng 0 3⟩
/-- C(n)+0x10:0A CODE_LIMIT (03 R108). -/
def oCodeLimit : Row := ⟨0x3010, [(0x100, 24)], 0x0A, (1, 1), 5, 0x18, false, .rk, pNSrzD, .c 0x4000000000, false, .rng 0 274877906944⟩
/-- C(n)+0x10:0B STEP_THRESH (03 R108). -/
def oStepThresh : Row := ⟨0x3010, [(0x100, 24)], 0x0B, (1, 1), 5, 0x18, false, .rk, pNSrzD, .c 0x0040000000, false, .any⟩
/-- C(n)+0x10:0C STEP_HOLD_US (03 R108). -/
def oStepHoldUs : Row := ⟨0x3010, [(0x100, 24)], 0x0C, (1, 1), 1, 0x05, false, .rk, pNSrzD, .c 0, false, .any⟩
/-- C(n)+0x10:0D RELAY_SETTLE_US (03 R108). -/
def oRelaySettleUs : Row := ⟨0x3010, [(0x100, 24)], 0x0D, (1, 1), 2, 0x06, false, .rk, pNSrzD, .c 3000, false, .any⟩
/-- C(n)+0x10:0E SRC_RAMP (03 R108). -/
def oSrcRamp : Row := ⟨0x3010, [(0x100, 24)], 0x0E, (1, 1), 5, 0x18, false, .rk, pNSrzD, .c 0x000346DC5D, false, .any⟩
/-- C(n)+0x10:0F SRC_Q_OWNER (03 R108). -/
def oSrcQOwner : Row := ⟨0x3010, [(0x100, 24)], 0x0F, (1, 1), 1, 0x05, false, .rk, pNSrzD, .c 0, false, .rng 0 2⟩
/-- C(n)+0x11:01 SRC_STATUS (03 R108). -/
def oSrcStatus : Row := ⟨0x3011, [(0x100, 24)], 0x01, (1, 1), 4, 0x07, false, .ro, pNSCzD, .c 0x00012408, false, .any⟩
/-- C(n)+0x11:02 Q_FILL (03 R108). -/
def oQFill : Row := ⟨0x3011, [(0x100, 24)], 0x02, (1, 1), 2, 0x06, false, .ro, pNSCzD, .c 0, false, .any⟩
/-- C(n)+0x11:03 UNDERRUNS (03 R108). -/
def oUnderruns : Row := ⟨0x3011, [(0x100, 24)], 0x03, (1, 1), 4, 0x07, false, .ro, pNSCzD, .c 0, false, .any⟩
/-- C(n)+0x11:04 OVERFLOWS (03 R108). -/
def oOverflows : Row := ⟨0x3011, [(0x100, 24)], 0x04, (1, 1), 4, 0x07, false, .ro, pNSCzD, .c 0, false, .any⟩
/-- C(n)+0x11:05 CLAMPS (03 R108). -/
def oClamps : Row := ⟨0x3011, [(0x100, 24)], 0x05, (1, 1), 4, 0x07, false, .ro, pNSCzD, .c 0, false, .any⟩
/-- C(n)+0x11:06 STEP_HOLDS (03 R108). -/
def oStepHolds : Row := ⟨0x3011, [(0x100, 24)], 0x06, (1, 1), 4, 0x07, false, .ro, pNSCzD, .c 0, false, .any⟩
/-- C(n)+0x11:07 HOLD_FORCED (03 R108). -/
def oHoldForced : Row := ⟨0x3011, [(0x100, 24)], 0x07, (1, 1), 4, 0x07, false, .ro, pNSCzD, .c 0, false, .any⟩
/-- C(n)+0x11:08 RATE_CLIPS (03 R108). -/
def oRateClips : Row := ⟨0x3011, [(0x100, 24)], 0x08, (1, 1), 4, 0x07, false, .ro, pNSCzD, .c 0, false, .any⟩
/-- C(n)+0x11:09 CODE_NOW (03 R108). -/
def oCodeNow : Row := ⟨0x3011, [(0x100, 24)], 0x09, (1, 1), 5, 0x12, true, .ro, pNSCzD, .c 0, false, .any⟩
/-- C(n)+0x11:0A COUNTER_CLEAR (03 R108). -/
def oSrcCounterClear : Row := ⟨0x3011, [(0x100, 24)], 0x0A, (1, 1), 1, 0x05, false, .wo, pNSzzD, .c 0, false, .bits 0x80⟩
/-- C(n)+0x11:0B PEEK_MISS (03 R108). -/
def oPeekMiss : Row := ⟨0x3011, [(0x100, 24)], 0x0B, (1, 1), 4, 0x07, false, .ro, pNSCzD, .c 0, false, .any⟩
/-- C(n)+0x12:01 SRC_Q_DATA (03 R108). -/
def oSrcQData : Row := ⟨0x3012, [(0x100, 24)], 0x01, (1, 1), 0, 0x0F, false, .wo, pNSzzD, .c 0, false, .any⟩
/-- C(n)+0x20:01 SINE_MODE (03 R108). -/
def oSineMode : Row := ⟨0x3020, [(0x100, 24)], 0x01, (1, 1), 1, 0x05, false, .rk, pNSrzD, .c 0, false, .rng 0 1⟩
/-- C(n)+0x20:02 SINE_INC (03 R108). -/
def oSineInc : Row := ⟨0x3020, [(0x100, 24)], 0x02, (1, 1), 6, 0x19, false, .rk, pNSrzD, .c 0, false, .rng 0 2290649224533⟩
/-- C(n)+0x20:03 SINE_RATIO_NUM (03 R108). -/
def oSineRatioNum : Row := ⟨0x3020, [(0x100, 24)], 0x03, (1, 1), 4, 0x07, false, .rk, pNSrzD, .c 1, false, .any⟩
/-- C(n)+0x20:04 SINE_RATIO_DEN (03 R108). -/
def oSineRatioDen : Row := ⟨0x3020, [(0x100, 24)], 0x04, (1, 1), 2, 0x06, false, .rk, pNSrzD, .c 1, false, .rng 1 65535⟩
/-- C(n)+0x20:05 SINE_PHASE (03 R108). -/
def oSinePhase : Row := ⟨0x3020, [(0x100, 24)], 0x05, (1, 1), 6, 0x19, false, .rk, pNSrzD, .c 0, false, .any⟩
/-- C(n)+0x20:06 SINE_AMPL (03 R108). -/
def oSineAmpl : Row := ⟨0x3020, [(0x100, 24)], 0x06, (1, 1), 5, 0x18, false, .rk, pNSrzD, .c 0, false, .rng 0 274877906944⟩
/-- C(n)+0x20:07 SINE_OFFSET (03 R108). -/
def oSineOffset : Row := ⟨0x3020, [(0x100, 24)], 0x07, (1, 1), 5, 0x12, true, .rk, pNSrzD, .c 0, false, .any⟩
/-- C(n)+0x20:08 SINE_ADVANCE (03 R108). -/
def oSineAdvance : Row := ⟨0x3020, [(0x100, 24)], 0x08, (1, 1), 1, 0x05, false, .rk, pNSrzD, .c 0, false, .bits 0xFE⟩
/-- C(n)+0x20:09 SINE_PHASE_NOW (03 R108). -/
def oSinePhaseNow : Row := ⟨0x3020, [(0x100, 24)], 0x09, (1, 1), 6, 0x19, false, .ro, pNSCzD, .c 0, false, .any⟩
/-- C(n)+0x20:0A SINE_STATUS (03 R108). -/
def oSineStatus : Row := ⟨0x3020, [(0x100, 24)], 0x0A, (1, 1), 1, 0x05, false, .ro, pNSCzD, .c 0, false, .any⟩
/-- C(n)+0xB0:01 RANGE_ACTIVE (03 R108). -/
def oRangeActive : Row := ⟨0x30B0, [(0x100, 24)], 0x01, (1, 1), 1, 0x05, false, .rk, pNSrzD, .c 0, false, .rng 0 7⟩
/-- C(n)+0xB0:02 DRIVER_STATE (03 R108). -/
def oDriverState : Row := ⟨0x30B0, [(0x100, 24)], 0x02, (1, 1), 2, 0x06, false, .ro, pNSCzD, .c 0x0100, false, .any⟩
/-- C(n)+0xB1+r:01 PATTERN (03 R108). -/
def oPattern : Row := ⟨0x30B1, [(0x100, 24), (0x1, 8)], 0x01, (1, 1), 1, 0x05, false, .rk, pNSrzD, .c 0x00, false, .any⟩
/-- C(n)+0xB1+r:02 OVERLAP_US (03 R108). -/
def oOverlapUs : Row := ⟨0x30B1, [(0x100, 24), (0x1, 8)], 0x02, (1, 1), 1, 0x05, false, .rk, pNSrzD, .c 0, false, .any⟩
/-- C(n)+0xB1+r:03 SETTLE_US (03 R108). -/
def oSettleUs : Row := ⟨0x30B1, [(0x100, 24), (0x1, 8)], 0x03, (1, 1), 2, 0x06, false, .rk, pNSrzD, .c 0, false, .any⟩
/-- C(n)+0xB1+r:04 HOLD_US (03 R108). -/
def oHoldUs : Row := ⟨0x30B1, [(0x100, 24), (0x1, 8)], 0x04, (1, 1), 1, 0x05, false, .rk, pNSrzD, .c 50, false, .rng 1 255⟩
/-- C(n)+0xB1+r:05 STAGE_GAIN (03 R108). -/
def oStageGain : Row := ⟨0x30B1, [(0x100, 24), (0x1, 8)], 0x05, (1, 1), 5, 0x12, true, .rk, pNSrzD, .c 0x4000000000, false, .any⟩
/-- C(n)+0xB1+r:06 MODES (03 R108). -/
def oModes : Row := ⟨0x30B1, [(0x100, 24), (0x1, 8)], 0x06, (1, 1), 1, 0x05, false, .rk, pNSrzD, .c 0x03, false, .bits 0xFC⟩
/-- C(n)+a:01 ARR_ENABLE (04 R147). -/
def oArrEnable : Row := ⟨0x3030, [(0x100, 24), (0x10, 2)], 0x01, (1, 1), 1, 0x05, false, .rk, pNSrzD, .c 0, false, .rng 0 1⟩
/-- C(n)+a:02 ARR_MODE (04 R147). -/
def oArrMode : Row := ⟨0x3030, [(0x100, 24), (0x10, 2)], 0x02, (1, 1), 1, 0x05, false, .rk, pNSrzD, .c 0, false, .rng 0 1⟩
/-- C(n)+a:03 APERTURE (04 R147). -/
def oAperture : Row := ⟨0x3030, [(0x100, 24), (0x10, 2)], 0x03, (1, 1), 5, 0x18, false, .rk, pNSrzD, .c 0x0040000000, false, .any⟩
/-- C(n)+a:04 ARR_START (04 R147). -/
def oArrStart : Row := ⟨0x3030, [(0x100, 24), (0x10, 2)], 0x04, (1, 1), 8, 0x1B, false, .rk, pNSrzD, .c 0, false, .any⟩
/-- C(n)+a:05 INPUT_SEL (04 R147). -/
def oInputSel : Row := ⟨0x3030, [(0x100, 24), (0x10, 2)], 0x05, (1, 1), 1, 0x05, false, .rk, pNSrzD, .c 0, false, .rng 0 8⟩
/-- C(n)+a:06 RANGE (04 R147). -/
def oRange : Row := ⟨0x3030, [(0x100, 24), (0x10, 2)], 0x06, (1, 1), 1, 0x05, false, .rk, pNSrzD, .c 2, false, .rng 0 2⟩
/-- C(n)+a:07 FILTER (04 R147). -/
def oFilter : Row := ⟨0x3030, [(0x100, 24), (0x10, 2)], 0x07, (1, 1), 1, 0x05, false, .rk, pNSrzD, .c 0, false, .rng 0 2⟩
/-- C(n)+a:08 REF_SEL (04 R147). -/
def oRefSel : Row := ⟨0x3030, [(0x100, 24), (0x10, 2)], 0x08, (1, 1), 1, 0x05, false, .rk, pNSrzD, .c 0, false, .rng 0 2⟩
/-- C(n)+a:09 SCHED (04 R147). -/
def oSched : Row := ⟨0x3030, [(0x100, 24), (0x10, 2)], 0x09, (1, 1), 1, 0x05, false, .rk, pNSrzD, .c 0, false, .rng 0 1⟩
/-- C(n)+a+0x1:01 ROT_ENABLE (04 R147). -/
def oRotEnable : Row := ⟨0x3031, [(0x100, 24), (0x10, 2)], 0x01, (1, 1), 1, 0x05, false, .rk, pNSrzD, .c 1, false, .rng 0 1⟩
/-- C(n)+a+0x1:02 ROT_INTERVAL (04 R147). -/
def oRotInterval : Row := ⟨0x3031, [(0x100, 24), (0x10, 2)], 0x02, (1, 1), 4, 0x07, false, .rk, pNSrzD, .c 10000, false, .rng 100 3600000⟩
/-- C(n)+a+0x1:03 CAL_APERTURE (04 R147). -/
def oCalAperture : Row := ⟨0x3031, [(0x100, 24), (0x10, 2)], 0x03, (1, 1), 2, 0x06, false, .rk, pNSrzD, .c 100, false, .rng 1 10000⟩
/-- C(n)+a+0x1:04 STALE_LIMIT (04 R147). -/
def oStaleLimit : Row := ⟨0x3031, [(0x100, 24), (0x10, 2)], 0x04, (1, 1), 4, 0x07, false, .rk, pNSrzD, .c 120000, false, .any⟩
/-- C(n)+a+0x1:05 NBR_LIMIT (04 R147). -/
def oNbrLimit : Row := ⟨0x3031, [(0x100, 24), (0x10, 2)], 0x05, (1, 1), 5, 0x18, false, .rk, pNSrzD, .c 0x00000431BE, false, .any⟩
/-- C(n)+a+0x2:01 URGENT_REQ (04 R147). -/
def oUrgentReq : Row := ⟨0x3032, [(0x100, 24), (0x10, 2)], 0x01, (1, 1), 1, 0x05, false, .wo, pNSzzD, .c 0, false, .any⟩
/-- C(n)+a+0x2:02 URGENT_AP (04 R147). -/
def oUrgentAp : Row := ⟨0x3032, [(0x100, 24), (0x10, 2)], 0x02, (1, 1), 2, 0x06, false, .rk, pNSrzD, .c 20, false, .rng 1 10000⟩
/-- C(n)+a+0x2:03 URGENT_SRC (04 R147). -/
def oUrgentSrc : Row := ⟨0x3032, [(0x100, 24), (0x10, 2)], 0x03, (1, 1), 1, 0x05, false, .rk, pNSrzD, .c 0x07, false, .bits 0xF8⟩
/-- C(n)+a+0x2:04 URGENT_TAKE (04 R147). -/
def oUrgentTake : Row := ⟨0x3032, [(0x100, 24), (0x10, 2)], 0x04, (1, 1), 8, 0x1B, false, .ro, pNSCzD, .c 0, false, .any⟩
/-- C(n)+a+0x2:05 URGENT_POS (04 R147). -/
def oUrgentPos : Row := ⟨0x3032, [(0x100, 24), (0x10, 2)], 0x05, (1, 1), 8, 0x1B, false, .ro, pNSCzD, .c 0, false, .any⟩
/-- C(n)+a+0x2:06 URGENT_COUNT (04 R147). -/
def oUrgentCount : Row := ⟨0x3032, [(0x100, 24), (0x10, 2)], 0x06, (1, 1), 4, 0x07, false, .ro, pNSCzD, .c 0, false, .any⟩
/-- C(n)+a+0x2:07 URGENT_MERGED (04 R147). -/
def oUrgentMerged : Row := ⟨0x3032, [(0x100, 24), (0x10, 2)], 0x07, (1, 1), 4, 0x07, false, .ro, pNSCzD, .c 0, false, .any⟩
/-- C(n)+a+0x2:08 URGENT_DROPPED (04 R147). -/
def oUrgentDropped : Row := ⟨0x3032, [(0x100, 24), (0x10, 2)], 0x08, (1, 1), 4, 0x07, false, .ro, pNSCzD, .c 0, false, .any⟩
/-- C(n)+a+0x3:01 ARR_STATUS (04 R147). -/
def oArrStatus : Row := ⟨0x3033, [(0x100, 24), (0x10, 2)], 0x01, (1, 1), 4, 0x07, false, .ro, pNSCzD, .c 0x00706000, false, .any⟩
/-- C(n)+a+0x3:02 SLICE_MAP (04 R147). -/
def oSliceMap : Row := ⟨0x3033, [(0x100, 24), (0x10, 2)], 0x02, (1, 1), 4, 0x07, false, .ro, pNSCzD, .c 0x06543210, false, .any⟩
/-- C(n)+a+0x3:03 INVALID_REMAIN (04 R147). -/
def oInvalidRemain : Row := ⟨0x3033, [(0x100, 24), (0x10, 2)], 0x03, (1, 1), 2, 0x06, false, .ro, pNSCzD, .c 0, false, .any⟩
/-- C(n)+a+0x3:04 OVR_COUNT (04 R147). -/
def oOvrCount : Row := ⟨0x3033, [(0x100, 24), (0x10, 2)], 0x04, (1, 1), 4, 0x07, false, .ro, pNSCzD, .c 0, false, .any⟩
/-- C(n)+a+0x3:05 ABORT_COUNT (04 R147). -/
def oAbortCount : Row := ⟨0x3033, [(0x100, 24), (0x10, 2)], 0x05, (1, 1), 4, 0x07, false, .ro, pNSCzD, .c 0, false, .any⟩
/-- C(n)+a+0x3:06 SHORT_APERTURES (04 R147). -/
def oShortApertures : Row := ⟨0x3033, [(0x100, 24), (0x10, 2)], 0x06, (1, 1), 4, 0x07, false, .ro, pNSCzD, .c 0, false, .any⟩
/-- C(n)+a+0x3:07 ROTATIONS (04 R147). -/
def oRotations : Row := ⟨0x3033, [(0x100, 24), (0x10, 2)], 0x07, (1, 1), 4, 0x07, false, .ro, pNSCzD, .c 0, false, .any⟩
/-- C(n)+a+0x3:08 RETIREMENTS (04 R147). -/
def oRetirements : Row := ⟨0x3033, [(0x100, 24), (0x10, 2)], 0x08, (1, 1), 1, 0x05, false, .ro, pNSCzD, .c 0, false, .any⟩
/-- C(n)+a+0x3:09 COUNTER_CLEAR (04 R147). -/
def oArrCounterClear : Row := ⟨0x3033, [(0x100, 24), (0x10, 2)], 0x09, (1, 1), 1, 0x05, false, .wo, pNSzzD, .c 0, false, .bits 0xE0⟩
/-- C(n)+a+0x4+i:01 SLICE_STATE (04 R147). -/
def oSliceState : Row := ⟨0x3034, [(0x100, 24), (0x10, 2), (0x1, 7)], 0x01, (1, 1), 1, 0x05, false, .ro, pNSCzD, .c 2, false, .any⟩
/-- C(n)+a+0x4+i:02 GAIN_TRIM (04 R147). -/
def oGainTrim : Row := ⟨0x3034, [(0x100, 24), (0x10, 2), (0x1, 7)], 0x02, (1, 1), 5, 0x12, true, .ro, pNSCzD, .c 0, false, .any⟩
/-- C(n)+a+0x4+i:03 OFFSET_TRIM (04 R147). -/
def oOffsetTrim : Row := ⟨0x3034, [(0x100, 24), (0x10, 2), (0x1, 7)], 0x03, (1, 1), 5, 0x12, true, .ro, pNSCzD, .c 0, false, .any⟩
/-- C(n)+a+0x4+i:04 CAL_POS (04 R147). -/
def oCalPos : Row := ⟨0x3034, [(0x100, 24), (0x10, 2), (0x1, 7)], 0x04, (1, 1), 8, 0x1B, false, .ro, pNSCzD, .c 0, false, .any⟩
/-- C(n)+a+0x4+i:05 NBR_DIFF (04 R147). -/
def oNbrDiff : Row := ⟨0x3034, [(0x100, 24), (0x10, 2), (0x1, 7)], 0x05, (1, 1), 5, 0x12, true, .ro, pNSCzD, .c 0, false, .any⟩
/-- C(n)+a+0xB:01 TAP_NOW (04 R147). -/
def oTapNow : Row := ⟨0x303B, [(0x100, 24), (0x10, 2)], 0x01, (1, 1), 5, 0x12, true, .ro, pNSCzD, .c 0, false, .any⟩
/-- C(n)+a+0xB:02 TAP_STATUS (04 R147). -/
def oTapStatus : Row := ⟨0x303B, [(0x100, 24), (0x10, 2)], 0x02, (1, 1), 1, 0x05, false, .ro, pNSCzD, .c 0x01, false, .any⟩
/-- C(n)+0x50:01 VM_LATEST (05 R177). -/
def oVmLatest : Row := ⟨0x3050, [(0x100, 24)], 0x01, (1, 1), 8, 0x1B, false, .ro, pNSCzD, .c 0, false, .any⟩
/-- C(n)+0x50:02 IM_LATEST (05 R177). -/
def oImLatest : Row := ⟨0x3050, [(0x100, 24)], 0x02, (1, 1), 8, 0x1B, false, .ro, pNSCzD, .c 0, false, .any⟩
/-- C(n)+0x50:03 VM_LATEST_POS (05 R177). -/
def oVmLatestPos : Row := ⟨0x3050, [(0x100, 24)], 0x03, (1, 1), 8, 0x1B, false, .ro, pNSCzD, .c 0, false, .any⟩
/-- C(n)+0x50:04 IM_LATEST_POS (05 R177). -/
def oImLatestPos : Row := ⟨0x3050, [(0x100, 24)], 0x04, (1, 1), 8, 0x1B, false, .ro, pNSCzD, .c 0, false, .any⟩
/-- C(n)+0x50:05 UNCORRECTED (05 R177). -/
def oUncorrected : Row := ⟨0x3050, [(0x100, 24)], 0x05, (1, 1), 4, 0x07, false, .ro, pNSCzD, .c 0, false, .any⟩
/-- C(n)+0x50:06 ECC_CORRECTED (05 R177). -/
def oEccCorrected : Row := ⟨0x3050, [(0x100, 24)], 0x06, (1, 1), 4, 0x07, false, .ro, pNSCzD, .c 0, false, .any⟩
/-- C(n)+0x50:07 ECC_DROPS (05 R177). -/
def oEccDrops : Row := ⟨0x3050, [(0x100, 24)], 0x07, (1, 1), 4, 0x07, false, .ro, pNSCzD, .c 0, false, .any⟩
/-- C(n)+0x50:08 COUNTER_CLEAR (05 R177). -/
def oTakeCounterClear : Row := ⟨0x3050, [(0x100, 24)], 0x08, (1, 1), 1, 0x05, false, .wo, pNSzzD, .c 0, false, .bits 0xF0⟩
/-- C(n)+0x51:01 QUEUE_CONFIG (05 R177). -/
def oQueueConfig : Row := ⟨0x3051, [(0x100, 24)], 0x01, (1, 1), 0, 0x0F, false, .rk, pNSrzD, .c 0, false, .any⟩
/-- C(n)+0x52:01 QUEUE_STATUS (05 R177). -/
def oQueueStatus : Row := ⟨0x3052, [(0x100, 24)], 0x01, (1, 1), 0, 0x0F, false, .ro, pNSCzD, .c 0, false, .any⟩
/-- C(n)+0x52:02 POOL_FREE (05 R177). -/
def oPoolFree : Row := ⟨0x3052, [(0x100, 24)], 0x02, (1, 1), 4, 0x07, false, .ro, pNSCzD, .c 245760, false, .any⟩
/-- C(n)+0x53:01 QUEUE_SEL (05 R177). -/
def oQueueSel : Row := ⟨0x3053, [(0x100, 24)], 0x01, (1, 1), 2, 0x06, false, .rw, pNSzzD, .c 1, true, .rng 1 511⟩
/-- C(n)+0x53:02 QUEUE_DRAIN (05 R177). -/
def oQueueDrain : Row := ⟨0x3053, [(0x100, 24)], 0x02, (1, 1), 0, 0x0F, false, .ro, pNSzzD, .c 0, false, .any⟩
/-- C(n)+0x53:03 QUEUE_FLUSH (05 R177). -/
def oQueueFlush : Row := ⟨0x3053, [(0x100, 24)], 0x03, (1, 1), 2, 0x06, false, .wo, pNSzzD, .c 0, false, .any⟩
/-- C(n)+0x54:01 CRR_SEL (05 R177). -/
def oCrrSel : Row := ⟨0x3054, [(0x100, 24)], 0x01, (1, 1), 4, 0x07, false, .rw, pNSCzD, .c 0x00010000, true, .any⟩
/-- C(n)+0x54:02 CRR_WINDOW (05 R177). -/
def oCrrWindow : Row := ⟨0x3054, [(0x100, 24)], 0x02, (1, 1), 0, 0x0F, false, .ro, pNSCzD, .c 0, false, .any⟩
/-- C(n)+0x55:01–08 HEAD_MAP_k (05 R177). -/
def oHeadMap : Row := ⟨0x3055, [(0x100, 24)], 0x01, (1, 8), 2, 0x06, false, .rk, pNSrzD, .c 0xFFFF, false, .any⟩
/-- 0x5000 + 0x10 × n:04 COURSE_RESULTS (05 R177). -/
def oCourseResults : Row := ⟨0x5000, [(0x10, 24)], 0x04, (1, 1), 0, 0x0F, false, .ro, pNSCzD, .c 0, false, .any⟩
/-- 0x2040:01 CTRL_QUEUE_CONFIG (05 R177). -/
def oCtrlQueueConfig : Row := ⟨0x2040, [], 0x01, (1, 1), 0, 0x0F, false, .rk, pNSrzD, .c 0, false, .any⟩
/-- 0x2040:02 CTRL_QUEUE_STATUS (05 R177). -/
def oCtrlQueueStatus : Row := ⟨0x2040, [], 0x02, (1, 1), 0, 0x0F, false, .ro, pNSCzD, .c 0, false, .any⟩
/-- 0x2040:03 CTRL_QUEUE_SEL (05 R177). -/
def oCtrlQueueSel : Row := ⟨0x2040, [], 0x03, (1, 1), 2, 0x06, false, .rw, pNSzzD, .c 0, true, .rng 0 4095⟩
/-- 0x2040:04 CTRL_QUEUE_DRAIN (05 R177). -/
def oCtrlQueueDrain : Row := ⟨0x2040, [], 0x04, (1, 1), 0, 0x0F, false, .ro, pNSzzD, .c 0, false, .any⟩
/-- 0x2040:05 CTRL_POOL_FREE (05 R177). -/
def oCtrlPoolFree : Row := ⟨0x2040, [], 0x05, (1, 1), 4, 0x07, false, .ro, pNSCzD, .c 131072, false, .any⟩
/-- C(n)+0xD0+p:01 PE_FUNC (05 R177). -/
def oPeFunc : Row := ⟨0x30D0, [(0x100, 24), (0x1, 2)], 0x01, (1, 1), 1, 0x05, false, .rk, pNSrzD, .c 0, false, .rng 0 5⟩
/-- C(n)+0xD0+p:02 INPUT (05 R177). -/
def oInput : Row := ⟨0x30D0, [(0x100, 24), (0x1, 2)], 0x02, (1, 1), 1, 0x05, false, .rk, pNSrzD, .c 0, false, .rng 0 2⟩
/-- C(n)+0xD0+p:03 BLOCK (05 R177). -/
def oBlock : Row := ⟨0x30D0, [(0x100, 24), (0x1, 2)], 0x03, (1, 1), 4, 0x07, false, .rk, pNSrzD, .c 100, false, .rng 1 16777215⟩
/-- C(n)+0xD0+p:04 OCTAVES (05 R177). -/
def oOctaves : Row := ⟨0x30D0, [(0x100, 24), (0x1, 2)], 0x04, (1, 1), 1, 0x05, false, .rk, pNSrzD, .c 6, false, .rng 1 16⟩
/-- C(n)+0xD0+p:05 TAG_EXCLUDE (05 R177). -/
def oTagExclude : Row := ⟨0x30D0, [(0x100, 24), (0x1, 2)], 0x05, (1, 1), 1, 0x05, false, .rk, pNSrzD, .c 0, false, .bits 0xF8⟩
/-- C(n)+0xD0+p:06 COURSE_SYNC (05 R177). -/
def oCourseSync : Row := ⟨0x30D0, [(0x100, 24), (0x1, 2)], 0x06, (1, 1), 1, 0x05, false, .rk, pNSrzD, .c 0, false, .bits 0xFE⟩
/-- C(n)+0xD0+p:07 PE_RESTART (05 R177). -/
def oPeRestart : Row := ⟨0x30D0, [(0x100, 24), (0x1, 2)], 0x07, (1, 1), 1, 0x05, false, .wo, pNSzzD, .c 0, false, .any⟩
/-- C(n)+0xD0+p:08 PE_STATUS (05 R177). -/
def oPeStatus : Row := ⟨0x30D0, [(0x100, 24), (0x1, 2)], 0x08, (1, 1), 4, 0x07, false, .ro, pNSCzD, .c 0, false, .any⟩
/-- C(n)+0xD0+p:09 RESULTS (05 R177). -/
def oResults : Row := ⟨0x30D0, [(0x100, 24), (0x1, 2)], 0x09, (1, 1), 4, 0x07, false, .ro, pNSCzD, .c 0, false, .any⟩
/-- C(n)+0xD0+p:0A PARTIAL_DISCARDS (05 R177). -/
def oPartialDiscards : Row := ⟨0x30D0, [(0x100, 24), (0x1, 2)], 0x0A, (1, 1), 4, 0x07, false, .ro, pNSCzD, .c 0, false, .any⟩
/-- C(n)+0xD0+p:0B PE_LAST (05 R177). -/
def oPeLast : Row := ⟨0x30D0, [(0x100, 24), (0x1, 2)], 0x0B, (1, 1), 0, 0x0F, false, .ro, pNSCzD, .c 0, false, .any⟩
/-- 0x6000+0x10n:01 VM_TAKE (05 R177). -/
def oVmTake : Row := ⟨0x6000, [(0x10, 24)], 0x01, (1, 1), 8, 0x1B, false, .ro, pNSCzD, .c 0, false, .any⟩
/-- 0x6000+0x10n:02 IM_TAKE (05 R177). -/
def oImTake : Row := ⟨0x6000, [(0x10, 24)], 0x02, (1, 1), 8, 0x1B, false, .ro, pNSCzD, .c 0, false, .any⟩
/-- 0x6000+0x10n:03 VM_POS (05 R177). -/
def oVmPos : Row := ⟨0x6000, [(0x10, 24)], 0x03, (1, 1), 8, 0x1B, false, .ro, pNSCzD, .c 0, false, .any⟩
/-- 0x6000+0x10n:04 IM_POS (05 R177). -/
def oImPos : Row := ⟨0x6000, [(0x10, 24)], 0x04, (1, 1), 8, 0x1B, false, .ro, pNSCzD, .c 0, false, .any⟩
/-- 0x6000+0x10n:05–0C HEAD_k (05 R177). -/
def oHead : Row := ⟨0x6000, [(0x10, 24)], 0x05, (1, 8), 8, 0x1B, false, .ro, pNSCzD, .c 0, false, .any⟩
/-- 0x6000+0x10n:0D HEAD_VALID (05 R177). -/
def oHeadValid : Row := ⟨0x6000, [(0x10, 24)], 0x0D, (1, 1), 1, 0x05, false, .ro, pNSCzD, .c 0, false, .any⟩
/-- C(n)+0x60:01 LOOP_MODE (06 R211). -/
def oLoopMode : Row := ⟨0x3060, [(0x100, 24)], 0x01, (1, 1), 1, 0x05, false, .rk, pNSrzD, .c 0x02, false, .bits 0xFC⟩
/-- C(n)+0x60:02 LOOP_RATE (06 R211). -/
def oLoopRate : Row := ⟨0x3060, [(0x100, 24)], 0x02, (1, 1), 1, 0x05, false, .rk, pNSrzD, .c 0, false, .rng 0 8⟩
/-- C(n)+0x60:03 COEF_ACTIVE (06 R211). -/
def oCoefActive : Row := ⟨0x3060, [(0x100, 24)], 0x03, (1, 1), 1, 0x05, false, .rk, pNSrzD, .c 0, false, .rng 0 3⟩
/-- C(n)+0x60:04 COEF_SWITCH (06 R211). -/
def oCoefSwitch : Row := ⟨0x3060, [(0x100, 24)], 0x04, (1, 1), 1, 0x05, false, .rk, pNSrzD, .c 1, false, .rng 0 1⟩
/-- C(n)+0x60:05 LOOP_SP (06 R211). -/
def oLoopSp : Row := ⟨0x3060, [(0x100, 24)], 0x05, (1, 1), 5, 0x12, true, .rw, pNSzzD, .c 0, false, .any⟩
/-- C(n)+0x60:06 LOOP_SP_STAGED (06 R211). -/
def oLoopSpStaged : Row := ⟨0x3060, [(0x100, 24)], 0x06, (1, 1), 5, 0x12, true, .rk, pNSrzD, .c 0, false, .any⟩
/-- C(n)+0x60:07 SP_ORIGIN (06 R211). -/
def oSpOrigin : Row := ⟨0x3060, [(0x100, 24)], 0x07, (1, 1), 1, 0x05, false, .rk, pNSrzD, .c 0, false, .rng 0 3⟩
/-- C(n)+0x60:08 LIM_HI (06 R211). -/
def oLimHi : Row := ⟨0x3060, [(0x100, 24)], 0x08, (1, 1), 5, 0x12, true, .rk, pNSrzD, .c 0x0666666666, false, .any⟩
/-- C(n)+0x60:09 LIM_LO (06 R211). -/
def oLimLo : Row := ⟨0x3060, [(0x100, 24)], 0x09, (1, 1), 5, 0x12, true, .rk, pNSrzD, .c 0xF99999999A, false, .any⟩
/-- C(n)+0x60:0A XOVER_COUNT (06 R211). -/
def oXoverCount : Row := ⟨0x3060, [(0x100, 24)], 0x0A, (1, 1), 1, 0x05, false, .rk, pNSrzD, .c 2, false, .rng 1 16⟩
/-- C(n)+0x60:0B SAFE_CODE (06 R211). -/
def oSafeCode : Row := ⟨0x3060, [(0x100, 24)], 0x0B, (1, 1), 5, 0x12, true, .rk, pNSrzD, .c 0, false, .any⟩
/-- C(n)+0x60:0C SAFE_HOLD_US (06 R211). -/
def oSafeHoldUs : Row := ⟨0x3060, [(0x100, 24)], 0x0C, (1, 1), 4, 0x07, false, .rk, pNSrzD, .c 1000, false, .rng 0 1000000⟩
/-- C(n)+0x60:0D FROZEN_PERIODS (06 R211). -/
def oFrozenPeriods : Row := ⟨0x3060, [(0x100, 24)], 0x0D, (1, 1), 2, 0x06, false, .rk, pNSrzD, .c 256, false, .rng 16 65535⟩
/-- C(n)+0x60:0E FROZEN_MOVE (06 R211). -/
def oFrozenMove : Row := ⟨0x3060, [(0x100, 24)], 0x0E, (1, 1), 5, 0x18, false, .rk, pNSrzD, .c 0x0040000000, false, .any⟩
/-- C(n)+0x60:0F COAST_MAX (06 R211). -/
def oCoastMax : Row := ⟨0x3060, [(0x100, 24)], 0x0F, (1, 1), 2, 0x06, false, .rk, pNSrzD, .c 1024, false, .rng 1 65535⟩
/-- C(n)+0x60:10 LE_URGENT (06 R211). -/
def oLeUrgent : Row := ⟨0x3060, [(0x100, 24)], 0x10, (1, 1), 1, 0x05, false, .rk, pNSrzD, .c 0, false, .bits 0xFC⟩
/-- C(n)+0x60:11 SAFE_SLATE (06 R211). -/
def oSafeSlate : Row := ⟨0x3060, [(0x100, 24)], 0x11, (1, 1), 1, 0x05, false, .rk, pNSrzD, .c 0, false, .bits 0xFE⟩
/-- C(n)+0x60:12 XOVER_RELEASE (06 R211). -/
def oXoverRelease : Row := ⟨0x3060, [(0x100, 24)], 0x12, (1, 1), 1, 0x05, false, .wo, pNSzzD, .c 0, false, .any⟩
/-- C(n)+0x61:01 LOOP_STATUS (06 R211). -/
def oLoopStatus : Row := ⟨0x3061, [(0x100, 24)], 0x01, (1, 1), 4, 0x07, false, .ro, pNSCzD, .c 0x00000000, false, .any⟩
/-- C(n)+0x61:02 LOOP_FAULT (06 R211). -/
def oLoopFault : Row := ⟨0x3061, [(0x100, 24)], 0x02, (1, 1), 1, 0x05, false, .w1c, pNSrzD, .c 0, false, .any⟩
/-- C(n)+0x61:03 LOOP_OUT (06 R211). -/
def oLoopOut : Row := ⟨0x3061, [(0x100, 24)], 0x03, (1, 1), 5, 0x12, true, .ro, pNSCzD, .c 0, false, .any⟩
/-- C(n)+0x61:04 LOOP_ERR (06 R211). -/
def oLoopErr : Row := ⟨0x3061, [(0x100, 24)], 0x04, (1, 1), 5, 0x12, true, .ro, pNSCzD, .c 0, false, .any⟩
/-- C(n)+0x61:05 OVERRUNS (06 R211). -/
def oOverruns : Row := ⟨0x3061, [(0x100, 24)], 0x05, (1, 1), 4, 0x07, false, .ro, pNSCzD, .c 0, false, .any⟩
/-- C(n)+0x61:06 CONSEC_OVERRUNS (06 R211). -/
def oConsecOverruns : Row := ⟨0x3061, [(0x100, 24)], 0x06, (1, 1), 1, 0x05, false, .ro, pNSCzD, .c 0, false, .any⟩
/-- C(n)+0x61:07 WORST_TICKS (06 R211). -/
def oWorstTicks : Row := ⟨0x3061, [(0x100, 24)], 0x07, (1, 1), 2, 0x06, false, .ro, pNSCzD, .c 0, false, .any⟩
/-- C(n)+0x61:08 ADMITTED_TICKS (06 R211). -/
def oAdmittedTicks : Row := ⟨0x3061, [(0x100, 24)], 0x08, (1, 1), 2, 0x06, false, .ro, pNSCzD, .c 60, false, .any⟩
/-- C(n)+0x61:09 XOVERS (06 R211). -/
def oXovers : Row := ⟨0x3061, [(0x100, 24)], 0x09, (1, 1), 4, 0x07, false, .ro, pNSCzD, .c 0, false, .any⟩
/-- C(n)+0x61:0A COAST_PERIODS (06 R211). -/
def oCoastPeriods : Row := ⟨0x3061, [(0x100, 24)], 0x0A, (1, 1), 4, 0x07, false, .ro, pNSCzD, .c 0, false, .any⟩
/-- C(n)+0x61:0B ECC_RETRIES (06 R211). -/
def oEccRetries : Row := ⟨0x3061, [(0x100, 24)], 0x0B, (1, 1), 4, 0x07, false, .ro, pNSCzD, .c 0, false, .any⟩
/-- C(n)+0x61:0C FAULT_POS (06 R211). -/
def oFaultPos : Row := ⟨0x3061, [(0x100, 24)], 0x0C, (1, 1), 8, 0x1B, false, .ro, pNSCzD, .c 0, false, .any⟩
/-- C(n)+0x61:0D COUNTER_CLEAR (06 R211). -/
def oLoopCounterClear : Row := ⟨0x3061, [(0x100, 24)], 0x0D, (1, 1), 1, 0x05, false, .wo, pNSzzD, .c 0, false, .bits 0xE0⟩
/-- C(n)+0x70+s:01 KP (06 R211). -/
def oKp : Row := ⟨0x3070, [(0x100, 24), (0x1, 4)], 0x01, (1, 1), 5, 0x12, true, .rk, pNSrzD, .c 0, false, .any⟩
/-- C(n)+0x70+s:02 KI (06 R211). -/
def oKi : Row := ⟨0x3070, [(0x100, 24), (0x1, 4)], 0x02, (1, 1), 5, 0x12, true, .rk, pNSrzD, .c 0, false, .any⟩
/-- C(n)+0x70+s:03 KD (06 R211). -/
def oKd : Row := ⟨0x3070, [(0x100, 24), (0x1, 4)], 0x03, (1, 1), 5, 0x12, true, .rk, pNSrzD, .c 0, false, .any⟩
/-- C(n)+0x70+s:04 PID_SHIFT (06 R211). -/
def oPidShift : Row := ⟨0x3070, [(0x100, 24), (0x1, 4)], 0x04, (1, 1), 1, 0x05, false, .rk, pNSrzD, .c 0, false, .rng 0 16⟩
/-- C(n)+0x70+s:05 KP_L (06 R211). -/
def oKpL : Row := ⟨0x3070, [(0x100, 24), (0x1, 4)], 0x05, (1, 1), 5, 0x12, true, .rk, pNSrzD, .c 0, false, .any⟩
/-- C(n)+0x70+s:06 KI_L (06 R211). -/
def oKiL : Row := ⟨0x3070, [(0x100, 24), (0x1, 4)], 0x06, (1, 1), 5, 0x12, true, .rk, pNSrzD, .c 0, false, .any⟩
/-- C(n)+0x70+s:07 KD_L (06 R211). -/
def oKdL : Row := ⟨0x3070, [(0x100, 24), (0x1, 4)], 0x07, (1, 1), 5, 0x12, true, .rk, pNSrzD, .c 0, false, .any⟩
/-- C(n)+0x70+s:08 PID_SHIFT_L (06 R211). -/
def oPidShiftL : Row := ⟨0x3070, [(0x100, 24), (0x1, 4)], 0x08, (1, 1), 1, 0x05, false, .rk, pNSrzD, .c 0, false, .rng 0 16⟩
/-- C(n)+0x70+s:09 BQ_COUNT (06 R211). -/
def oBqCount : Row := ⟨0x3070, [(0x100, 24), (0x1, 4)], 0x09, (1, 1), 1, 0x05, false, .rk, pNSrzD, .c 0, false, .rng 0 6⟩
/-- C(n)+0x70+s:0A U_MAX (06 R211). -/
def oUMax : Row := ⟨0x3070, [(0x100, 24), (0x1, 4)], 0x0A, (1, 1), 5, 0x12, true, .rk, pNSrzD, .c 0x4000000000, false, .any⟩
/-- C(n)+0x70+s:0B U_MIN (06 R211). -/
def oUMin : Row := ⟨0x3070, [(0x100, 24), (0x1, 4)], 0x0B, (1, 1), 5, 0x12, true, .rk, pNSrzD, .c 0xC000000000, false, .any⟩
/-- C(n)+0x70+s:0C SLEW_MAX (06 R211). -/
def oSlewMax : Row := ⟨0x3070, [(0x100, 24), (0x1, 4)], 0x0C, (1, 1), 5, 0x18, false, .rk, pNSrzD, .c 0x000346DC5D, false, .rng 1 1099511627775⟩
/-- C(n)+0x70+s:0D FF0 (06 R211). -/
def oFf0 : Row := ⟨0x3070, [(0x100, 24), (0x1, 4)], 0x0D, (1, 1), 5, 0x12, true, .rk, pNSrzD, .c 0, false, .any⟩
/-- C(n)+0x70+s:0E FF1 (06 R211). -/
def oFf1 : Row := ⟨0x3070, [(0x100, 24), (0x1, 4)], 0x0E, (1, 1), 5, 0x12, true, .rk, pNSrzD, .c 0, false, .any⟩
/-- C(n)+0x70+s:0F FF_SHIFT (06 R211). -/
def oFfShift : Row := ⟨0x3070, [(0x100, 24), (0x1, 4)], 0x0F, (1, 1), 1, 0x05, false, .rk, pNSrzD, .c 0, false, .rng 0 8⟩
/-- C(n)+0x70+s:10+8j BQ_B0 (06 R211). -/
def oBqB0 : Row := ⟨0x3070, [(0x100, 24), (0x1, 4)], 0x10, (8, 6), 5, 0x12, true, .rk, pNSrzD, .c 0x4000000000, false, .any⟩
/-- C(n)+0x70+s:11+8j BQ_B1 (06 R211). -/
def oBqB1 : Row := ⟨0x3070, [(0x100, 24), (0x1, 4)], 0x11, (8, 6), 5, 0x12, true, .rk, pNSrzD, .c 0, false, .any⟩
/-- C(n)+0x70+s:12+8j BQ_B2 (06 R211). -/
def oBqB2 : Row := ⟨0x3070, [(0x100, 24), (0x1, 4)], 0x12, (8, 6), 5, 0x12, true, .rk, pNSrzD, .c 0, false, .any⟩
/-- C(n)+0x70+s:13+8j BQ_A1 (06 R211). -/
def oBqA1 : Row := ⟨0x3070, [(0x100, 24), (0x1, 4)], 0x13, (8, 6), 5, 0x12, true, .rk, pNSrzD, .c 0, false, .any⟩
/-- C(n)+0x70+s:14+8j BQ_A2 (06 R211). -/
def oBqA2 : Row := ⟨0x3070, [(0x100, 24), (0x1, 4)], 0x14, (8, 6), 5, 0x12, true, .rk, pNSrzD, .c 0, false, .any⟩
/-- C(n)+0x70+s:15+8j BQ_SHIFT (06 R211). -/
def oBqShift : Row := ⟨0x3070, [(0x100, 24), (0x1, 4)], 0x15, (8, 6), 1, 0x05, false, .rk, pNSrzD, .c 1, false, .rng 0 2⟩
/-- C(n)+0x80:01 SEQ_CMD (07 R245). -/
def oSeqCmd : Row := ⟨0x3080, [(0x100, 24)], 0x01, (1, 1), 1, 0x05, false, .rk, pNSrzD, .c 0, false, .rng 1 4⟩
/-- C(n)+0x80:02 START_BANK (07 R245). -/
def oStartBank : Row := ⟨0x3080, [(0x100, 24)], 0x02, (1, 1), 1, 0x05, false, .rk, pNSrzD, .c 0, false, .rng 0 1⟩
/-- C(n)+0x80:03 SEQ_STATUS (07 R245). -/
def oSeqStatus : Row := ⟨0x3080, [(0x100, 24)], 0x03, (1, 1), 4, 0x07, false, .ro, pNSCzD, .c 0, false, .any⟩
/-- C(n)+0x80:04 CUR_COURSE (07 R245). -/
def oCurCourse : Row := ⟨0x3080, [(0x100, 24)], 0x04, (1, 1), 2, 0x06, false, .ro, pNSCzD, .c 0, false, .any⟩
/-- C(n)+0x80:05 CUR_SEGMENT (07 R245). -/
def oCurSegment : Row := ⟨0x3080, [(0x100, 24)], 0x05, (1, 1), 4, 0x07, false, .ro, pNSCzD, .c 0, false, .any⟩
/-- C(n)+0x80:06 CUT_REQ (07 R245). -/
def oCutReq : Row := ⟨0x3080, [(0x100, 24)], 0x06, (1, 1), 2, 0x06, false, .wo, pNSzzD, .c 0, false, .bits 0x6000⟩
/-- C(n)+0x80:07 CUT_SRC (07 R245). -/
def oCutSrc : Row := ⟨0x3080, [(0x100, 24)], 0x07, (1, 1), 4, 0x07, false, .rk, pNSrzD, .c 0x00000010, false, .any⟩
/-- C(n)+0x80:08 CUT_LAST_POS (07 R245). -/
def oCutLastPos : Row := ⟨0x3080, [(0x100, 24)], 0x08, (1, 1), 8, 0x1B, false, .ro, pNSCzD, .c 0, false, .any⟩
/-- C(n)+0x80:09 CUT_LAST (07 R245). -/
def oCutLast : Row := ⟨0x3080, [(0x100, 24)], 0x09, (1, 1), 2, 0x06, false, .ro, pNSCzD, .c 0, false, .any⟩
/-- C(n)+0x80:0A CUTS (07 R245). -/
def oCuts : Row := ⟨0x3080, [(0x100, 24)], 0x0A, (1, 1), 4, 0x07, false, .ro, pNSCzD, .c 0, false, .any⟩
/-- C(n)+0x80:0B CUTS_MERGED (07 R245). -/
def oCutsMerged : Row := ⟨0x3080, [(0x100, 24)], 0x0B, (1, 1), 4, 0x07, false, .ro, pNSCzD, .c 0, false, .any⟩
/-- C(n)+0x80:0C CUTS_DROPPED (07 R245). -/
def oCutsDropped : Row := ⟨0x3080, [(0x100, 24)], 0x0C, (1, 1), 4, 0x07, false, .ro, pNSCzD, .c 0, false, .any⟩
/-- C(n)+0x80:0D BANK_LATES (07 R245). -/
def oBankLates : Row := ⟨0x3080, [(0x100, 24)], 0x0D, (1, 1), 4, 0x07, false, .ro, pNSCzD, .c 0, false, .any⟩
/-- C(n)+0x80:0E BANK_LATE (07 R245). -/
def oBankLate : Row := ⟨0x3080, [(0x100, 24)], 0x0E, (1, 1), 1, 0x05, false, .w1c, pNSrzD, .c 0, false, .bits 0xFE⟩
/-- C(n)+0x80:0F SEQ_GROUPS (07 R245). -/
def oSeqGroups : Row := ⟨0x3080, [(0x100, 24)], 0x0F, (1, 1), 1, 0x05, false, .rk, pNSrzD, .c 0, false, .any⟩
/-- C(n)+0x80:10 TRIG_FILTER (07 R245). -/
def oTrigFilter : Row := ⟨0x3080, [(0x100, 24)], 0x10, (1, 1), 1, 0x05, false, .rk, pNSrzD, .c 4, false, .rng 1 255⟩
/-- C(n)+0x80:11 HOLD_POS (07 R245). -/
def oHoldPos : Row := ⟨0x3080, [(0x100, 24)], 0x11, (1, 1), 8, 0x1B, false, .ro, pNSCzD, .c 0, false, .any⟩
/-- C(n)+0x80:12 COUNTER_CLEAR (07 R245). -/
def oSeqCounterClear : Row := ⟨0x3080, [(0x100, 24)], 0x12, (1, 1), 1, 0x05, false, .wo, pNSzzD, .c 0, false, .bits 0xF0⟩
/-- C(n)+0x81+b:01 BANK_END (07 R245). -/
def oBankEnd : Row := ⟨0x3081, [(0x100, 24), (0x1, 2)], 0x01, (1, 1), 2, 0x06, false, .rw, pNSrzD, .c 0, false, .rng 0 8191⟩
/-- C(n)+0x81+b:02 LOOP_START (07 R245). -/
def oLoopStart : Row := ⟨0x3081, [(0x100, 24), (0x1, 2)], 0x02, (1, 1), 2, 0x06, false, .rw, pNSrzD, .c 0, false, .rng 0 8191⟩
/-- C(n)+0x81+b:03 BANK_FLAGS (07 R245). -/
def oBankFlags : Row := ⟨0x3081, [(0x100, 24), (0x1, 2)], 0x03, (1, 1), 1, 0x05, false, .rw, pNSrzD, .c 0, false, .bits 0xFC⟩
/-- C(n)+0x81+b:04 BANK_READY (07 R245). -/
def oBankReady : Row := ⟨0x3081, [(0x100, 24), (0x1, 2)], 0x04, (1, 1), 1, 0x05, false, .rk, pNSrzD, .c 0, false, .rng 0 1⟩
/-- C(n)+0x83:01 PATCH_TARGET (07 R245). -/
def oPatchTarget : Row := ⟨0x3083, [(0x100, 24)], 0x01, (1, 1), 2, 0x06, false, .rk, pNSrzD, .c 0, false, .bits 0xC000⟩
/-- C(n)+0x83:02 PATCH_DATA (07 R245). -/
def oPatchData : Row := ⟨0x3083, [(0x100, 24)], 0x02, (1, 1), 0, 0x0F, false, .rk, pNSrzD, .c 0, false, .any⟩
/-- C(n)+0x83:03 PATCHES (07 R245). -/
def oPatches : Row := ⟨0x3083, [(0x100, 24)], 0x03, (1, 1), 4, 0x07, false, .ro, pNSCzD, .c 0, false, .any⟩
/-- C(n)+0x90:01–08 VEC_MAP_i, (07 R245). -/
def oVecMap : Row := ⟨0x3090, [(0x100, 24)], 0x01, (1, 8), 1, 0x05, false, .rk, pNSrzD, .c 0xFF, false, .vals (0xFF :: (List.range 32).map Int.ofNat)⟩
/-- C(n)+0x91:01 VEC_CMP_DELAY (07 R245). -/
def oVecCmpDelay : Row := ⟨0x3091, [(0x100, 24)], 0x01, (1, 1), 2, 0x06, false, .rk, pNSrzD, .c 10, false, .any⟩
/-- C(n)+0x91:02 VEC_DEGLITCH (07 R245). -/
def oVecDeglitch : Row := ⟨0x3091, [(0x100, 24)], 0x02, (1, 1), 1, 0x05, false, .rk, pNSrzD, .c 25, false, .rng 1 255⟩
/-- C(n)+0x91:03 VEC_OFFSET (07 R245). -/
def oVecOffset : Row := ⟨0x3091, [(0x100, 24)], 0x03, (1, 1), 2, 0x03, true, .rk, pNSrzD, .c 0, false, .any⟩
/-- C(n)+0x91:04 VEC_LEVELS (07 R245). -/
def oVecLevels : Row := ⟨0x3091, [(0x100, 24)], 0x04, (1, 1), 2, 0x06, false, .ro, pNSCzD, .c 0, false, .any⟩
/-- C(n)+0x91:05 VEC_FAIL (07 R245). -/
def oVecFail : Row := ⟨0x3091, [(0x100, 24)], 0x05, (1, 1), 1, 0x05, false, .w1c, pNSrzD, .c 0, false, .any⟩
/-- C(n)+0x91:06 VEC_FAILS (07 R245). -/
def oVecFails : Row := ⟨0x3091, [(0x100, 24)], 0x06, (1, 1), 4, 0x07, false, .ro, pNSCzD, .c 0, false, .any⟩
/-- C(n)+0x91:07 VEC_FAIL_POS (07 R245). -/
def oVecFailPos : Row := ⟨0x3091, [(0x100, 24)], 0x07, (1, 1), 8, 0x1B, false, .ro, pNSCzD, .c 0, false, .any⟩
/-- C(n)+0x92:01 MARK_WIDTH (07 R245). -/
def oMarkWidth : Row := ⟨0x3092, [(0x100, 24)], 0x01, (1, 1), 2, 0x06, false, .rk, pNSrzD, .c 246, false, .rng 1 65535⟩
/-- C(n)+0x92:02 MARK_OFFSET_A (07 R245). -/
def oMarkOffsetA : Row := ⟨0x3092, [(0x100, 24)], 0x02, (1, 1), 2, 0x03, true, .rk, pNSrzD, .c 0, false, .any⟩
/-- C(n)+0x92:03 MARK_OFFSET_B (07 R245). -/
def oMarkOffsetB : Row := ⟨0x3092, [(0x100, 24)], 0x03, (1, 1), 2, 0x03, true, .rk, pNSrzD, .c 0, false, .any⟩
/-- C(n)+0x92:04 MARK_LEVELS (07 R245). -/
def oMarkLevels : Row := ⟨0x3092, [(0x100, 24)], 0x04, (1, 1), 1, 0x05, false, .ro, pNSCzD, .c 0, false, .any⟩
/-- 0x5000 + 0x10 × n:00 BANK_A (07 R245). -/
def oBankA : Row := ⟨0x5000, [(0x10, 24)], 0x00, (1, 1), 0, 0x0F, false, .rw, pNSrzD, .c 0, false, .any⟩
/-- 0x5000 + 0x10 × n:01 BANK_B (07 R245). -/
def oBankB : Row := ⟨0x5000, [(0x10, 24)], 0x01, (1, 1), 0, 0x0F, false, .rw, pNSrzD, .c 0, false, .any⟩
/-- 0x5000 + 0x10 × n:02 BANK_STATE (07 R245). -/
def oBankState : Row := ⟨0x5000, [(0x10, 24)], 0x02, (1, 1), 0, 0x0F, false, .ro, pNSCzD, .c 0, false, .any⟩
/-- 0x5000 + 0x10 × n:03 MCFG_TABLE (07 R245). -/
def oMcfgTable : Row := ⟨0x5000, [(0x10, 24)], 0x03, (1, 1), 0, 0x0F, false, .rw, pNSrzD, .c 0, false, .any⟩
/-- 0x2112:01 CHAIN_CUT (07 R245). -/
def oChainCut : Row := ⟨0x2112, [], 0x01, (1, 1), 2, 0x06, false, .wo, pNSzzD, .c 0, false, .bits 0xF000⟩
/-- 0x2112:02 CHAIN_CUT_RX (07 R245). -/
def oChainCutRx : Row := ⟨0x2112, [], 0x02, (1, 1), 2, 0x06, false, .ro, pNSCzD, .c 0, false, .any⟩
/-- C(n)+0xA0+m:01 MON_MODE (08 R266). -/
def oMonMode : Row := ⟨0x30A0, [(0x100, 24), (0x1, 4)], 0x01, (1, 1), 1, 0x05, false, .rk, pNSrzD, .c 0, false, .rng 0 3⟩
/-- C(n)+0xA0+m:02 TH_HI (08 R266). -/
def oThHi : Row := ⟨0x30A0, [(0x100, 24), (0x1, 4)], 0x02, (1, 1), 2, 0x06, false, .rk, pNSrzD, .c 4095, false, .rng 0 4095⟩
/-- C(n)+0xA0+m:03 TH_LO (08 R266). -/
def oThLo : Row := ⟨0x30A0, [(0x100, 24), (0x1, 4)], 0x03, (1, 1), 2, 0x06, false, .rk, pNSrzD, .c 0, false, .rng 0 4095⟩
/-- C(n)+0xA0+m:04 HYST (08 R266). -/
def oHyst : Row := ⟨0x30A0, [(0x100, 24), (0x1, 4)], 0x04, (1, 1), 1, 0x05, false, .rk, pNSrzD, .c 4, false, .rng 0 63⟩
/-- C(n)+0xA0+m:05 TRIP_COND (08 R266). -/
def oTripCond : Row := ⟨0x30A0, [(0x100, 24), (0x1, 4)], 0x05, (1, 1), 1, 0x05, false, .rk, pNSrzD, .c 0, false, .rng 0 3⟩
/-- C(n)+0xA0+m:06 ACTION (08 R266). -/
def oAction : Row := ⟨0x30A0, [(0x100, 24), (0x1, 4)], 0x06, (1, 1), 1, 0x05, false, .rk, pNSrzD, .c 0, false, .bits 0xF0⟩
/-- C(n)+0xA0+m:07 ESC_US (08 R266). -/
def oEscUs : Row := ⟨0x30A0, [(0x100, 24), (0x1, 4)], 0x07, (1, 1), 2, 0x06, false, .rk, pNSrzD, .c 0, false, .any⟩
/-- C(n)+0xA0+m:08 TRIP_FILTER (08 R266). -/
def oTripFilter : Row := ⟨0x30A0, [(0x100, 24), (0x1, 4)], 0x08, (1, 1), 1, 0x05, false, .rk, pNSrzD, .c 4, false, .any⟩
/-- C(n)+0xA0+m:09 LATCH_MODE (08 R266). -/
def oLatchMode : Row := ⟨0x30A0, [(0x100, 24), (0x1, 4)], 0x09, (1, 1), 1, 0x05, false, .rk, pNSrzD, .c 0, false, .rng 0 1⟩
/-- C(n)+0xA0+m:0A BLANK (08 R266). -/
def oBlank : Row := ⟨0x30A0, [(0x100, 24), (0x1, 4)], 0x0A, (1, 1), 1, 0x05, false, .rk, pNSrzD, .lastDim [1, 1, 0, 0], false, .bits 0xFE⟩
/-- C(n)+0xA0+m:0B AUX_SEL (08 R266). -/
def oAuxSel : Row := ⟨0x30A0, [(0x100, 24), (0x1, 4)], 0x0B, (1, 1), 1, 0x05, false, .rk, pNSrzD, .c 0, false, .rng 0 3⟩
/-- C(n)+0xA0+m:0C MON_STATUS (08 R266). -/
def oMonStatus : Row := ⟨0x30A0, [(0x100, 24), (0x1, 4)], 0x0C, (1, 1), 2, 0x06, false, .ro, pNSCzD, .c 0x0000, false, .any⟩
/-- C(n)+0xA0+m:0D TRIPS (08 R266). -/
def oTrips : Row := ⟨0x30A0, [(0x100, 24), (0x1, 4)], 0x0D, (1, 1), 4, 0x07, false, .ro, pNSCzD, .c 0, false, .any⟩
/-- C(n)+0xA0+m:0E LAST_TRIP_POS (08 R266). -/
def oLastTripPos : Row := ⟨0x30A0, [(0x100, 24), (0x1, 4)], 0x0E, (1, 1), 8, 0x1B, false, .ro, pNSCzD, .c 0, false, .any⟩
/-- C(n)+0xA0+m:0F VERIFY_DIFF_HI (08 R266). -/
def oVerifyDiffHi : Row := ⟨0x30A0, [(0x100, 24), (0x1, 4)], 0x0F, (1, 1), 1, 0x02, true, .ro, pNSCzD, .c 0, false, .any⟩
/-- C(n)+0xA0+m:10 VERIFY_DIFF_LO (08 R266). -/
def oVerifyDiffLo : Row := ⟨0x30A0, [(0x100, 24), (0x1, 4)], 0x10, (1, 1), 1, 0x02, true, .ro, pNSCzD, .c 0, false, .any⟩
/-- C(n)+0xA0+m:11 VERIFY_POS (08 R266). -/
def oVerifyPos : Row := ⟨0x30A0, [(0x100, 24), (0x1, 4)], 0x11, (1, 1), 8, 0x1B, false, .ro, pNSCzD, .c 0, false, .any⟩
/-- C(n)+0xA4:01 GUARD_LATCH (08 R266). -/
def oGuardLatch : Row := ⟨0x30A4, [(0x100, 24)], 0x01, (1, 1), 1, 0x05, false, .w1c, pNSrzD, .c 0, false, .any⟩
/-- C(n)+0xA4:02 VERIFY_CTRL (08 R266). -/
def oVerifyCtrl : Row := ⟨0x30A4, [(0x100, 24)], 0x02, (1, 1), 1, 0x05, false, .rk, pNSrzD, .c 0x03, false, .bits 0xF8⟩
/-- C(n)+0xA4:03 VERIFY_TOL (08 R266). -/
def oVerifyTol : Row := ⟨0x30A4, [(0x100, 24)], 0x03, (1, 1), 1, 0x05, false, .rk, pNSrzD, .c 2, false, .rng 1 15⟩
/-- C(n)+0xA4:04 VERIFY_STALE (08 R266). -/
def oVerifyStale : Row := ⟨0x30A4, [(0x100, 24)], 0x04, (1, 1), 4, 0x07, false, .rk, pNSrzD, .c 600000, false, .rng 1000 86400000⟩
/-- C(n)+0xA4:05 VERIFY_REQ (08 R266). -/
def oVerifyReq : Row := ⟨0x30A4, [(0x100, 24)], 0x05, (1, 1), 1, 0x05, false, .wo, pNSzzD, .c 0, false, .any⟩
/-- C(n)+0xA4:06 VERIFY_STATUS (08 R266). -/
def oVerifyStatus : Row := ⟨0x30A4, [(0x100, 24)], 0x06, (1, 1), 2, 0x06, false, .ro, pNSCzD, .c 0x0000, false, .any⟩
/-- C(n)+0xA4:07 MON_STATES (08 R266). -/
def oMonStates : Row := ⟨0x30A4, [(0x100, 24)], 0x07, (1, 1), 1, 0x05, false, .ro, pNSCzD, .c 0, false, .any⟩
/-- C(n)+0xA4:08 GUARD_REQUIRED (08 R266). -/
def oGuardRequired : Row := ⟨0x30A4, [(0x100, 24)], 0x08, (1, 1), 1, 0x05, false, .rk, pNSrzD, .c 0, false, .bits 0xFE⟩
/-- C(n)+0xA4:09 COUNTER_CLEAR (08 R266). -/
def oGuardCounterClear : Row := ⟨0x30A4, [(0x100, 24)], 0x09, (1, 1), 1, 0x05, false, .wo, pNSzzD, .c 0, false, .bits 0xF0⟩
/-- C(n)+0xC0:01–22 VM_CORR (09 R288). -/
def oVmCorr : Row := ⟨0x30C0, [(0x100, 24)], 0x01, (1, 34), 16, 0x0A, false, .rk, prrCzr, .f corrDefault, false, .bits 0xFFFFFFFFFFFE00000000000000000000⟩
/-- C(n)+0xC1:01–22 IM_CORR (09 R288). -/
def oImCorr : Row := ⟨0x30C1, [(0x100, 24)], 0x01, (1, 34), 16, 0x0A, false, .rk, prrCzr, .f corrDefault, false, .bits 0xFFFFFFFFFFFE00000000000000000000⟩
/-- C(n)+0xC2:01–04 SRC_CORR (09 R288). -/
def oSrcCorr : Row := ⟨0x30C2, [(0x100, 24)], 0x01, (1, 4), 16, 0x0A, false, .rk, prrCzr, .f corrDefault, false, .bits 0xFFFFFFFFFFFE00000000000000000000⟩
/-- C(n)+0xC3:01 SRC_SELFCAL (09 R288). -/
def oSrcSelfcal : Row := ⟨0x30C3, [(0x100, 24)], 0x01, (1, 1), 1, 0x05, false, .wo, pNSzzD, .c 0, false, .bits 0xFC⟩
/-- C(n)+0xC3:02 SELFCAL_STATUS (09 R288). -/
def oSelfcalStatus : Row := ⟨0x30C3, [(0x100, 24)], 0x02, (1, 1), 1, 0x05, false, .ro, pNSCzD, .c 0, false, .any⟩
/-- C(n)+0xC3:03 TRIM_V_OFFSET (09 R288). -/
def oTrimVOffset : Row := ⟨0x30C3, [(0x100, 24)], 0x03, (1, 1), 5, 0x12, true, .ro, pNSCzD, .c 0, false, .any⟩
/-- C(n)+0xC3:04 TRIM_V_GAIN (09 R288). -/
def oTrimVGain : Row := ⟨0x30C3, [(0x100, 24)], 0x04, (1, 1), 5, 0x12, true, .ro, pNSCzD, .c 0, false, .any⟩
/-- C(n)+0xC3:05 TRIM_I_OFFSET (09 R288). -/
def oTrimIOffset : Row := ⟨0x30C3, [(0x100, 24)], 0x05, (1, 1), 5, 0x12, true, .ro, pNSCzD, .c 0, false, .any⟩
/-- C(n)+0xC3:06 TRIM_I_GAIN (09 R288). -/
def oTrimIGain : Row := ⟨0x30C3, [(0x100, 24)], 0x06, (1, 1), 5, 0x12, true, .ro, pNSCzD, .c 0, false, .any⟩
/-- C(n)+0xC3:07 SELFCAL_POS (09 R288). -/
def oSelfcalPos : Row := ⟨0x30C3, [(0x100, 24)], 0x07, (1, 1), 8, 0x1B, false, .ro, pNSCzD, .c 0, false, .any⟩
/-- 0x2610:01 CAL_STATEMENT (09 R288). -/
def oCalStatement : Row := ⟨0x2610, [], 0x01, (1, 1), 126, 0x0A, false, .rk, prrCzr, .c 0, false, .any⟩
/-- 0x2610:02 CAL_STAGED_HASH (09 R288). -/
def oCalStagedHash : Row := ⟨0x2610, [], 0x02, (1, 1), 64, 0x0A, false, .ro, pzzCzz, .c 0, false, .any⟩
/-- 0x2610:03 LAST_AUTH_SEQ (09 R288). -/
def oLastAuthSeq : Row := ⟨0x2610, [], 0x03, (1, 1), 4, 0x07, false, .ro, pNSCzD, .c Config.shippedAuthSeq, false, .any⟩
/-- 0x2610:04 CAL_STATUS (09 R288). -/
def oCalStatus : Row := ⟨0x2610, [], 0x04, (1, 1), 1, 0x05, false, .ro, pNSCzD, .c 0, false, .any⟩
/-- 0x2610:05 LEDGER_LEAD (09 R288). -/
def oLedgerLead : Row := ⟨0x2610, [], 0x05, (1, 1), 4, 0x07, false, .ro, pzzCzz, .c 0, false, .any⟩
/-- 0x2611:01 AUTH_KEY (09 R288). -/
def oAuthKey : Row := ⟨0x2611, [], 0x01, (1, 1), 57, 0x0A, false, .rk, prrCzr, .c Config.provAuthKey, false, .any⟩
/-- 0x2611:02 AUTH_KEY_FACTORY (09 R288). -/
def oAuthKeyFactory : Row := ⟨0x2611, [], 0x02, (1, 1), 1, 0x05, false, .ro, pNSCzD, .c 1, false, .any⟩
/-- 0x2680:01 LEDGER_STATUS (09 R292). -/
def oLedgerStatus : Row := ⟨0x2680, [], 0x01, (1, 1), 2, 0x06, false, .ro, pNSCzD, .c 0x0000, false, .any⟩
/-- 0x2680:02 HEAD_SEQ (09 R292). -/
def oHeadSeq : Row := ⟨0x2680, [], 0x02, (1, 1), 4, 0x07, false, .ro, pNSCzD, .c 0, false, .any⟩
/-- 0x2680:03 HEAD_HASH (09 R292). -/
def oHeadHash : Row := ⟨0x2680, [], 0x03, (1, 1), 64, 0x0A, false, .ro, pNSCzD, .c 0, false, .any⟩
/-- 0x2680:04 LEDGER_FREE (09 R292). -/
def oLedgerFree : Row := ⟨0x2680, [], 0x04, (1, 1), 4, 0x07, false, .ro, pNSCzD, .c 0, false, .any⟩
/-- 0x2680:05 AGE_NOW (09 R292). -/
def oAgeNow : Row := ⟨0x2680, [], 0x05, (1, 1), 8, 0x1B, false, .ro, pNSCzD, .c 0, false, .any⟩
/-- 0x2680:06 POWER_UPS (09 R292). -/
def oPowerUps : Row := ⟨0x2680, [], 0x06, (1, 1), 4, 0x07, false, .ro, pNSCzD, .c 0, false, .any⟩
/-- 0x2681:01 RECORD_SEL (09 R292). -/
def oRecordSel : Row := ⟨0x2681, [], 0x01, (1, 1), 4, 0x07, false, .rw, pNSCzD, .c 0, true, .any⟩
/-- 0x2681:02 RECORD (09 R292). -/
def oRecord : Row := ⟨0x2681, [], 0x02, (1, 1), 0, 0x0F, false, .ro, pNSCzD, .c 0, false, .any⟩
/-- 0x2682:01 BASELINE_REQ (09 R292). -/
def oBaselineReq : Row := ⟨0x2682, [], 0x01, (1, 1), 16, 0x0A, false, .wo, pNSCzD, .c 0, false, .any⟩
/-- 0x2682:02 HOST_UTC (09 R292). -/
def oHostUtc : Row := ⟨0x2682, [], 0x02, (1, 1), 8, 0x1B, false, .rw, pNSCzD, .c 0, false, .any⟩
/-- 0x2683:01 LEDGER_BASE (09 R292). -/
def oLedgerBase : Row := ⟨0x2683, [], 0x01, (1, 1), 4, 0x07, false, .ro, pNSCzD, .c 0x02000000, false, .any⟩
/-- 0x2683:02 LEDGER_SIZE (09 R292). -/
def oLedgerSize : Row := ⟨0x2683, [], 0x02, (1, 1), 4, 0x07, false, .ro, pNSCzD, .c 0x01000000, false, .any⟩
/-- 0x2684:01 LEDGER_SKIPS (09 R292). -/
def oLedgerSkips : Row := ⟨0x2684, [], 0x01, (1, 1), 4, 0x07, false, .ro, pNSCzD, .c 0, false, .any⟩
/-- 0x2684:02 LEDGER_LOST (09 R292). -/
def oLedgerLost : Row := ⟨0x2684, [], 0x02, (1, 1), 4, 0x07, false, .ro, pNSCzD, .c 0, false, .any⟩
/-- 0x2690:01 DRIFT_SELECT (09 R293). -/
def oDriftSelect : Row := ⟨0x2690, [], 0x01, (1, 1), 1, 0x05, false, .rw, pNSCzD, .c 0x02, true, .bits 0xFC⟩
/-- 0x2690:02 DRIFT_FIRST_SEQ (09 R293). -/
def oDriftFirstSeq : Row := ⟨0x2690, [], 0x02, (1, 1), 4, 0x07, false, .rw, pNSCzD, .c 0, true, .any⟩
/-- 0x2690:03 DRIFT_LAST_SEQ (09 R293). -/
def oDriftLastSeq : Row := ⟨0x2690, [], 0x03, (1, 1), 4, 0x07, false, .rw, pNSCzD, .c 0xFFFFFFFF, true, .any⟩
/-- 0x2690:04 DRIFT_AT (09 R293). -/
def oDriftAt : Row := ⟨0x2690, [], 0x04, (1, 1), 8, 0x1B, false, .rw, pNSCzD, .c 0, true, .any⟩
/-- 0x2690:05 DRIFT_RUN (09 R293). -/
def oDriftRun : Row := ⟨0x2690, [], 0x05, (1, 1), 1, 0x05, false, .wo, pNSCzD, .c 0, false, .any⟩
/-- 0x2690:06 DRIFT_N (09 R293). -/
def oDriftN : Row := ⟨0x2690, [], 0x06, (1, 1), 2, 0x06, false, .ro, pNSCzD, .c 0, false, .any⟩
/-- 0x2690:07 DRIFT_SLOPE (09 R293). -/
def oDriftSlope : Row := ⟨0x2690, [], 0x07, (1, 1), 8, 0x15, true, .ro, pNSCzD, .c 0, false, .any⟩
/-- 0x2690:08 DRIFT_U_SLOPE (09 R293). -/
def oDriftUSlope : Row := ⟨0x2690, [], 0x08, (1, 1), 8, 0x1B, false, .ro, pNSCzD, .c 0, false, .any⟩
/-- 0x2690:09 DRIFT_PRED (09 R293). -/
def oDriftPred : Row := ⟨0x2690, [], 0x09, (1, 1), 8, 0x15, true, .ro, pNSCzD, .c 0, false, .any⟩
/-- 0x2690:0A DRIFT_U_PRED (09 R293). -/
def oDriftUPred : Row := ⟨0x2690, [], 0x0A, (1, 1), 8, 0x1B, false, .ro, pNSCzD, .c 0, false, .any⟩
/-- 0x2690:0B DRIFT_CHI2 (09 R293). -/
def oDriftChi2 : Row := ⟨0x2690, [], 0x0B, (1, 1), 4, 0x07, false, .ro, pNSCzD, .c 0, false, .any⟩
/-- 0x2690:0C DRIFT_STATUS (09 R293). -/
def oDriftStatus : Row := ⟨0x2690, [], 0x0C, (1, 1), 1, 0x05, false, .ro, pNSCzD, .c 0, false, .any⟩
/-- 0x2600:01 REF_STATUS (09 R294). -/
def oRefStatus : Row := ⟨0x2600, [], 0x01, (1, 1), 4, 0x07, false, .ro, pNSCzD, .c 0x00000000, false, .any⟩
/-- 0x2600:02 OVEN_SETPOINT (09 R294). -/
def oOvenSetpoint : Row := ⟨0x2600, [], 0x02, (1, 1), 2, 0x06, false, .rk, prrCzr, .c 6000, false, .rng 4500 7500⟩
/-- 0x2600:03 DIE_TEMP (09 R294). -/
def oRefDieTemp : Row := ⟨0x2600, [], 0x03, (1, 1), 2, 0x03, true, .ro, pNSCzD, .c 0, false, .any⟩
/-- 0x2600:04 SUBSTRATE_TEMP (09 R294). -/
def oSubstrateTemp : Row := ⟨0x2600, [], 0x04, (1, 1), 2, 0x03, true, .ro, pNSCzD, .c 0, false, .any⟩
/-- 0x2600:05 HEATER_POWER (09 R294). -/
def oHeaterPower : Row := ⟨0x2600, [], 0x05, (1, 1), 2, 0x06, false, .ro, pNSCzD, .c 0, false, .any⟩
/-- 0x2600:06 REF_TRIM_NOW (09 R294). -/
def oRefTrimNow : Row := ⟨0x2600, [], 0x06, (1, 1), 4, 0x04, true, .ro, pNSCzD, .c 0, false, .any⟩
/-- 0x2600:07 EXT_LEVEL (09 R294). -/
def oExtLevel : Row := ⟨0x2600, [], 0x07, (1, 1), 4, 0x04, true, .ro, pNSCzD, .c 0, false, .any⟩
/-- 0x2600:08 OVEN_EVENTS (09 R294). -/
def oOvenEvents : Row := ⟨0x2600, [], 0x08, (1, 1), 4, 0x07, false, .ro, pNSCzD, .c 0, false, .any⟩
/-- 0x2601:01–10 COMP_POINT (09 R294). -/
def oCompPoint : Row := ⟨0x2601, [], 0x01, (1, 16), 8, 0x1B, false, .rk, prrCzr, .f compPointDefault, false, .bits 0xFFFF00000000⟩
/-- 0x2601:11 COMP_COUNT (09 R294). -/
def oCompCount : Row := ⟨0x2601, [], 0x11, (1, 1), 1, 0x05, false, .rk, prrCzr, .f compCountDefault, false, .rng 2 16⟩
/-- 0x2602:01 REF_SWITCH (09 R294). -/
def oRefSwitch : Row := ⟨0x2602, [], 0x01, (1, 1), 1, 0x05, false, .rk, pNSCzD, .c 0, false, .rng 0 3⟩
/-- 0x2603:01 CMP_CHANNEL (09 R294). -/
def oCmpChannel : Row := ⟨0x2603, [], 0x01, (1, 1), 1, 0x05, false, .rw, pNSCzD, .c 0, false, .rng 0 23⟩
/-- 0x2603:02 CMP_APERTURE (09 R294). -/
def oCmpAperture : Row := ⟨0x2603, [], 0x02, (1, 1), 5, 0x18, false, .rw, pNSCzD, .c 0x0280000000, false, .rng 1073742 1073741824000⟩
/-- 0x2603:03 CMP_TAKES (09 R294). -/
def oCmpTakes : Row := ⟨0x2603, [], 0x03, (1, 1), 2, 0x06, false, .rw, pNSCzD, .c 30, false, .rng 1 10000⟩
/-- 0x2603:04 CMP_PAIRS (09 R294). -/
def oCmpPairs : Row := ⟨0x2603, [], 0x04, (1, 1), 1, 0x05, false, .rw, pNSCzD, .c 4, false, .rng 1 64⟩
/-- 0x2603:05 CMP_INTERVAL (09 R294). -/
def oCmpInterval : Row := ⟨0x2603, [], 0x05, (1, 1), 2, 0x06, false, .rw, pNSCzD, .c 0, false, .rng 0 8760⟩
/-- 0x2603:06 CMP_START (09 R294). -/
def oCmpStart : Row := ⟨0x2603, [], 0x06, (1, 1), 1, 0x05, false, .wo, pNSCzD, .c 0, false, .rng 0 1⟩
/-- 0x2603:07 CMP_STATUS (09 R294). -/
def oCmpStatus : Row := ⟨0x2603, [], 0x07, (1, 1), 2, 0x06, false, .ro, pNSCzD, .c 0, false, .any⟩
/-- 0x2603:08 CMP_LAST_SEQ (09 R294). -/
def oCmpLastSeq : Row := ⟨0x2603, [], 0x08, (1, 1), 4, 0x07, false, .ro, pNSCzD, .c 0, false, .any⟩
/-- 0x2603:09 CMP_LAST_RATIO (09 R294). -/
def oCmpLastRatio : Row := ⟨0x2603, [], 0x09, (1, 1), 8, 0x15, true, .ro, pNSCzD, .c 0, false, .any⟩
/-- 0x2603:0A CMP_SKIPPED (09 R294). -/
def oCmpSkipped : Row := ⟨0x2603, [], 0x0A, (1, 1), 4, 0x07, false, .ro, pNSCzD, .c 0, false, .any⟩
/-- 0x2604:01 STD_VALUE (09 R294). -/
def oStdValue : Row := ⟨0x2604, [], 0x01, (1, 1), 8, 0x15, true, .rw, pNSCzD, .c 10000000000, false, .any⟩
/-- 0x2604:02 STD_U (09 R294). -/
def oStdU : Row := ⟨0x2604, [], 0x02, (1, 1), 4, 0x07, false, .rw, pNSCzD, .c 0, false, .any⟩
/-- 0x2604:03 STD_ID (09 R294). -/
def oStdId : Row := ⟨0x2604, [], 0x03, (1, 1), 16, 0x0A, false, .rw, pNSCzD, .c 0, false, .any⟩
/-- 0x2300:01 ARB_MODE (10 R324). -/
def oArbMode : Row := ⟨0x2300, [], 0x01, (1, 1), 1, 0x05, false, .rw, pNSzzD, .c 0, false, .rng 0 1⟩
/-- 0x2300:02 ARB_STATUS (10 R324). -/
def oArbStatus : Row := ⟨0x2300, [], 0x02, (1, 1), 4, 0x07, false, .ro, pNSCzD, .c 0x00000000, false, .any⟩
/-- 0x2300:03 ARB_CLEAR (10 R324). -/
def oArbClear : Row := ⟨0x2300, [], 0x03, (1, 1), 1, 0x05, false, .wo, pNSzzD, .c 0, false, .bits 0xF0⟩
/-- 0x2301:01 ARB_COMMIT (10 R324). -/
def oArbCommit : Row := ⟨0x2301, [], 0x01, (1, 1), 8, 0x1B, false, .wo, pNSzzD, .c 0, false, .any⟩
/-- 0x2301:02 ARB_COMMIT_POS (10 R324). -/
def oArbCommitPos : Row := ⟨0x2301, [], 0x02, (1, 1), 8, 0x1B, false, .ro, pNSCzD, .c 0, false, .any⟩
/-- 0x2302:01–0F PRIO_c (10 R324). -/
def oPrio : Row := ⟨0x2302, [], 0x01, (1, 15), 1, 0x05, false, .rw, pNSzzD, .tbl [8, 8, 8, 8, 8, 4, 5, 7, 3, 5, 11, 1, 2, 12, 6], false, .rng 0 15⟩
/-- 0x2303:01–0F DL_OFFSET_c (10 R324). -/
def oDlOffset : Row := ⟨0x2303, [], 0x01, (1, 15), 4, 0x07, false, .rw, pNSzzD, .tbl [200, 200, 200, 200, 200, 0, 0, 0, 1000000, 1000000, 500, 0, 0, 0, 10000], false, .rng 1 10000000⟩
/-- 0x2304:01–0F GRACE_c (10 R324). -/
def oGrace : Row := ⟨0x2304, [], 0x01, (1, 15), 4, 0x07, false, .rw, pNSzzD, .tbl [0, 0, 0, 0, 0, 10000, 10000, 60000, 3600000, 60000, 0, 1000, 1000, 0, 0], false, .rng 1 86400000⟩
/-- 0x2305:01 ARB_IN_FORCE (10 R324). -/
def oArbInForce : Row := ⟨0x2305, [], 0x01, (1, 1), 0, 0x0F, false, .ro, pNSCzD, .c 0, false, .any⟩
/-- 0x2310:01 RES_STATUS (10 R324). -/
def oResStatus : Row := ⟨0x2310, [], 0x01, (1, 1), 0, 0x0F, false, .ro, pNSCzD, .c 0, false, .any⟩
/-- 0x2311:01–0F LATES_c (10 R324). -/
def oLates : Row := ⟨0x2311, [], 0x01, (1, 15), 4, 0x07, false, .ro, pNSCzD, .c 0, false, .any⟩
/-- 0x2312:01 BREAKS (10 R324). -/
def oBreaks : Row := ⟨0x2312, [], 0x01, (1, 1), 4, 0x07, false, .ro, pNSCzD, .c 0, false, .any⟩
/-- 0x2312:02 BREAK_LAST (10 R324). -/
def oBreakLast : Row := ⟨0x2312, [], 0x02, (1, 1), 48, 0x0A, false, .ro, pNSCzD, .c 0, false, .any⟩
/-- 0x2312:03 HINT_MISSES (10 R324). -/
def oHintMisses : Row := ⟨0x2312, [], 0x03, (1, 1), 4, 0x07, false, .ro, pNSCzD, .c 0, false, .any⟩
/-- 0x2312:04 HOLD_OVERRUNS (10 R324). -/
def oHoldOverruns : Row := ⟨0x2312, [], 0x04, (1, 1), 4, 0x07, false, .ro, pNSCzD, .c 0, false, .any⟩
/-- 0x2400:01 TXN_OPEN (10 R324). -/
def oTxnOpen : Row := ⟨0x2400, [], 0x01, (1, 1), 1, 0x05, false, .wo, pNSCXD, .c 0, false, .rng 1 16⟩
/-- 0x2400:02 TXN_CURRENT (10 R324). -/
def oTxnCurrent : Row := ⟨0x2400, [], 0x02, (1, 1), 1, 0x05, false, .rw, pNSCXD, .c 0, true, .rng 0 16⟩
/-- 0x2400:03 TXN_WRITES (10 R324). -/
def oTxnWrites : Row := ⟨0x2400, [], 0x03, (1, 1), 2, 0x06, false, .ro, pNSCXD, .c 0, false, .any⟩
/-- 0x2400:04 TXN_BYTES (10 R324). -/
def oTxnBytes : Row := ⟨0x2400, [], 0x04, (1, 1), 4, 0x07, false, .ro, pNSCXD, .c 0, false, .any⟩
/-- 0x2401:01 KEYSTONE (10 R324). -/
def oKeystone : Row := ⟨0x2401, [], 0x01, (1, 1), 10, 0x0A, false, .wo, pNSCXD, .c 0, false, .any⟩
/-- 0x2402:01 TXN_ABORT (10 R324). -/
def oTxnAbort : Row := ⟨0x2402, [], 0x01, (1, 1), 1, 0x05, false, .wo, pNSCXD, .c 0, false, .rng 1 16⟩
/-- 0x2403:01 TXN_SEL (10 R324). -/
def oTxnSel : Row := ⟨0x2403, [], 0x01, (1, 1), 1, 0x05, false, .rw, pNSCXD, .c 1, true, .rng 1 16⟩
/-- 0x2403:02 TXN_STATUS (10 R324). -/
def oTxnStatus : Row := ⟨0x2403, [], 0x02, (1, 1), 4, 0x07, false, .ro, pNSCXD, .c 0, false, .any⟩
/-- 0x2403:03 TXN_POS (10 R324). -/
def oTxnPos : Row := ⟨0x2403, [], 0x03, (1, 1), 8, 0x1B, false, .ro, pNSCXD, .c 0, false, .any⟩
/-- 0x2403:04 TXN_REFUSED (10 R324). -/
def oTxnRefused : Row := ⟨0x2403, [], 0x04, (1, 1), 8, 0x1B, false, .ro, pNSCXD, .c 0, false, .any⟩
/-- 0x2403:05 TXN_SUMMARY (10 R324). -/
def oTxnSummary : Row := ⟨0x2403, [], 0x05, (1, 1), 2, 0x06, false, .ro, pNSCXD, .c 0, false, .any⟩
/-- 0x2403:06 COMMITS (10 R324). -/
def oCommits : Row := ⟨0x2403, [], 0x06, (1, 1), 4, 0x07, false, .ro, pNSCzD, .c 0, false, .any⟩
/-- 0x2403:07 ABORTS (10 R324). -/
def oAborts : Row := ⟨0x2403, [], 0x07, (1, 1), 4, 0x07, false, .ro, pNSCzD, .c 0, false, .any⟩
/-- 0x2403:08 SPLITS (10 R324). -/
def oSplits : Row := ⟨0x2403, [], 0x08, (1, 1), 4, 0x07, false, .ro, pNSCzD, .c 0, false, .any⟩
/-- 0x2403:09 SLATE_ON_SPLIT (10 R324). -/
def oSlateOnSplit : Row := ⟨0x2403, [], 0x09, (1, 1), 1, 0x05, false, .rw, pNSzzD, .c 1, false, .bits 0xFE⟩
/-- 0x2404:01 HOST_HOLD (10 R324). -/
def oHostHold : Row := ⟨0x2404, [], 0x01, (1, 1), 32, 0x0A, false, .rk, pNSCzD, .c 0, true, .any⟩
/-- 0x2404:02 HOST_RELEASE (10 R324). -/
def oHostRelease : Row := ⟨0x2404, [], 0x02, (1, 1), 1, 0x05, false, .wo, pNSCzD, .c 0, false, .any⟩
/-- 0x2404:03 HINT_LAST (10 R324). -/
def oHintLast : Row := ⟨0x2404, [], 0x03, (1, 1), 8, 0x1B, false, .ro, pNSCzD, .c 0, false, .any⟩
/-- 0x2800:01–0F PROMISE_k (10 R324). -/
def oPromise : Row := ⟨0x2800, [], 0x01, (1, 15), 4, 0x07, false, .ro, pNSCzD, .tbl [250000, 250000, 250000, 100000, 500000, 8, 50000, 1000000, 20000, 2730, 2000, 0, 0, 20000, 0], false, .any⟩
/-- 0x2801:01 PROMISE_STATUS (10 R324). -/
def oPromiseStatus : Row := ⟨0x2801, [], 0x01, (1, 1), 1, 0x05, false, .ro, pNSCzD, .c 0, false, .any⟩
/-- 0x2801:02 PROMISE_REFUSALS (10 R324). -/
def oPromiseRefusals : Row := ⟨0x2801, [], 0x02, (1, 1), 4, 0x07, false, .ro, pNSCzD, .c 0, false, .any⟩
/-- 0x7000+0x10n:01 RX_CTRL (11 R338). -/
def oRxCtrl : Row := ⟨0x7000, [(0x10, 24)], 0x01, (1, 1), 1, 0x05, false, .ro, pNzzzr, .c 0, false, .any⟩
/-- 0x7000+0x10n:02 RX_SRC_CODE (11 R338). -/
def oRxSrcCode : Row := ⟨0x7000, [(0x10, 24)], 0x02, (1, 1), 5, 0x12, true, .ro, pNzzzr, .c 0, false, .any⟩
/-- 0x7000+0x10n:03 RX_LOOP_SP (11 R338). -/
def oRxLoopSp : Row := ⟨0x7000, [(0x10, 24)], 0x03, (1, 1), 5, 0x12, true, .ro, pNzzzr, .c 0, false, .any⟩
/-- 0x7000+0x10n:04 RX_CUT_ARG (11 R338). -/
def oRxCutArg : Row := ⟨0x7000, [(0x10, 24)], 0x04, (1, 1), 2, 0x06, false, .ro, pNzzzr, .c 0, false, .any⟩
/-- 0x7000+0x10n:05 Q_COUNT (11 R338). -/
def oQCount : Row := ⟨0x7000, [(0x10, 24)], 0x05, (1, 1), 1, 0x05, false, .ro, pNzzzr, .c 0, false, .any⟩
/-- 0x7000+0x10n:06–0D Q_CODE_k (11 R338). -/
def oQCode : Row := ⟨0x7000, [(0x10, 24)], 0x06, (1, 8), 5, 0x12, true, .ro, pNzzzr, .c 0, false, .any⟩
/-- 0x1000:00 DEVICE_TYPE (11 R346). -/
def oDeviceType : Row := ⟨0x1000, [], 0x00, (1, 1), 4, 0x07, false, .ro, pNSCzD, .c 0x00000000, false, .any⟩
/-- 0x1008:00 DEVICE_NAME (11 R346). -/
def oDeviceName : Row := ⟨0x1008, [], 0x00, (1, 1), 16, 0x09, false, .ro, pNSCzD, .c 0x3830343220786572696c614d, false, .any⟩
/-- 0x1009:00 HW_VERSION (11 R346). -/
def oHwVersion : Row := ⟨0x1009, [], 0x00, (1, 1), 8, 0x09, false, .ro, pNSCzD, .c 0x3042, false, .any⟩
/-- 0x100A:00 SW_VERSION (11 R346). -/
def oSwVersion : Row := ⟨0x100A, [], 0x00, (1, 1), 32, 0x09, false, .ro, pNSCzD, .c 0, false, .any⟩
/-- 0x1018:01 VENDOR_ID (11 R346). -/
def oVendorId : Row := ⟨0x1018, [], 0x01, (1, 1), 4, 0x07, false, .ro, pNSCzD, .c 0x00000A3D, false, .any⟩
/-- 0x1018:02 PRODUCT_CODE (11 R346). -/
def oProductCode : Row := ⟨0x1018, [], 0x02, (1, 1), 4, 0x07, false, .ro, pNSCzD, .c 0x00002408, false, .any⟩
/-- 0x1018:03 REVISION (11 R346). -/
def oRevision : Row := ⟨0x1018, [], 0x03, (1, 1), 4, 0x07, false, .ro, pNSCzD, .c 0x00B00001, false, .any⟩
/-- 0x1018:04 SERIAL (11 R346). -/
def oSerial : Row := ⟨0x1018, [], 0x04, (1, 1), 4, 0x07, false, .ro, pNSCzD, .c Config.provSerial, false, .any⟩
/-- 0x1600+n:01–0D RX_MAP_n (11 R346). -/
def oRxMap : Row := ⟨0x1600, [(0x1, 24)], 0x01, (1, 13), 4, 0x07, false, .rw, pNrrzr, .f rxMapDefault, false, .any⟩
/-- 0x1A00+n:01–0D TX_MAP_n (11 R346). -/
def oTxMap : Row := ⟨0x1A00, [(0x1, 24)], 0x01, (1, 13), 4, 0x07, false, .rw, pNrrzr, .f txMapDefault, false, .any⟩
/-- 0x1A18:01–20 TX_MAP_DEV (11 R346). -/
def oTxMapDev : Row := ⟨0x1A18, [], 0x01, (1, 32), 4, 0x07, false, .rw, pNrrzr, .tbl [0x68000140, 0x68000220, 0x68000340, 0x68000408], false, .any⟩
/-- 0x1C00:01–04 SM_TYPE (11 R346). -/
def oSmType : Row := ⟨0x1C00, [], 0x01, (1, 4), 1, 0x05, false, .ro, pNrrzr, .tbl [1, 2, 3, 4], false, .any⟩
/-- 0x1C12:01–18 RX_ASSIGN (11 R346). -/
def oRxAssign : Row := ⟨0x1C12, [], 0x01, (1, 24), 2, 0x06, false, .rw, pNrrzr, .c 0, false, .any⟩
/-- 0x1C13:01–19 TX_ASSIGN (11 R346). -/
def oTxAssign : Row := ⟨0x1C13, [], 0x01, (1, 25), 2, 0x06, false, .rw, pNrrzr, .tbl [0x1A18], false, .any⟩
/-- 0x1C32:01 OUT_SYNC_TYPE (11 R346). -/
def oOutSyncType : Row := ⟨0x1C32, [], 0x01, (1, 1), 2, 0x06, false, .rw, pNrrzr, .c 0x0001, false, .any⟩
/-- 0x1C32:02 OUT_CYCLE (11 R346). -/
def oOutCycle : Row := ⟨0x1C32, [], 0x02, (1, 1), 4, 0x07, false, .rw, pNrrzr, .c 1000000, false, .any⟩
/-- 0x1C32:03 OUT_SHIFT (11 R346). -/
def oOutShift : Row := ⟨0x1C32, [], 0x03, (1, 1), 4, 0x07, false, .ro, pNrrzr, .c 0, false, .any⟩
/-- 0x1C32:04 SYNC_SUPPORTED (11 R346). -/
def oSyncSupported : Row := ⟨0x1C32, [], 0x04, (1, 1), 2, 0x06, false, .ro, pNrrzr, .c 0x0007, false, .any⟩
/-- 0x1C32:05 MIN_CYCLE (11 R346). -/
def oMinCycle : Row := ⟨0x1C32, [], 0x05, (1, 1), 4, 0x07, false, .ro, pNrrzr, .c 125000, false, .any⟩
/-- 0x1C32:06 CALC_COPY_OUT (11 R346). -/
def oCalcCopyOut : Row := ⟨0x1C32, [], 0x06, (1, 1), 4, 0x07, false, .ro, pNrrzr, .c 50000, false, .any⟩
/-- 0x1C32:0B SM_EVENT_MISSED (11 R346). -/
def oSmEventMissed : Row := ⟨0x1C32, [], 0x0B, (1, 1), 2, 0x06, false, .ro, pNrrzr, .c 0, false, .any⟩
/-- 0x1C33:01 IN_SYNC_TYPE (11 R346). -/
def oInSyncType : Row := ⟨0x1C33, [], 0x01, (1, 1), 2, 0x06, false, .ro, pNrrzr, .c 0x0001, false, .any⟩
/-- 0x1C33:02 IN_CYCLE (11 R346). -/
def oInCycle : Row := ⟨0x1C33, [], 0x02, (1, 1), 4, 0x07, false, .rw, pNrrzr, .c 1000000, false, .any⟩
/-- 0x1C33:03 IN_SHIFT (11 R346). -/
def oInShift : Row := ⟨0x1C33, [], 0x03, (1, 1), 4, 0x07, false, .rw, pNrrzr, .c 0, false, .any⟩
/-- 0x1C33:06 CALC_COPY_IN (11 R346). -/
def oCalcCopyIn : Row := ⟨0x1C33, [], 0x06, (1, 1), 4, 0x07, false, .ro, pNrrzr, .c 30000, false, .any⟩
/-- 0x2000:01 DEVICE_STATUS (11 R346). -/
def oDeviceStatus : Row := ⟨0x2000, [], 0x01, (1, 1), 4, 0x07, false, .ro, pNSCzD, .c 0x00000000, false, .any⟩
/-- 0x2000:02 UPTIME (11 R346). -/
def oUptime : Row := ⟨0x2000, [], 0x02, (1, 1), 8, 0x1B, false, .ro, pNSCzD, .c 0, false, .any⟩
/-- 0x2001:01 FAULT_SUMMARY (11 R346). -/
def oFaultSummary : Row := ⟨0x2001, [], 0x01, (1, 1), 8, 0x1B, false, .ro, pNSCzD, .c 0, false, .any⟩
/-- 0x2001:02 FAULT_LATCH (11 R346). -/
def oFaultLatch : Row := ⟨0x2001, [], 0x02, (1, 1), 1, 0x05, false, .w1c, pNSCzD, .c 0, false, .bits 0xE0⟩
/-- 0x2002:01 EMCY_MASK (11 R346). -/
def oEmcyMask : Row := ⟨0x2002, [], 0x01, (1, 1), 8, 0x1B, false, .rw, pNzzzD, .c 0x0000007FFFFFFFFF, false, .any⟩
/-- 0x2002:02 EMCY_LOST (11 R346). -/
def oEmcyLost : Row := ⟨0x2002, [], 0x02, (1, 1), 4, 0x07, false, .ro, pNSCzD, .c 0, false, .any⟩
/-- 0x2020:01 EVENT_HEAD (11 R346). -/
def oEventHead : Row := ⟨0x2020, [], 0x01, (1, 1), 4, 0x07, false, .ro, pNSCzD, .c 0, false, .any⟩
/-- 0x2020:02 EVENT_SEL (11 R346). -/
def oEventSel : Row := ⟨0x2020, [], 0x02, (1, 1), 4, 0x07, false, .rw, pNSCzD, .c 0, true, .any⟩
/-- 0x2020:03 EVENT (11 R346). -/
def oEvent : Row := ⟨0x2020, [], 0x03, (1, 1), 16, 0x0A, false, .ro, pNSCzD, .c 0, false, .any⟩
/-- 0x2020:04 EVENT_LOG (11 R346). -/
def oEventLog : Row := ⟨0x2020, [], 0x04, (1, 1), 0, 0x0F, false, .ro, pNSCzD, .c 0, false, .any⟩
/-- 0x2030:01 PORTN_STATUS (11 R346). -/
def oPortnStatus : Row := ⟨0x2030, [], 0x01, (1, 1), 2, 0x06, false, .ro, pNSCzD, .c 0x0001, false, .any⟩
/-- 0x2030:02 RX_REPEATS (11 R346). -/
def oRxRepeats : Row := ⟨0x2030, [], 0x02, (1, 1), 4, 0x07, false, .ro, pNSCzD, .c 0, false, .any⟩
/-- 0x2030:03 RX_REJECTS (11 R346). -/
def oRxRejects : Row := ⟨0x2030, [], 0x03, (1, 1), 4, 0x07, false, .ro, pNSCzD, .c 0, false, .any⟩
/-- 0x2030:04 WATCHDOG_EXPIRIES (11 R346). -/
def oWatchdogExpiries : Row := ⟨0x2030, [], 0x04, (1, 1), 4, 0x07, false, .ro, pNSCzD, .c 0, false, .any⟩
/-- 0x2030:05 COUNTER_CLEAR (11 R346). -/
def oPortnCounterClear : Row := ⟨0x2030, [], 0x05, (1, 1), 1, 0x05, false, .wo, pNzzzD, .c 0, false, .bits 0xF8⟩
/-- 0x6800:01 PDO_REEL_NOW (11 R346). -/
def oPdoReelNow : Row := ⟨0x6800, [], 0x01, (1, 1), 8, 0x1B, false, .ro, pNSCzD, .c 0, false, .any⟩
/-- 0x6800:02 PDO_REEL_STATUS (11 R346). -/
def oPdoReelStatus : Row := ⟨0x6800, [], 0x02, (1, 1), 4, 0x07, false, .ro, pNSCzD, .c 0, false, .any⟩
/-- 0x6800:03 PDO_FAULTS (11 R346). -/
def oPdoFaults : Row := ⟨0x6800, [], 0x03, (1, 1), 8, 0x1B, false, .ro, pNSCzD, .c 0, false, .any⟩
/-- 0x6800:04 PDO_PROMISES (11 R346). -/
def oPdoPromises : Row := ⟨0x6800, [], 0x04, (1, 1), 1, 0x05, false, .ro, pNSCzD, .c 0, false, .any⟩
/-- 0x6800:05–1C Q_FILL_n, n = sub − 5 (11 R346). -/
def oPdoQFill : Row := ⟨0x6800, [], 0x05, (1, 24), 2, 0x06, false, .ro, pNSCzD, .c 0, false, .any⟩
/-- C(n)+0x00:01 CH_STATUS (11 R346). -/
def oChStatus : Row := ⟨0x3000, [(0x100, 24)], 0x01, (1, 1), 4, 0x07, false, .ro, pNSCzD, .c 0x00000000, false, .any⟩
/-- C(n)+0x00:02 CH_FAULT (11 R346). -/
def oChFault : Row := ⟨0x3000, [(0x100, 24)], 0x02, (1, 1), 2, 0x06, false, .w1c, pNSrzD, .c 0, false, .bits 0xFC00⟩
/-- C(n)+0xF0:01 ENGINE_FAULT (11 R346). -/
def oEngineFault : Row := ⟨0x30F0, [(0x100, 24)], 0x01, (1, 1), 1, 0x05, false, .ro, pNSCzD, .c 0, false, .any⟩
/-- C(n)+0xF0:02 ENGINE_FAULT_POS (11 R346). -/
def oEngineFaultPos : Row := ⟨0x30F0, [(0x100, 24)], 0x02, (1, 1), 8, 0x1B, false, .ro, pNSCzD, .c 0, false, .any⟩
/-- 0x2700:01 PORTS_ENABLED (12 R372). -/
def oPortsEnabled : Row := ⟨0x2700, [], 0x01, (1, 1), 1, 0x05, false, .rk, pNrrzD, .c 0x0A, false, .bits 0xF5⟩
/-- 0x2700:02 PORT_STATUS (12 R372). -/
def oPortStatus : Row := ⟨0x2700, [], 0x02, (1, 1), 2, 0x06, false, .ro, pNSCzD, .c 0x0002, false, .any⟩
/-- 0x2700:03 CAL_SEAL_CHANGES (12 R372). -/
def oCalSealChanges : Row := ⟨0x2700, [], 0x03, (1, 1), 4, 0x07, false, .ro, pNSCzD, .c 0, false, .any⟩
/-- 0x2701:01 IRQ_MASK (12 R372). -/
def oIrqMask : Row := ⟨0x2701, [], 0x01, (1, 1), 1, 0x05, false, .rw, prSzzD, .c 0x01, false, .any⟩
/-- 0x2701:02 IRQ_STATUS (12 R372). -/
def oIrqStatus : Row := ⟨0x2701, [], 0x02, (1, 1), 1, 0x05, false, .w1c, prSzzD, .c 0, false, .any⟩
/-- 0x2701:03 S_FRAME_ERRORS (12 R372). -/
def oSFrameErrors : Row := ⟨0x2701, [], 0x03, (1, 1), 4, 0x07, false, .ro, pNSCzD, .c 0, false, .any⟩
/-- 0x2701:04 S_DROPS (12 R372). -/
def oSDrops : Row := ⟨0x2701, [], 0x04, (1, 1), 4, 0x07, false, .ro, pNSCzD, .c 0, false, .any⟩
/-- 0x2702:01 C_FRAME_ERRORS (12 R372). -/
def oCFrameErrors : Row := ⟨0x2702, [], 0x01, (1, 1), 4, 0x07, false, .ro, pNSCzD, .c 0, false, .any⟩
/-- 0x2702:02 C_DROPS (12 R372). -/
def oCDrops : Row := ⟨0x2702, [], 0x02, (1, 1), 4, 0x07, false, .ro, pNSCzD, .c 0, false, .any⟩
/-- 0x2710:01 DEVICE_PUBKEY (12 R372). -/
def oDevicePubkey : Row := ⟨0x2710, [], 0x01, (1, 1), 57, 0x0A, false, .ro, pNSCzD, .c Config.provPubkey, false, .any⟩
/-- 0x2710:02 DEVICE_CERT (12 R372). -/
def oDeviceCert : Row := ⟨0x2710, [], 0x02, (1, 1), 187, 0x0A, false, .ro, pNSCzD, .c 0, false, .any⟩
/-- 0x2710:03 FUSES (12 R372). -/
def oFuses : Row := ⟨0x2710, [], 0x03, (1, 1), 4, 0x07, false, .ro, pNSCzD, .c 0, false, .any⟩
/-- 0x2710:04 IDCODE (12 R372). -/
def oIdcode : Row := ⟨0x2710, [], 0x04, (1, 1), 4, 0x07, false, .ro, pNSCzD, .c 0x1240874B, false, .any⟩
/-- 0x2710:05 FUSE_BLOW (12 R372). -/
def oFuseBlow : Row := ⟨0x2710, [], 0x05, (1, 1), 4, 0x07, false, .wo, pNzzzD, .c 0, false, .any⟩
/-- 0x2711:01 ATTEST_NONCE (12 R372). -/
def oAttestNonce : Row := ⟨0x2711, [], 0x01, (1, 1), 32, 0x0A, false, .rw, pNSCzD, .c 0, true, .any⟩
/-- 0x2711:02 ATTEST_STATUS (12 R372). -/
def oAttestStatus : Row := ⟨0x2711, [], 0x02, (1, 1), 1, 0x05, false, .ro, pNSCzD, .c 0, true, .any⟩
/-- 0x2711:03 ATTEST_REPORT (12 R372). -/
def oAttestReport : Row := ⟨0x2711, [], 0x03, (1, 1), 390, 0x0A, false, .ro, pNSCzD, .c 0, true, .any⟩
/-- 0x2720+s:01 FW_SLOT_STATE (12 R372). -/
def oFwSlotState : Row := ⟨0x2720, [(0x1, 4)], 0x01, (1, 1), 4, 0x07, false, .ro, pNSCzD, .c 0, false, .any⟩
/-- 0x2720+s:02 FW_SLOT_VERSION (12 R372). -/
def oFwSlotVersion : Row := ⟨0x2720, [(0x1, 4)], 0x02, (1, 1), 4, 0x07, false, .ro, pNSCzD, .c 0, false, .any⟩
/-- 0x2720+s:03 FW_SLOT_HASH (12 R372). -/
def oFwSlotHash : Row := ⟨0x2720, [(0x1, 4)], 0x03, (1, 1), 64, 0x0A, false, .ro, pNSCzD, .c 0, false, .any⟩
/-- 0x2724:01 FW_UPLOAD (12 R372). -/
def oFwUpload : Row := ⟨0x2724, [], 0x01, (1, 1), 0, 0x0F, false, .wo, pNSzzD, .c 0, false, .any⟩
/-- 0x2724:02 FW_UPLOAD_TARGET (12 R372). -/
def oFwUploadTarget : Row := ⟨0x2724, [], 0x02, (1, 1), 1, 0x05, false, .rw, pNSzzD, .c 1, true, .rng 1 2⟩
/-- 0x2725:01 FW_CTRL_SELECT (12 R372). -/
def oFwCtrlSelect : Row := ⟨0x2725, [], 0x01, (1, 1), 1, 0x05, false, .rk, pNrzzD, .c 0, false, .rng 0 1⟩
/-- 0x2725:02 FW_CONFIRM (12 R372). -/
def oFwConfirm : Row := ⟨0x2725, [], 0x02, (1, 1), 1, 0x05, false, .wo, pNzzzD, .c 0, false, .any⟩
/-- 0x2725:03 FW_TRIAL_S (12 R372). -/
def oFwTrialS : Row := ⟨0x2725, [], 0x03, (1, 1), 2, 0x06, false, .rw, pNrzzD, .c 600, false, .rng 60 3600⟩
/-- 0x2726:01 FW_CH_LOAD (12 R372). -/
def oFwChLoad : Row := ⟨0x2726, [], 0x01, (1, 1), 1, 0x05, false, .wo, pNSzzD, .c 0, false, .bits 0xC0⟩
/-- 0x2726:02 FW_CH_BANK (12 R372). -/
def oFwChBank : Row := ⟨0x2726, [], 0x02, (1, 1), 1, 0x05, false, .rk, pNSrzD, .c 0, false, .bits 0xC0⟩
/-- 0x2726:03 FW_CH_STATUS (12 R372). -/
def oFwChStatus : Row := ⟨0x2726, [], 0x03, (1, 1), 4, 0x07, false, .ro, pNSCzD, .c 0, false, .any⟩
/-- 0x2727:01 FW_ROLLBACK_FLOOR (12 R372). -/
def oFwRollbackFloor : Row := ⟨0x2727, [], 0x01, (1, 1), 1, 0x05, false, .ro, pNSCzD, .c 0, false, .any⟩
/-- 0x2727:02 FW_FLOOR_RAISE (12 R372). -/
def oFwFloorRaise : Row := ⟨0x2727, [], 0x02, (1, 1), 1, 0x05, false, .wo, pNzzzD, .c 0, false, .any⟩
/-- 0x2740:01–10 PEER_WORD_i, (12 R372). -/
def oPeerWord : Row := ⟨0x2740, [], 0x01, (1, 16), 4, 0x07, false, .rw, pNSzXD, .c 0, false, .any⟩
/-- 0x2741:01 PEER_CMD (12 R372). -/
def oPeerCmd : Row := ⟨0x2741, [], 0x01, (1, 1), 16, 0x0A, false, .wo, pNSzzD, .c 0, false, .any⟩
/-- 0x2741:02 PEER_RESP (12 R372). -/
def oPeerResp : Row := ⟨0x2741, [], 0x02, (1, 1), 16, 0x0A, false, .ro, pNSCzD, .c 0, false, .any⟩
/-- 0x2741:03 PEER_STATUS (12 R372). -/
def oPeerStatus : Row := ⟨0x2741, [], 0x03, (1, 1), 1, 0x05, false, .ro, pNSCzD, .c 0, false, .any⟩
/-- 0x2741:04 PEER_ERRORS (12 R372). -/
def oPeerErrors : Row := ⟨0x2741, [], 0x04, (1, 1), 4, 0x07, false, .ro, pNSCzD, .c 0, false, .any⟩
/-- 0x2500:01 SUPPLY_STATUS (13 R402). -/
def oSupplyStatus : Row := ⟨0x2500, [], 0x01, (1, 1), 4, 0x07, false, .ro, pNSCzD, .c 0x00000000, false, .any⟩
/-- 0x2500:02 EPISODES (13 R402). -/
def oEpisodes : Row := ⟨0x2500, [], 0x02, (1, 1), 4, 0x07, false, .ro, pNSCzD, .c 0, false, .any⟩
/-- 0x2500:03 WARN_POS (13 R402). -/
def oWarnPos : Row := ⟨0x2500, [], 0x03, (1, 1), 8, 0x1B, false, .ro, pNSCzD, .c 0, false, .any⟩
/-- 0x2500:04 RECOVER_POS (13 R402). -/
def oRecoverPos : Row := ⟨0x2500, [], 0x04, (1, 1), 8, 0x1B, false, .ro, pNSCzD, .c 0, false, .any⟩
/-- 0x2500:05 SLIP_TOTAL_MS (13 R402). -/
def oSlipTotalMs : Row := ⟨0x2500, [], 0x05, (1, 1), 4, 0x07, false, .ro, pNSCzD, .c 0, false, .any⟩
/-- 0x2500:06 MIN_VSYS (13 R402). -/
def oMinVsys : Row := ⟨0x2500, [], 0x06, (1, 1), 2, 0x06, false, .ro, pNSCzD, .c 0, false, .any⟩
/-- 0x2500:07 COUNTER_CLEAR (13 R402). -/
def oSupplyCounterClear : Row := ⟨0x2500, [], 0x07, (1, 1), 1, 0x05, false, .wo, pNSzzD, .c 0, false, .bits 0xFC⟩
/-- 0x2501:01 VSYS_NOW (13 R402). -/
def oVsysNow : Row := ⟨0x2501, [], 0x01, (1, 1), 2, 0x06, false, .ro, pNSCzD, .c 0, false, .any⟩
/-- 0x2501:02 AVP_NOW (13 R402). -/
def oAvpNow : Row := ⟨0x2501, [], 0x02, (1, 1), 2, 0x06, false, .ro, pNSCzD, .c 0, false, .any⟩
/-- 0x2501:03 AVN_NOW (13 R402). -/
def oAvnNow : Row := ⟨0x2501, [], 0x03, (1, 1), 2, 0x03, true, .ro, pNSCzD, .c 0, false, .any⟩
/-- 0x2501:04 VIO_NOW (13 R402). -/
def oVioNow : Row := ⟨0x2501, [], 0x04, (1, 1), 2, 0x06, false, .ro, pNSCzD, .c 0, false, .any⟩
/-- 0x2501:05 CTRL_TEMP (13 R402). -/
def oCtrlTemp : Row := ⟨0x2501, [], 0x05, (1, 1), 2, 0x03, true, .ro, pNSCzD, .c 0, false, .any⟩
/-- 0x2502:01 RESTART_CAUSE (13 R402). -/
def oRestartCause : Row := ⟨0x2502, [], 0x01, (1, 1), 1, 0x05, false, .ro, pNSCzD, .c 1, false, .any⟩
/-- 0x2502:02 RESTART_POS (13 R402). -/
def oRestartPos : Row := ⟨0x2502, [], 0x02, (1, 1), 8, 0x1B, false, .ro, pNSCzD, .c 0, false, .any⟩
/-- 0x2502:03 RESTARTS (13 R402). -/
def oRestarts : Row := ⟨0x2502, [], 0x03, (1, 1), 4, 0x07, false, .ro, pNSCzD, .c 0, false, .any⟩
/-- 0x2502:04 RESTART_REQ (13 R402). -/
def oRestartReq : Row := ⟨0x2502, [], 0x04, (1, 1), 2, 0x06, false, .wo, pNzzzD, .c 0, false, .vals [42330]⟩
/-- 0x2503:01 CTRL_ECC_CORR (13 R402). -/
def oCtrlEccCorr : Row := ⟨0x2503, [], 0x01, (1, 1), 4, 0x07, false, .ro, pNSCzD, .c 0, false, .any⟩
/-- 0x2503:02 CTRL_ECC_UNCORR (13 R402). -/
def oCtrlEccUncorr : Row := ⟨0x2503, [], 0x02, (1, 1), 4, 0x07, false, .ro, pNSCzD, .c 0, false, .any⟩
/-- 0x2503:03 CTRL_ECC_LAST (13 R402). -/
def oCtrlEccLast : Row := ⟨0x2503, [], 0x03, (1, 1), 4, 0x07, false, .ro, pNSCzD, .c 0, false, .any⟩
/-- 0x2503:04 CTRL_SCRUB_PERIOD (13 R402). -/
def oCtrlScrubPeriod : Row := ⟨0x2503, [], 0x04, (1, 1), 4, 0x07, false, .rk, pNSrzD, .c 10000, false, .rng 100 3600000⟩
/-- 0x2503:05 CTRL_SCRUB_POS (13 R402). -/
def oCtrlScrubPos : Row := ⟨0x2503, [], 0x05, (1, 1), 8, 0x1B, false, .ro, pNSCzD, .c 0, false, .any⟩
/-- 0x2200:01 SLATE_NOW (13 R402). -/
def oSlateNow : Row := ⟨0x2200, [], 0x01, (1, 1), 1, 0x05, false, .wo, pNSzzD, .c 0, false, .any⟩
/-- 0x2200:02 SLATE_AT (13 R402). -/
def oSlateAt : Row := ⟨0x2200, [], 0x02, (1, 1), 8, 0x1B, false, .rw, pNSzzD, .c 0, false, .any⟩
/-- 0x2200:03 SLATE_SRC_EN (13 R402). -/
def oSlateSrcEn : Row := ⟨0x2200, [], 0x03, (1, 1), 1, 0x05, false, .rk, pNSrzD, .c 0xFF, false, .any⟩
/-- 0x2200:04 SLATE_IN_EDGE (13 R402). -/
def oSlateInEdge : Row := ⟨0x2200, [], 0x04, (1, 1), 1, 0x05, false, .rk, pNSrzD, .c 0, false, .bits 0xFE⟩
/-- 0x2200:05 SLATE_CHAIN (13 R402). -/
def oSlateChain : Row := ⟨0x2200, [], 0x05, (1, 1), 8, 0x1B, false, .wo, pNSzzD, .c 0, false, .any⟩
/-- 0x2201:01 SLATE_HEAD (13 R402). -/
def oSlateHead : Row := ⟨0x2201, [], 0x01, (1, 1), 4, 0x07, false, .ro, pNSCzD, .c 0, false, .any⟩
/-- 0x2201:02 SLATE_SEL (13 R402). -/
def oSlateSel : Row := ⟨0x2201, [], 0x02, (1, 1), 4, 0x07, false, .rw, pNSCzD, .c 0, true, .any⟩
/-- 0x2201:03 SLATE_READ (13 R402). -/
def oSlateRead : Row := ⟨0x2201, [], 0x03, (1, 1), 0, 0x0F, false, .ro, pNSCzD, .c 0, false, .any⟩
/-- 0x2201:04 SLATE_LOCK (13 R402). -/
def oSlateLock : Row := ⟨0x2201, [], 0x04, (1, 1), 2, 0x06, false, .rw, pNSzzD, .c 0, false, .any⟩
/-- 0x2201:05 SLATE_DIR (13 R402). -/
def oSlateDir : Row := ⟨0x2201, [], 0x05, (1, 1), 0, 0x0F, false, .ro, pNSCzD, .c 0, false, .any⟩
/-- 0x2201:06 SLATE_DROPPED (13 R402). -/
def oSlateDropped : Row := ⟨0x2201, [], 0x06, (1, 1), 4, 0x07, false, .ro, pNSCzD, .c 0, false, .any⟩
/-- 0x2201:07 COUNTER_CLEAR (13 R402). -/
def oSlateCounterClear : Row := ⟨0x2201, [], 0x07, (1, 1), 1, 0x05, false, .wo, pNSzzD, .c 0, false, .bits 0xFE⟩
/-- 0x4800+0x10k:01 DIE_TEMP (13 R402). -/
def oDieTemp : Row := ⟨0x4800, [(0x10, 6)], 0x01, (1, 1), 2, 0x03, true, .ro, pNSCzD, .c 0, false, .any⟩
/-- 0x4800+0x10k:02 V_CORE (13 R402). -/
def oVCore : Row := ⟨0x4800, [(0x10, 6)], 0x02, (1, 1), 2, 0x06, false, .ro, pNSCzD, .c 0, false, .any⟩
/-- 0x4800+0x10k:03 V_ANA_P (13 R402). -/
def oVAnaP : Row := ⟨0x4800, [(0x10, 6)], 0x03, (1, 1), 2, 0x06, false, .ro, pNSCzD, .c 0, false, .any⟩
/-- 0x4800+0x10k:04 V_ANA_N (13 R402). -/
def oVAnaN : Row := ⟨0x4800, [(0x10, 6)], 0x04, (1, 1), 2, 0x03, true, .ro, pNSCzD, .c 0, false, .any⟩
/-- 0x4800+0x10k:05 ECC_CORR (13 R402). -/
def oEccCorr : Row := ⟨0x4800, [(0x10, 6)], 0x05, (1, 1), 4, 0x07, false, .ro, pNSCzD, .c 0, false, .any⟩
/-- 0x4800+0x10k:06 ECC_UNCORR (13 R402). -/
def oEccUncorr : Row := ⟨0x4800, [(0x10, 6)], 0x06, (1, 1), 4, 0x07, false, .ro, pNSCzD, .c 0, false, .any⟩
/-- 0x4800+0x10k:07 ECC_LAST (13 R402). -/
def oEccLast : Row := ⟨0x4800, [(0x10, 6)], 0x07, (1, 1), 4, 0x07, false, .ro, pNSCzD, .c 0, false, .any⟩
/-- 0x4800+0x10k:08 MC_RELOADS (13 R402). -/
def oMcReloads : Row := ⟨0x4800, [(0x10, 6)], 0x08, (1, 1), 4, 0x07, false, .ro, pNSCzD, .c 0, false, .any⟩
/-- 0x4800+0x10k:09 SCRUB_PERIOD (13 R402). -/
def oScrubPeriod : Row := ⟨0x4800, [(0x10, 6)], 0x09, (1, 1), 4, 0x07, false, .rk, pNSrzD, .c 10000, false, .rng 100 3600000⟩
/-- 0x4800+0x10k:0A SCRUB_POS (13 R402). -/
def oScrubPos : Row := ⟨0x4800, [(0x10, 6)], 0x0A, (1, 1), 8, 0x1B, false, .ro, pNSCzD, .c 0, false, .any⟩
/-- 0x4800+0x10k:0B TELEM_PERIOD (13 R402). -/
def oTelemPeriod : Row := ⟨0x4800, [(0x10, 6)], 0x0B, (1, 1), 2, 0x06, false, .rk, pNSrzD, .c 100, false, .rng 10 10000⟩
/-- 0x4800+0x10k:0C TELEM_STATUS (13 R402). -/
def oTelemStatus : Row := ⟨0x4800, [(0x10, 6)], 0x0C, (1, 1), 1, 0x05, false, .ro, pNSCzD, .c 0, false, .any⟩
/-- 0x4800+0x10k:0D COUNTER_CLEAR (13 R402). -/
def oDieCounterClear : Row := ⟨0x4800, [(0x10, 6)], 0x0D, (1, 1), 1, 0x05, false, .wo, pNSzzD, .c 0, false, .bits 0xF8⟩
/-- C(n)+0xB9:01 TRK_MODE (13 R402). -/
def oTrkMode : Row := ⟨0x30B9, [(0x100, 24)], 0x01, (1, 1), 1, 0x05, false, .rk, pNSrzD, .c 0, false, .rng 0 2⟩
/-- C(n)+0xB9:02 TRK_FLOOR (13 R402). -/
def oTrkFloor : Row := ⟨0x30B9, [(0x100, 24)], 0x02, (1, 1), 2, 0x06, false, .rk, pNSrzD, .c 205, false, .rng 0 2047⟩
/-- C(n)+0xB9:03 TRK_SPAN (13 R402). -/
def oTrkSpan : Row := ⟨0x30B9, [(0x100, 24)], 0x03, (1, 1), 2, 0x06, false, .rk, pNSrzD, .c 1638, false, .rng 0 2047⟩
/-- C(n)+0xB9:04 TRK_DECAY (13 R402). -/
def oTrkDecay : Row := ⟨0x30B9, [(0x100, 24)], 0x04, (1, 1), 2, 0x06, false, .rk, pNSrzD, .c 16, false, .rng 1 2047⟩
/-- C(n)+0xB9:05 TRK_NOW (13 R402). -/
def oTrkNow : Row := ⟨0x30B9, [(0x100, 24)], 0x05, (1, 1), 4, 0x07, false, .ro, pNSCzD, .c 0, false, .any⟩

/-- Rows of the dictionary, part Dev 0. -/
def rowsDev0 : List Row :=
  [oDieCount, oCtrlDieDesc, oChDieDesc, oRefDieDesc, oLinkCount, oLinkStatus, oFabricClear, oReelSource, oMainsBand, oRefclkDiv, oPpsMult, oReelNom, oPllBw, oLockThresh, oSlewLimit, oMainsPhase, oPpsEdge, oHoldoverAlarm, oReelStatus, oReelNow, oCycleLen, oPhaseErr, oHoldoverCount, oSlipTotal, oLastHoldover, oReelCounterClear, oCyclePreset, oHop, oRoundTrip, oOneWay]
/-- Rows of the dictionary, part Dev 1. -/
def rowsDev1 : List Row :=
  [oLinkTiming, oCrcErrors, oAsymTrim, oDownstreamEn, oSyncPos, oSyncIssue, oSyncLastNum, oSyncLastPos, oSyncLate, oCtrlQueueConfig, oCtrlQueueStatus, oCtrlQueueSel, oCtrlQueueDrain, oCtrlPoolFree, oChainCut, oChainCutRx, oDeviceStatus, oUptime, oFaultSummary, oFaultLatch, oEmcyMask, oEmcyLost, oEventHead, oEventSel, oEvent, oEventLog, oPortnStatus, oRxRepeats, oRxRejects, oWatchdogExpiries]
/-- Rows of the dictionary, part Dev 2. -/
def rowsDev2 : List Row :=
  [oPortnCounterClear, oSlateNow, oSlateAt, oSlateSrcEn, oSlateInEdge, oSlateChain, oSlateHead, oSlateSel, oSlateRead, oSlateLock, oSlateDir, oSlateDropped, oSlateCounterClear]
/-- Rows of the dictionary, part Dev. -/
def rowsDev : List Row := rowsDev0 ++ rowsDev1 ++ rowsDev2
/-- Rows of the dictionary, part Ch0 0. -/
def rowsCh00 : List Row :=
  [oSrcEnable, oSrcMode, oSrcOrigin, oSrcCode, oSrcRateNum, oSrcRateDen, oSrcStart, oSrcInterp, oSrcRef, oCodeLimit, oStepThresh, oStepHoldUs, oRelaySettleUs, oSrcRamp, oSrcQOwner, oSrcStatus, oQFill, oUnderruns, oOverflows, oClamps, oStepHolds, oHoldForced, oRateClips, oCodeNow, oSrcCounterClear, oPeekMiss, oSrcQData, oSineMode, oSineInc, oSineRatioNum]
/-- Rows of the dictionary, part Ch0 1. -/
def rowsCh01 : List Row :=
  [oSineRatioDen, oSinePhase, oSineAmpl, oSineOffset, oSineAdvance, oSinePhaseNow, oSineStatus, oChStatus, oChFault]
/-- Rows of the dictionary, part Ch0. -/
def rowsCh0 : List Row := rowsCh00 ++ rowsCh01
/-- Rows of the dictionary, part Ch4 0. -/
def rowsCh40 : List Row :=
  [oRangeActive, oDriverState, oPattern, oOverlapUs, oSettleUs, oHoldUs, oStageGain, oModes, oPeFunc, oInput, oBlock, oOctaves, oTagExclude, oCourseSync, oPeRestart, oPeStatus, oResults, oPartialDiscards, oPeLast, oMonMode, oThHi, oThLo, oHyst, oTripCond, oAction, oEscUs, oTripFilter, oLatchMode, oBlank, oAuxSel]
/-- Rows of the dictionary, part Ch4 1. -/
def rowsCh41 : List Row :=
  [oMonStatus, oTrips, oLastTripPos, oVerifyDiffHi, oVerifyDiffLo, oVerifyPos, oGuardLatch, oVerifyCtrl, oVerifyTol, oVerifyStale, oVerifyReq, oVerifyStatus, oMonStates, oGuardRequired, oGuardCounterClear, oVmCorr, oImCorr, oSrcCorr, oSrcSelfcal, oSelfcalStatus, oTrimVOffset, oTrimVGain, oTrimIOffset, oTrimIGain, oSelfcalPos, oEngineFault, oEngineFaultPos, oTrkMode, oTrkFloor, oTrkSpan]
/-- Rows of the dictionary, part Ch4 2. -/
def rowsCh42 : List Row :=
  [oTrkDecay, oTrkNow]
/-- Rows of the dictionary, part Ch4. -/
def rowsCh4 : List Row := rowsCh40 ++ rowsCh41 ++ rowsCh42
/-- Rows of the dictionary, part Ch1 0. -/
def rowsCh10 : List Row :=
  [oArrEnable, oArrMode, oAperture, oArrStart, oInputSel, oRange, oFilter, oRefSel, oSched, oRotEnable, oRotInterval, oCalAperture, oStaleLimit, oNbrLimit, oUrgentReq, oUrgentAp, oUrgentSrc, oUrgentTake, oUrgentPos, oUrgentCount, oUrgentMerged, oUrgentDropped, oArrStatus, oSliceMap, oInvalidRemain, oOvrCount, oAbortCount, oShortApertures, oRotations, oRetirements]
/-- Rows of the dictionary, part Ch1 1. -/
def rowsCh11 : List Row :=
  [oArrCounterClear, oSliceState, oGainTrim, oOffsetTrim, oCalPos, oNbrDiff, oTapNow, oTapStatus]
/-- Rows of the dictionary, part Ch1. -/
def rowsCh1 : List Row := rowsCh10 ++ rowsCh11
/-- Rows of the dictionary, part Ch2 0. -/
def rowsCh20 : List Row :=
  [oVmLatest, oImLatest, oVmLatestPos, oImLatestPos, oUncorrected, oEccCorrected, oEccDrops, oTakeCounterClear, oQueueConfig, oQueueStatus, oPoolFree, oQueueSel, oQueueDrain, oQueueFlush, oCrrSel, oCrrWindow, oHeadMap, oLoopMode, oLoopRate, oCoefActive, oCoefSwitch, oLoopSp, oLoopSpStaged, oSpOrigin, oLimHi, oLimLo, oXoverCount, oSafeCode, oSafeHoldUs, oFrozenPeriods]
/-- Rows of the dictionary, part Ch2 1. -/
def rowsCh21 : List Row :=
  [oFrozenMove, oCoastMax, oLeUrgent, oSafeSlate, oXoverRelease, oLoopStatus, oLoopFault, oLoopOut, oLoopErr, oOverruns, oConsecOverruns, oWorstTicks, oAdmittedTicks, oXovers, oCoastPeriods, oEccRetries, oFaultPos, oLoopCounterClear, oKp, oKi, oKd, oPidShift, oKpL, oKiL, oKdL, oPidShiftL, oBqCount, oUMax, oUMin, oSlewMax]
/-- Rows of the dictionary, part Ch2 2. -/
def rowsCh22 : List Row :=
  [oFf0, oFf1, oFfShift, oBqB0, oBqB1, oBqB2, oBqA1, oBqA2, oBqShift]
/-- Rows of the dictionary, part Ch2. -/
def rowsCh2 : List Row := rowsCh20 ++ rowsCh21 ++ rowsCh22
/-- Rows of the dictionary, part Pdo. -/
def rowsPdo : List Row :=
  [oCourseResults, oVmTake, oImTake, oVmPos, oImPos, oHead, oHeadValid, oBankA, oBankB, oBankState, oMcfgTable, oRxCtrl, oRxSrcCode, oRxLoopSp, oRxCutArg, oQCount, oQCode, oPdoReelNow, oPdoReelStatus, oPdoFaults, oPdoPromises, oPdoQFill]
/-- Rows of the dictionary, part Ch3 0. -/
def rowsCh30 : List Row :=
  [oSeqCmd, oStartBank, oSeqStatus, oCurCourse, oCurSegment, oCutReq, oCutSrc, oCutLastPos, oCutLast, oCuts, oCutsMerged, oCutsDropped, oBankLates, oBankLate, oSeqGroups, oTrigFilter, oHoldPos, oSeqCounterClear, oBankEnd, oLoopStart, oBankFlags, oBankReady, oPatchTarget, oPatchData, oPatches, oVecMap, oVecCmpDelay, oVecDeglitch, oVecOffset, oVecLevels]
/-- Rows of the dictionary, part Ch3 1. -/
def rowsCh31 : List Row :=
  [oVecFail, oVecFails, oVecFailPos, oMarkWidth, oMarkOffsetA, oMarkOffsetB, oMarkLevels]
/-- Rows of the dictionary, part Ch3. -/
def rowsCh3 : List Row := rowsCh30 ++ rowsCh31
/-- Rows of the dictionary, part Ref 0. -/
def rowsRef0 : List Row :=
  [oCalStatement, oCalStagedHash, oLastAuthSeq, oCalStatus, oLedgerLead, oAuthKey, oAuthKeyFactory, oLedgerStatus, oHeadSeq, oHeadHash, oLedgerFree, oAgeNow, oPowerUps, oRecordSel, oRecord, oBaselineReq, oHostUtc, oLedgerBase, oLedgerSize, oLedgerSkips, oLedgerLost, oDriftSelect, oDriftFirstSeq, oDriftLastSeq, oDriftAt, oDriftRun, oDriftN, oDriftSlope, oDriftUSlope, oDriftPred]
/-- Rows of the dictionary, part Ref 1. -/
def rowsRef1 : List Row :=
  [oDriftUPred, oDriftChi2, oDriftStatus, oRefStatus, oOvenSetpoint, oRefDieTemp, oSubstrateTemp, oHeaterPower, oRefTrimNow, oExtLevel, oOvenEvents, oCompPoint, oCompCount, oRefSwitch, oCmpChannel, oCmpAperture, oCmpTakes, oCmpPairs, oCmpInterval, oCmpStart, oCmpStatus, oCmpLastSeq, oCmpLastRatio, oCmpSkipped, oStdValue, oStdU, oStdId]
/-- Rows of the dictionary, part Ref. -/
def rowsRef : List Row := rowsRef0 ++ rowsRef1
/-- Rows of the dictionary, part Arb 0. -/
def rowsArb0 : List Row :=
  [oArbMode, oArbStatus, oArbClear, oArbCommit, oArbCommitPos, oPrio, oDlOffset, oGrace, oArbInForce, oResStatus, oLates, oBreaks, oBreakLast, oHintMisses, oHoldOverruns, oTxnOpen, oTxnCurrent, oTxnWrites, oTxnBytes, oKeystone, oTxnAbort, oTxnSel, oTxnStatus, oTxnPos, oTxnRefused, oTxnSummary, oCommits, oAborts, oSplits, oSlateOnSplit]
/-- Rows of the dictionary, part Arb 1. -/
def rowsArb1 : List Row :=
  [oHostHold, oHostRelease, oHintLast, oSupplyStatus, oEpisodes, oWarnPos, oRecoverPos, oSlipTotalMs, oMinVsys, oSupplyCounterClear, oVsysNow, oAvpNow, oAvnNow, oVioNow, oCtrlTemp, oRestartCause, oRestartPos, oRestarts, oRestartReq, oCtrlEccCorr, oCtrlEccUncorr, oCtrlEccLast, oCtrlScrubPeriod, oCtrlScrubPos]
/-- Rows of the dictionary, part Arb. -/
def rowsArb : List Row := rowsArb0 ++ rowsArb1
/-- Rows of the dictionary, part Sec 0. -/
def rowsSec0 : List Row :=
  [oPromise, oPromiseStatus, oPromiseRefusals, oPortsEnabled, oPortStatus, oCalSealChanges, oIrqMask, oIrqStatus, oSFrameErrors, oSDrops, oCFrameErrors, oCDrops, oDevicePubkey, oDeviceCert, oFuses, oIdcode, oFuseBlow, oAttestNonce, oAttestStatus, oAttestReport, oFwSlotState, oFwSlotVersion, oFwSlotHash, oFwUpload, oFwUploadTarget, oFwCtrlSelect, oFwConfirm, oFwTrialS, oFwChLoad, oFwChBank]
/-- Rows of the dictionary, part Sec 1. -/
def rowsSec1 : List Row :=
  [oFwChStatus, oFwRollbackFloor, oFwFloorRaise, oPeerWord, oPeerCmd, oPeerResp, oPeerStatus, oPeerErrors]
/-- Rows of the dictionary, part Sec. -/
def rowsSec : List Row := rowsSec0 ++ rowsSec1
/-- Rows of the dictionary, part Comm. -/
def rowsComm : List Row :=
  [oDeviceType, oDeviceName, oHwVersion, oSwVersion, oVendorId, oProductCode, oRevision, oSerial, oRxMap, oTxMap, oTxMapDev, oSmType, oRxAssign, oTxAssign, oOutSyncType, oOutCycle, oOutShift, oSyncSupported, oMinCycle, oCalcCopyOut, oSmEventMissed, oInSyncType, oInCycle, oInShift, oCalcCopyIn]
/-- Rows of the dictionary, part Die. -/
def rowsDie : List Row :=
  [oDieTemp, oVCore, oVAnaP, oVAnaN, oEccCorr, oEccUncorr, oEccLast, oMcReloads, oScrubPeriod, oScrubPos, oTelemPeriod, oTelemStatus, oDieCounterClear]

/-- The rows that may hold an index: the parts of the layout of Table 11.3. -/
def rowsNear (index : Nat) : List Row :=
  if index < 0x2000 then rowsComm
  else if index < 0x2300 then rowsDev
  else if index < 0x2600 then rowsArb
  else if index < 0x2700 then rowsRef
  else if index < 0x3000 then rowsSec
  else if index < 0x4800 then
    (if index % 0x100 < 0x30 then rowsCh0
     else if index % 0x100 < 0x50 then rowsCh1
     else if index % 0x100 < 0x80 then rowsCh2
     else if index % 0x100 < 0xA0 then rowsCh3
     else rowsCh4)
  else if index < 0x5000 then rowsDie
  else rowsPdo

/-- Whether `d`, an index less its row's base, is made of strides of `dims`. -/
def dimsFit : List (Nat × Nat) → Nat → Bool
  | [], d => d == 0
  | (st, n) :: t, d => (d / st < n) && dimsFit t (d % st)

/-- The place of an index in each dimension of its row. -/
def dimsPlace : List (Nat × Nat) → Nat → List Nat
  | [], _ => []
  | (st, _) :: t, d => d / st :: dimsPlace t (d % st)

/-- The row holds this index. -/
def rowHasIx (r : Row) (index : Nat) : Bool := r.ix ≤ index && dimsFit r.dims (index - r.ix)

/-- The row holds this subindex. -/
def rowHasSub (r : Row) (sub : Nat) : Bool :=
  r.sub ≤ sub && (sub - r.sub) % r.subs.1 == 0 && (sub - r.sub) / r.subs.1 < r.subs.2

/-- The rows of an index (R329): none where the index is reserved. -/
def rowsAt (index : Nat) : List Row := (rowsNear index).filter fun r => rowHasIx r index

/-- The row of an index and subindex. -/
def rowOf (index sub : Nat) : Option Row := (rowsAt index).find? fun r => rowHasSub r sub

/-- The offset of places in the dimensions of a row. -/
def dimsOff : List (Nat × Nat) → List Nat → Nat
  | (st, _) :: t, p :: ps => st * p + dimsOff t ps
  | _, _ => 0

end Sys2Proof.Machine
end

