-- ==== Sys2Proof/Machine/Base.lean ====
section
/-! DEFINITION. Helpers with no state: bit fields (R7, R8), byte order (R7), signed values (R8), rounding where the manual names
no rule, position comparison (R11), the sparse tables in canonical form, CRC-16/CCITT-FALSE. -/

namespace Sys2Proof.Machine

/-- Bits [lo + n − 1 : lo] of `v` (R7). -/
def getField (v lo n : Nat) : Nat := v / 2 ^ lo % 2 ^ n

/-- Bit `i` of `v` (R7). -/
def bitOf (v i : Nat) : Bool := v / 2 ^ i % 2 == 1

/-- A flag at bit `i`. -/
def flagAt (b : Bool) (i : Nat) : Nat := if b then 2 ^ i else 0

/-- `v` with bit `i` set. -/
def setBit (v i : Nat) : Nat := if bitOf v i then v else v + 2 ^ i

/-- `v` with bit `i` clear. -/
def clearBit (v i : Nat) : Nat := if bitOf v i then v - 2 ^ i else v

/-- Each bit of `v` that is 1 in `m` cleared (W1C, Table 0.4), over `n` bits. -/
def clearMask : Nat → Nat → Nat → Nat
  | 0, v, _ => v
  | n + 1, v, m => clearMask n (if bitOf m n then clearBit v n else v) m

/-- The two's-complement value of the low `bits` bits (R8). -/
def toSigned (bits v : Nat) : Int :=
  if 2 * (v % 2 ^ bits) < 2 ^ bits then ((v % 2 ^ bits : Nat) : Int) else ((v % 2 ^ bits : Nat) : Int) - ((2 ^ bits : Nat) : Int)

/-- The low `bits` bits of a two's-complement value (R8). -/
def ofSigned (bits : Nat) (i : Int) : Nat := (i % ((2 ^ bits : Nat) : Int)).toNat

/-- A value held between two bounds. -/
def clampInt (lo hi i : Int) : Int := if i < lo then lo else if hi < i then hi else i

/-- A value saturated to a signed width. -/
def satSigned (bits : Nat) (i : Int) : Int := clampInt (-((2 ^ (bits - 1) : Nat) : Int)) (((2 ^ (bits - 1) : Nat) : Int) - 1) i

/-- The bytes of a value, least significant first (R7). -/
def leBytes : Nat → Nat → List Byte
  | 0, _ => []
  | n + 1, v => BitVec.ofNat 8 v :: leBytes n (v / 256)

/-- The value of bytes, least significant first (R7). -/
def ofBytes : List Byte → Nat
  | [] => 0
  | b :: t => b.toNat + 256 * ofBytes t

/-- A quotient whose rounding the manual does not state: exact where it divides, else one of the two neighbours, the choice open
(free value `Config.roundsUp`, log 4). -/
def roundOpen (num den : Int) : Int :=
  if num % den = 0 then num / den
  else if Config.roundsUp num den then num / den + 1 else num / den

/-- The integer root of `n` among `r` to r + 2^k − 1. -/
def isqrtFrom : Nat → Nat → Nat → Nat
  | 0, _, r => r
  | k + 1, n, r => if (r + 2 ^ k) * (r + 2 ^ k) ≤ n then isqrtFrom k n (r + 2 ^ k) else isqrtFrom k n r

/-- The integer part of a root, of numbers below 2^1024. -/
def isqrt (n : Nat) : Nat := isqrtFrom 512 n 0

/-- The root of a quotient, rounded as `roundOpen` rounds: exact where it is whole, else one of the two neighbours (log 4). -/
def rootOpen (num den : Nat) : Nat :=
  let q := isqrt (num / den)
  if q * q * den = num then q else if Config.roundsUp (num : Nat) (den : Nat) then q + 1 else q

/-- A quotient truncated toward zero. -/
def quotTrunc (num den : Int) : Int := Int.tdiv num den

/-- A quotient rounded to nearest, ties away from zero. -/
def quotNearestAway (num den : Int) : Int :=
  if 0 ≤ num then (2 * num + den) / (2 * den) else -((2 * (-num) + den) / (2 * den))

/-- The modulus of Reel positions. -/
def posMod : Nat := 2 ^ 64

/-- Position `p` lies later than `q` (R11). -/
def posLater (p q : Nat) : Bool :=
  let d := (p + posMod - q % posMod) % posMod
  0 < d && d < 2 ^ 63

/-- Position `p` equals `q` or lies later (R11). -/
def posReached (p q : Nat) : Bool := p % posMod == q % posMod || posLater p q

/-- A counter that stops at its largest value (R346). -/
def countUp (max v k : Nat) : Nat := if v + k < max then v + k else max

/-- The value a sparse table lists for a key. -/
def tabFind : List (Nat × Nat) → Nat → Option Nat
  | [], _ => none
  | (k, v) :: t, q => if k = q then some v else tabFind t q

/-- The value a sparse table holds: the default where the key is not listed. -/
def tabGet (t : List (Nat × Nat)) (d k : Nat) : Nat := (tabFind t k).getD d

/-- The table without a key. -/
def tabDrop (t : List (Nat × Nat)) (q : Nat) : List (Nat × Nat) := t.filter fun e => e.1 != q

/-- The table with an entry for a key, at its place. -/
def tabInsert : List (Nat × Nat) → Nat → Nat → List (Nat × Nat)
  | [], q, w => [(q, w)]
  | (k, v) :: t, q, w =>
    if k = q then (q, w) :: t else if q < k then (q, w) :: (k, v) :: t else (k, v) :: tabInsert t q w

/-- A write of a sparse table: an entry equal to the default is not listed, so equal contents are equal lists. -/
def tabPut (t : List (Nat × Nat)) (d k v : Nat) : List (Nat × Nat) := if v = d then tabDrop t k else tabInsert t k v

/-- Keys strictly rising. -/
def tabSorted : List (Nat × Nat) → Bool
  | [] => true
  | (k, _) :: t => (t.all fun e => k < e.1) && tabSorted t

/-- The canonical form of a table whose unlisted entries read as `d`: keys strictly rising, no entry equal to `d`. -/
def tabWf (d : Nat → Nat) (t : List (Nat × Nat)) : Bool := tabSorted t && t.all fun e => e.2 != d e.1

/-- One bit of CRC-16/CCITT-FALSE: polynomial 0x1021. -/
def crcBit (c : Nat) : Nat := if bitOf c 15 then (2 * c % 65536) ^^^ 0x1021 else 2 * c % 65536

/-- One byte of CRC-16/CCITT-FALSE. -/
def crcByte (c : Nat) (b : Byte) : Nat :=
  crcBit (crcBit (crcBit (crcBit (crcBit (crcBit (crcBit (crcBit (c ^^^ (b.toNat * 256)))))))))

/-- CRC-16/CCITT-FALSE: initial value 0xFFFF, no reflection, no final inversion (Table 2.4, Table 12.1). -/
def crc16 (l : List Byte) : Nat := l.foldl crcByte 0xFFFF

/-- The last element of a list of whole items, at most `n` of them, the oldest dropped first. -/
def keepLast {α : Type} (n : Nat) (l : List α) : List α := l.drop (l.length - n)

/-- A list with one element replaced. -/
def listSet {α : Type} : List α → Nat → α → List α
  | [], _, _ => []
  | _ :: t, 0, a => a :: t
  | h :: t, n + 1, a => h :: listSet t n a

end Sys2Proof.Machine
end

