-- ==== Sys2Proof/Machine/State.lean ====
section
/-! DEFINITION. The state of the device: everything the manual gives it, and the queue of commands that wait. The values of plain
objects stand in `objs`, a sparse table over the dictionary; status words of the manual are computed from the fields here. -/

namespace Sys2Proof.Machine

/-! ### 01 Architecture: links and services -/

/-- STATE of a link (Table 1.9). -/
inductive LinkState where
  | reset | training | active | retraining | lost
  deriving DecidableEq, Repr

/-- A request of a port to a Channel die, held while the die's link retrains (Table 1.6): a write or a read, by SDO or not, of one object or of a whole
one; a SEQ_CMD; a peer request by its PEER field. -/
inductive HeldReq where
  | write (sdo whole : Bool) (index sub : Nat) (data : List Byte)
  | read (sdo whole : Bool) (index sub : Nat)
  | seq (n : Ch) (v : Nat)
  | peer (field : BitVec 128)
  deriving DecidableEq, Repr

/-- What a retraining link holds (Table 1.6): a message of the fabric, a cadence record (R48), a SYNC (R233) and chain Cut lines (R234) on their way to
the die, a telemetry report (R395): temperature, V_CORE, V_ANA_P, V_ANA_N; a request of a port, an RxPDO image on its way to the die (R339), a
prepare (R314). -/
inductive LinkMsg where
  | fabric (m : FabMsg)
  | record
  | sync (num pos : Nat)
  | cut (lines : Nat)
  | telemetry (temp : Int) (vCore vAnaP vAnaN : Nat)
  | request (p : Port) (r : HeldReq)
  | rx (n : Ch) (x : RxImage)
  | prepare (p : Port) (slot : Nat)
  deriving DecidableEq, Repr

/-- One UCIe link as Tables 1.6 and 1.9 describe it. -/
structure Link where
  /-- STATE, [3:0]. -/
  st : LinkState
  /-- WIDTH in use, [7:6]. -/
  width : BitVec 2
  /-- RATE, [5]: 8 GT/s. -/
  rate8 : Bool
  /-- DEGRADED_WIDTH: a lane fault has been found since power-up. -/
  degraded : Bool
  /-- RETRIES, [23:8]. -/
  retries : Nat
  /-- RETRAINS, [31:24]. -/
  retrains : Nat
  /-- Retries of the message being sent. -/
  msgRetry : Nat
  /-- Failed attempts in a row of the training or retrain in progress. -/
  fails : Nat
  /-- The loss was announced as a Control-die restart (R37, R398). -/
  announced : Bool
  /-- A training attempt of a LOST link is in progress (Table 1.6, every 10 ms). -/
  retrying : Bool
  /-- Messages held in order while the link retrains (Table 1.6). -/
  held : List LinkMsg
  /-- Tick of the loss, or of the last attempt of a LOST link (Table 1.6). -/
  tryAt : Nat
  /-- Tick at which it last became ACTIVE (R64). -/
  activeAt : Nat
  deriving DecidableEq, Repr

/-- The services DS0 to DS7 of a Channel die (Table 1.2, Table 1.3). -/
structure Services where
  /-- SERVICE_MAP: bit i set, DSi runs a service. -/
  map : BitVec 8
  /-- The service DS7 has taken over (SPARE_IN_USE). -/
  spare : Option (Fin 8)
  /-- The failed service whose microcode DS7 is loading. -/
  loading : Option (Fin 8)
  /-- DS7 has failed while spare and idle. -/
  spareDead : Bool
  /-- The services that have stopped with no spare left (SERVICE_LOST). -/
  stopped : BitVec 8
  deriving DecidableEq, Repr

/-! ### 02 The Reel and the Cadence Unit -/

/-- A cadence record (R47): cycle number, boundary stamp and cycle length, both in 1/256 tick. -/
structure Rec where
  c : Nat
  base : Nat
  len : Nat
  deriving DecidableEq, Repr

/-- An interval of ticks, open while its end is none. -/
structure Span where
  start : Nat
  stop : Option Nat
  deriving DecidableEq, Repr

/-- A setting of 0x2100 that waits for a boundary (R62): object key, value, the first stamp a boundary that takes it may have. -/
structure ReelWait where
  key : Nat
  value : Nat
  since : Nat
  deriving DecidableEq, Repr

/-- States of the Cadence Unit (Table 2.2). -/
inductive CadState where
  | freerun | acquire | locked | holdover | relock
  deriving DecidableEq, Repr

/-- The Cadence Unit (R45 to R65, Table 2.7). -/
structure Cadence where
  /-- Published records, newest first (R48). -/
  recs : List Rec
  /-- STATE (Table 2.2). -/
  st : CadState
  /-- Source in force (Table 2.1 code). -/
  src : Nat
  /-- Stamps of the boundary events of the qualification run, newest first (R58). -/
  run : List Nat
  /-- The phase error of each event of the run, 2⁻³² cycle, within half a cycle. -/
  runPhase : List Int
  /-- The last boundary event's stamp. -/
  lastEvent : Option Nat
  /-- Length of the input cycle between the last two boundary events, 1/256 tick (R46). -/
  lastLen : Option Nat
  /-- Consecutive input cycles out of range, in LOCKED or RELOCK (Table 2.3). -/
  badFreq : Nat
  /-- Consecutive input cycles in LOCKED whose Reel frequency lies outside 1 Hz to 10 kHz (R58). -/
  badReel : Nat
  /-- Consecutive phase measurements beyond 16 × LOCK_THRESH (R58). -/
  badPhase : Nat
  /-- SOURCE_PRESENT, [10]. -/
  present : Bool
  /-- FREQ_RANGE_ERR, [11]. -/
  rangeErr : Bool
  /-- HOLDOVER_LONG, [9]. -/
  long : Bool
  /-- L_src (R61), 1/256 tick. -/
  lSrc : Nat
  /-- L_hold (Table 2.2), 1/256 tick. -/
  lHold : Nat
  /-- The phase error e of R61, 2⁻³² cycle. -/
  err : Int
  /-- Correction still to run, 1/256 tick. -/
  corrLeft : Int
  /-- Correction already run, 1/256 tick. -/
  corrRun : Int
  /-- SLIP_TOTAL before this correction, 2⁻³² cycle. -/
  slipBase : Int
  /-- Boundaries passed since the last slewed cycle was fixed. -/
  tail : Nat
  /-- Reel cycles spent in the HOLDOVER in force. -/
  holdCycles : Nat
  /-- Settings of 0x2100 that wait for a boundary (R62). -/
  waiting : List ReelWait
  /-- The cycle number waiting for its boundary (R54), and the first stamp that boundary may have. -/
  preset : Option (Nat × Nat)
  /-- Intervals in ACQUIRE, HOLDOVER or RELOCK (R60). -/
  tagged : List Span
  deriving DecidableEq, Repr

/-- A target announced on the chain: a SYNC or a chain Slate (R70, R390). -/
structure Target where
  pos : Nat
  num : Nat
  deriving DecidableEq, Repr

/-- The Zhewick link (R66 to R70). -/
structure Zhewick where
  /-- Stamp and EDGE_POS of the valid frames in a row with one hop count, newest first, at most 64 (Table 2.3). -/
  run : List (Nat × Nat)
  /-- The one-way delay applied, 1/256 tick (R67). -/
  oneWay : Int
  /-- HOP of the upstream frames of the run. -/
  upHop : Option Nat
  /-- LINK_TIMING [0]: upstream frames valid. -/
  upValid : Bool
  /-- LINK_TIMING [1]: downstream return markers seen. -/
  downSeen : Bool
  /-- LINK_TIMING [2]: MASTER_HOLDOVER received. -/
  masterHold : Bool
  /-- Intervals in which the frames followed flagged master holdover (R60). -/
  masterSpans : List Span
  /-- Tick of the last frame edge sent downstream. -/
  txEdge : Option Nat
  /-- Frame edges received from upstream. -/
  rxCount : Nat
  /-- Stamp of the last frame edge received whose return frame is still to be sent, and whether it bears the marker (R67, R356). -/
  retDue : Option (Nat × Bool)
  /-- Stamp of the edge of the last return frame sent. -/
  retEdge : Option Nat
  /-- Stamp of the edge of the last valid frame received (Table 2.3). -/
  validEdge : Option Nat
  /-- The measured round trip to be sent downstream in the PEER field (R67). -/
  trip : Option Nat
  /-- The pending SYNC (R70). -/
  sync : Option Target
  /-- The chain Slate pending (R390). -/
  slate : Option Target
  /-- The SYNC and the chain Slate last seen in a frame, taken in or discarded (R70, R390). -/
  syncSeen : Option Target
  slateSeen : Option Target
  /-- CUT_REQ [11:0] and [15:12] CUT_SEQ as sent in every frame (R234). -/
  cutLines : BitVec 12
  cutSeq : BitVec 4
  /-- Lines of a change that the next frame takes (R234). -/
  cutChange : Option (BitVec 12)
  /-- Lines the device raised itself, seen at the edge of the first frame that carries them (R234). -/
  cutOwn : BitVec 12
  /-- CUT_SEQ last received. -/
  cutSeqIn : Option (BitVec 4)
  /-- PEER fields waiting for a forward frame, and for a return frame (R356, R357). -/
  downQ : List (BitVec 128)
  upQ : List (BitVec 128)
  /-- The last forward frame sent, and the last return frame sent. -/
  txFrame : List Byte
  retFrame : List Byte
  deriving DecidableEq, Repr

/-! ### 03 The source path of a channel -/

/-- States of the source path (Table 3.4). -/
inductive SrcState where
  | off | enabling | running | disabling | tripped
  deriving DecidableEq, Repr

/-- One interval of the interpolated queue output (R81): from a slot's stamp to the next, codes j − 1 to j + 2, mode. -/
structure Seg where
  t0 : Nat
  t1 : Nat
  cm : Int
  c0 : Int
  c1 : Int
  c2 : Int
  mode : Nat
  deriving DecidableEq, Repr

/-- The step hold while engaged (R97): the value held, the tick it engaged, the tick scheduled for its release. -/
structure Hold where
  value : Int
  since : Nat
  release : Nat
  deriving DecidableEq, Repr

/-- A range change in progress (Table 3.6). -/
structure RangeChange where
  t : Nat
  target : Nat
  breakAt : Nat
  releaseAt : Nat
  broken : Bool
  deriving DecidableEq, Repr

/-- The sine generator (R82 to R87). -/
structure Sine where
  /-- φ before the advance of R86, 2⁻⁴⁸ cycle, and the stamp at which it has that value. -/
  phase : Nat
  phaseAt : Nat
  /-- φ with the advance, as of the last modulator clock. -/
  seen : Nat
  /-- Cycle number c_a and φ_a of the REEL ratio in force (R84). -/
  anchor : Nat
  anchorPhase : Nat
  /-- SINE_AMPL in force at the generator. -/
  ampl : Nat
  /-- SINE_AMPL waiting for a phase wrap (R87). -/
  amplWait : Option Nat
  /-- REEL-mode settings waiting for c_a (R84): object key and value. -/
  waiting : List (Nat × Nat)
  /-- The delay line of 86 modulator clocks (Table 3.1), newest first: SINE_AMPL × sin. -/
  delay : List Int
  deriving DecidableEq, Repr

/-- The safe-state sequencer at the modulator input (R204): held code, ramp begin tick, target, modulator clocks of the ramp. -/
structure SafeRamp where
  held : Int
  target : Int
  begin_ : Nat
  clocks : Nat
  deriving DecidableEq, Repr

/-- An entry of the source queue (R79): its word, and the slot a Sequencer's code belongs to (R213). -/
structure QEntry where
  word : Word64
  slot : Option Nat
  deriving DecidableEq, Repr

/-- The source path (R73 to R108). -/
structure Src where
  /-- STATE. -/
  st : SrcState
  gndClamp : Bool
  hizClamp : Bool
  clampCause : Nat
  /-- FORCE_EN_n driven low. -/
  forceEn : Bool
  outLimit : Bool
  compliance : Bool
  codeClamped : Bool
  /-- CODE_LIMIT has acted since the last slot or loop period (R75). -/
  clampCounted : Bool
  refSettled : Bool
  /-- The tick at which REF_SRC_SETTLED sets again (R104). -/
  settleAt : Option Nat
  primed : Bool
  /-- The source queue, queue 0, oldest first (R79). -/
  queue : List QEntry
  /-- The last code that left. -/
  lastLeft : Int
  /-- Number of the next source sample slot (R77). -/
  slot : Nat
  /-- The model's own: cycles by which renumberings have moved the slots' positions since SRC_START or SRC_RATE was last applied (log 150). -/
  shift : Nat
  /-- Tick of the last slot served. -/
  lastSlot : Option Nat
  /-- Interpolation intervals still in the resampler, newest first. -/
  segs : List Seg
  /-- The static code composition uses in origin 0 (R76). -/
  static : Int
  /-- The Loop Engine's output for the current loop period (origin 4). -/
  loopCode : Int
  /-- The channel safe state drives the modulator input (R204). -/
  safe : Option SafeRamp
  sine : Sine
  /-- The composed code, CODE_NOW. -/
  code : Int
  /-- The code after the source correction (R74). -/
  modCode : Int
  /-- Composed codes of the last ten modulator clocks, newest first (100 ticks, Table 3.1). -/
  recon : List Int
  /-- The code FORCE_OUT shows (0 while clamped). -/
  pin : Int
  /-- Tick of the last modulator clock. -/
  clock : Nat
  hold : Option Hold
  /-- Tick of the last forced release (R98). -/
  forcedAt : Option Nat
  /-- T of the enable sequence in progress (R94). -/
  enableT : Option Nat
  /-- An enable is pending behind a disable sequence (Table 3.4). -/
  enablePending : Bool
  /-- Tick and frozen code of the disable ramp (R95). -/
  rampFrom : Option (Nat × Int)
  /-- Tick at which the ramp reached code 0. -/
  rampDone : Option Nat
  /-- Levels of RANGE_SEL7 to RANGE_SEL0. -/
  rangeSel : Nat
  range : Option RangeChange
  /-- The tick at which the GND clamp joins the HIZ clamp after a reset (Table 3.3). -/
  resetGndAt : Option Nat
  deriving DecidableEq, Repr

/-! ### 04 Measure arrays -/

/-- States of an array (Table 4.6). -/
inductive ArrState where
  | off | starting | running | draining | fault
  deriving DecidableEq, Repr

/-- States of a slice (Table 4.7). -/
inductive SliceState where
  | active | spareIdle | calibrating | verify | retired
  deriving DecidableEq, Repr

/-- What a take is converted with (R112 to R115). -/
structure ArrCfg where
  input : Nat
  range : Nat
  filter : Nat
  ref : Nat
  deriving DecidableEq, Repr

/-- One slice (R127, R128). -/
structure Slice where
  st : SliceState
  /-- OFFSET_TRIM o. -/
  offset : Int
  /-- GAIN_TRIM δ, Q39. -/
  gain : Int
  /-- CAL_POS. -/
  calPos : Nat
  /-- Tick at which the last calibration completed. -/
  calTick : Nat
  /-- NBR_DIFF. -/
  nbrDiff : Int
  /-- Neighbour phases failed in a row. -/
  nbrFails : Nat
  /-- End tick of its last aperture (R111). -/
  freeAt : Nat
  /-- Tick from which it is free after an urgent conversion (R141). -/
  urgentFree : Nat
  /-- It has entered service and not yet converted a slot (SLICE_SWAP, R130). -/
  fresh : Bool
  deriving DecidableEq, Repr

/-- A slot in progress (R117 to R120). -/
structure Slot where
  /-- Slot number of its sequence, and its place among all slots of the array. -/
  k : Nat
  ord : Nat
  startPos : Nat
  endPos : Nat
  /-- Stamp of its start, and of the start of its converted part (R124). -/
  start : Nat
  conv : Nat
  role : Nat
  slice : Fin 7
  /-- The slice that fills the Pipeline gap (R120). -/
  donor : Option (Fin 7)
  /-- Trims in force when it started: own (o, δ), donor's (o, δ). -/
  trim : Int × Int
  donorTrim : Int × Int
  /-- It is the first slot its own slice converts since that entered service, and SLICE_SWAP applies (R130). -/
  fresh : Bool
  swap : Bool
  /-- A tap sample within its window has shown the overload detector fired (R137). -/
  fired : Bool
  /-- Its slice does not begin it: a restart known to the array falls inside it (R124). -/
  idle : Bool
  /-- Its slice has supplied the gap fill of a later slot (R130). -/
  gave : Bool
  cfg : ArrCfg
  /-- Course result register of the Course in progress at its start (R158). -/
  crr : Option Nat
  deriving DecidableEq, Repr

/-- A slot that has ended and waits for take formation: the trimmed value, or an abort. -/
structure Done where
  ord : Nat
  start : Nat
  stop : Nat
  value : Int
  aborted : Bool
  /-- The overload detector fired: true when the first overloaded clock was positive (R137). -/
  ovr : Option Bool
  /-- E, the end tick of the last overloaded clock. -/
  ovrEnd : Option Nat
  swap : Bool
  cfg : ArrCfg
  crr : Option Nat
  deriving DecidableEq, Repr

/-- Phases of Table 4.8. -/
inductive CalPhase where
  | zero | plus | minus | neighbour
  deriving DecidableEq, Repr

/-- The calibration of a leaving slice (R129). -/
structure Cal where
  slice : Fin 7
  role : Nat
  phase : CalPhase
  /-- Tick at which the phase began. -/
  since : Nat
  offset : Int
  gain : Int
  deriving DecidableEq, Repr

/-- The sources of an urgent request (R139). -/
inductive UrgentSrc where
  | ge | le | object
  deriving DecidableEq, Repr

/-- An urgent conversion in progress (Table 4.9). -/
structure Urgent where
  slice : Fin 7
  /-- Stamps of its aperture. -/
  start : Nat
  stop : Nat
  deriving DecidableEq, Repr

/-- The tap converter (R145). -/
structure Tap where
  /-- The last sample; none, missing. -/
  value : Option Int
  settling : Bool
  overload : Bool
  /-- Tick of the last sample. -/
  tick : Nat
  /-- Intervals flagged after RANGE changes, in ticks, newest first. -/
  settles : List (Nat × Nat)
  deriving DecidableEq, Repr

/-- The change of one tick that marked a run last (R136): its tick and t_settle, and the run as it stood before that tick. -/
structure Marked where
  tick : Nat
  ts : Nat
  first : Nat
  last : Nat
  deriving DecidableEq, Repr

/-- A measure array (R109 to R148). -/
structure Arr where
  st : ArrState
  ready : Bool
  slices : Vector Slice 7
  /-- The slice of each role; the length is R (R119). -/
  roles : List (Option (Fin 7))
  spare : Option (Fin 7)
  /-- The roles and the spare as SLICE_MAP shows them, which changes at slot boundaries (Table 4.11). -/
  shown : List (Option (Fin 7)) × Option (Fin 7)
  /-- P₀ of the sequence, its next slot, and the number of slots started since reset. -/
  p0 : Nat
  nextK : Nat
  ord : Nat
  /-- The first slot of the sequence that was served. -/
  firstK : Nat
  /-- Mode and aperture of the sequence. -/
  mode : Nat
  aperture : Nat
  slots : List Slot
  done : List Done
  /-- SEQ of the next slot take (R150). -/
  seq : Nat
  /-- Marked run of R135: first and last place, none while empty; place of the last take emitted + 1. -/
  runFirst : Nat
  runEnd : Nat
  emitted : Nat
  marked : Option Marked
  /-- Takes still to carry RECOVER (R138), and E with the register of the Course in progress at E. -/
  recover : Nat
  ovrE : Option (Nat × Option Nat)
  /-- What an aperture end last told of the overload detector: the number of its last modulator clock, and whether the detector fired on it. -/
  overClock : Option (Nat × Bool)
  refSettled : Bool
  refSettleAt : Option Nat
  calStale : Bool
  /-- Role chosen by a rotation that waits for its slot (R130), the next role in order, tick of the last rotation. -/
  rotRole : Option Nat
  nextRole : Nat
  rotTick : Nat
  cal : Option Cal
  /-- R falls at the next slot boundary (R132). -/
  dropRole : Bool
  urgentReqs : List UrgentSrc
  urgent : Option Urgent
  /-- Start position of the last Course whose enable waits for READY (Table 4.6). -/
  enableWait : Option Nat
  /-- Configurations with the tick they came into force, newest first. -/
  cfgLog : List (Nat × ArrCfg)
  /-- The settling intervals of changes, in ticks, newest first (R141). -/
  settles : List (Nat × Nat)
  tap : Tap
  deriving DecidableEq, Repr

/-! ### 05 Takes, queues and post-processing -/

/-- A hardware queue: descriptor (Table 5.8), whole records oldest first, OVERFLOWS, HIGH_WATER (Table 5.12). -/
structure Queue where
  desc : BitVec 64
  recs : List (List Word64)
  overflows : Nat
  high : Nat
  deriving DecidableEq, Repr

/-- One octave of ALLAN (Table 5.9): sum and count of the average in progress, the previous average's sum, sum of squared
differences of sums, differences. -/
structure Octave where
  sum : Int
  n : Nat
  prev : Option Int
  sq : Nat
  diffs : Nat
  deriving DecidableEq, Repr

/-- A post-processing engine (R171 to R176). -/
structure Pe where
  used : Nat
  skipped : Nat
  /-- OR of the informational tags of the inputs used. -/
  tags : Nat
  sumV : Int
  sumI : Int
  sumSq : Int
  octaves : List Octave
  /-- Aperture start of the first input used. -/
  first : Option Nat
  /-- The latest unpaired take of each array with its aperture start (R171). -/
  heldV : Option (Word64 × Nat)
  heldI : Option (Word64 × Nat)
  /-- RESULT_SEQ of the next result. -/
  seq : Nat
  /-- Results of closed blocks not yet written: words and companion. -/
  ready : List (List Word64 × Nat)
  /-- PE_LAST. -/
  last : List Word64
  deriving DecidableEq, Repr

/-! ### 06 The Loop Engine of a channel -/

/-- States of the Loop Engine (Table 6.5). -/
inductive LoopState where
  | openState | primed | primary | limit | rangeXover | safeHold | safeRamp
  deriving DecidableEq, Repr

/-- One biquad's coefficients and shift (R187). -/
structure BqCoef where
  b0 : Int
  b1 : Int
  b2 : Int
  a1 : Int
  a2 : Int
  shift : Nat
  deriving DecidableEq, Repr

/-- One biquad's histories (R187). -/
structure BqHist where
  x1 : Int
  x2 : Int
  y1 : Int
  y2 : Int
  deriving DecidableEq, Repr

/-- A coefficient set as the LE has loaded it (Table 6.10). -/
structure CoefSet where
  kp : Int
  ki : Int
  kd : Int
  shift : Nat
  kpL : Int
  kiL : Int
  kdL : Int
  shiftL : Nat
  bqCount : Nat
  bqs : List BqCoef
  uMax : Int
  uMin : Int
  /-- slew_p of R188. -/
  slewP : Int
  ff0 : Int
  ff1 : Int
  ffShift : Nat
  deriving DecidableEq, Repr

/-- The law of the period in progress: what it took in at its boundary (R180, R183, R195). -/
structure Law where
  b : Nat
  yv : Int
  yi : Int
  /-- Last sample of the fed-back array in the period (R203). -/
  last : Int
  r : Int
  limHi : Int
  limLo : Int
  /-- Ticks spent beyond `need`: the coefficient switch, and a restart of R193. -/
  extra : Nat
  /-- The set, its number and the integrator before a switch that this period commits (Table 6.8). -/
  undo : Option (CoefSet × Nat × Int)
  /-- The cycle costs of the microcode that runs it (R210). -/
  costs : Option (Nat × Nat)
  deriving DecidableEq, Repr

/-- A range change under the closed loop (R200). -/
structure LoopXover where
  /-- T + overlap and T + hold. -/
  scaleAt : Nat
  resumeAt : Nat
  /-- ρ as m × 2^(e − 100). -/
  rhoM : Int
  rhoE : Nat
  scaled : Bool
  /-- The state the law resumes in. -/
  back : LoopState
  /-- Loop objects of the same Keystone, in force from b_x: object key and value. -/
  writes : List (Nat × Nat)
  deriving DecidableEq, Repr

/-- The Loop Engine (R178 to R211). -/
structure Loop where
  st : LoopState
  /-- Limit side low. -/
  sideLow : Bool
  set : CoefSet
  /-- Number of the set in force (SET, Table 6.9). -/
  setNo : Nat
  /-- A switch awaits its boundary (COEF_PENDING). -/
  setWaits : Bool
  integ : Int
  bqs : List BqHist
  /-- u_lim of the last committed period, and the code last handed off. -/
  uPrev : Int
  uOut : Int
  yPrev : Option Int
  rPrev : Int
  /-- Error, measurement change and PID output of the last period, for the switch of R193. -/
  ePrev : Int
  dyPrev : Int
  wPrev : Int
  law : Option Law
  /-- Code handed off in this period, to enter at the next boundary. -/
  handed : Option Int
  /-- A hand-off is owed in this period: its absence at the boundary is an overrun. -/
  owed : Bool
  /-- Tick of the last boundary. -/
  boundary : Nat
  consec : Nat
  overrunLast : Bool
  coasting : Bool
  coastRun : Nat
  /-- Periods in a row in which the compliance condition held, and the side it concerns. -/
  count : Nat
  countLow : Bool
  /-- A transition decided, in force from the next law: to LIMIT (side low), or to PRIMARY (none). -/
  decided : Option (Option Bool)
  /-- The incoming quantity's value in the deciding period. -/
  decidedY : Int
  /-- XOVER_RELEASE written since the crossover. -/
  released : Bool
  slewLimited : Bool
  magLimited : Bool
  /-- Tap-frozen found by the law in progress (R203). -/
  frozenFound : Bool
  /-- Last samples and u_lim of the periods of the frozen window, newest first. -/
  window : List (Int × Int)
  /-- Soft trips on their way to the LE: monitor and side low; one that waits for its boundary. -/
  softSent : List (Mon × Option Bool)
  softWaits : Option Bool
  xover : Option LoopXover
  /-- Declaration tick of the safe state (Table 6.4). -/
  safeAt : Nat
  /-- Tap samples handed over since the last boundary, newest first: value scaled by its range, TAP_SETTLING. -/
  tapV : List (Option Int × Bool)
  tapI : List (Option Int × Bool)
  deriving DecidableEq, Repr

/-! ### 07 The Sequencer of a channel -/

/-- States of the Sequencer (Table 7.12). A wait that has released reads as DELAYING (Table 7.9). -/
inductive SeqState where
  | stopped | waiting | playing | endHold | held
  deriving DecidableEq, Repr

/-- States of a bank (R221). -/
inductive BankState where
  | idle | ready | playing
  deriving DecidableEq, Repr

/-- The release r of a wait (Table 7.3): a tick, or a Reel position. -/
inductive Release where
  | tick (t : Nat)
  | pos (p : Nat)
  deriving DecidableEq, Repr

/-- The wait of the entry selected (R216): tick of D(j₀), j₀, and the release once it is known. -/
structure SeqWait where
  since : Nat
  slot : Nat
  release : Option Release
  deriving DecidableEq, Repr

/-- A pending Cut: source code of R231 and the explicit target. -/
structure Cut where
  source : Nat
  target : Option Nat
  deriving DecidableEq, Repr

/-- A Course start decided and not yet reached (R218). -/
structure CourseBegin where
  slot : Nat
  bank : Nat
  entry : Nat
  /-- MCFG of the entry as it was decided. -/
  mcfg : Nat
  deriving DecidableEq, Repr

/-- Vector codes of a Course (R236): first slot, VDRIVE, VCMP, the slot after the last sample once it is known. -/
structure Drive where
  slot : Nat
  vdrive : Nat
  vcmp : Nat
  stop : Option Nat
  /-- The codes of a patch of a Course that goes on (R227), whose lanes may already have failed. -/
  goesOn : Bool
  deriving DecidableEq, Repr

/-- What a marker does at a slot (Table 7.5). -/
inductive MarkKind where
  | up | down | pulse
  deriving DecidableEq, Repr

/-- A marker edge to come: at s_j + 960 ticks, or with MARK_OFFSET at the ball (R238). -/
structure MarkItem where
  slot : Nat
  ball : Bool
  kind : MarkKind
  deriving DecidableEq, Repr

/-- A marker level: held high by code 0b01, and the end tick of a pulse. -/
structure MarkLevel where
  hold : Bool
  pulse : Option Nat
  deriving DecidableEq, Repr

/-- A marker output: nominal edges (Table 7.6) and the ball. -/
structure Marker where
  nominal : MarkLevel
  ball : MarkLevel
  items : List MarkItem
  deriving DecidableEq, Repr

/-- A committed patch that has not landed (R225). -/
structure Patch where
  bank : Nat
  entry : Nat
  data : Nat
  deriving DecidableEq, Repr

/-- The Sequencer (R212 to R245). -/
structure Seq where
  st : SeqState
  /-- Bank playing and entry selected. -/
  bank : Nat
  idx : Nat
  /-- Segment and sample last decided. -/
  seg : Nat
  i : Nat
  /-- The last code computed since START. -/
  last : Int
  wait : Option SeqWait
  /-- In HELD, the entry chosen next; none, entered from END_HOLD. -/
  chosen : Option Nat
  /-- Hold causes HOST, LINK and SUPPLY (R241). -/
  holdHost : Bool
  holdLink : Bool
  holdSupply : Bool
  cut : Option Cut
  landing : Bool
  /-- The slot of the next decision point. -/
  next : Nat
  starts : List CourseBegin
  /-- Course in progress (R218): bank × 8192 + entry. -/
  crr : Option Nat
  /-- The Course in progress from each tick on, newest first, as far as a window that has not become a take reaches (R138). -/
  crrLog : List (Nat × Option Nat)
  /-- Slots from which a count of completed segments stands, newest first (CUR_SEGMENT). -/
  segs : List (Nat × Nat)
  patch : Option Patch
  /-- Entries of banks A and B that are not 0, by index. -/
  bankA : List (Nat × Nat)
  bankB : List (Nat × Nat)
  stateA : BankState
  stateB : BankState
  swaps : Nat
  /-- Drive edges to come, oldest first; drive state of lane slots 0 to 7 (VDRIVE code 0, 1 or 2). -/
  drives : List Drive
  lanes : List Nat
  /-- The comparisons that may still run, newest first (R236): the codes, the tick of the drive edge, lane slots that have failed. A drive edge ahead
  of its slot (VEC_OFFSET below 0) may come while the Course that ended is still compared. -/
  compare : List (Drive × Nat × Nat)
  markA : Marker
  markB : Marker
  /-- A hold has put the markers low since the Course that ended (Table 7.12). -/
  marksLow : Bool
  /-- The entry of the Course last played, as it played: a patch that has landed in it since does not change its markers (R226, R238). -/
  played : Nat
  deriving DecidableEq, Repr

/-! ### 08 Guard monitors -/

/-- States of a monitor (Table 8.3). -/
inductive MonState where
  | off | starting | running
  deriving DecidableEq, Repr

/-- The decided state of a monitor (Table 8.2). -/
inductive Decided where
  | undecided | inside | above | below
  deriving DecidableEq, Repr

/-- A monitor (R246 to R266). -/
structure Monitor where
  st : MonState
  decided : Decided
  inBand : Bool
  /-- T of R250: the Keystone that last took it out of OFF. -/
  onAt : Nat
  /-- The tick from which COND_MET has been true without a break. -/
  condSince : Option Nat
  /-- The qualification of this COND_MET has acted (R249). -/
  acted : Bool
  /-- Tick at which the escalation ends (R254). -/
  esc : Option Nat
  /-- The escalation ended inside a blanking interval. -/
  escOver : Bool
  /-- End tick of the blanking hold (R252). -/
  blankTo : Option Nat
  /-- Tick from which the soft latch, and the hard latch, reads set; none clear (R258). -/
  soft : Option Nat
  hard : Option Nat
  /-- Deadline of a verify asked for and not yet entered at the arbiter (R259). -/
  verifyWant : Option Nat
  /-- The verify asked for last is background work: VERIFY_PERIODIC asked for it (R264). -/
  verifyBg : Bool
  /-- Grant tick of the verify in progress, and whether it is void (R261). -/
  verifyAt : Option Nat
  verifyVoid : Bool
  /-- Tick of the last completed verify. -/
  verifyLast : Option Nat
  verified : Bool
  threshFault : Bool
  verifyStale : Bool
  deriving DecidableEq, Repr

/-- A monitor in OFF. -/
def monOff : Monitor :=
  ⟨.off, .undecided, false, 0, none, false, none, false, none, none, none, none, false, none, false, none, false, false, false⟩

/-! ### 09 The Reference die, comparison, self-calibration and the ledger -/

/-- Oven states (Table 9.1). -/
inductive OvenState where
  | warmup | regulating | out | fault
  deriving DecidableEq, Repr

/-- A comparison that is scheduled or runs (R276 to R279): the copies of its settings, its progress. -/
structure Comparison where
  channel : Nat
  aperture : Nat
  takes : Nat
  pairs : Nat
  stdValue : Int
  stdU : Nat
  stdId : Nat
  /-- Port of the command, 5 for background work. -/
  origin : Nat
  /-- S, and whether Table 9.4 has begun. -/
  start : Nat
  begun : Bool
  /-- Switch position in force before S; the array's objects before S: key and value. -/
  before : Nat
  saved : List (Nat × Nat)
  /-- Place of the phase's first slot among the slots of the array. -/
  first : Nat
  /-- Pair in progress from 1, phase R, takes used and skipped in the phase, sums of the phase. -/
  pair : Nat
  reversed : Bool
  used : Nat
  skipped : Nat
  skippedAll : Nat
  sum : Int
  sumSq : Nat
  /-- Sums and sums of squares of the phases that have ended, newest first: F and R of each pair. -/
  phases : List (Int × Nat)
  /-- OVEN of Table 9.5. -/
  oven : Nat
  deriving DecidableEq, Repr

/-- The Reference die (R267 to R282, R294). -/
structure RefDie where
  oven : OvenState
  /-- The heater loop runs: on in WARMUP and REGULATING, off in OUT and FAULT (Table 9.1). -/
  heater : Bool
  settled : Bool
  ovenOut : Bool
  ovenFault : Bool
  warmupLong : Bool
  dieSensorFailed : Bool
  /-- REF_TRIM, 10⁻¹⁰. -/
  trim : Int
  clamped : Bool
  /-- Tick of the last trim update, of the last entry to the oven state, and of the last REFX measurement or movement. -/
  trimAt : Nat
  ovenSince : Nat
  extAt : Nat
  extRangeErr : Bool
  /-- The reference control link is in fault (R38). -/
  linkFault : Bool
  cmpLate : Bool
  calLoaded : Bool
  comparison : Option Comparison
  /-- Tick of the last comparison completed. -/
  lastComparison : Nat
  /-- OVEN_EVENT payloads held during a link fault or restart, at most 16, oldest first (R270). -/
  heldEvents : List (List Byte)
  deriving DecidableEq, Repr

/-- A source self-calibration of a channel (R281): the modes still to run; the trims stand in TRIM_V_OFFSET to TRIM_I_GAIN. -/
structure Selfcal where
  voltage : Bool
  current : Bool
  running : Bool
  /-- The modes that this run was asked for, which size its hold (Table 10.2). -/
  modes : Nat
  deriving DecidableEq, Repr

/-- A ledger record (Table 9.11) as the device holds it: header fields, payload, the signatures as stored. -/
structure LRecord where
  type : Nat
  flags : Nat
  seq : Nat
  effectPos : Nat
  powerUps : Nat
  authSeq : Nat
  age : Nat
  utc : Nat
  payload : List Byte
  origin : Nat
  mark : Nat
  prevHash : Nat
  devSig : Nat
  authSig : Nat
  deriving DecidableEq, Repr

/-- A record whose append has been caused and is not complete (R291). `slot` names the transaction of a CAL_SET or AUTHORITY_KEY
record: port and slot number. -/
structure Append where
  type : Nat
  payload : List Byte
  effectPos : Nat
  origin : Nat
  authSeq : Nat
  utc : Nat
  authSig : Option Nat
  /-- Tick of its cause. -/
  cause : Nat
  slot : Option (Nat × Nat)
  /-- The transaction has aborted while the record was being programmed: the cause its ABORT record names (R286). -/
  aborted : Option Nat
  deriving DecidableEq, Repr

/-- The ledger unit (R289 to R293); the records themselves stand in `Nv`. -/
structure Ledger where
  queue : List Append
  scanDone : Bool
  broken : Option Nat
  torn : Bool
  full : Bool
  unconfirmed : Bool
  lastApplied : Bool
  calAborted : Bool
  /-- AGE in ms at tick 0 of this epoch (R291), power-ups since GENESIS. -/
  ageBase : Nat
  powerUps : Nat
  /-- Tick at which the last record was appended (R291, CHECKPOINT). -/
  lastAt : Nat
  /-- HOST_UTC: the value and the tick of its write. -/
  utc : Option (Nat × Nat)
  /-- Records applied whose APPLY_MARK is still to be programmed: SEQ and tick of the apply. -/
  marks : List (Nat × Nat)
  /-- The record whose program a reset found in progress, and its pages: it may still complete (R381, Table 13.15), else it is torn (R292). -/
  program : Option (LRecord × Nat)
  deriving DecidableEq, Repr

/-! ### 10 Arbiters and transactions -/

/-- A request that waits on a unit (R298). -/
structure Request where
  /-- Requester identifier: class in bits [15:12], instance in [11:0]. -/
  id : Nat
  deadline : Nat
  /-- Entry tick. -/
  entry : Nat
  /-- Grants of the unit to others while it waits (R307). -/
  passed : Nat
  /-- Last hint given, a Reel position; none is "none" (R301). -/
  hint : Option Nat
  /-- It has gone late (R303). -/
  late : Bool
  deriving DecidableEq, Repr

/-- A grant of a unit, or of one of its slots (R300). -/
structure Grant where
  id : Nat
  /-- Tick and Reel position of the grant, and the deadline its request had. -/
  tick : Nat
  pos : Nat
  deadline : Nat
  /-- Kept for HOST_HOLD (R304). -/
  host : Bool
  /-- It has been counted in HOLD_OVERRUNS. -/
  overrun : Bool
  /-- The tick at which it ends by itself (R315, Table 10.2); none, when its holder drops it. -/
  drop : Option Nat
  deriving DecidableEq, Repr

/-- A shared unit that is held or waited on (Table 10.1): grants and waiting requests, oldest first. -/
structure Shared where
  unit : Nat
  grants : List Grant
  waiters : List Request
  /-- The first tick at which a slot freed by HOST_RELEASE is granted (Table 10.7). -/
  freeFrom : Nat
  deriving DecidableEq, Repr

/-- The values of the arbiter in force (R308): mode, and PRIO, DL_OFFSET and GRACE by class. -/
structure ArbValues where
  mode : Nat
  prio : List Nat
  offset : List Nat
  grace : List Nat
  deriving DecidableEq, Repr

/-- The arbiters of the device (R296 to R310). -/
structure Arbiter where
  /-- Units held or waited on, ascending resource number. -/
  units : List Shared
  /-- Values in force. -/
  now : ArbValues
  /-- An ARB_COMMIT that waits: position and the copy taken (R308). -/
  commit : Option (Nat × ArbValues)
  /-- Tick of the last wait-graph scan. -/
  scanAt : Nat
  /-- Identifiers of background work that is late with no request entered (R303, R393). -/
  lateWork : List Nat
  deriving DecidableEq, Repr

/-- Transaction states (Table 10.3). -/
inductive TxState where
  | free | opened | preparing | committed | applied | aborted | split
  deriving DecidableEq, Repr

/-- One staged write (R311). -/
structure Staged where
  index : Nat
  sub : Nat
  data : List Byte
  deriving DecidableEq, Repr

/-- A transaction slot (R311 to R319). Masks number the dies as DIE_MASK (Table 10.12). -/
structure Txn where
  st : TxState
  cause : Nat
  /-- P, and the vote deadline as a tick. -/
  pos : Nat
  /-- Staged writes in the order of their last acceptance. -/
  staged : List Staged
  mask : Nat
  applied : Nat
  /-- TXN_REFUSED (R318). -/
  refused : Nat
  /-- Number of the admission of its Keystone among all (R315). -/
  order : Nat
  /-- Dies at which the prepare has run, dies whose yes vote has arrived, dies that hold a yes or no vote to send. -/
  prepared : Nat
  voted : Nat
  toSend : Nat
  /-- A no vote to send: its cause and its TXN_REFUSED value. -/
  veto : Option (Nat × Nat)
  /-- Dies that hold the decision, and dies that have presumed an abort (R316). -/
  decided : Nat
  presumed : Nat
  /-- Units to acquire, ascending. -/
  units : List Nat
  /-- The CAL_SET or AUTHORITY_KEY record appended in prepare: its SEQ once durable (R286). -/
  record : Option Nat
  /-- After a SPLIT, the dies whose staging the Control die has read again and reported (R316). -/
  reported : Nat
  /-- The tick of the commit decision (R323). -/
  commitAt : Nat
  deriving DecidableEq, Repr

/-- A FREE slot. -/
def txnFree : Txn := ⟨.free, 0, 0, [], 0, 0, 0, 0, 0, 0, 0, none, 0, 0, [], none, 0, 0⟩

/-- Group waits (R232): messages of channels on their way to the Control die, the arrivals it holds, release positions on their way. -/
structure Groups where
  msgs : List (Ch × Nat × Bool)
  arrived : List (Ch × Nat)
  releases : List (Ch × Nat × Nat)
  deriving DecidableEq, Repr

/-! ### 11, 12 Ports, firmware and identity -/

/-- What a port last received for a request (R332). -/
inductive Answer where
  | none
  | done (data : List Byte)
  | refused (code : Nat)
  /-- The port serves nothing (R328, R350). -/
  | unanswered
  deriving DecidableEq, Repr

/-- A response of Table 12.2, STATUS, TAG, ABORT, DATA. -/
structure Response where
  status : Nat
  tag : Byte
  abort : Nat
  data : List Byte
  deriving DecidableEq, Repr

/-- A DOMAIN write in progress (R335, R353): object, bytes so far. -/
structure Transfer where
  index : Nat
  sub : Nat
  data : List Byte
  deriving DecidableEq, Repr

/-- An attestation report being built (R362): the tick it started, bytes 0 to 275. -/
structure Attest where
  since : Nat
  body : List Byte
  deriving DecidableEq, Repr

/-- A request frame in service (R351, R353): the tick of its last byte, its operation, whether the port was closed and CAL_SEAL open then (R349,
R355). -/
structure Serving where
  since : Nat
  op : Nat
  frame : Frame
  shut : Bool
  sealOpen : Bool
  deriving DecidableEq, Repr

/-- What the device holds for one port. -/
structure PortState where
  /-- The last answer to a direct request. -/
  answer : Answer
  /-- Slots 1 to 16 (R311). -/
  txns : Vector Txn 16
  /-- TXN_CURRENT; 0 none. -/
  current : Nat
  /-- The frame in service, and the response that awaits FETCH (R351 to R353). -/
  busy : Option Serving
  response : Option Response
  transfer : Option Transfer
  /-- The initiate copy of a DOMAIN read. -/
  copy : Option Transfer
  /-- The last frame shifted out on MISO. -/
  shifted : List Byte
  attest : Option Attest
  deriving DecidableEq, Repr

/-- A segmented SDO transfer of Port N (R325): object, complete access, direction, bytes, total, toggle expected, tick of the last
segment, a response that waits. -/
structure Sdo where
  index : Nat
  sub : Nat
  complete : Bool
  upload : Bool
  data : List Byte
  total : Nat
  toggle : Bool
  at_ : Nat
  /-- Segments of an upload fill the buffer of a supply warning: the response of the last one, final or not, waits for the recovery
  (Table 12.12). -/
  waits : Option Bool
  deriving DecidableEq, Repr

/-- A message for SM1 (R325, R326, R345, R366). -/
inductive Mail where
  | sdo (data : List Byte)
  /-- An SDO abort carries the object of the refused request (R343). -/
  | abort (index sub code : Nat)
  /-- A fragment of an SDO Information response, with the number of those that follow (log 163). -/
  | info (left : Nat) (data : List Byte)
  | foeAck
  | foeError (code : Nat)
  | mailboxError
  | emergency (data : List Byte)
  deriving DecidableEq, Repr

/-- AL states (Table 11.2). -/
inductive AlState where
  | init | preop | safeop | op
  deriving DecidableEq, Repr

/-- Port N (R325 to R348). -/
structure PortN where
  al : AlState
  /-- AL status code, 0 none; the AL error bit. -/
  alCode : Nat
  alError : Bool
  watchdog : Bool
  link0 : Bool
  link1 : Bool
  sdo : Option Sdo
  /-- SM1: the message placed, and those that wait. -/
  sm1 : Option Mail
  mails : List Mail
  /-- FAULT_SUMMARY bits that have set and whose emergency is not yet queued: bit, channel or die, tick; ascending bits on one tick (Table 11.15). -/
  raised : List (Nat × Nat × Nat)
  /-- Tick of the last emergency of each bit. -/
  emcyAt : List (Nat × Nat)
  /-- The RxPDO images latched last, and whether they have yet to be acted on, by channel. -/
  rx : List (Ch × RxImage)
  fresh : List Ch
  /-- Images latched before a watchdog expiry and not yet acted on (Table 11.15). -/
  owed : List (Ch × RxImage)
  /-- RX_SEQ of the last image acted on, by channel; none since entry to OP (R339). -/
  seqs : List (Ch × BitVec 4)
  /-- Inputs loaded: TxPDO HEAD records of each channel (8 words and HEAD_VALID). -/
  heads : List (Nat × (List Word64 × Nat))
  /-- The latest take of each array that has reached the Control die (Table 1.10): 2n + array, take word, aperture start. -/
  takes : List (Nat × Nat × Nat)
  /-- An FoE upload in progress: target. -/
  foe : Option Nat
  /-- Its last data awaits an acknowledgement until the supply recovers (Table 12.12). -/
  foeWait : Bool
  /-- Configured station alias of the SII. -/
  alias_ : Nat
  deriving DecidableEq, Repr

/-- A Control-die event record (R344). -/
structure EventRec where
  code : Nat
  arg0 : Nat
  arg1 : Nat
  seq : Nat
  pos : Nat
  deriving DecidableEq, Repr

/-- States of an image slot (Table 12.10). -/
inductive SlotState where
  | empty | receiving | verifying | valid | invalid
  deriving DecidableEq, Repr

/-- An image slot (R363 to R366): header fields and IMAGE_HASH of the image it holds, bytes while one is received. -/
structure ImageSlot where
  st : SlotState
  cause : Nat
  version : Nat
  rollback : Nat
  key : Nat
  hash : Nat
  /-- Law ticks of microcode whose cycle costs differ from Table 6.2 (R210): fixed ones and those of each biquad. -/
  costs : Option (Nat × Nat)
  /-- Port of the upload in progress, 0 N to 4 D. -/
  by_ : Nat
  data : List Byte
  /-- Sectors of 4 KiB yet to be erased before the upload's pages are programmed, and pages programmed (R366). -/
  erase : Nat
  pages : Nat
  deriving DecidableEq, Repr

/-- Microcode in a code-RAM bank: the slot it came from, and what identifies it. -/
structure Bank where
  slot : Nat
  version : Nat
  rollback : Nat
  hash : Nat
  costs : Option (Nat × Nat)
  deriving DecidableEq, Repr

/-- The code RAM of a Channel die (R368, R400). -/
structure CodeRam where
  bank0 : Option Bank
  bank1 : Option Bank
  /-- Tick at which a load started, and the microcode slot it loads. -/
  loading : Option (Nat × Nat)
  failed : Bool
  /-- Engines that have yet to change to the bank in force (R400). -/
  changing : List BankEngine
  /-- Words marked by an uncorrectable error (R394): bank 1, word address, reload asked for. -/
  marked : List (Bool × Nat × Bool)
  deriving DecidableEq, Repr

/-- Firmware of the device (R363 to R370). -/
structure Firmware where
  slots : Vector ImageSlot 4
  /-- Running and confirmed Control slot, tick at which a trial started. -/
  running : Nat
  confirmed : Nat
  trial : Option Nat
  /-- Image that runs on the Control die: version, ROLLBACK, KEY, IMAGE_HASH. -/
  image : ImageSlot
  /-- Microcode boot slot, 2 or 3. -/
  boot : Nat
  rams : Vector CodeRam 6
  /-- FW_ROLLBACK_FLOOR. -/
  floor : Nat
  /-- Ports whose upload, sent whole, fills the buffer of a supply warning: their answers wait for the recovery (Table 12.12). -/
  held : List Port
  deriving DecidableEq, Repr

/-- A peer request outstanding (R357): TAG and the tick of the write. -/
structure Peer where
  tag : Nat
  since : Nat
  deriving DecidableEq, Repr

/-- JTAG instructions (Table 12.5). -/
inductive TapInstr where
  | bypass | idcode | samplePreload | extest | objAccess | debug
  deriving DecidableEq, Repr

/-- Ports C, X, D and the identity (R349 to R362). -/
structure Security where
  /-- CAL_SEAL is open. -/
  sealOpen : Bool
  /-- Fuses being blown, and the tick of the write. -/
  blowing : Option (Nat × Nat)
  /-- The TAP: the opcode in its instruction register, the instruction in force, what its data register captured, the boundary pattern (R358). -/
  ir : BitVec 8
  tap : TapInstr
  tapData : Nat
  boundary : List (Nat × Bool)
  peer : Option Peer
  /-- TAG of the next peer request. -/
  tag : Nat
  /-- PEER_RESP holds an answer. -/
  peerReady : Bool
  deriving DecidableEq, Repr

/-! ### 13 Supplies, Slate, restart -/

/-- Supply states (Table 13.4). -/
inductive PowerState where
  | reset | starting | running | warning | recovering
  deriving DecidableEq, Repr

/-- The power manager (R373 to R382). -/
structure Power where
  st : PowerState
  /-- Inputs that caused the last warning, and those beyond their warning level now. -/
  cause : BitVec 4
  below : BitVec 4
  /-- Tick of the last warning, and the tick at which the recovery timer started. -/
  warnAt : Nat
  recoverFrom : Option Nat
  /-- A supply warning is in force (SUPPLY_WARNING or RECOVERING). -/
  warning : Bool
  /-- Intervals of R151, newest first. -/
  spans : List Span
  overtemp : Bool
  /-- Tick of the reset, while the rails are still up and the outputs driven. -/
  resetAt : Option Nat
  /-- The dies are released and run (DIES_RELEASED). -/
  released : Bool
  /-- The timing tree is calibrated: Zhewick frames are sent (Table 13.2). -/
  tree : Bool
  /-- PHY_RST_n is high. -/
  phy : Bool
  deriving DecidableEq, Repr

/-- A Control-die restart in progress (R396 to R399): cause and the tick it began. -/
structure Restart where
  cause : Nat
  since : Nat
  deriving DecidableEq, Repr

/-- The Control image. -/
structure Control where
  /-- RUNNING: ports serve. -/
  running : Bool
  /-- The image has reached RUNNING since the power-up. -/
  booted : Bool
  /-- DEVICE_STATUS [8]. -/
  restarted : Bool
  restart : Option Restart
  /-- Restarts that wait: cause and the tick each is due. -/
  due : List (Nat × Nat)
  /-- START records that wait for the ledger scan: their causes (Table 13.2). -/
  starts : List Nat
  /-- The Control die stays in its boot stage (R399). -/
  stuck : Bool
  /-- Tick of the Control die's last scrub pass (R393). -/
  scrubAt : Nat
  /-- The tick of the last event of FAULT_LATCH, and the bits whose events came on it (Table 11.15). -/
  latchTick : Nat
  latchBits : Nat
  deriving DecidableEq, Repr

/-- A trigger whose capture tick lies ahead (Table 13.6): bit, capture tick, SOURCE_ARG. -/
structure Trigger where
  bit : Nat
  tick : Nat
  arg : Nat
  deriving DecidableEq, Repr

/-- A Slate (Tables 13.7 to 13.10): header fields and the bytes from 64 on. Until it enters the ring, its mask names the Channel dies that captured. -/
structure SlateEntry where
  seq : Nat
  triggers : Nat
  pos : Nat
  tick : Nat
  mask : Nat
  flags : Nat
  arg : Nat
  body : List Byte
  deriving DecidableEq, Repr

/-- The Slate (R386 to R392). -/
structure Slate where
  triggers : List Trigger
  /-- Captures not yet transferred, oldest first. -/
  held : List SlateEntry
  /-- The ring: index and entry. -/
  ring : List (Nat × SlateEntry)
  /-- Channel records held on a die whose link is not ACTIVE: SLATE_SEQ, die, bytes (R391). -/
  parts : List (Nat × Nat × List Byte)
  seq : Nat
  missed : Bool
  /-- The next Slate after a restart sets FLAGS [2] (R398). -/
  ecc : Bool
  /-- The tick on which the newest entry entered the ring (Table 13.15). -/
  entered : Option Nat
  deriving DecidableEq, Repr

/-- The tracking outputs of a channel (R383 to R385): duties, and the codes composed in the period: largest and smallest. -/
structure Track where
  dutyP : Nat
  dutyN : Nat
  hi : Int
  lo : Int
  /-- Period number of the last period. -/
  period : Nat
  deriving DecidableEq, Repr

/-! ### The device -/

/-- What the model holds of one channel. -/
structure Chan where
  src : Src
  vm : Arr
  im : Arr
  /-- Queues 1 to 511 that are allocated, by number. -/
  queues : List (Nat × Queue)
  /-- ESEQ of the next channel event record (R162). -/
  eseq : Nat
  /-- The events of the tick of the last one, by code, without ESEQ: that tick, none where a record has left a queue since, and the ESEQ of the
  first (R162). -/
  evTick : Option Nat
  evFirst : Nat
  evRun : List Nat
  /-- Halves of Course result registers written on a tick: the half's number, the tick, its take from before that tick (R159). -/
  crrOld : List (Nat × Nat × Nat)
  /-- Course result registers: 2 × register + array → PRESENT, SEQ … as 128 bits (R159). -/
  crrs : List (Nat × Nat)
  /-- Measure configuration table, entries that differ from reset (R148). -/
  mcfg : List (Nat × Nat)
  pes : Vector Pe 2
  loop : Loop
  /-- The tick of the last hard trip, and the Loop Engine before it (R96, R207). -/
  loopBefore : Option (Nat × Loop)
  seq : Seq
  mons : Vector Monitor 4
  selfcal : Selfcal
  track : Track
  deriving DecidableEq, Repr

/-- What the model holds of one Channel die. -/
structure DieState where
  link : Link
  /-- Cadence records held, newest first (R48). -/
  recs : List Rec
  /-- It extends its records (R64), and the intervals in which it did. -/
  extending : Bool
  extended : List Span
  /-- Stamp of the boundary at which it last adopted the Control die's records (R64). -/
  adopted : Nat
  /-- The model's own: cycles by which renumberings have moved the Reel while it extends (log 150). -/
  shiftDue : Nat
  services : Services
  /-- The die's own ECC counters and its last uncorrectable error (R393), which its telemetry reports carry (R395). -/
  corr : Nat
  uncorr : Nat
  eccLast : Nat
  /-- Control-die event records, held while its link is not ACTIVE (R344). -/
  events : List EventRec
  /-- Tick of the last scrub pass completed, and of the last telemetry report (Table 10.2). -/
  scrubAt : Nat
  reportAt : Nat
  /-- A telemetry report that waits for a fabric slot: temperature, V_CORE, V_ANA_P, V_ANA_N. -/
  report : Option (Int × Nat × Nat × Nat)
  /-- The last SYNC that has reached the die (R216, R233): number and position. -/
  sync : Option (Nat × Nat)
  deriving DecidableEq, Repr

/-- The volatile state of the device, with its firmware. -/
structure Dev where
  /-- Ticks since the tick epoch (R12, R47). -/
  now : Nat
  /-- Objects that differ from their defaults: key → raw value, keys rising (R21). -/
  objs : List (Nat × Nat)
  /-- The model's own: number of the next free value. -/
  free : Nat
  cad : Cadence
  zh : Zhewick
  dies : Vector DieState 6
  chans : Vector Chan 24
  /-- Control-die queues 12288 to 16383 that are in use, by TARGET (R32, R168). -/
  ctrlQueues : List (Nat × Queue)
  ref : RefDie
  ledger : Ledger
  arb : Arbiter
  groups : Groups
  ports : Vector PortState 5
  /-- Number of Keystones admitted. -/
  admitted : Nat
  portN : PortN
  /-- The event log, newest first, at most 64 records (R344), and EVSEQ of the next one. -/
  events : List EventRec
  eventSeq : Nat
  fw : Firmware
  sec : Security
  supply : Power
  control : Control
  slate : Slate
  /-- CH_FAULT bits cleared while their cause stood, to set again (R347): channel and the tick of the setting. -/
  refault : List (Nat × Nat)
  deriving DecidableEq, Repr

/-- What outlives every reset and restart and only grows: the ledger records appended since the part shipped (R289), pages used, and
the fuses (R360). -/
structure Nv where
  /-- Records appended, oldest first. -/
  recs : List LRecord
  /-- Blank pages of the shipped ledger used since, skipped ones included. -/
  used : Nat
  /-- Fuses blown since the part shipped (Table 12.6). -/
  fuses : Nat
  deriving DecidableEq, Repr

/-- The state of the block. -/
structure State where
  dev : Dev
  nv : Nv
  /-- Commands that wait, first in, first out. -/
  pending : List Instr
  deriving DecidableEq, Repr

/-! ### Stops -/

/-- No command of the block ends in a fault: the manual gives every address of its tables, and every refusal is an answer to a port. -/
inductive Fault where
  deriving DecidableEq, Repr

/-- Why a command is not carried out. -/
inductive Refusal where
  /-- Raised by `exec` for a command not yet modelled (safe). -/
  | notModelled (mnemonic : String)
  /-- Raised by a write that sets a reserved bit: the manual leaves what follows unspecified (R8) (safe). -/
  | reservedBit
  deriving DecidableEq, Repr

/-- The channel n. -/
def Dev.ch (s : Dev) (n : Ch) : Chan := s.chans[n]

/-- The Control die runs its image (R328, R350). -/
def Dev.ctlRunning (s : Dev) : Bool := s.control.running

/-! ### Reset -/

/-- A link at reset (Table 1.6). -/
def Link.atReset : Link := ⟨.reset, 3, true, false, 0, 0, 0, 0, false, false, [], 0, 0⟩

/-- The internal Reel of 50.000 Hz: L in 1/256 tick (R53). -/
def resetLength : Nat := 1258291200

/-- Record 0 and the record fixed at its boundary (R48, R53). -/
def resetRecs : List Rec := [⟨1, resetLength, resetLength⟩, ⟨0, 0, resetLength⟩]

/-- The Cadence Unit at reset (R53). -/
def Cadence.atReset : Cadence :=
  { recs := resetRecs, st := .freerun, src := 4, run := [], runPhase := [], lastEvent := none, lastLen := none, badFreq := 0, badReel := 0, badPhase := 0,
    present := false, rangeErr := false, long := false, lSrc := resetLength, lHold := resetLength, err := 0, corrLeft := 0,
    corrRun := 0, slipBase := 0, tail := 0, holdCycles := 0, waiting := [], preset := none, tagged := [] }

/-- The Zhewick link at reset. -/
def Zhewick.atReset : Zhewick :=
  { run := [], oneWay := 0, upHop := none, upValid := false, downSeen := false, masterHold := false, masterSpans := [], txEdge := none,
    rxCount := 0, retDue := none, retEdge := none, validEdge := none, trip := none, sync := none, slate := none, syncSeen := none,
    slateSeen := none, cutLines := 0, cutSeq := 0,
    cutChange := none, cutOwn := 0, cutSeqIn := none, downQ := [], upQ := [], txFrame := [], retFrame := [] }

/-- The source path at reset (Table 3.3): HIZ clamp until the GND clamp joins it. -/
def Src.atReset : Src :=
  { st := .off, gndClamp := true, hizClamp := false, clampCause := 1, forceEn := false, outLimit := false, compliance := false,
    codeClamped := false, clampCounted := false, refSettled := true, settleAt := none, primed := false, queue := [], lastLeft := 0,
    slot := 0, shift := 0, lastSlot := none, segs := [], static := 0, loopCode := 0, safe := none,
    sine := ⟨0, 0, 0, 0, 0, 0, none, [], []⟩, code := 0, modCode := 0, recon := [], pin := 0, clock := 0, hold := none, forcedAt := none,
    enableT := none, enablePending := false, rampFrom := none, rampDone := none, rangeSel := 0, range := none, resetGndAt := none }

/-- A slice at reset: CALIBRATING until the power-up calibration ends (R126). -/
def Slice.atReset : Slice := ⟨.calibrating, 0, 0, 0, 0, 0, 0, 0, 0, false⟩

/-- An array at reset (Table 4.6, Table 4.12, Table 4.13): slice i in role i, slice 6 the spare. -/
def Arr.atReset : Arr :=
  { st := .off, ready := false, slices := Vector.replicate 7 Slice.atReset,
    roles := [some 0, some 1, some 2, some 3, some 4, some 5], spare := some 6,
    shown := ([some 0, some 1, some 2, some 3, some 4, some 5], some 6),
    p0 := 0, nextK := 0, ord := 0, firstK := 0, mode := 0, aperture := 0x40000000, slots := [], done := [], seq := 0, runFirst := 1, runEnd := 0,
    emitted := 0, marked := none, recover := 0, ovrE := none, overClock := none, refSettled := false, refSettleAt := none, calStale := false,
    rotRole := none, nextRole := 0, rotTick := 0, cal := none, dropRole := false, urgentReqs := [], urgent := none,
    enableWait := none, cfgLog := [], settles := [], tap := ⟨none, true, false, 0, []⟩ }

/-- A post-processing engine at reset. -/
def Pe.atReset : Pe := ⟨0, 0, 0, 0, 0, 0, [], none, none, none, 0, [], []⟩

/-- A coefficient set of zeros. -/
def CoefSet.zero : CoefSet := ⟨0, 0, 0, 0, 0, 0, 0, 0, 0, List.replicate 6 ⟨0, 0, 0, 0, 0, 0⟩, 0, 0, 0, 0, 0, 0⟩

/-- The Loop Engine at reset: OPEN. -/
def Loop.atReset : Loop :=
  { st := .openState, sideLow := false, set := CoefSet.zero, setNo := 0, setWaits := false, integ := 0, bqs := List.replicate 6 ⟨0, 0, 0, 0⟩,
    uPrev := 0, uOut := 0, yPrev := none, rPrev := 0, ePrev := 0, dyPrev := 0, wPrev := 0, law := none, handed := none, owed := false,
    boundary := 0, consec := 0, overrunLast := false, coasting := false, coastRun := 0, count := 0, countLow := false,
    decided := none, decidedY := 0, released := false, slewLimited := false, magLimited := false, frozenFound := false, window := [],
    softSent := [], softWaits := none, xover := none, safeAt := 0, tapV := [], tapI := [] }

/-- A marker low, with no edge to come (R238). -/
def Marker.low : Marker := ⟨⟨false, none⟩, ⟨false, none⟩, []⟩

/-- The Sequencer at reset (Table 7.12): STOPPED, banks IDLE and all 0, lanes high-impedance. -/
def Seq.atReset : Seq :=
  { st := .stopped, bank := 0, idx := 0, seg := 0, i := 0, last := 0, wait := none, chosen := none, holdHost := false,
    holdLink := false, holdSupply := false, cut := none, landing := false, next := 2, starts := [], crr := none, crrLog := [], segs := [],
    patch := none, bankA := [], bankB := [], stateA := .idle, stateB := .idle, swaps := 0, drives := [],
    lanes := List.replicate 8 2, compare := [], markA := Marker.low, markB := Marker.low, marksLow := false,
    played := 0 }

/-- A channel at reset. -/
def Chan.atReset : Chan :=
  { src := Src.atReset, vm := Arr.atReset, im := Arr.atReset, queues := [], eseq := 0, evTick := none, evFirst := 0, evRun := [], crrOld := [], crrs := [], mcfg := [],
    pes := Vector.replicate 2 Pe.atReset, loop := Loop.atReset, loopBefore := none, seq := Seq.atReset, mons := Vector.replicate 4 monOff,
    selfcal := ⟨false, false, false, 0⟩, track := ⟨0, 0, 0, 0, 0⟩ }

/-- A Channel die at reset. -/
def DieState.atReset : DieState :=
  { link := Link.atReset, recs := resetRecs.drop 1, extending := false, extended := [], adopted := 0, shiftDue := 0, services := ⟨0x7F, none, none, false, 0⟩,
    corr := 0, uncorr := 0, eccLast := 0, events := [], scrubAt := 0, reportAt := 0, report := none, sync := none }

/-- The Reference die at reset (Table 9.1). -/
def RefDie.atReset : RefDie :=
  { oven := .warmup, heater := true, settled := false, ovenOut := false, ovenFault := false, warmupLong := false, dieSensorFailed := false, trim := 0,
    clamped := false, trimAt := 0, ovenSince := 0, extAt := 0, extRangeErr := false, linkFault := false, cmpLate := false,
    calLoaded := false, comparison := none, lastComparison := 0, heldEvents := [] }

/-- The ledger unit before its power-up scan. -/
def Ledger.atReset : Ledger :=
  { queue := [], scanDone := false, broken := none, torn := false, full := false, unconfirmed := false, lastApplied := false,
    calAborted := false, ageBase := 0, powerUps := 0, lastAt := 0, utc := none, marks := [], program := none }

/-- Table 10.2: PRIO defaults are those of 0x2302; DL_OFFSET in µs, GRACE in ms. -/
def ArbValues.dflt : ArbValues :=
  ⟨0, [8, 8, 8, 8, 8, 4, 5, 7, 3, 5, 11, 1, 2, 12, 6],
   [200, 200, 200, 200, 200, 0, 0, 0, 1000000, 1000000, 500, 0, 0, 0, 10000],
   [0, 0, 0, 0, 0, 10000, 10000, 60000, 3600000, 60000, 0, 1000, 1000, 0, 0]⟩

/-- The arbiters at reset (R322). -/
def Arbiter.atReset : Arbiter := ⟨[], ArbValues.dflt, none, 0, []⟩

/-- A port at reset. -/
def PortState.atReset : PortState :=
  { answer := .none, txns := Vector.replicate 16 txnFree, current := 0, busy := none, response := none,
    transfer := none, copy := none, shifted := [], attest := none }

/-- Port N at reset: INIT (Table 13.2). -/
def PortN.atReset : PortN :=
  { al := .init, alCode := 0, alError := false, watchdog := false, link0 := false, link1 := false, sdo := none, sm1 := none,
    mails := [], raised := [], emcyAt := [], rx := [], fresh := [], owed := [], seqs := [], heads := [], takes := [], foe := none, foeWait := false, alias_ := 0 }

/-- An image slot as the part ships (log 6): VALID with the provisioned image, or EMPTY. -/
def ImageSlot.shipped (i : Nat) (valid : Bool) : ImageSlot :=
  { st := if valid then .valid else .empty, cause := 0, version := if valid then Config.slotVersion i else 0,
    rollback := if valid then Config.slotRollback i else 0, key := 0, hash := if valid then Config.slotHash i else 0, costs := none, by_ := 0, data := [], erase := 0, pages := 0 }

/-- Firmware as the part ships (log 6): Control slot A and microcode slot A. -/
def Firmware.shipped : Firmware :=
  { slots := #v[ImageSlot.shipped 0 true, ImageSlot.shipped 1 false, ImageSlot.shipped 2 true, ImageSlot.shipped 3 false]
    running := 0, confirmed := 0, trial := none, image := ImageSlot.shipped 0 true, boot := 2,
    rams := Vector.replicate 6 ⟨some ⟨2, Config.slotVersion 2, Config.slotRollback 2, Config.slotHash 2, none⟩, none, none, false, [], []⟩,
    floor := Config.provFloor, held := [] }

/-- Ports C, X, D at reset: the TAP resets to IDCODE (R358). -/
def Security.atReset : Security :=
  { sealOpen := false, blowing := none, ir := 0x01, tap := .idcode, tapData := 0x1240874B, boundary := [], peer := none, tag := 0, peerReady := false }

/-- The power manager held in reset (Table 13.4). -/
def Power.atReset : Power :=
  { st := .reset, cause := 0, below := 0, warnAt := 0, recoverFrom := none, warning := false, spans := [], overtemp := false,
    resetAt := none, released := false, tree := false, phy := false }

/-- The device held in reset, with the firmware and the power-ups it keeps. -/
def Dev.heldInReset (fw : Firmware) : Dev :=
  { now := 0, objs := [], free := 0, cad := Cadence.atReset, zh := Zhewick.atReset, dies := Vector.replicate 6 DieState.atReset,
    chans := Vector.replicate 24 Chan.atReset, ctrlQueues := [], ref := RefDie.atReset, ledger := Ledger.atReset,
    arb := Arbiter.atReset, groups := ⟨[], [], []⟩, ports := Vector.replicate 5 PortState.atReset, admitted := 0,
    portN := PortN.atReset, events := [], eventSeq := 0, fw := fw, sec := Security.atReset, supply := Power.atReset,
    control := ⟨false, false, false, none, [], [], false, 0, 0, 0⟩, slate := ⟨[], [], [], [], 0, false, false, none⟩, refault := [] }

/-- The machine right after reset: held in reset until its supplies qualify (Table 13.4), no command waiting. -/
def State.reset : State := ⟨Dev.heldInReset Firmware.shipped, ⟨[], 0, 0⟩, []⟩

end Sys2Proof.Machine
end

