-- ==== Sys2Proof/Machine/Ops.lean ====
section
/-! DEFINITION. The named operations over the device: objects by row, time and cadence records, channels and dies, fault bits and
events, Slate triggers. -/

namespace Sys2Proof.Machine

/-! ### Objects -/

/-- The key of an object: index, subindex, and for an object with one value per port the port (R331). -/
def objKey (index sub port : Nat) : Nat := port * 2 ^ 24 + index * 256 + sub

/-- The index and subindex of element `j` of a row at places in its dimensions (R17). -/
def keyOf (r : Row) (places : List Nat) (j : Nat) : Nat := objKey (r.ix + dimsOff r.dims places) (r.sub + r.subs.1 * j) 0

/-- The default of an object of a row, by index and subindex (R21). -/
def dfltAt (r : Row) (index sub : Nat) : Nat :=
  match r.dflt with
  | .c v => v
  | .tbl l => l.getD ((sub - r.sub) / r.subs.1) 0
  | .lastDim l => l.getD ((dimsPlace r.dims (index - r.ix)).getLastD 0) 0
  | .f g => g index sub

/-- The default at places of a row. -/
def dfltOf (r : Row) (places : List Nat) (j : Nat) : Nat := dfltAt r (r.ix + dimsOff r.dims places) (r.sub + r.subs.1 * j)

/-- The stored value of element `j` of a row. -/
def rdJ (s : Dev) (r : Row) (places : List Nat) (j : Nat) : Nat := tabGet s.objs (dfltOf r places j) (keyOf r places j)

/-- The stored value of an object. -/
def rd (s : Dev) (r : Row) (places : List Nat) : Nat := rdJ s r places 0

/-- The value of an object of a signed type (R8). -/
def rdI (s : Dev) (r : Row) (places : List Nat) : Int := toSigned (8 * r.size) (rd s r places)

/-- Element `j` of a row of a signed type. -/
def rdIJ (s : Dev) (r : Row) (places : List Nat) (j : Nat) : Int := toSigned (8 * r.size) (rdJ s r places j)

/-- Element `j` of a row written: the value keeps its size (R330). -/
def wrJ (s : Dev) (r : Row) (v : Nat) (places : List Nat) (j : Nat) : Dev :=
  { s with objs := tabPut s.objs (dfltOf r places j) (keyOf r places j) (v % 2 ^ (8 * r.size)) }

/-- An object written. -/
def wr (s : Dev) (r : Row) (v : Nat) (places : List Nat) : Dev := wrJ s r v places 0

/-- The key of an object with one value per port (R331). -/
def portKey (r : Row) (p : Nat) (j : Nat) (places : List Nat) : Nat := keyOf r places j + (p + 1) * 2 ^ 24

/-- A port's own value of an object (R331). -/
def rdP (s : Dev) (r : Row) (p : Port) (places : List Nat) : Nat :=
  tabGet s.objs (dfltOf r places 0) (portKey r p.idx 0 places)

/-- A port's own value written. -/
def wrP (s : Dev) (r : Row) (p : Port) (v : Nat) (places : List Nat) : Dev :=
  { s with objs := tabPut s.objs (dfltOf r places 0) (portKey r p.idx 0 places) (v % 2 ^ (8 * r.size)) }

/-- A counter raised by `k`, stopping at the largest value of its type (R346). -/
def bumpBy (r : Row) (k : Nat) (places : List Nat) (s : Dev) : Dev :=
  wr s r (countUp (2 ^ (8 * r.size) - 1) (rd s r places) k) places

/-- A counter raised by one. -/
def bump (r : Row) (places : List Nat) (s : Dev) : Dev := bumpBy r 1 places s

/-- The value stored under a key of the dictionary; the row gives the default. -/
def getKey (s : Dev) (k : Nat) : Nat :=
  match rowOf (k / 256 % 65536) (k % 256) with
  | some r => tabGet s.objs (dfltAt r (k / 256 % 65536) (k % 256)) k
  | none => 0

/-- A value stored under a key of the dictionary. -/
def putKey (k v : Nat) (s : Dev) : Dev :=
  match rowOf (k / 256 % 65536) (k % 256) with
  | some r => { s with objs := tabPut s.objs (dfltAt r (k / 256 % 65536) (k % 256)) k (v % 2 ^ (8 * r.size)) }
  | none => s

/-! ### Time and cadence records -/

/-- Time moves on to tick `t`, never back. -/
def advance (t : Nat) (s : Dev) : Dev := { s with now := max s.now t }

/-- The Reel position of a stamp under a list of records, newest first (R52); past the newest record it is continued. -/
def posOf : List Rec → Nat → Nat
  | [], _ => 0
  | r :: t, stamp =>
    if r.base ≤ stamp || t.isEmpty then (r.c * 2 ^ 32 + (stamp - r.base) * 2 ^ 32 / r.len) % posMod else posOf t stamp

/-- The place of cycle `c` among records, newest first: records are counted back from the newest, so that a position is read under the count
that holds now, whatever number a record bore before a renumbering or an adoption (R54, R64). -/
def recPlace (recs : List Rec) (c : Nat) : Nat :=
  match recs with
  | [] => 0
  | r :: _ => (r.c + 2 ^ 32 - c % 2 ^ 32) % 2 ^ 32

/-- The record of a cycle number. -/
def recFind (recs : List Rec) (c : Nat) : Option Rec := recs[recPlace recs c]?

/-- The last stamp of the cycle at a place: the one before the next cycle's first. -/
def recLast (recs : List Rec) (i x : Nat) : Nat :=
  match i with
  | 0 => x
  | j + 1 => match recs[j]? with
    | some q => min x (q.base - 1)
    | none => x

/-- The stamp of a position (R49); none while the record of its cycle has not arrived (R48). Where an adopted record cuts a cycle of the die's own
timeline short, the rest of that cycle's positions end with it (R64). -/
def stampOf (recs : List Rec) (pos : Nat) : Option Nat :=
  let c := pos / 2 ^ 32 % 2 ^ 32
  (recFind recs c).map fun r => recLast recs (recPlace recs c) (r.base + pos % 2 ^ 32 * r.len / 2 ^ 32)

/-- The stamp of a position, with the newest cycle length where its record is not yet fixed (R317). -/
def stampNear (recs : List Rec) (pos : Nat) : Nat :=
  match stampOf recs pos with
  | some t => t
  | none => match recs with
    | [] => 0
    | r :: t =>
      if posLater pos (r.c * 2 ^ 32) then r.base + (pos + posMod - r.c * 2 ^ 32) % posMod * r.len / 2 ^ 32
      else
        let o := (r :: t).getLastD r
        o.base - ((r.c * 2 ^ 32 + posMod - pos % posMod) % posMod - t.length * 2 ^ 32) * o.len / 2 ^ 32

/-- The tick of a position (R49), by the same continuation. -/
def tickNear (recs : List Rec) (pos : Nat) : Nat := (stampNear recs pos + 255) / 256

/-- The tick at which a die acts on a position (R48): none while its cycle's record has not arrived, so that the event is held; a position of a cycle
that the records no longer name lies in the past and is taken as reached. -/
def reachTick (recs : List Rec) (pos : Nat) : Option Nat :=
  match stampOf recs pos with
  | some t => some ((t + 255) / 256)
  | none => match recs with
    | [] => none
    | r :: _ => if posLater pos (r.c * 2 ^ 32) then none else some (tickNear recs pos)

/-- The stamp from which a die acts on a position's stamp: one that its adoption of the Control die's records found past acts on the next tick
(R64). -/
def actStamp (d : DieState) (stamp : Nat) : Nat := if stamp < d.adopted then ((d.adopted + 255) / 256 + 1) * 256 else stamp

/-- The tick at which a die acts on a position (R48, R49, R64). -/
def dieTick (d : DieState) (pos : Nat) : Option Nat :=
  (reachTick d.recs pos).map fun _ => (actStamp d (stampNear d.recs pos) + 255) / 256

/-- A scheduled event of a position at a die that holds the records (R48): it happens at its tick, and is held while its record is missing. -/
def atPosition (recs : List Rec) (pos : Nat) (f : Dev → Dev) (s : Dev) : Dev :=
  match reachTick recs pos with
  | some t => f (advance t s)
  | none => s

/-- The record in force at a tick. -/
def curRec (recs : List Rec) (tick : Nat) : Rec :=
  match recs.find? fun r => r.base ≤ tick * 256 with
  | some r => r
  | none => recs.getLastD ⟨0, 0, resetLength⟩

/-- tick() of R317: a position whose record is not yet fixed, by CYCLE_LEN in force, the length of the present cycle, from the end of the newest
record. -/
def tickAhead (recs : List Rec) (now pos : Nat) : Nat :=
  match stampOf recs pos, recs with
  | none, r :: _ =>
    if posLater pos (r.c * 2 ^ 32) then
      (r.base + r.len + ((pos + posMod - r.c * 2 ^ 32) % posMod - 2 ^ 32) * (curRec recs now).len / 2 ^ 32 + 255) / 256
    else tickNear recs pos
  | _, _ => tickNear recs pos

/-- The position of a tick, past the newest record by CYCLE_LEN in force (R317). -/
def posAhead (recs : List Rec) (now tick : Nat) : Nat :=
  match recs with
  | r :: _ =>
    if r.base + r.len ≤ tick * 256 then
      ((r.c + 1) * 2 ^ 32 + (tick * 256 - r.base - r.len) * 2 ^ 32 / (curRec recs now).len) % posMod
    else posOf recs (tick * 256)
  | [] => 0

/-- The Reel position of the present tick at the Control die (R52). -/
def ctlPos (s : Dev) : Nat := posOf s.cad.recs (s.now * 256)

/-! ### Channels and dies -/

/-- A channel rewritten. -/
def updCh (n : Ch) (f : Chan → Chan) (s : Dev) : Dev := { s with chans := s.chans.set n (f s.chans[n]) }

/-- A Channel die rewritten. -/
def updDie (k : Die) (f : DieState → DieState) (s : Dev) : Dev := { s with dies := s.dies.set k (f s.dies[k]) }

/-- A channel of a die by its number there. -/
def dieCh (k : Die) (c : Fin 4) : Ch := ⟨4 * k.val + c.val, by omega⟩

/-- The channel of an instance 2n + a, n, or 4n + m. -/
def chanAt (i : Nat) : Ch := ⟨i % 24, Nat.mod_lt _ (by decide)⟩

/-- The records the channel's die holds. -/
def dieRecs (s : Dev) (n : Ch) : List Rec := s.dies[n.die].recs

/-- A port rewritten. -/
def updPort (p : Port) (f : PortState → PortState) (s : Dev) : Dev := { s with ports := s.ports.set p.idx (f s.ports[p.idx]) }

/-- Port N rewritten. -/
def updPortN (f : PortN → PortN) (s : Dev) : Dev := { s with portN := f s.portN }

/-- A message for SM1: placed when SM1 is free, else it waits (R345). -/
def mailPut (m : Mail) (s : Dev) : Dev :=
  updPortN (fun x => if x.sm1.isNone then { x with sm1 := some m } else { x with mails := x.mails ++ [m] }) s

/-- What a port last received for a request. -/
def setAnswer (p : Port) (a : Answer) (s : Dev) : Dev := updPort p (fun x => { x with answer := a }) s

/-- Every channel of a die rewritten in ascending order. -/
def forDie (k : Die) (f : Ch → Dev → Dev) (s : Dev) : Dev :=
  (List.finRange 24).foldl (fun s n => if Ch.die n = k then f n s else s) s

/-- Every channel in ascending order. -/
def forChans (f : Ch → Dev → Dev) (s : Dev) : Dev := (List.finRange 24).foldl (fun s n => f n s) s

/-- Ticks of a time in µs, rounded up. -/
def usTicks (us : Nat) : Nat := (us * 24576 + 99) / 100

/-- Ticks of 1 ms. -/
def msTicks : Nat := 245760

/-! ### Events and fault bits -/

/-- A record in the Control-die event log (R344), which keeps the last 64; IRQ_STATUS [2] sets (Table 12.3). -/
def logEventAt (code arg0 arg1 pos : Nat) (s : Dev) : Dev :=
  let s := { s with
    events := (⟨code, arg0, arg1, s.eventSeq, pos⟩ :: s.events).take 64
    eventSeq := (s.eventSeq + 1) % 2 ^ 32 }
  wr s oIrqStatus (setBit (rd s oIrqStatus []) 2) []

/-- An event of the Control die at the present tick. -/
def logEvent (code arg0 arg1 : Nat) (s : Dev) : Dev := logEventAt code arg0 arg1 (ctlPos s) s

/-- An event that arises on a Channel die: while its link is not ACTIVE the die holds it with its own position (R344). -/
def dieEvent (k : Die) (code arg0 arg1 : Nat) (s : Dev) : Dev :=
  let pos := posOf s.dies[k].recs (s.now * 256)
  if s.dies[k].link.st = .active then logEventAt code arg0 arg1 pos s
  else updDie k (fun d => { d with events := d.events ++ [⟨code, arg0, arg1, 0, pos⟩] }) s

/-- A CH_FAULT bit sets at the tick of its cause (R347). -/
def chFault (n : Ch) (bit : Nat) (s : Dev) : Dev := wr s oChFault (setBit (rd s oChFault [n]) bit) [n]

/-- A FAULT_LATCH bit sets (Table 11.10); the bits set on the present tick are kept (Table 11.15). -/
def faultLatch (bit : Nat) (s : Dev) : Dev :=
  let bits := if s.control.latchTick = s.now then setBit s.control.latchBits bit else 2 ^ bit
  wr { s with control := { s.control with latchTick := s.now, latchBits := bits } } oFaultLatch (setBit (rd s oFaultLatch []) bit) []

/-- A W1C of FAULT_LATCH: a bit whose event came on the same tick stays set (Table 11.15). -/
def faultLatchClear (v : Nat) (s : Dev) : Dev :=
  let old := rd s oFaultLatch []
  let kept := if s.control.latchTick = s.now then old &&& s.control.latchBits else 0
  wr s oFaultLatch (clearMask 5 old v ||| kept) []

/-- A W1C of IRQ_STATUS: [5] stays set where a Slate entered the ring on the same tick (Table 13.15). -/
def irqClear (v : Nat) (s : Dev) : Dev :=
  wr s oIrqStatus (clearMask 6 (rd s oIrqStatus []) (if s.slate.entered = some s.now then clearBit v 5 else v)) []

/-- A Slate trigger whose capture tick is `t` (R386): ignored where its SLATE_SRC_EN bit is clear. -/
def slateTriggerAt (bit arg t : Nat) (s : Dev) : Dev :=
  if bitOf (rd s oSlateSrcEn []) bit then { s with slate := { s.slate with triggers := s.slate.triggers ++ [⟨bit, t, arg⟩] } } else s

/-- A Slate trigger that captures 2 ticks on (Table 13.6). -/
def slateTrigger (bit arg : Nat) (s : Dev) : Dev := slateTriggerAt bit arg (s.now + 2) s

/-- The place of an append: in the order of causes, and of TYPE codes on one tick (R291, Table 9.18). -/
def appendInsert (a : Append) : List Append → List Append
  | [] => [a]
  | e :: t => if e.cause = a.cause && a.type < e.type then a :: e :: t else e :: appendInsert a t

/-- A ledger append caused at the present tick (R291). -/
def ledgerCause (a : Append) (s : Dev) : Dev := { s with ledger := { s.ledger with queue := appendInsert a s.ledger.queue } }

/-- An append by the device itself, with no signature of the authority. -/
def ownAppend (type : Nat) (payload : List Byte) (effect origin : Nat) (s : Dev) : Append :=
  ⟨type, payload, effect, origin, 0, 0, none, s.now, none, none⟩

/-! ### Services -/

/-- DSi of a die runs its service: on its own engine, or on DS7 once that has taken it over (Table 1.3). -/
def serviceRuns (s : Dev) (k : Die) (i : Nat) : Bool :=
  let x := s.dies[k].services
  bitOf x.map.toNat i || (!x.spareDead && x.spare.any fun j => j.val == i)

/-- The service DSi of a die has stopped with no spare left (Table 1.3). -/
def serviceGone (s : Dev) (k : Die) (i : Nat) : Bool := bitOf s.dies[k].services.stopped.toNat i

/-! ### Links -/

/-- A link rewritten. -/
def updLink (k : Die) (f : Link → Link) (s : Dev) : Dev := updDie k (fun d => { d with link := f d.link }) s

/-- A retraining link holds a message, in order (Table 1.6). -/
def linkHolds (k : Die) (m : LinkMsg) (s : Dev) : Dev := updLink k (fun l => { l with held := l.held ++ [m] }) s

/-- What a die sends to the Control die, or is sent by it, over its link (Table 1.6): it acts over an ACTIVE link, is held by one that retrains, and
does not come over another. -/
def overLink (k : Die) (m : LinkMsg) (f : Dev → Dev) (s : Dev) : Dev :=
  match s.dies[k].link.st with
  | .active => f s
  | .retraining => linkHolds k m s
  | .reset | .training | .lost => s

end Sys2Proof.Machine
end

