-- ==== Sys2Proof/Machine/Flags.lean ====
section
/-! DEFINITION. Flags computed from the state: the fault summary and its rising edges (Table 11.12, R345), and the frame in which every
command acts on the device. -/

namespace Sys2Proof.Machine

/-- CAL_STALE_ANY (R282). -/
def calStaleAny (s : Dev) : Bool :=
  s.ref.cmpLate || s.chans.any fun c => c.vm.calStale || c.im.calStale || c.mons.any fun m => m.verifyStale

/-- FAULT_SUMMARY [31]: any of BROKEN, TORN, FULL, APPLY_UNCONFIRMED. -/
def ledgerFault (s : Dev) : Bool := s.ledger.broken.isSome || s.ledger.torn || s.ledger.full || s.ledger.unconfirmed

/-- The Cadence Unit is in a state that tags takes with HOLDOVER (R60). -/
def cadTagged : CadState → Bool
  | .acquire | .holdover | .relock => true
  | .freerun | .locked => false

/-- A link counts in FAULT_SUMMARY [25]: it is not ACTIVE, for whatever reason (log 42), or its width is degraded. -/
def linkBad (d : DieState) : Bool := d.link.st != .active || d.link.degraded

/-- The channel bits [23:0] of FAULT_SUMMARY. -/
def channelFaults (s : Dev) : Nat := (List.range 24).foldl (fun v i => v + flagAt (rd s oChFault [i] ≠ 0) i) 0

/-- FAULT_SUMMARY (Table 11.12). -/
def faultSummary (s : Dev) : Nat :=
  let l := rd s oFaultLatch []
  channelFaults s +
    flagAt (s.dies.any linkBad || s.ref.linkFault) 25 +
    flagAt (s.dies.any fun d => d.services.stopped != 0) 26 +
    flagAt (s.dies.any fun d => d.services.spare.isSome) 27 +
    flagAt (cadTagged s.cad.st || s.dies.any fun d => d.extending) 28 +
    flagAt (s.ref.ovenOut || s.ref.ovenFault) 29 +
    flagAt (calStaleAny s) 30 +
    flagAt (ledgerFault s) 31 +
    flagAt s.supply.warning 32 +
    flagAt s.supply.warning 33 +
    l % 32 * 2 ^ 34

/-- Byte 1 of an emergency (R345): the channel of a channel bit, the first Channel die of a die's bit, 7 for the Reference die, else 0xFF
(log 20). -/
def summaryArg (s : Dev) (bit : Nat) : Nat :=
  let first (f : DieState → Bool) : Nat := (s.dies.toList.findIdx? f).getD 0xFF
  if bit < 24 then bit
  else if bit = 25 then (match s.dies.toList.findIdx? linkBad with | some k => k | none => 7)
  else if bit = 26 then first fun d => d.services.stopped != 0
  else if bit = 27 then first fun d => d.services.spare.isSome
  else 0xFF

/-- Bits that have risen from `a` to `b`, ascending. -/
def risen (a b : Nat) : List Nat := (List.range 39).filter fun i => bitOf b i && !bitOf a i

/-- A raised bit put among those of its tick, which are ascending (Table 11.15). -/
def raisedInsert (e : Nat × Nat × Nat) : List (Nat × Nat × Nat) → List (Nat × Nat × Nat)
  | [] => [e]
  | x :: t => if x.2.2 = e.2.2 && e.1 < x.1 then e :: x :: t else x :: raisedInsert e t

/-- Summary bits have risen: IRQ_STATUS [3] sets (Table 12.3), and the bits that EMCY_MASK selects wait for an emergency (R345). -/
def noteRisen : List Nat → Dev → Dev
  | [], b => b
  | i :: l, b =>
    let b1 := wr b oIrqStatus (setBit (rd b oIrqStatus []) 3) []
    let m := rd b oEmcyMask []
    { b1 with portN := { b.portN with 
        raised := ((i :: l).filter fun i => bitOf m i).foldl (fun r i => raisedInsert (i, summaryArg b i, b.now) r) b.portN.raised } }

/-- The rising edges of FAULT_SUMMARY from `a` to `b`. -/
def watch (a b : Dev) : Dev := noteRisen (risen (faultSummary a) (faultSummary b)) b

/-- CH_FAULT bits whose cause stands on channel n (R347). -/
def standing (s : Dev) (n : Ch) : Nat :=
  let c := s.ch n
  flagAt (rd s oEngineFault [n] ≠ 0) 1 + flagAt (c.mons.any fun m => m.hard.isSome) 2 + flagAt (c.mons.any fun m => m.threshFault) 3 +
    flagAt (c.vm.st == .fault) 4 + flagAt (c.im.st == .fault) 5

/-- The standing bits of a channel's CH_FAULT set. -/
def resetFault (s : Dev) (e : Nat × Nat) : Dev :=
  let n : Ch := ⟨e.1 % 24, Nat.mod_lt _ (by decide)⟩
  wr s oChFault (rd s oChFault [n] ||| standing s n) [n]

/-- Bits of CH_FAULT that were cleared while their cause stood set again from the next tick (R347). -/
def settle (s : Dev) : Dev :=
  (s.refault.filter fun e => decide (e.2 ≤ s.now)).foldl resetFault { s with refault := s.refault.filter fun e => !decide (e.2 ≤ s.now) }

/-- What follows every command on the device: latched conditions that set again, and the rising edges of the summary. -/
def after (a b : Dev) : Dev := watch a (settle b)

/-- One master tick passes (R12, log 1). -/
def idle (s : State) : State := { s with dev := after s.dev { s.dev with now := s.dev.now + 1 } }

/-- A command that acts on the device alone: the ledger, the fuses and the queue of commands stay. -/
def onDies (s : State) (f : Dev → Host.Outcome Dev Fault Refusal) : Host.Outcome State Fault Refusal :=
  match f s.dev with
  | .next d => .next { s with dev := after s.dev d }
  | .fault r => .fault r
  | .refused r => .refused r

/-- A command to the released device. Dies that are held in reset execute nothing and answer nothing (R375, R381). -/
def onDev (s : State) (f : Dev → Host.Outcome Dev Fault Refusal) : Host.Outcome State Fault Refusal :=
  if s.dev.supply.released then onDies s f else .next s

/-- A command that reads the ledger and the fuses. -/
def onDevNv (s : State) (f : Nv → Dev → Host.Outcome Dev Fault Refusal) : Host.Outcome State Fault Refusal :=
  onDev s (f s.nv)

/-- A command that also writes the ledger or the fuses. -/
def onBoth (s : State) (f : Nv → Dev → Nv × Dev) : Host.Outcome State Fault Refusal :=
  if s.dev.supply.released then
    let r := f s.nv s.dev
    .next { s with dev := after s.dev r.2, nv := r.1 }
  else .next s

end Sys2Proof.Machine
end

