-- ==== Sys2Proof/Machine/Reel.lean ====
section
/-! DEFINITION. The Reel and the Cadence Unit (02): states, qualification and loss tests, record fixing, holdover and re-lock,
die-extended records. -/

namespace Sys2Proof.Machine

/-- Ticks per second × 256: a cycle length in 1/256 tick is this over the frequency in Hz (R12). -/
def unitsPerSecond : Nat := 245760000 * 256

/-- L of the internal source, from REEL_NOM in mHz (Table 2.1); the rounding is not stated (log 4). -/
def nominalLength (s : Dev) : Nat := (roundOpen (unitsPerSecond * 1000) (rd s oReelNom [])).toNat

/-- A span list with a span opened at `t`. -/
def spanOpen (l : List Span) (t : Nat) : List Span := ⟨t, none⟩ :: l

/-- A span list with its open span closed at `t`. -/
def spanClose (l : List Span) (t : Nat) : List Span :=
  l.map fun p => match p.stop with
    | none => { p with stop := some t }
    | some _ => p

/-- Entry to a state of Table 2.2 at the present tick: the intervals of R60, HOLDOVER_LONG, LAST_HOLDOVER, HOLDOVER_COUNT. -/
def cadEnter (st : CadState) (s : Dev) : Dev :=
  let c := s.cad
  let tagged :=
    if cadTagged st && !cadTagged c.st then spanOpen c.tagged s.now
    else if !cadTagged st && cadTagged c.st then spanClose c.tagged s.now
    else c.tagged
  let s1 := if c.st = .holdover && st ≠ .holdover then wr s oLastHoldover c.holdCycles [] else s
  let s2 := if st = .holdover && c.st ≠ .holdover then bump oHoldoverCount [] s1 else s1
  { s2 with cad := { c with
      st := st, tagged := tagged,
      long := if st = .holdover then c.long else false,
      holdCycles := if st = .holdover && c.st ≠ .holdover then 0 else c.holdCycles,
      run := [], runPhase := [], badFreq := 0, badReel := 0, badPhase := 0 } }

/-- A fresh free value's number. -/
def nextFree (s : Dev) : Dev := { s with free := s.free + 1 }

/-- The newest published cycle length. -/
def newestLen (s : Dev) : Nat :=
  match s.cad.recs with
  | r :: _ => r.len
  | [] => resetLength

/-- A length that differs from the cycle before by at most the slew limit s (R61). -/
def slewBound (s : Dev) (prev x : Nat) : Nat :=
  let d := prev * rd s oSlewLimit [] / 1000000
  max (prev - d) (min (prev + d) x)

/-- Loss of the source (Table 2.2): L freezes at L_hold, the loop filter's frequency term (free value), within s of the cycle before (R61), and
HOLDOVER begins. -/
def cadLose (s : Dev) : Dev :=
  match s.cad.st with
  | .locked | .relock =>
    let h := slewBound s (newestLen s) (Config.loopFilterHold s.free)
    cadEnter .holdover (nextFree { s with cad := { s.cad with lHold := h, corrLeft := 0, tail := 0 } })
  | _ => { s with cad := { s.cad with run := [], runPhase := [] } }

/-- A phase error wrapped into [−0.5, +0.5) cycle, in 2⁻³² cycle (R61). -/
def wrapPhase (p : Int) : Int := toSigned 32 (ofSigned 32 p)

/-- The measured phase error of a boundary event: source phase minus Reel phase, in 2⁻³² cycle (R58). A mains crossing lies
MAINS_PHASE before its boundary (Table 2.1). -/
def phaseError (s : Dev) (stamp : Nat) : Int :=
  let f : Int := (posOf s.cad.recs stamp % 2 ^ 32 : Nat)
  let off : Int := if s.cad.src = 0 then (rd s oMainsPhase [] : Nat) else 0
  wrapPhase (-f - off)

/-- The frequency of an input cycle of `len` units lies inside the range of Table 2.1. -/
def inputInRange (s : Dev) (len : Nat) : Bool :=
  match s.cad.src with
  | 0 =>
    if rd s oMainsBand [] = 0 then 45 * len ≤ unitsPerSecond && unitsPerSecond ≤ 66 * len
    else 360 * len ≤ unitsPerSecond && unitsPerSecond ≤ 440 * len
  | 1 =>
    let d := rd s oRefclkDiv []
    1000000 * len ≤ unitsPerSecond * d && unitsPerSecond * d ≤ 20000000 * len
  | _ => 9999 * unitsPerSecond ≤ 10000 * len && 10000 * len ≤ 10001 * unitsPerSecond

/-- Reel cycles per input cycle: M between PPS edges, else 1 (Table 2.1). -/
def reelPerInput (s : Dev) : Nat := if s.cad.src = 2 then rd s oPpsMult [] else 1

/-- The Reel frequency an input cycle yields lies between 1 Hz and 10 kHz (R58). -/
def reelInRange (s : Dev) (len : Nat) : Bool :=
  len ≤ unitsPerSecond * reelPerInput s && unitsPerSecond * reelPerInput s ≤ 10000 * len

/-- The lengths of the cycles between events, newest first. -/
def runLengths : List Nat → List Nat
  | a :: b :: t => (a - b) :: runLengths (b :: t)
  | _ => []

/-- The 16 newest cycles of the run all lie within 1 % of their mean (R58). -/
def runSteady (run : List Nat) : Bool :=
  let l := (runLengths run).take 16
  let sum := l.foldl (· + ·) 0
  l.length == 16 && l.all fun x => 100 * (16 * x) ≤ 101 * sum && 99 * sum ≤ 100 * (16 * x)

/-- Phase errors unwrapped in order, oldest first: each within half a cycle of the one before it (R61). -/
def unwrapFrom (u p : Int) : List Int → List Int
  | [] => []
  | q :: t => let v := u + wrapPhase (q - p); v :: unwrapFrom v q t

/-- The unwrapped list of R61. -/
def unwrap : List Int → List Int
  | [] => []
  | p :: t => p :: unwrapFrom p p t

/-- The sum of a list. -/
def sumInt (l : List Int) : Int := l.foldl (· + ·) 0

/-- The least-squares line through (x, y), evaluated at X (R61), as a quotient (numerator, denominator). -/
def lineAt (xs ys : List Int) (X : Int) : Int × Int :=
  let n : Int := xs.length
  let sx := sumInt xs
  let sy := sumInt ys
  let sxx := sumInt (xs.map fun x => x * x)
  let sxy := sumInt (List.zipWith (· * ·) xs ys)
  let d := n * sxx - sx * sx
  (sy * d + (n * sxy - sx * sy) * (n * X - sx), n * d)

/-- e of R61 from stamps and phase errors, newest first, evaluated at the boundary `at_`. -/
def fitError (stamps : List Nat) (phases : List Int) (at_ : Nat) : Int :=
  let xs : List Int := stamps.reverse.map fun (x : Nat) => (x : Int) - (at_ : Int)
  let ys := unwrap phases.reverse
  let q := lineAt xs ys 0
  wrapPhase (if q.2 = 0 then ys.getLastD 0 else roundOpen q.1 q.2)

/-- The boundary at which the next record to be fixed begins: the end of the newest published record. -/
def nextBoundary (c : Cadence) : Nat :=
  match c.recs with
  | r :: _ => r.base + r.len
  | [] => 0

/-- End of qualification (R61): L_src and e are measured and RELOCK begins. -/
def qualify (lSrc : Nat) (e : Int) (s : Dev) : Dev :=
  let s1 := cadEnter .relock s
  { s1 with cad := { s1.cad with
      lSrc := lSrc, err := e, corrLeft := roundOpen (e * lSrc) (2 ^ 32), corrRun := 0, tail := 0,
      slipBase := toSigned 64 (rd s1 oSlipTotal []) } }

/-- The qualification run of Table 2.3 with one more event of a good cycle. -/
def runEvent (stamp : Nat) (p : Int) (s : Dev) : Dev :=
  let run := (stamp :: s.cad.run).take 17
  let ph := (p :: s.cad.runPhase).take 17
  let s1 := { s with cad := { s.cad with run := run, runPhase := ph } }
  if runSteady run then
    let first := run.getLastD 0
    let lSrc := (roundOpen (stamp - first : Nat) (16 * reelPerInput s)).toNat
    qualify lSrc (fitError (run.take 16) (ph.take 16) (nextBoundary s.cad)) s1
  else s1

/-- In LOCKED, the phase test of R58 counts an error beyond 16 × LOCK_THRESH; two in a row are a loss. -/
def phaseTest (p : Int) (s : Dev) : Dev :=
  let bad := p.natAbs > 16 * rd s oLockThresh []
  let n := if bad then s.cad.badPhase + 1 else 0
  let s1 := { s with cad := { s.cad with badPhase := n } }
  if n ≥ 2 then cadLose s1 else s1

/-- The frequency tests: out of the range of Table 2.1 for 4 cycles or groups, or 2 pulses (Table 2.3); in LOCKED, a Reel outside 1 Hz to 10 kHz
for 4 (R58). -/
def freqTest (bad badReel : Bool) (s : Dev) : Dev :=
  let n := if bad then s.cad.badFreq + 1 else 0
  let m := if badReel && s.cad.st == .locked then s.cad.badReel + 1 else 0
  let s1 := { s with cad := { s.cad with badFreq := n, badReel := m } }
  if n ≥ (if s.cad.src = 2 then 2 else 4) || m ≥ 4 then cadLose s1 else s1

/-- Tests of R58 at one input boundary event, by state. PHASE_ERR takes each measurement: its Effect column says "boundary" and R58 makes the
measurements at input boundary events (log 119). -/
def inputTests (stamp mv : Nat) (len : Option Nat) (s : Dev) : Dev :=
  let p := phaseError s stamp
  let s := wr s oPhaseErr (ofSigned 32 p) []
  let inOk := len.all (inputInRange s)
  let reelOk := len.all (reelInRange s)
  let ok := inOk && reelOk
  let s := { s with cad := { s.cad with rangeErr := !ok } }
  match s.cad.st with
  | .acquire | .holdover =>
    if len.isSome && ok && (s.cad.src ≠ 0 || 200 ≤ mv) then runEvent stamp p s
    else { s with cad := { s.cad with run := [stamp], runPhase := [p] } }
  | .locked =>
    if s.cad.src = 0 && mv < 100 then cadLose s
    else
      let s1 := freqTest (!inOk) (!reelOk) s
      if s1.cad.st = .locked then phaseTest p s1 else s1
  | .relock => if s.cad.src = 0 && mv < 100 then cadLose s else freqTest (!inOk) (!reelOk) s
  | .freerun => s

/-- INPUT_BOUNDARY_EVENT (R58): a fitted crossing, a group of D edges or a selected PPS edge, stamped in 1/256 tick; `mv` is the
amplitude of the fundamental in mV rms. With source 3 or 4 in force no input event is taken. -/
def execInputBoundaryEvent (stamp mv : Nat) (s : State) : Host.Outcome State Fault Refusal := onDev s fun s =>
  .next (
    if s.cad.src ≤ 2 then
      let s := advance ((stamp + 255) / 256) s
      let len := match s.cad.lastEvent with
        | some l => if l < stamp then some (stamp - l) else none
        | none => none
      inputTests stamp mv len { s with cad := { s.cad with lastEvent := some stamp, lastLen := len, present := true } }
    else s)

/-- The first tick at which a missing event of the selected source can be declared a loss (Table 2.3): 0.25 cycle after a crossing is due, 4 µs
(984 ticks, 983.04 rounded up) after an edge, 250 ms after a pulse is due. The manual does not say from which cycle length a crossing is due:
the model takes L_src of the last qualification, for the quarter cycle too (DESIGN CHOICE, log 120). Of REFCLK_IN's edges only each D-th reaches
the model; the command for a later edge's timeout comes as much later (log 120). -/
def lossDue (s : Dev) : Nat :=
  match s.cad.lastEvent with
  | none => s.now
  | some e =>
    match s.cad.src with
    | 0 => (e + s.cad.lSrc + s.cad.lSrc / 4 + 255) / 256
    | 1 => e / 256 + 984
    | _ => (e + unitsPerSecond + unitsPerSecond / 4 + 255) / 256

/-- SOURCE_LOSS_TIMEOUT (R58, Table 2.3): the selected input is missing past its timeout. -/
def execSourceLossTimeout (s : State) : Host.Outcome State Fault Refusal := onDev s fun s =>
  .next (
    if s.cad.src ≤ 2 then
      let s := advance (lossDue s) s
      cadLose { s with cad := { s.cad with present := false, lastEvent := none, lastLen := none } }
    else s)

/-- Records with the one that begins at `base`, and every later one, renumbered. -/
def renumberFrom (base d : Nat) (l : List Rec) : List Rec :=
  l.map fun r => if base ≤ r.base then { r with c := (r.c + d) % 2 ^ 32 } else r

/-- A position `d` cycles on. -/
def shiftPos (d pos : Nat) : Nat := (pos + d * 2 ^ 32) % posMod

/-- An array's slot sequence `d` cycles on. -/
def shiftArr (d : Nat) (x : Arr) : Arr :=
  { x with
    p0 := shiftPos d x.p0
    slots := x.slots.map fun y => { y with startPos := shiftPos d y.startPos, endPos := shiftPos d y.endPos }
    enableWait := x.enableWait.map (shiftPos d) }

/-- What a channel has running `d` cycles on: source sample slots, c_a of its sine, the slots of its arrays. -/
def shiftChan (d : Nat) (c : Chan) : Chan :=
  { c with
    src := { c.src with shift := (c.src.shift + d) % 2 ^ 32, sine := { c.src.sine with anchor := (c.src.sine.anchor + d) % 2 ^ 32 } }
    vm := shiftArr d c.vm
    im := shiftArr d c.im }

/-- What a unit's requests and grants hold `d` cycles on. -/
def shiftShared (d : Nat) (x : Shared) : Shared :=
  { x with
    grants := x.grants.map fun g => { g with deadline := shiftPos d g.deadline }
    waiters := x.waiters.map fun r => { r with deadline := shiftPos d r.deadline, hint := r.hint.map (shiftPos d) } }

/-- What the Control die has running `d` cycles on: deadlines and hints, a commit of the arbiter, a comparison. -/
def shiftCtl (d : Nat) (s : Dev) : Dev :=
  { s with
    arb := { s.arb with units := s.arb.units.map (shiftShared d), commit := s.arb.commit.map fun e => (shiftPos d e.1, e.2) }
    ref := { s.ref with comparison := s.ref.comparison.map fun c => { c with start := shiftPos d c.start } } }

/-- The running work of a die follows a renumbering by `d` cycles; a die that extends its records takes it in when it adopts (R64). -/
def shiftDie (d : Nat) (k : Die) (s : Dev) : Dev :=
  if s.dies[k].extending then updDie k (fun x => { x with shiftDue := (x.shiftDue + d) % 2 ^ 32 }) s
  else forDie k (fun n => updCh n (shiftChan d)) s

/-- The cycle that begins at stamp `base` takes number `c'` instead of `c` (R54); counting continues from it. A die that extends records keeps
its own (R63). The manual does not say what becomes of work that runs on positions under the old count: slot sequences of arrays, source sample
slots, c_a of a sine, deadlines; in the model each keeps its tick, its position moving with the count (DESIGN CHOICE, log 150). -/
def renumber (base c c' : Nat) (s : Dev) : Dev :=
  let d := (c' + 2 ^ 32 - c % 2 ^ 32) % 2 ^ 32
  let s := { s with
    cad := { s.cad with recs := renumberFrom base d s.cad.recs }
    dies := s.dies.map fun x => if x.extending then x else { x with recs := renumberFrom base d x.recs } }
  shiftCtl d ((List.finRange 6).foldl (fun s k => shiftDie d k s) s)

/-- Whether a key of the waiting settings is an object's. -/
def waitingFor (s : Dev) (r : Row) : Option Nat := (s.cad.waiting.find? fun w => w.key == keyOf r [] 0).map ReelWait.value

/-- The settings of 0x2100 that a boundary of stamp `base` takes enter into force (R62). -/
def applyWaiting (base : Nat) (s : Dev) : Dev :=
  (s.cad.waiting.filter fun w => decide (w.since ≤ base)).foldl (fun s w => putKey w.key w.value s)
    { s with cad := { s.cad with waiting := s.cad.waiting.filter fun w => !decide (w.since ≤ base) } }

/-- A source change at a Reel cycle boundary of stamp `base` (Table 2.2). The second component is a cycle length it forces (R426). -/
def sourceChange (base : Nat) (s : Dev) : Dev × Option Nat :=
  match s.cad.waiting.find? fun w => w.key == keyOf oReelSource [] 0 && decide (w.since ≤ base) with
  | none => (applyWaiting base s, none)
  | some w =>
    let new := w.value
    let old := s.cad.src
    let st := s.cad.st
    let s1 := applyWaiting base s
    if new = old then (s1, none)
    else
      let s2 := { s1 with cad := { s1.cad with src := new, lastEvent := none, lastLen := none, present := false, rangeErr := false } }
      let s3 := { s2 with zh := { s2.zh with run := [], masterHold := false, masterSpans := spanClose s2.zh.masterSpans s2.now } }
      if new = 4 then (cadEnter .freerun { s3 with cad := { s3.cad with corrLeft := 0, tail := 0 } }, none)
      else if st = .relock then
        (cadEnter .acquire { s3 with cad := { s3.cad with corrLeft := 0, tail := 0 } }, some s.cad.lSrc)
      else (cadEnter .acquire s3, none)

/-- The slew step of R61: s × L_src, in 1/256 tick. -/
def slewStep (s : Dev) : Nat := (roundOpen (s.cad.lSrc * rd s oSlewLimit []) 1000000).toNat

/-- One RELOCK record (R61): a cycle of L_src × (1 − s × sign e); the last slewed cycle carries the remainder. The correction run is
added to SLIP_TOTAL in 2⁻³² cycle. -/
def relockRecord (s : Dev) : Dev × Nat :=
  let c := s.cad
  let step : Int := slewStep s
  let x : Int := clampInt (-step) step c.corrLeft
  let left := c.corrLeft - x
  let run := c.corrRun + x
  let slip := c.slipBase + (if left = 0 then c.err else roundOpen (run * 2 ^ 32) (c.lSrc : Int))
  let s1 := { s with cad := { c with corrLeft := left, corrRun := run, tail := if left = 0 then 1 else 0 } }
  (wr s1 oSlipTotal (ofSigned 64 slip) [], ((c.lSrc : Int) - x).toNat)

/-- The length of the record fixed at a boundary, by the state in force (Table 2.2, R426); in LOCKED the loop filter's, within s of the cycle before
(R61). -/
def fixLength (forced : Option Nat) (prev : Nat) (s : Dev) : Dev × Nat :=
  match forced with
  | some l => (s, l)
  | none =>
    match s.cad.st with
    | .freerun => (s, nominalLength s)
    | .acquire => (s, prev)
    | .holdover => (s, s.cad.lHold)
    | .locked => (nextFree s, slewBound s prev (Config.loopFilterLength s.free))
    | .relock =>
      if s.cad.tail = 0 then relockRecord s
      else if s.cad.tail = 1 then ({ s with cad := { s.cad with tail := 2 } }, s.cad.lSrc)
      else
        let s1 := cadEnter .locked { s with cad := { s.cad with tail := 0 } }
        (nextFree s1, slewBound s1 prev (Config.loopFilterLength s1.free))

/-- The work of the Cadence Unit at the boundary at which the newest published record begins: renumbering (R54), waiting settings and
source change (R62), and the next record, which is published (R48). Cycles spent in HOLDOVER are counted as the boundaries passed in it, so the
one in which it began counts as one (DESIGN CHOICE, log 121). -/
def cadenceBoundary (s : Dev) : Dev :=
  match s.cad.recs with
  | [] => s
  | r :: _ =>
    let s := advance ((r.base + 255) / 256) s
    let s := match s.cad.preset with
      | some (c', since) => if since ≤ r.base then renumber r.base r.c c' { s with cad := { s.cad with preset := none } } else s
      | none => s
    let q := sourceChange r.base s
    let s := q.1
    let s := if s.cad.st = .holdover then { s with cad := { s.cad with holdCycles := s.cad.holdCycles + 1 } } else s
    let w := fixLength q.2 r.len s
    let s := w.1
    match s.cad.recs with
    | [] => s
    | r :: t => { s with cad := { s.cad with recs := ⟨(r.c + 1) % 2 ^ 32, r.base + r.len, w.2⟩ :: r :: t } }

/-- HOLDOVER_ALARM (Table 2.2): HOLDOVER has lasted HOLDOVER_ALARM cycles. -/
def execHoldoverAlarm (s : State) : Host.Outcome State Fault Refusal := onDev s fun s =>
  .next (
    if s.cad.st = .holdover && rd s oHoldoverAlarm [] ≤ s.cad.holdCycles then
      { s with cad := { s.cad with long := true } }
    else s)

/-- REEL_COUNTER_CLEAR: 0x2101:08 (Table 2.6). -/
def clearReelCounters (v : Nat) (s : Dev) : Dev :=
  let s := if bitOf v 0 then wr s oHoldoverCount 0 [] else s
  let s := if bitOf v 1 then { wr s oSlipTotal 0 [] with cad := { s.cad with slipBase := s.cad.slipBase - toSigned 64 (rd s oSlipTotal []) } } else s
  if bitOf v 2 then wr s oLastHoldover 0 [] else s

end Sys2Proof.Machine
end

