-- ==== Sys2Proof/Machine/Operands.lean ====
section
/-! DEFINITION. Operand forms: rounding to nearest, correction keys and entries (R154 to R157, R283), the corrections of takes and source
codes (R74, R128, R155, R281). -/

namespace Sys2Proof.Machine

/-- A quotient rounded to nearest; the manual does not say which way a tie goes (free value, log 4). -/
def roundNearestOpen (num den : Int) : Int :=
  let q := num / den
  let r := 2 * (num % den)
  if r < den then q else if den < r then q + 1 else if Config.roundsUp num den then q + 1 else q

/-- A correction entry (Table 9.7). -/
structure CorrEntry where
  provisioned : Bool
  offset : Int
  gain : Int
  deriving DecidableEq, Repr

/-- The subindex of an array's correction entry (R283): none for inputs 6 and 8 (Table 5.3). -/
def corrKey (input range ref : Nat) : Option Nat :=
  if input ≤ 4 then some (1 + 6 * input + 2 * range + ref)
  else if input = 5 then some (31 + ref)
  else if input = 7 then some (33 + ref)
  else none

/-- The fields of an entry. -/
def entryOf (v : Nat) : CorrEntry := ⟨bitOf v 80, toSigned 40 (getField v 0 40), toSigned 40 (getField v 40 40)⟩

/-- An entry as it applies: one that is not provisioned, or any entry until CAL_LOADED (R287), is O = 0 and G = 0 (R156). -/
def entryInForce (s : Dev) (v : Nat) : CorrEntry :=
  let e := entryOf v
  if s.ref.calLoaded && e.provisioned then e else ⟨false, 0, 0⟩

/-- The entry of an array by subindex. -/
def corrEntry (s : Dev) (n : Ch) (a : ArrId) (j : Nat) : CorrEntry :=
  entryInForce s (rdJ s (match a with | .vm => oVmCorr | .im => oImCorr) [n] (j - 1))

/-- (v − O) + (v − O) × G with G in Q39, rounded to nearest and saturated to 40 bits (R128, R155). -/
def applyCorr (v off gain : Int) : Int := satSigned 40 (roundNearestOpen ((v - off) * (2 ^ 39 + gain)) (2 ^ 39))

/-- The reference pair a source path uses (R103): 0 internal, 1 external. An array on the supply reference gives none; the source never
uses it (log 21). -/
def srcPair (s : Dev) (n : Ch) : Nat :=
  match rd s oSrcRef [n] with
  | 0 => 0
  | 1 => 1
  | 2 => if rd s oRefSel [n, 0] = 1 then 1 else 0
  | _ => if rd s oRefSel [n, 1] = 1 then 1 else 0

/-- The source entry in force (R74, R283). -/
def srcEntry (s : Dev) (n : Ch) : CorrEntry := entryInForce s (rdJ s oSrcCorr [n] (2 * rd s oSrcMode [n] + srcPair s n))

/-- The code at the modulator (R74, R281): self-calibration trims of the mode, then the correction entry. -/
def srcCorrected (s : Dev) (n : Ch) (code : Int) : Int :=
  let volt := rd s oSrcMode [n] = 0
  let o := if volt then rdI s oTrimVOffset [n] else rdI s oTrimIOffset [n]
  let g := if volt then rdI s oTrimVGain [n] else rdI s oTrimIGain [n]
  let e := srcEntry s n
  applyCorr (applyCorr code o g) e.offset e.gain

/-- A value of a loop object that waits for the crossover period of a range change was accepted before another write of the object, and no longer
stands (R20, Table 6.8). -/
def loopWaitsNot (n : Ch) (key : Nat) (s : Dev) : Dev :=
  updCh n (fun c => { c with loop := { c.loop with xover := c.loop.xover.map fun x =>
    { x with writes := x.writes.filter fun e => e.1 != key } } }) s

/-- LOOP_SP written, directly or as the copy of LOOP_SP_STAGED (R183). -/
def loopSpWrite (n : Ch) (v : Nat) (s : Dev) : Dev := loopWaitsNot n (keyOf oLoopSp [n] 0) (wr s oLoopSp v [n])

end Sys2Proof.Machine
end

