-- ==== Sys2Proof/Machine/Arbiter.lean ====
section
/-! DEFINITION. The arbiters of the shared units (10): requests, ranking, grants, hints, lateness, hold overruns, host holds, circles,
ARB_COMMIT. -/

namespace Sys2Proof.Machine

/-! ### Units and requesters -/

/-- The number names a unit of Table 10.1. -/
def isUnit (u : Nat) : Bool :=
  (0x10 ≤ u && u ≤ 0x15) || u == 0x20 || (0x40 ≤ u && u ≤ 0x6F) || (0x80 ≤ u && u ≤ 0x85) || u == 0x90 || u == 0xA0 ||
    (0xB0 ≤ u && u ≤ 0xB5)

/-- The units of Table 10.1, ascending: 69 of them. -/
def allUnits : List Nat := (List.range 0xB6).filter isUnit

/-- Slots of a unit (R296): 32 for fabric message slots, else 1. -/
def slotsOf (u : Nat) : Nat := if 0xB0 ≤ u then 32 else 1

/-- A host may hold the unit (Table 10.1). -/
def hostMayHold (u : Nat) : Bool := u == 0x20 || (0x40 ≤ u && u ≤ 0x6F) || (0x80 ≤ u && u ≤ 0x85)

/-- The arbiter's Channel die (Table 10.1); none is the Control die. -/
def unitDie (u : Nat) : Option Die :=
  if h : 0x10 ≤ u ∧ u ≤ 0x15 then some ⟨u - 0x10, by omega⟩
  else if h : 0x40 ≤ u ∧ u ≤ 0x6F then some ⟨(u - 0x40) / 8, by omega⟩
  else if h : 0x80 ≤ u ∧ u ≤ 0x85 then some ⟨u - 0x80, by omega⟩
  else none

/-- A requester identifier (R298). -/
def reqId (cls inst : Nat) : Nat := cls * 4096 + inst

/-- Class of an identifier. -/
def clsOf (id : Nat) : Nat := id / 4096

/-- Instance of an identifier. -/
def instOf (id : Nat) : Nat := id % 4096

/-- A unit without the grants that have ended by the present tick. -/
def liveUnit (s : Dev) (x : Shared) : Shared := { x with grants := x.grants.filter fun g => g.drop.all fun d => decide (s.now < d) }

/-- The units as they are held and waited on at the present tick. -/
def unitsNow (s : Dev) : List Shared := s.arb.units.map (liveUnit s)

/-- A unit as the arbiter holds it. -/
def sharedOf (s : Dev) (u : Nat) : Shared :=
  match s.arb.units.find? fun x => x.unit == u with
  | some x => liveUnit s x
  | none => ⟨u, [], [], 0⟩

/-- A unit's entry put at its place; a unit neither held nor waited on is not listed. -/
def sharedPut (x : Shared) : List Shared → List Shared
  | [] => if x.grants = [] && x.waiters = [] then [] else [x]
  | y :: t =>
    if y.unit = x.unit then (if x.grants = [] && x.waiters = [] then t else x :: t)
    else if x.unit < y.unit then (if x.grants = [] && x.waiters = [] then y :: t else x :: y :: t)
    else y :: sharedPut x t

/-- A unit rewritten. -/
def updUnit (x : Shared) (s : Dev) : Dev := { s with arb := { s.arb with units := sharedPut x s.arb.units } }

/-- The requester holds the unit. -/
def holds (s : Dev) (id u : Nat) : Bool := (sharedOf s u).grants.any fun g => g.id == id

/-- Units a requester holds, ascending. -/
def unitsHeld (s : Dev) (id : Nat) : List Nat := ((unitsNow s).filter fun x => x.grants.any fun g => g.id == id).map Shared.unit

/-- Units a port holds, ascending (R306). -/
def unitsOfPort (s : Dev) (p : Port) : List Nat :=
  ((unitsNow s).filter fun x => x.grants.any fun g => clsOf g.id == p.idx.val).map Shared.unit

/-- The largest of a list. -/
def maxNat (l : List Nat) : Nat := l.foldl max 0

/-- Requesters that acquire only in increasing bond order (R297). -/
def ordered (id : Nat) : Bool := clsOf id ≤ 8

/-! ### Ranking -/

/-- R299: earlier deadline under R11, earlier entry tick, lower class, lower instance. -/
def deadlineFirst (a b : Request) : Bool :=
  if a.deadline % posMod ≠ b.deadline % posMod then posLater b.deadline a.deadline
  else if a.entry ≠ b.entry then decide (a.entry < b.entry)
  else decide (a.id < b.id)

/-- Effective priority of R307. -/
def effPrio (v : ArbValues) (r : Request) : Nat := min 15 (v.prio.getD (clsOf r.id) 0 + r.passed)

/-- `a` ranks before `b` under the mode in force. -/
def ranksBefore (v : ArbValues) (a b : Request) : Bool :=
  if v.mode = 0 then deadlineFirst a b
  else if effPrio v a ≠ effPrio v b then decide (effPrio v b < effPrio v a)
  else if a.entry ≠ b.entry then decide (a.entry < b.entry)
  else decide (a.id < b.id)

/-- The highest-ranked request of a list. -/
def bestOf (v : ArbValues) : List Request → Option Request
  | [] => none
  | r :: t => some (t.foldl (fun m x => if ranksBefore v x m then x else m) r)

/-- A request put at its rank. -/
def rankInsert (v : ArbValues) (r : Request) : List Request → List Request
  | [] => [r]
  | x :: t => if ranksBefore v r x then r :: x :: t else x :: rankInsert v r t

/-- The requests in rank order. -/
def rankSort (v : ArbValues) (l : List Request) : List Request := l.foldr (rankInsert v) []

/-! ### Hold bounds and hints -/

/-- A Reel duration in ticks at the present cycle length, rounded up (R55). -/
def durTicks (s : Dev) (a : Nat) : Nat := (a * (curRec s.cad.recs s.now).len / 2 ^ 30 + 255) / 256

/-- LEDGER_LEAD of a record of so many bytes, in ticks (R285). -/
def leadTicks (bytes : Nat) : Nat := msTicks * (2 + 3 * ((bytes + 255) / 256))

/-- Bytes of a record: header, payload, DEVICE_SIG, and AUTH_SIG where present (R290). -/
def recordBytes (a : Append) : Nat := 176 + a.payload.length + 114 + (if a.authSig.isSome then 114 else 0)

/-- The slot of a transaction by its requester identifier. -/
def txnOf (s : Dev) (p : Fin 5) (slot : Nat) : Txn := s.ports[p].txns.toList.getD (slot - 1) txnFree

/-- HOST_HOLD as a transaction stages it: the value, if it does. -/
def stagedHold (t : Txn) : Option Nat :=
  (t.staged.find? fun w => w.index == 0x2404 && w.sub == 1).map fun w => ofBytes w.data

/-- The port of a class 0 to 4. -/
def portOfClass (c : Nat) : Fin 5 := ⟨c % 5, Nat.mod_lt _ (by decide)⟩

/-- The identifier under which a record of the append queue asks for the ledger (Table 10.2): a comparison by its own class, a
record of a transaction by its port and slot, any other by its type. -/
def appendId (a : Append) : Nat :=
  match a.slot with
  | some (p, i) => reqId p i
  | none => if a.type = 2 then reqId 8 0 else reqId 9 a.type

/-- Bytes of the record that a requester of the ledger appends, `least` where none waits under its identifier. -/
def recordFor (s : Dev) (id least : Nat) : Nat :=
  match s.ledger.queue.find? fun a => appendId a == id with
  | some a => recordBytes a
  | none => least

/-- The end of a hold that begins at tick `t`, by the class hold bound of Table 10.2; none is unbounded. -/
def holdEnd (s : Dev) (id u t : Nat) : Option Nat :=
  let i := instOf id
  match clsOf id with
  | 5 =>
    if u < 0x80 then some (t + durTicks s (rd s oAperture [i / 2, i % 2]) + 532)
    else some (t + 3 * rd s oCalAperture [i / 2, i % 2] * msTicks + msTicks)
  | 6 => some (t + (s.ch (chanAt i)).selfcal.modes * (3 * rd s oCalAperture [i, 0] * msTicks + usTicks 1500))
  | 7 => some (t + 123864)
  | 8 =>
    if u = 0xA0 then some (t + leadTicks (recordFor s id 386))
    else some (t + 2 * rd s oCmpPairs [] * (5 * rd s oCmpTakes [] + 4) * durTicks s (rd s oCmpAperture []))
  | 9 => some (t + leadTicks (recordFor s id 290))
  | 10 => some (t + usTicks 400)
  | 11 | 12 | 13 => some (t + usTicks 30)
  | 14 => some (t + 10 * msTicks)
  | c =>
    let x := txnOf s (portOfClass c) i
    if (stagedHold x).any fun m => bitOf m u then none else some (max t (tickAhead s.cad.recs s.now x.pos + 1))

/-- The end of a grant, treated as the present tick once it has passed (R300). -/
def grantEnd (s : Dev) (u : Nat) (g : Grant) : Option Nat :=
  if g.host then none else (holdEnd s g.id u g.tick).map fun e => max e s.now

/-- The earliest of slot-free times and the others; none stands for never. -/
def takeMin : List (Option Nat) → Option Nat × List (Option Nat)
  | [] => (none, [])
  | a :: t =>
    let r := takeMin t
    match a, r.1 with
    | some x, some y => if x ≤ y then (some x, t) else (some y, a :: r.2)
    | some x, none => (some x, t)
    | none, some y => (some y, none :: r.2)
    | none, none => (none, t)

/-- Slot-free times after the requests ahead have each held for their bounds. -/
def afterAhead (s : Dev) (u : Nat) : List Request → List (Option Nat) → List (Option Nat)
  | [], l => l
  | r :: t, l =>
    let m := takeMin l
    match m.1 with
    | some x => afterAhead s u t (holdEnd s r.id u x :: m.2)
    | none => afterAhead s u t (none :: m.2)

/-- The early hint of a request as a tick (R301); none is "none". A slot that a host has released is free from the next tick on (R323). -/
def hintTick (s : Dev) (u : Nat) (r : Request) : Option Nat :=
  let x := sharedOf s u
  let ahead := rankSort s.arb.now (x.waiters.filter fun w => w.id != r.id && ranksBefore s.arb.now w r)
  let ends := x.grants.map (grantEnd s u)
  let unbounded := ends.contains none || ahead.any fun w => (holdEnd s w.id u s.now).isNone
  if unbounded then none
  else (takeMin (afterAhead s u ahead ((List.replicate (slotsOf u - x.grants.length) (some s.now) ++ ends).map fun e => e.map (max x.freeFrom)))).1

/-- The hint as a Reel position. -/
def hintPos (s : Dev) (u : Nat) (r : Request) : Option Nat := (hintTick s u r).map fun t => posOf s.cad.recs (t * 256)

/-- The hint "none" (R301). -/
def hintNone : Nat := 0xFFFFFFFFFFFFFFFF

/-- Hints of the waiting requests of a unit given afresh (R301). -/
def rehint (u : Nat) (s : Dev) : Dev :=
  let x := sharedOf s u
  updUnit { x with waiters := x.waiters.map fun r => { r with hint := hintPos s u r } } s

/-! ### Requests, grants, releases -/

/-- A request entered (R298): not twice, not for a number that names no unit, and in bond order where R297 holds the requester to it. -/
def unitRequest (id u deadline : Nat) (s : Dev) : Dev :=
  let x := sharedOf s u
  if !isUnit u || (x.grants.any fun g => g.id == id) || (x.waiters.any fun r => r.id == id) then s
  else if ordered id && (unitsHeld s id).any fun v => decide (u ≤ v) then s
  else rehint u (updUnit { x with waiters := x.waiters ++ [⟨id, deadline % posMod, s.now, 0, none, false⟩] } s)

/-- A requester's grants of a unit dropped (R300). -/
def unitRelease (id u : Nat) (s : Dev) : Dev :=
  let x := sharedOf s u
  if x.grants.any fun g => g.id == id then rehint u (updUnit { x with grants := x.grants.filter fun g => g.id != id } s) else s

/-- A request withdrawn. -/
def unitWithdraw (id u : Nat) (s : Dev) : Dev :=
  let x := sharedOf s u
  if x.waiters.any fun r => r.id == id then rehint u (updUnit { x with waiters := x.waiters.filter fun r => r.id != id } s) else s

/-- Everything of a requester dropped and withdrawn. -/
def dropRequester (id : Nat) (s : Dev) : Dev :=
  (s.arb.units.map Shared.unit).foldl (fun s u => unitWithdraw id u (unitRelease id u s)) s

/-- The array's spare slice is idle: its verify path can be given to calibration, self-calibration or verify (R133). -/
def spareIdle (s : Dev) (n : Ch) (a : ArrId) : Bool :=
  let x := match a with | .vm => (s.ch n).vm | .im => (s.ch n).im
  match x.spare with
  | some i => x.slices[i].st == .spareIdle
  | none => false

/-- The die whose link a unit's requests travel over: that of the unit's arbiter, or of the fabric slots (Table 10.1). -/
def unitLink (u : Nat) : Option Die :=
  if h : 0xB0 ≤ u ∧ u ≤ 0xB5 then some ⟨u - 0xB0, by omega⟩ else unitDie u

/-- The link lets a request through (R322): a fabric slot, and a transaction's request of a unit of the die, wait while the link is not up. -/
def linkLets (s : Dev) (u : Nat) (r : Request) : Bool :=
  match unitLink u with
  | some k => !(decide (0xB0 ≤ u) || decide (clsOf r.id ≤ 4)) || (match s.dies[k].link.st with
    | .active | .retraining => true
    | .reset | .training | .lost => false)
  | none => true

/-- The arbiter of a unit works: those of a die's units are its DS3 (Table 10.1, Table 1.3). -/
def arbiterRuns (s : Dev) (u : Nat) : Bool :=
  match unitDie u with
  | some k => serviceRuns s k 3
  | none => true

/-- The first record outside transactions that waits for the ledger: records are appended in the order of their causes (R291). -/
def appendNext (s : Dev) : Option Append := s.ledger.queue.find? fun a => a.slot.isNone

/-- The request is a background verify (R264): class 7, instance 4n + m. -/
def verifyBackground (s : Dev) (r : Request) : Bool :=
  clsOf r.id == 7 && (s.chans[instOf r.id / 4 % 24]).mons[instOf r.id % 4].verifyBg

/-- A requester may be granted the unit now: a verify path needs its idle spare (R133), and outside a supply warning for a background verify (R264);
the ledger needs that there is no supply warning and, outside transactions, that the record is the next (R291); the link and the arbiter must work. -/
def grantable (s : Dev) (u : Nat) (r : Request) : Bool :=
  let c := clsOf r.id
  linkLets s u r && arbiterRuns s u &&
  if h : 0x40 ≤ u ∧ u ≤ 0x6F then
    if 5 ≤ c && c ≤ 7 then
      spareIdle s ⟨(u - 0x40) / 2, by omega⟩ (if u % 2 = 0 then .vm else .im) && !(c == 7 && s.supply.warning && verifyBackground s r)
    else true
  else if u = 0xA0 then !s.supply.warning && (!(c == 8 || c == 9) || (appendNext s).any fun a => appendId a == r.id)
  else true

/-- The hint of a waiting request as a Reel position: while a holder overruns its bound, it is given afresh at each tick (R300). -/
def hintNow (s : Dev) (u : Nat) (r : Request) : Option Nat :=
  if (sharedOf s u).grants.any fun g => g.overrun then hintPos s u r else r.hint

/-- The tick at which the unit has a slot to grant: at once, after a host's release, or as the first grant ends by itself. -/
def grantTick (s : Dev) (u : Nat) : Nat :=
  let x := sharedOf s u
  if x.grants.length < slotsOf u then max s.now x.freeFrom
  else match (x.grants.filterMap Grant.drop).min? with
    | some d => max d x.freeFrom
    | none => s.now

/-- A free slot given to the highest-ranked request that can take it (R299, R307): the request granted and the device after it. -/
def grantNext (u : Nat) (s : Dev) : Option (Request × Dev) :=
  let x := sharedOf s u
  if isUnit u && x.grants.length < slotsOf u then
    match bestOf s.arb.now (x.waiters.filter (grantable s u)) with
    | none => none
    | some r =>
      let miss := match hintNow s u r with
        | some h => decide (tickNear s.cad.recs h < s.now)
        | none => false
      let rest := (x.waiters.filter fun w => w.id != r.id).map fun w => { w with passed := w.passed + 1 }
      let s := updUnit { x with grants := x.grants ++ [⟨r.id, s.now, ctlPos s, r.deadline, false, false, none⟩], waiters := rest } s
      let s := if miss then bump oHintMisses [] s else s
      some (r, rehint u s)
  else none

/-- A grant ends by itself at a tick. -/
def grantUntil (id u t : Nat) (s : Dev) : Dev :=
  let x := sharedOf s u
  updUnit { x with grants := x.grants.map fun g => if g.id = id then { g with drop := some t } else g } s

/-- A request that takes a free slot on entry (R301); none where it has to wait. -/
def enterGranted (id u deadline : Nat) (s : Dev) : Dev × Bool :=
  let s1 := unitRequest id u deadline s
  match grantNext u s1 with
  | some (r, s2) => if r.id = id && (sharedOf s1 u).freeFrom ≤ s.now then (s2, true) else (s1, false)
  | none => (s1, false)

/-- DL_OFFSET in force of a class, in ticks. -/
def dlOffset (s : Dev) (c : Nat) : Nat := usTicks (s.arb.now.offset.getD c 0)

/-- A deadline so many ticks on. -/
def deadlineIn (s : Dev) (ticks : Nat) : Nat := posOf s.cad.recs ((s.now + ticks) * 256)

/-- The deadline of an append outside transactions (Table 10.2): its cause plus DL_OFFSET of its class, of the writing port for a
baseline. -/
def appendDeadline (s : Dev) (a : Append) : Nat :=
  let c := if a.type = 4 && a.origin ≤ 4 then a.origin else if a.type = 2 then 8 else 9
  posOf s.cad.recs ((a.cause + dlOffset s c) * 256)

/-- Each record that waits asks for the ledger (R303), records of one identifier one after the other; those of transactions have asked in their
prepare phase. -/
def ledgerAsk (s : Dev) : Dev :=
  (s.ledger.queue.filter fun a => a.slot.isNone).foldl (fun s a => unitRequest (appendId a) 0xA0 (appendDeadline s a) s) s

/-- An append caused at the present tick, with its request for the ledger. -/
def causeRecord (a : Append) (s : Dev) : Dev := ledgerAsk (ledgerCause a s)

/-- Tick at which a die's scrub pass is due (Table 10.2), 6 for the Control die. -/
def scrubDue (s : Dev) (k : Nat) : Nat :=
  if k < 6 then s.dies[k % 6].scrubAt + rd s oScrubPeriod [k] * msTicks else s.control.scrubAt + rd s oCtrlScrubPeriod [] * msTicks

/-- Tick at which a die's telemetry report is due (Table 10.2). -/
def reportDue (s : Dev) (k : Nat) : Nat := s.dies[k % 6].reportAt + rd s oTelemPeriod [k] * msTicks

/-- The deadline of a request (Table 10.2) where it follows from the device alone: a scrub pass and a report by their periods, a service by its
entry tick; that of any other class is the requester's, also for class 13, whose instance does not say which message it is (log 162). -/
def classDeadline (s : Dev) (cls inst given : Nat) : Nat :=
  if cls = 11 then posOf s.cad.recs (scrubDue s inst * 256)
  else if cls = 12 then posOf s.cad.recs (reportDue s inst * 256)
  else if cls = 14 then deadlineIn s (dlOffset s 14)
  else given

/-- UNIT_REQUEST (R298): a requester enters a request, with the deadline of its class. -/
def execUnitRequest (cls : Fin 15) (inst : BitVec 12) (unit : BitVec 8) (deadline : Pos) (s : State) :
    Host.Outcome State Fault Refusal := onDev s fun s =>
  .next (unitRequest (reqId cls inst.toNat) unit.toNat (classDeadline s cls inst.toNat deadline.toNat) s)

/-! ### Overruns and lateness -/

/-- The bounded grant of a unit that ends first and has not been counted: its identifier and end. -/
def firstEnd (s : Dev) (u : Nat) : List Grant → Option (Nat × Nat)
  | [] => none
  | g :: t =>
    let r := firstEnd s u t
    if g.overrun || g.host then r
    else match holdEnd s g.id u g.tick, r with
      | some e, some (i, f) => if e ≤ f then some (g.id, e) else some (i, f)
      | some e, none => some (g.id, e)
      | none, r => r

/-- HOLD_OVERRUN (R300): a holder keeps its grant past its class hold bound: counted once, event 0x0A, hints given afresh. -/
def execHoldOverrun (unit : BitVec 8) (s : State) : Host.Outcome State Fault Refusal := onDev s fun s =>
  .next (
    let u := unit.toNat
    match firstEnd s u (sharedOf s u).grants with
    | none => s
    | some (id, e) =>
      let s := advance (e + 1) s
      let x := sharedOf s u
      let s := updUnit { x with grants := x.grants.map fun g => if g.id = id then { g with overrun := true } else g } s
      rehint u (logEvent 0x0A u id (bump oHoldOverruns [] s)))

/-- Classes that enter background work (R303). -/
def backgroundClass (c : Nat) : Bool := (5 ≤ c && c ≤ 9) || c == 11 || c == 12

/-- A late request of a class counted. -/
def countLate (cls : Nat) (s : Dev) : Dev := wrJ s oLates (countUp (2 ^ 32 - 1) (rdJ s oLates [] cls) 1) [] cls

/-- Work with no request entered is late. -/
def lateWithout (id cls : Nat) (s : Dev) : Dev := countLate cls { s with arb := { s.arb with lateWork := s.arb.lateWork ++ [id] } }

/-- Work that was late is done. -/
def lateOver (id : Nat) (s : Dev) : Dev := { s with arb := { s.arb with lateWork := s.arb.lateWork.filter fun i => i != id } }

/-- BACKGROUND_LATE (R303): a background request not granted at its deadline plus GRACE: counted, its late mark set. A
background comparison that could not be entered by then is late too (R280), and a scrub pass or report that did not come (R393). -/
def execBackgroundLate (cls : Fin 15) (inst : BitVec 12) (unit : BitVec 8) (s : State) :
    Host.Outcome State Fault Refusal := onDev s fun s =>
  .next (
    let id := reqId cls inst.toNat
    let u := unit.toNat
    let x := sharedOf s u
    match x.waiters.find? fun r => r.id == id with
    | some r =>
      if backgroundClass cls && !r.late then
        let s := advance (tickNear s.cad.recs r.deadline + s.arb.now.grace.getD cls 0 * msTicks) s
        let s := updUnit { x with waiters := x.waiters.map fun r => if r.id = id then { r with late := true } else r } s
        let s := countLate cls s
        if cls.val = 8 then { s with ref := { s.ref with cmpLate := true } } else s
      else s
    | none =>
      let grace := s.arb.now.grace.getD cls 0 * msTicks
      let late (due : Nat) : Dev := lateWithout id cls (advance (due + grace) s)
      if cls.val = 8 && rd s oCmpInterval [] ≠ 0 then
        let s := advance (s.ref.lastComparison + rd s oCmpInterval [] * 3600000 * msTicks + grace) s
        { s with ref := { s.ref with cmpLate := true } }
      else if cls.val = 11 && inst.toNat ≤ 6 && !s.arb.lateWork.contains id then late (scrubDue s inst.toNat)
      else if cls.val = 12 && inst.toNat < 6 && !s.arb.lateWork.contains id then late (reportDue s inst.toNat)
      else s)

/-- A request of one of the classes is late (R303). -/
def anyLate (s : Dev) (f : Nat → Bool) : Bool :=
  (s.arb.lateWork.any fun id => f (clsOf id)) || s.arb.units.any fun x => x.waiters.any fun r => r.late && f (clsOf r.id)

/-! ### Circles -/

/-- The requests that wait, with their units. -/
def allWaiting (s : Dev) : List (Nat × Request) := (unitsNow s).flatMap fun x => x.waiters.map fun r => (x.unit, r)

/-- The wait graph (R309): an edge from each waiting request to each holder of its unit. -/
def waitEdges (s : Dev) : List (Nat × Nat) := (unitsNow s).flatMap fun x => x.waiters.flatMap fun r => x.grants.map fun g => (r.id, g.id)

/-- Requesters reached from a set in at most `fuel` further edges. -/
def reachIds (e : List (Nat × Nat)) : Nat → List Nat → List Nat
  | 0, l => l
  | k + 1, l =>
    let new := ((e.filter fun x => l.contains x.1).map Prod.snd).filter fun i => !l.contains i
    match new with
    | [] => l
    | i :: _ => reachIds e k (l ++ [i])

/-- Requesters that lie ahead of one in the graph. -/
def ahead (e : List (Nat × Nat)) (i : Nat) : List Nat := reachIds e e.length ((e.filter fun x => x.1 == i).map Prod.snd).eraseDups

/-- The circle of a requester: those it reaches and that reach it. -/
def circleOf (e : List (Nat × Nat)) (i : Nat) : List Nat := (ahead e i).filter fun j => (ahead e j).contains i

/-- The member to abort (R309): among the members that wait below a unit they hold, the latest deadline, ties by higher identifier. -/
def victimOf (s : Dev) (circle : List Nat) : Option (Nat × Request) :=
  let cand := (allWaiting s).filter fun w => circle.contains w.2.id && w.1 < maxNat (unitsHeld s w.2.id)
  match cand with
  | [] => none
  | c :: t => some (t.foldl (fun m x =>
      if m.2.deadline = x.2.deadline then (if m.2.id < x.2.id then x else m)
      else if posLater x.2.deadline m.2.deadline then x else m) c)

/-- The map of a list of numbers, bit r for number r. -/
def mapOf (l : List Nat) : Nat := l.foldl setBit 0

/-- A circle broken (R309, R310): the victim's operation dropped whole and entered afresh with the deadline it had. -/
def breakCircle (u : Nat) (v : Request) (s : Dev) : Dev :=
  let held := unitsHeld s v.id
  let first := match ((unitsNow s).flatMap fun x => x.grants.map fun g => (g, x.unit)).find? fun e => e.1.id == v.id with
    | some (g, w) => (w, g.deadline)
    | none => (u, v.deadline)
  let s := dropRequester v.id s
  let s := bump oBreaks [] s
  let s := wr s oBreakLast (v.id + u * 2 ^ 16 + mapOf held * 2 ^ 64 + ctlPos s * 2 ^ 320) []
  let s := faultLatch 0 (logEvent 0x01 u v.id s)
  unitRequest v.id first.1 first.2 s

/-- Each requester of the graph in turn, circles that an earlier break has opened left alone. -/
def breakAll (ids : List Nat) (s : Dev) : Dev :=
  ids.foldl (fun s i =>
    let c := circleOf (waitEdges s) i
    if c.contains i then
      match victimOf s c with
      | some (u, v) => breakCircle u v s
      | none => s
    else s) s

/-- WAIT_GRAPH_SCAN (R309): every 2458 ticks. -/
def execWaitGraphScan (s : State) : Host.Outcome State Fault Refusal := onDev s fun s =>
  .next (
    let t := max (s.arb.scanAt + 2458) ((s.now + 2457) / 2458 * 2458)
    let s := advance t s
    breakAll ((allWaiting s).map fun w => w.2.id).eraseDups { s with arb := { s.arb with scanAt := t } })

/-! ### Shadows -/

/-- The shadow registers as a copy (R308). -/
def shadowCopy (s : Dev) : ArbValues :=
  ⟨rd s oArbMode [], (List.range 15).map fun c => rdJ s oPrio [] c, (List.range 15).map fun c => rdJ s oDlOffset [] c,
    (List.range 15).map fun c => rdJ s oGrace [] c⟩

/-- The copy of an ARB_COMMIT takes force (R308): Forerunner priorities return to PRIO, hints are given afresh. -/
def commitApplies (v : ArbValues) (s : Dev) : Dev :=
  let units := s.arb.units.map fun x => { x with waiters := x.waiters.map fun r => { r with passed := 0 } }
  let s := { s with arb := { s.arb with now := v, commit := none, units := units } }
  (s.arb.units.map Shared.unit).foldl (fun s u => rehint u s) s

/-- ARB_COMMIT_APPLY (R308): at the tick of its position, held while that cycle's record is not fixed (R48). -/
def execArbCommitApply (s : State) : Host.Outcome State Fault Refusal := onDev s fun s =>
  .next (
    match s.arb.commit with
    | none => s
    | some (p, v) => atPosition s.cad.recs p (commitApplies v) s)

/-- A commit whose position has come ranks what is granted from its tick on (R323). -/
def commitDue (s : Dev) : Dev :=
  match s.arb.commit with
  | none => s
  | some (p, v) => if (reachTick s.cad.recs p).any fun t => decide (t ≤ s.now) then commitApplies v s else s

/-- ARB_CLEAR (Table 10.8). -/
def clearArb (v : Nat) (s : Dev) : Dev :=
  let s := if bitOf v 0 then (List.range 15).foldl (fun s c => wrJ s oLates 0 [] c) s else s
  let s := if bitOf v 1 then wr s oBreaks 0 [] else s
  let s := if bitOf v 2 then wr s oHintMisses 0 [] else s
  if bitOf v 3 then wr s oHoldOverruns 0 [] else s

/-- The first position at or after a tick that is a multiple of 2^k (R308, R317). -/
def nextMultiple (s : Dev) (t k : Nat) : Nat :=
  let p := posAhead s.cad.recs s.now t
  let q := (p + 2 ^ k - 1) / 2 ^ k * 2 ^ k
  (if t ≤ tickAhead s.cad.recs s.now q then q else q + 2 ^ k) % posMod

/-- The request a direct write would enter, for its hint (R320). -/
def wouldRequest (s : Dev) (id deadline : Nat) : Request := ⟨id, deadline, s.now, 0, none, false⟩

/-! ### Views -/

/-- ARB_STATUS (Table 10.9). -/
def arbStatus (s : Dev) : Nat :=
  flagAt (s.arb.now.mode = 1) 0 + flagAt s.arb.commit.isSome 1 + flagAt (shadowCopy s != s.arb.now) 2 +
    flagAt ((unitsNow s).any fun x => x.grants.any fun g => g.host) 8 + flagAt (anyLate s fun c => c == 5 || c == 6) 9 +
    flagAt (anyLate s fun c => c == 11) 10 + flagAt (anyLate s fun c => c == 12) 11 + flagAt (anyLate s fun c => c == 7) 12 +
    flagAt (anyLate s fun c => c == 9) 13

/-- A resource record (Table 10.10), 24 bytes. -/
def resourceRecord (s : Dev) (u : Nat) : List Byte :=
  let x := sharedOf s u
  let first := bestOf s.arb.now x.waiters
  let linkOff := match unitLink u with
    | some k => s.dies[k].link.st != .active
    | none => false
  let last := x.grants.getLast?
  leBytes 1 u ++
    leBytes 1 (flagAt (!x.grants.isEmpty) 0 + flagAt (x.grants.any fun g => clsOf g.id ≤ 4) 1 +
      flagAt (slotsOf u ≤ x.grants.length) 2 + flagAt linkOff 3) ++
    leBytes 2 (match last with | some g => g.id | none => 0xFFFF) ++ leBytes 2 x.waiters.length ++
    leBytes 2 (match first with | some r => r.id | none => 0xFFFF) ++
    leBytes 8 (match last with | some g => g.pos | none => 0) ++
    leBytes 8 (match first with | some r => (hintNow s u r).getD hintNone | none => hintNone)

/-- RES_STATUS: every unit's record. -/
def resStatus (s : Dev) : List Byte := allUnits.flatMap (resourceRecord s)

/-- ARB_IN_FORCE, 136 bytes. -/
def arbInForce (s : Dev) : List Byte :=
  let v := s.arb.now
  leBytes 1 v.mode ++ (List.range 15).flatMap fun c => leBytes 1 (v.prio.getD c 0) ++ leBytes 4 (v.offset.getD c 0) ++ leBytes 4 (v.grace.getD c 0)

/-! ### The Slate ring (R389) -/

/-- The ring indices whose lock is clear, in the order in which entries take them (R389): empty ones, then from the oldest entry. -/
def ringOrder (s : Dev) : List Nat :=
  let used := s.slate.ring.map Prod.fst
  (((List.range 16).filter fun i => !used.contains i) ++ used).filter fun i => !bitOf (rd s oSlateLock []) i

/-- The captures that wait ask for unit 0x90 as SLATE, by the ring index each is to take. -/
def slateAsk (s : Dev) : Dev :=
  ((s.slate.held.zip (ringOrder s))).foldl (fun s e =>
    unitRequest (reqId 10 e.2) 0x90 (posOf s.cad.recs ((e.1.tick + dlOffset s 10) * 256)) s) s

end Sys2Proof.Machine
end

