-- ==== Sys2Proof/Machine/Queues.lean ====
section
/-! DEFINITION. Hardware queues (R32 to R34, R161 to R168), channel event records (R162) and post-processing (R171 to R176). -/

namespace Sys2Proof.Machine

/-! ### Queue descriptors and records -/

/-- Fields of a queue descriptor (Table 5.8). -/
def descDepth (d : BitVec 64) : Nat := 16 * getField d.toNat 48 13
/-- STREAM. -/
def descStream (d : BitVec 64) : Nat := getField d.toNat 44 4
/-- COMPANION. -/
def descCompanion (d : BitVec 64) : Bool := bitOf d.toNat 43
/-- POLICY: discard old. -/
def descDiscardOld (d : BitVec 64) : Bool := bitOf d.toNat 42
/-- CONSUMER. -/
def descConsumer (d : BitVec 64) : Nat := getField d.toNat 40 2
/-- TARGET. -/
def descTarget (d : BitVec 64) : Nat := getField d.toNat 28 12
/-- WATERMARK in entries. -/
def descWatermark (d : BitVec 64) : Nat := 16 * getField d.toNat 16 12

/-- The unallocated queue (R164). -/
def emptyQueue : Queue := ⟨0, [], 0, 0⟩

/-- Entries a queue holds. -/
def queueFill (q : Queue) : Nat := (q.recs.map List.length).sum

/-- The queue of a number in a table of queues. -/
def qFind (l : List (Nat × Queue)) (i : Nat) : Queue :=
  match l.find? fun e => e.1 == i with
  | some e => e.2
  | none => emptyQueue

/-- The table with a queue rewritten; an empty unallocated queue is not listed. -/
def qPut : List (Nat × Queue) → Nat → Queue → List (Nat × Queue)
  | [], i, q => if q = emptyQueue then [] else [(i, q)]
  | (j, x) :: t, i, q =>
    if i = j then (if q = emptyQueue then t else (i, q) :: t)
    else if i < j then (if q = emptyQueue then (j, x) :: t else (i, q) :: (j, x) :: t)
    else (j, x) :: qPut t i q

/-- OVERFLOWS one up, stopping at its largest value (Table 5.12). -/
def overflow (q : Queue) : Queue := { q with overflows := countUp (2 ^ 24 - 1) q.overflows 1 }

/-- Oldest records dropped and counted until `len` entries are free (R165). -/
def dropOldest (depth len : Nat) : List (List Word64) → Nat × List (List Word64)
  | [] => (0, [])
  | r :: t =>
    if ((r :: t).map List.length).sum + len ≤ depth then (0, r :: t)
    else let x := dropOldest depth len t; (x.1 + 1, x.2)

/-- A record written into a queue at its formation (R165). A record longer than the whole depth of a discard-old queue, for which the manual's loop
never ends, drops every record and is lost itself, counted once more (log 132). -/
def queueWrite (r : List Word64) (q : Queue) : Queue :=
  let depth := descDepth q.desc
  if depth = 0 then q
  else if queueFill q + r.length ≤ depth then
    let q := { q with recs := q.recs ++ [r] }
    { q with high := max q.high (queueFill q) }
  else if descDiscardOld q.desc then
    let x := dropOldest depth r.length q.recs
    let q := { q with recs := x.2, overflows := countUp (2 ^ 24 - 1) q.overflows x.1 }
    if queueFill q + r.length ≤ depth then
      let q := { q with recs := q.recs ++ [r] }
      { q with high := max q.high (queueFill q) }
    else overflow q
  else overflow q

/-- The whole records, from the oldest, that fit in a depth, and the count of the others (R34). -/
def keepFitting (depth : Nat) : List (List Word64) → List (List Word64) × Nat
  | [] => ([], 0)
  | r :: t =>
    if r.length ≤ depth then let x := keepFitting (depth - r.length) t; (r :: x.1, x.2) else ([], t.length + 1)

/-- A descriptor applied at a Keystone (R34, R164): a change of STREAM or COMPANION empties the queue, a change of depth keeps what
fits. -/
def queueReconfig (d : BitVec 64) (q : Queue) : Queue :=
  let q1 := if descStream d ≠ descStream q.desc || descCompanion d != descCompanion q.desc then { q with recs := [] } else q
  let x := if descDepth d ≠ descDepth q.desc then keepFitting (descDepth d) q1.recs else (q1.recs, 0)
  { q1 with desc := d, recs := x.1, overflows := countUp (2 ^ 24 - 1) q1.overflows x.2 }

/-- The watermark event of a queue is raised (R166). -/
def watermarkRaised (q : Queue) : Bool := descWatermark q.desc ≠ 0 && descWatermark q.desc ≤ queueFill q

/-- The status word of a queue (Table 5.12). -/
def queueStatus (q : Queue) : Nat := q.overflows * 2 ^ 40 + q.high * 2 ^ 17 + queueFill q

/-- A record of so many words written into the queue loses one: itself, or the oldest ones (R165). -/
def queueLoses (len : Nat) (q : Queue) : Bool := decide (descDepth q.desc ≠ 0 ∧ descDepth q.desc < queueFill q + len)

/-- The record of a stream as a queue takes it: the companion is its last word where the descriptor asks for it (R158, R161). Channel
events never carry one. -/
def streamRecord (stream : Nat) (words : List Word64) (companion : Nat) (q : Queue) : List Word64 :=
  if descCompanion q.desc && stream ≠ 7 then words ++ [BitVec.ofNat 64 companion] else words

/-- A record of a stream written into every queue of the channel that names it; a loss sets CH_FAULT [9] (Table 11.14). -/
def streamWrite (n : Ch) (stream : Nat) (words : List Word64) (companion : Nat) (s : Dev) : Dev :=
  let mine (q : Queue) : Bool := descStream q.desc == stream
  let lost := (s.ch n).queues.any fun e => mine e.2 && queueLoses (streamRecord stream words companion e.2).length e.2
  let s := updCh n (fun c => { c with
    queues := c.queues.map fun e => if mine e.2 then (e.1, queueWrite (streamRecord stream words companion e.2) e.2) else e }) s
  if lost then chFault n 9 s else s

/-- The CODE of an event word (Table 5.5). -/
def eventCode (w : Nat) : Nat := w / 2 ^ 56

/-- An event among those of its tick, after those of its own or a lower code (R162). -/
def eventInsert (w : Nat) : List Nat → List Nat
  | [] => [w]
  | e :: t => if eventCode w < eventCode e then w :: e :: t else e :: eventInsert w t

/-- A record is one of the `k` events of a tick whose first ESEQ is `first`. -/
def inRun (first k : Nat) : List Word64 → Bool
  | [w] => decide ((w.toNat % 65536 + 65536 - first) % 65536 < k)
  | _ => false

/-- The records of a tick's events, numbered in the order of their codes (R162). -/
def runRecords (first : Nat) (run : List Nat) : List (List Word64) :=
  run.mapIdx fun i w => [BitVec.ofNat 64 (w + (first + i) % 65536)]

/-- A queue of channel events with those of one tick, its newest records, in the order of their codes: of those it could not keep, the last have
gone under discard-new, the first under discard-old (R165). -/
def orderRun (first : Nat) (run : List Nat) (q : Queue) : Queue :=
  if descStream q.desc ≠ 7 then q
  else
    let k := (q.recs.reverse.takeWhile (inRun first run.length)).length
    let l := runRecords first run
    { q with recs := q.recs.take (q.recs.length - k) ++ if descDiscardOld q.desc then l.drop (l.length - k) else l.take k }

/-- A record has left a queue of the channel, or a queue was emptied: events still to come on this tick stand after those before. -/
def closeRun (n : Ch) (s : Dev) : Dev := updCh n (fun c => { c with evTick := none }) s

/-- A channel event record at the present tick (R162, Table 5.5); the events of one tick stand in the order of their codes. -/
def chEvent (n : Ch) (code arg : Nat) (s : Dev) : Dev :=
  let pos := posOf (dieRecs s n) (s.now * 256)
  let c := s.ch n
  let w := code * 2 ^ 56 + arg % 256 * 2 ^ 48 + getField pos 16 32 * 2 ^ 16
  let same := c.evTick = some s.now
  let first := if same then c.evFirst else c.eseq % 65536
  let run := eventInsert w (if same then c.evRun else [])
  let s := updCh n (fun c => { c with eseq := (c.eseq + 1) % 65536, evTick := some s.now, evFirst := first, evRun := run }) s
  let s := streamWrite n 7 [BitVec.ofNat 64 (w + c.eseq % 65536)] 0 s
  if run.length = 1 then s else updCh n (fun c => { c with queues := c.queues.map fun e => (e.1, orderRun first run e.2) }) s

/-- Whole records from the oldest, up to `limit` words (R167). -/
def takeRecords (limit : Nat) : List (List Word64) → List (List Word64) × List (List Word64)
  | [] => ([], [])
  | r :: t => if r.length ≤ limit then let x := takeRecords (limit - r.length) t; (r :: x.1, x.2) else ([], r :: t)

/-- Free allocatable entries of a Channel die's pool (Table 1.4). -/
def poolFree (s : Dev) (k : Die) : Nat :=
  245760 - ((List.finRange 24).map fun n =>
    if Ch.die n = k then ((s.ch n).queues.map fun e => descDepth e.2.desc).sum else 0).sum

/-- Free entries of the Control-die pool (Table 1.4). -/
def ctrlPoolFree (s : Dev) : Nat := 131072 - (s.ctrlQueues.map fun e => descDepth e.2.desc).sum

/-- QUEUE_FORWARD (R168): the oldest record of a channel queue with CONSUMER 2 enters its Control-die queue, under that queue's own depth
and POLICY, while the link is ACTIVE and the Control die runs. -/
def queueForward (n : Ch) (q : Nat) (s : Dev) : Dev :=
  let x := qFind (s.ch n).queues q
  if descConsumer x.desc = 2 && s.dies[n.die].link.st = .active && s.ctlRunning then
    match x.recs with
    | r :: t =>
      let j := descTarget x.desc
      let s := closeRun n (updCh n (fun c => { c with queues := qPut c.queues q { x with recs := t } }) s)
      { s with ctrlQueues := qPut s.ctrlQueues j (queueWrite r (qFind s.ctrlQueues j)) }
    | [] => s
  else s

/-- QUEUE_FORWARD. -/
def execQueueForward (n : Ch) (q : BitVec 16) (s : State) : Host.Outcome State Fault Refusal := onDev s fun s => .next (queueForward n q.toNat s)

/-- A channel queue emptied without counting overflows (R166). -/
def queueFlush (n : Ch) (q : Nat) (s : Dev) : Dev :=
  closeRun n (updCh n (fun c => { c with queues := qPut c.queues q { qFind c.queues q with recs := [] } }) s)

/-! ### Take words -/

/-- A take word (Table 5.1). -/
def takeWord (value : Int) (tags seq : Nat) : Word64 := BitVec.ofNat 64 (ofSigned 40 value * 2 ^ 24 + tags % 256 * 2 ^ 16 + seq % 65536)

/-- VALUE of a take. -/
def takeValue (w : Word64) : Int := toSigned 40 (w.toNat / 2 ^ 24)

/-- TAGS of a take. -/
def takeTags (w : Word64) : Nat := getField w.toNat 16 8

/-! ### Post-processing -/

/-- A PE with an empty accumulation; a held unpaired take goes with it (DESIGN CHOICE, log 160). -/
def peFresh (x : Pe) : Pe :=
  { x with used := 0, skipped := 0, tags := 0, sumV := 0, sumI := 0, sumSq := 0, octaves := [], first := none, heldV := none, heldI := none }

/-- A PE of a channel rewritten. -/
def updPe (n : Ch) (p : Fin 2) (f : Pe → Pe) (s : Dev) : Dev := updCh n (fun c => { c with pes := c.pes.set p (f c.pes[p]) }) s

/-- Restart of the accumulation (R176): a partial block is discarded and counted. -/
def peRestart (n : Ch) (p : Fin 2) (s : Dev) : Dev :=
  let x := (s.ch n).pes[p]
  let s := if x.used + x.skipped = 0 then s else bump oPartialDiscards [n, p] s
  updPe n p peFresh s

/-- e and m of a floating word: the smallest e for which m < 2^bits (Table 5.10); `num / den` in units of 2⁻¹⁶ LSB². -/
def peFloat (bits : Nat) (num den : Int) : Nat → Nat → Nat × Nat
  | 0, e => (e, 0)
  | fuel + 1, e =>
    let m := roundOpen num (den * 2 ^ e)
    if m < 2 ^ bits then (e, m.toNat) else peFloat bits num den fuel (e + 1)

/-- One octave with an average's worth of input (R173): differences are taken of sums, so they are scaled by 2^(2j). -/
def octaveInput (j : Nat) (v : Int) (o : Octave) : Octave :=
  let sum := o.sum + v
  if o.n + 1 < 2 ^ j then { o with sum := sum, n := o.n + 1 }
  else match o.prev with
    | some p => { sum := 0, n := 0, prev := some sum, sq := o.sq + (sum - p).natAbs ^ 2, diffs := o.diffs + 1 }
    | none => { o with sum := 0, n := 0, prev := some sum }

/-- Every octave with one used take. -/
def octavesInput (v : Int) : Nat → List Octave → List Octave
  | _, [] => []
  | j, o :: t => octaveInput j v o :: octavesInput v (j + 1) t

/-- A skipped input: every partial average is discarded and started afresh (Table 5.9). -/
def octavesSkip (l : List Octave) : List Octave := l.map fun o => { o with sum := 0, n := 0, prev := none }

/-- The octaves of a fresh ALLAN block. -/
def octavesOf (x : Pe) (k : Nat) : List Octave := if x.octaves = [] then List.replicate k ⟨0, 0, none, 0, 0⟩ else x.octaves

/-- The header of a result (Table 5.11). -/
def peHeader (func : Nat) (x : Pe) (tags : Nat) : Word64 :=
  BitVec.ofNat 64 (func * 2 ^ 60 + x.used % 2 ^ 24 * 2 ^ 32 + min x.skipped 255 * 2 ^ 24 + tags * 2 ^ 16 + x.seq % 65536)

/-- The result record of a closed block (Table 5.10). Σi = 0 leaves the ratio unstated (free value, log 5). -/
def peRecord (func : Nat) (x : Pe) : List Word64 :=
  let n : Int := x.used
  match func with
  | 1 =>
    let valid := 2 ≤ x.used
    let d1 := if x.used = 0 then 0 else roundOpen (x.sumV * 65536) n
    let f := if valid then peFloat 58 ((x.sumSq * n - x.sumV * x.sumV) * 65536) (n * (n - 1)) 64 0 else (0, 0)
    [peHeader 1 x (x.tags + flagAt valid 7), BitVec.ofNat 64 (ofSigned 64 d1), BitVec.ofNat 64 (f.1 * 2 ^ 58 + f.2)]
  | 2 =>
    let raw := if x.sumI = 0 then Config.ratioOfZero x.sumV else roundOpen (x.sumV * x.sumI.sign * 2 ^ 40) x.sumI.natAbs
    let d1 := clampInt (-(2 ^ 63 - 1)) (2 ^ 63 - 1) raw
    let sat := x.sumI ≠ 0 && d1 != raw
    [peHeader 2 x (x.tags + flagAt (x.sumI ≠ 0 && !sat) 7 + flagAt sat 5), BitVec.ofNat 64 (ofSigned 64 d1)]
  | 3 =>
    let d1 := if x.used = 0 then 0 else roundOpen x.sumV (n * 2 ^ 22)
    [peHeader 3 x (x.tags + flagAt (1 ≤ x.used) 7), BitVec.ofNat 64 (ofSigned 64 d1)]
  | 4 =>
    let ok := x.octaves.all fun o => 1 ≤ o.diffs
    peHeader 4 x (x.tags + flagAt ok 7) :: (x.octaves.zipIdx.map fun e =>
      let f := peFloat 34 (e.1.sq * 65536) (4 ^ e.2) 64 0
      BitVec.ofNat 64 (f.1 * 2 ^ 58 + f.2 * 2 ^ 24 + min e.1.diffs (2 ^ 24 - 1)))
  | _ =>
    let mean := if x.used = 0 then 0 else roundNearestOpen x.sumV n
    [takeWord mean (x.tags + flagAt (1 ≤ x.used) 7) x.seq]

/-- A block closes where its function's count is reached (R173): its result waits for PE_RESULT_WRITE. The companion of a result that used no input
is 0 (log 133). -/
def peClose (s : Dev) (n : Ch) (p : Fin 2) (x : Pe) : Pe :=
  let func := rd s oPeFunc [n, p]
  let count := if func ≤ 3 then x.used else x.used + x.skipped
  if rd s oBlock [n, p] ≤ count then
    let y := { x with ready := x.ready ++ [(peRecord func x, x.first.getD 0)], seq := (x.seq + 1) % 65536 }
    { peFresh y with heldV := x.heldV, heldI := x.heldI }
  else x

/-- A skipped input (R172). -/
def peSkip (s : Dev) (n : Ch) (p : Fin 2) (x : Pe) : Pe :=
  peClose s n p { x with skipped := x.skipped + 1, octaves := octavesSkip (octavesOf x (rd s oOctaves [n, p])) }

/-- A used input: value v (and i of a pair), informational tags, aperture start (R172, R173). -/
def peUse (s : Dev) (n : Ch) (p : Fin 2) (v i : Int) (tags pos : Nat) (x : Pe) : Pe :=
  let func := rd s oPeFunc [n, p]
  peClose s n p { x with
    used := x.used + 1, tags := x.tags ||| tags, first := some (x.first.getD pos),
    sumV := x.sumV + (if func = 3 then v * i else v), sumI := x.sumI + i, sumSq := x.sumSq + v * v,
    octaves := if func = 4 then octavesInput v 0 (octavesOf x (rd s oOctaves [n, p])) else x.octaves }

/-- An input or pair offered (R172): used when valid and not excluded by TAG_EXCLUDE. -/
def peOffer (s : Dev) (n : Ch) (p : Fin 2) (valid : Bool) (v i : Int) (tags pos : Nat) (x : Pe) : Pe :=
  let info := tags % 8
  if valid && (info &&& rd s oTagExclude [n, p]) == 0 then peUse s n p v i info pos x else peSkip s n p x

/-- A paired take (R171): it pairs with the held take of the other array at the same aperture start; else that one is discarded and
counted as skipped, as is an unpaired take of its own array that it replaces (R172). -/
def pePair (s : Dev) (n : Ch) (p : Fin 2) (a : ArrId) (w : Word64) (pos : Nat) (x : Pe) : Pe :=
  let other := match a with | .vm => x.heldI | .im => x.heldV
  match other with
  | none =>
    let held := match a with | .vm => x.heldV | .im => x.heldI
    let y := if held.isSome then peSkip s n p { x with heldV := none, heldI := none } else x
    match a with
    | .vm => { y with heldV := some (w, pos) }
    | .im => { y with heldI := some (w, pos) }
  | some (o, q) =>
    let y := { x with heldV := none, heldI := none }
    if q = pos then
      let v := match a with | .vm => w | .im => o
      let i := match a with | .vm => o | .im => w
      peOffer s n p (bitOf (takeTags w) 7 && bitOf (takeTags o) 7) (takeValue v) (takeValue i)
        (takeTags w % 8 ||| takeTags o % 8) pos y
    else
      let y := peSkip s n p y
      match a with
      | .vm => { y with heldV := some (w, pos) }
      | .im => { y with heldI := some (w, pos) }

/-- A slot take offered to a PE whose input includes its array (R158, R171). -/
def peTake (n : Ch) (p : Fin 2) (a : ArrId) (w : Word64) (pos : Nat) (s : Dev) : Dev :=
  let func := rd s oPeFunc [n, p]
  let inp := rd s oInput [n, p]
  if func = 0 then s
  else if inp = 2 then updPe n p (pePair s n p a w pos) s
  else if inp = a.idx then updPe n p (peOffer s n p (bitOf (takeTags w) 7) (takeValue w) 0 (takeTags w) pos) s
  else s

/-- The oldest result record of a PE enters the queues of its stream and PE_LAST (R175). -/
def peResult (n : Ch) (p : Fin 2) (s : Dev) : Dev :=
  match (s.ch n).pes[p].ready with
  | [] => s
  | (ws, c) :: t =>
    let s := updPe n p (fun x => { x with ready := t, last := ws }) s
    bump oResults [n, p] (streamWrite n (5 + p.val) ws c s)

/-- The tick of a result record that is written: the present one. -/
def peResultTick (s : Dev) (n : Ch) (p : Fin 2) : Option Nat := if (s.ch n).pes[p].ready = [] then none else some s.now

end Sys2Proof.Machine
end

