-- ==== Sys2Proof/Machine/ArrayOps.lean ====
section
/-! DEFINITION. Measure arrays (04), their operations: configuration, slots, invalid runs, enables, restarts and failures. -/

namespace Sys2Proof.Machine

/-- An array of a channel. -/
def arrOf (s : Dev) (n : Ch) : ArrId → Arr
  | .vm => (s.ch n).vm
  | .im => (s.ch n).im

/-- An array of a channel rewritten. -/
def updArr (n : Ch) (a : ArrId) (f : Arr → Arr) (s : Dev) : Dev :=
  updCh n (fun c => match a with
    | .vm => { c with vm := f c.vm }
    | .im => { c with im := f c.im }) s

/-- A slice of an array rewritten. -/
def updSlice (n : Ch) (a : ArrId) (i : Fin 7) (f : Slice → Slice) (s : Dev) : Dev :=
  updArr n a (fun x => { x with slices := x.slices.set i (f x.slices[i]) }) s

/-- ARG of an array event: [7] array, low bits the item (Table 5.6). -/
def arrArg (a : ArrId) (v : Nat) : Nat := a.idx * 128 + v

/-- STATE code of an array (Table 4.12). -/
def arrStateCode : ArrState → Nat
  | .off => 0 | .starting => 1 | .running => 2 | .draining => 3 | .fault => 4

/-! ### The spare -/

/-- The verify path of an array (Table 10.1). -/
def pathUnit (n : Ch) (a : ArrId) : Nat := 0x40 + 2 * n.val + a.idx

/-- The identifier of an array's SLICE_CAL requester (Table 10.2). -/
def sliceCalId (n : Ch) (a : ArrId) : Nat := reqId 5 (2 * n.val + a.idx)

/-- NO_SPARE (R132): no slice is left that is or becomes the spare. -/
def noSpare (x : Arr) : Bool :=
  !(x.slices.toList.any fun z => z.st == .spareIdle || z.st == .verify || z.st == .calibrating)

/-- A slice in service has gone longer than STALE_LIMIT without calibration (R131). -/
def sliceStale (s : Dev) (n : Ch) (a : ArrId) : Bool :=
  let x := arrOf s n a
  let lim := rd s oStaleLimit [n, a.idx] * msTicks
  x.roles.any fun r => match r with
    | some i => decide (x.slices[i].calTick + lim < s.now)
    | none => false

/-- CAL_STALE clears when no stale slice is left in service (R131). -/
def staleCheck (n : Ch) (a : ArrId) (s : Dev) : Dev :=
  updArr n a (fun x => { x with calStale := x.calStale && sliceStale s n a }) s

/-- SLICE_MAP takes the roles and the spare of a slot boundary (Table 4.11). -/
def showMap (n : Ch) (a : ArrId) (s : Dev) : Dev := updArr n a (fun x => { x with shown := (x.roles, x.spare) }) s

/-- A rotation that waits for its slot, or for the verify path, is given up (log 126). -/
def rotationCancel (n : Ch) (a : ArrId) (s : Dev) : Dev :=
  let s := updArr n a (fun x => { x with rotRole := none }) s
  unitWithdraw (sliceCalId n a) (pathUnit n a) (unitRelease (sliceCalId n a) (pathUnit n a) s)

/-- The calibration-standard multiplexer of a channel's die (Table 10.1). -/
def muxUnit (n : Ch) : Nat := 0x80 + n.die.val

/-- The tick at which a slice has ended its last aperture, its slot in progress and its urgent conversion (R111, R142). -/
def lastEnd (s : Dev) (n : Ch) (x : Arr) (i : Fin 7) : Nat :=
  let recs := dieRecs s n
  let slotEnds := (x.slots.filter fun y => y.slice == i).map fun y => tickNear recs y.endPos
  let urgent := match x.urgent with
    | some u => if u.slice = i then u.stop / 256 else 0
    | none => 0
  slotEnds.foldl max (max urgent x.slices[i].freeAt)

/-- The deadline of an array's calibration: the last completion of a slice plus STALE_LIMIT (Table 10.2). -/
def calDeadline (s : Dev) (n : Ch) (a : ArrId) (i : Fin 7) : Nat :=
  posOf s.cad.recs (((arrOf s n a).slices[i].calTick + rd s oStaleLimit [n, a.idx] * msTicks) * 256)

/-- The slice that fills a role at the start of a slot: the spare where a rotation waits for this role (R130). The rotation gives the
verify path back and its leaving slice asks for the multiplexer (Table 10.2). With ROT_ENABLE clear, or DS2 stopped, it is given up (log 126). -/
def rotateAt (n : Ch) (a : ArrId) (role : Nat) (s : Dev) : Dev :=
  let x := arrOf s n a
  match x.rotRole, x.spare with
  | some r, some sp =>
    if r = role && (rd s oRotEnable [n, a.idx] ≠ 1 || !serviceRuns s n.die 2) then rotationCancel n a s
    else if r = role && x.slices[sp].st = .spareIdle then
      let leaving := (x.roles.getD role none)
      let s := updArr n a (fun x => { x with
        roles := listSet x.roles role (some sp), spare := none, rotRole := none, rotTick := s.now,
        nextRole := (role + 1) % (max 1 x.roles.length) }) s
      let s := updSlice n a sp (fun z => { z with st := .active, fresh := true }) s
      let s := unitRelease (sliceCalId n a) (pathUnit n a) (chEvent n 0x0B (arrArg a sp.val) s)
      match leaving with
      | some l =>
        let s := staleCheck n a (updSlice n a l (fun z => { z with st := .calibrating }) s)
        let since := max s.now (lastEnd s n x l + 492)
        let s := updArr n a (fun x => { x with cal := some ⟨l, role, .zero, since, 0, 0⟩ }) s
        unitRequest (sliceCalId n a) (muxUnit n) (calDeadline s n a l) s
      | none => s
    else s
  | _, _ => s

/-- An idle spare fills a role that has no slice (R132, R133). -/
def fillRole (n : Ch) (a : ArrId) (role : Nat) (s : Dev) : Dev :=
  let x := arrOf s n a
  match x.spare, x.roles.getD role (some 0) with
  | some sp, none =>
    if x.slices[sp].st = .spareIdle then
      let s := updArr n a (fun x => { x with roles := listSet x.roles role (some sp), spare := none }) s
      let s := updSlice n a sp (fun z => { z with st := .active, fresh := true }) s
      staleCheck n a (rotationCancel n a (chEvent n 0x0B (arrArg a sp.val) s))
    else s
  | _, _ => s

/-- The roles of an array that is OFF or in FAULT. Slices of an OFF array change places at once (R130), with a rotation granted before it went
OFF; in FAULT none is performed (log 126). An idle spare fills a role left empty, in FAULT too, where no slot comes (DESIGN CHOICE, log 151), and with
no spare an empty role is gone (R132). -/
def idleRoles (n : Ch) (a : ArrId) (s : Dev) : Dev :=
  let x := arrOf s n a
  if x.st = .off || x.st = .fault then
    let s := match x.rotRole with
      | some r => if x.st = .off then rotateAt n a r s else rotationCancel n a s
      | none => s
    let x := arrOf s n a
    let s := match x.roles.findIdx? Option.isNone with
      | some r => fillRole n a r s
      | none => s
    let s := if noSpare (arrOf s n a) then
        updArr n a (fun x => { x with rotRole := none, dropRole := false, roles := x.roles.filter Option.isSome }) s
      else s
    showMap n a s
  else s

/-! ### States -/

/-- Entry to an array state, with its channel event (Table 5.6) and, in FAULT, its CH_FAULT bit (Table 11.14). -/
def arrEnter (n : Ch) (a : ArrId) (st : ArrState) (s : Dev) : Dev :=
  if (arrOf s n a).st = st then s
  else
    let s := updArr n a (fun x => { x with st := st }) s
    let s := chEvent n 0x0C (arrArg a (arrStateCode st)) s
    let s := if st = .fault then chFault n (4 + a.idx) s else s
    idleRoles n a s

/-! ### Configuration and servability -/

/-- The configuration in force (R112 to R115). -/
def arrCfg (s : Dev) (n : Ch) (a : ArrId) : ArrCfg :=
  ⟨rd s oInputSel [n, a.idx], rd s oRange [n, a.idx], rd s oFilter [n, a.idx], rd s oRefSel [n, a.idx]⟩

/-- Slices in service, R of R119: a role that waits for the spare counts, one that no spare can fill does not (R132). -/
def inService (x : Arr) : Nat := if noSpare x then (x.roles.filter Option.isSome).length else x.roles.length

/-- Ticks of a Reel duration at a cycle length (R55, R121): a / 2³⁰ cycles of `len`, in 1/256 tick. -/
def durationUnits (a len : Nat) : Nat := a * len / 2 ^ 30

/-- The aperture is at least the absolute minimum of its mode: 246 ticks or 3192 ticks (R121). -/
def apertureAbove (mode a len : Nat) : Bool :=
  if mode = 0 then 246 * 256 ≤ durationUnits a len else 3192 * 256 ≤ durationUnits a len

/-- The aperture lies in the range of R55 and above the absolute minimum of its mode. -/
def apertureAllowed (mode a len : Nat) : Bool :=
  0x0010624E ≤ a && a ≤ 0xFA00000000 && apertureAbove mode a len

/-- A mode and aperture that `r` slices in service can serve (Table 4.3). -/
def servable (mode a len r : Nat) : Bool :=
  if mode = 0 then
    2 ≤ r && max 246 ((532 + (r - 1) - 1) / (r - 1)) * 256 ≤ durationUnits a len
  else 6 ≤ r && 3192 * 256 ≤ durationUnits a len

/-- Number of slices not retired. -/
def serviceable (x : Arr) : Nat := (x.slices.toList.filter fun y => y.st ≠ .retired).length

/-! ### Slots -/

/-- Start of slot k (R117, R118). -/
def slotStart (x : Arr) (k : Nat) : Nat :=
  if x.mode = 0 then (x.p0 + k * (4 * x.aperture)) % posMod else (x.p0 + k * (4 * x.aperture) / 6) % posMod

/-- End of slot k. -/
def slotEnd (x : Arr) (k : Nat) : Nat :=
  if x.mode = 0 then slotStart x (k + 1) else (slotStart x k + 4 * x.aperture) % posMod

/-- The first slot whose start tick lies at or after the present tick (R123). -/
def firstArrSlot (s : Dev) (n : Ch) (x : Arr) : Nat :=
  let recs := dieRecs s n
  let here := posOf recs (s.now * 256)
  if posReached here x.p0 then
    let d := (here + posMod - x.p0) % posMod
    let j := if x.mode = 0 then d / (4 * x.aperture) else d * 6 / (4 * x.aperture)
    if s.now ≤ tickNear recs (slotStart x j) then j
    else if s.now ≤ tickNear recs (slotStart x (j + 1)) then j + 1 else j + 2
  else 0

/-- The input row of Table 4.5 for a range and filter, in µs. -/
def inputSettleUs (a : ArrId) (range filter : Nat) : Nat :=
  match filter with
  | 0 => match a, range with
    | .vm, 0 => 40 | .vm, _ => 25
    | .im, 0 => 60 | .im, 1 => 40 | .im, _ => 25
  | 1 => match a, range with
    | .vm, 0 => 200 | .vm, _ => 180
    | .im, 0 => 220 | .im, 1 => 200 | .im, _ => 180
  | _ => 40000

/-- t_settle in ticks of a change of configuration (R134); `restart` adds its own row. -/
def settleTicks (a : ArrId) (old new : ArrCfg) (restart : Bool) : Nat :=
  let inp := if old.input ≠ new.input || old.range ≠ new.range || old.filter ≠ new.filter then
      usTicks (inputSettleUs a new.range new.filter) else 0
  let eight := if old.input ≠ new.input && new.input = 8 then usTicks 50 else 0
  let ref := if old.ref = new.ref then 0
    else if old.ref = 2 || new.ref = 2 then usTicks 2000 else usTicks 500
  let rst := if restart then max 532 (usTicks (inputSettleUs a new.range new.filter)) else 0
  max (max inp eight) (max ref rst)

/-- Slot k contains a tick (R135), by its start and end ticks, whether or not it is still converted. -/
def slotContains (s : Dev) (n : Ch) (x : Arr) (t k : Nat) : Bool :=
  tickNear (dieRecs s n) (slotStart x k) ≤ t && t < tickNear (dieRecs s n) (slotEnd x k)

/-- The first place of a run marked at the present tick (R135): the slot that contains it, the oldest in Pipeline mode, else the next
slot to start. At most six slots overlap (R118). -/
def runStart (s : Dev) (n : Ch) (x : Arr) : Nat :=
  if x.st = .off || x.st = .fault then x.ord
  else
    let back := min (x.nextK - x.firstK) (if x.mode = 0 then 1 else 6)
    match (List.range back).find? fun i => slotContains s n x s.now (x.nextK - back + i) with
    | some i => x.ord - (back - i)
    | none => x.ord

/-- The intervals that a conversion not yet ended can still meet: those that end after `t`. -/
def pruneSpans (t : Nat) (l : List (Nat × Nat)) : List (Nat × Nat) := l.filter fun e => t < e.2

/-- The tick before which nothing of the array's urgent conversion lies: its start, or the present tick. -/
def urgentFrom (x : Arr) (now : Nat) : Nat := match x.urgent with
  | some u => min now (u.start / 256)
  | none => now

/-- The change of this tick on an array, with one more of settling time `ts` (R136): changes of one tick are one change. -/
def markedNow (x : Arr) (now ts : Nat) : Marked :=
  match x.marked with
  | some m => if m.tick = now then { m with ts := max m.ts ts } else ⟨now, ts, x.runFirst, x.runEnd⟩
  | none => ⟨now, ts, x.runFirst, x.runEnd⟩

/-- The number of takes that a settling time marks (R135), with the mode and the aperture in force. -/
def runCount (s : Dev) (n : Ch) (a : ArrId) (ts : Nat) : Nat :=
  let len := (curRec (dieRecs s n) s.now).len
  let al := max 1 (durationUnits (rd s oAperture [n, a.idx]) len)
  if rd s oArrMode [n, a.idx] = 0 then (ts * 256 + al - 1) / al + 1 else 6 + (ts * 256 * 6 + al - 1) / al

/-- A change with settling time `ts` marks its run of invalid takes (R135, R136). -/
def markRun (n : Ch) (a : ArrId) (ts : Nat) (s : Dev) : Dev :=
  if ts = 0 then s
  else
    let x := arrOf s n a
    let m := markedNow x s.now ts
    let first := runStart s n x
    let live := x.emitted < m.last + 1 && m.first ≤ m.last
    updArr n a (fun x => { x with
      marked := some m
      runFirst := if live then min m.first first else first
      runEnd := max (if live then m.last else 0) (first + runCount s n a m.ts - 1)
      settles := (s.now, s.now + ts) :: pruneSpans (urgentFrom x s.now) x.settles }) s

/-- Takes of the run not yet emitted, INVALID_REMAIN (R135). -/
def invalidRemain (x : Arr) : Nat :=
  if x.runFirst ≤ x.runEnd then x.runEnd + 1 - max x.emitted x.runFirst else 0

/-- The overload detector in the part of a slot converted before the stamp of its abort (R137): whether it fired, and the end of the overrange. A
tap sample tells that it fired; where none did, and for the end, no command carries what the detector saw (log 31). The sign has no effect,
since the value is 0. -/
def abortSeen (n : Ch) (a : ArrId) (y : Slot) (stop : Nat) : Option Bool × Option Nat :=
  if y.idle || stop ≤ y.conv then (none, none)
  else if y.fired || Config.detectorFired n.val a.idx y.ord then
    (some true, some (y.conv / 256 + Config.detectorEnd n.val a.idx y.ord % ((stop - y.conv) / 256 + 1)))
  else (none, none)

/-- The abort of a slot: its take is emitted in sequence with ABORTED and value 0 (R124, R141). -/
def abortedDone (n : Ch) (a : ArrId) (y : Slot) (stop : Nat) : Done :=
  let o := abortSeen n a y stop
  ⟨y.ord, y.start, stop, 0, true, o.1, o.2, y.swap, y.cfg, y.crr⟩

/-- Ended slots in order of their place. -/
def doneInsert (d : Done) : List Done → List Done
  | [] => [d]
  | e :: t => if d.ord < e.ord then d :: e :: t else e :: doneInsert d t

/-- Every slot in progress ends at the present tick, emitted ABORTED (R124, Table 4.6). -/
def abortSlots (n : Ch) (a : ArrId) (s : Dev) : Dev :=
  updArr n a (fun x => { x with
    slots := []
    done := x.slots.foldl (fun l y => doneInsert (abortedDone n a y (s.now * 256)) l) x.done }) s

/-- Slices whose slot was cut short are free from the present tick (R111); a slot that its slice did not begin leaves it as it was (R124). -/
def freeSlices (n : Ch) (a : ArrId) (s : Dev) : Dev :=
  ((arrOf s n a).slots.filter fun y => !y.idle).foldl (fun s y => updSlice n a y.slice (fun z => { z with freeAt := s.now }) s) s

/-- The slot sequence placed at a position (R123, R124): slot 0, or the first slot at or after the present tick. -/
def placeSequence (n : Ch) (a : ArrId) (p0 : Nat) (fromNow : Bool) (s : Dev) : Dev :=
  let s := updArr n a (fun x => { x with
    p0 := p0, nextK := 0, firstK := 0, mode := rd s oArrMode [n, a.idx], aperture := rd s oAperture [n, a.idx] }) s
  if fromNow then updArr n a (fun x => { x with nextK := firstArrSlot s n x, firstK := firstArrSlot s n x }) s else s

/-- A restart at the present tick (R124). `ts` is the settling time of what changed with it. -/
def arrRestart (n : Ch) (a : ArrId) (p0 ts : Nat) (s : Dev) : Dev :=
  let s := abortSlots n a (freeSlices n a s)
  let s := placeSequence n a p0 false s
  let s := updArr n a (fun x => { x with dropRole := false, roles := if noSpare x then x.roles.filter Option.isSome else x.roles }) s
  let s := showMap n a s
  let c := arrCfg s n a
  markRun n a (max ts (settleTicks a c c true)) s

/-- A log of values by tick, newest first, as far back as the value in force at tick `t`. -/
def keepSince {α : Type} (t : Nat) : List (Nat × α) → List (Nat × α)
  | [] => []
  | e :: l => if e.1 ≤ t then [e] else e :: keepSince t l

/-- The configuration in force from this tick enters the log of configurations after `old`, the one before it (R139, R154). -/
def logCfg (n : Ch) (a : ArrId) (old : ArrCfg) (s : Dev) : Dev :=
  updArr n a (fun x => { x with
    cfgLog := (s.now, arrCfg s n a) :: keepSince (urgentFrom x s.now) (if x.cfgLog = [] then [(0, old)] else x.cfgLog) }) s

/-- The configuration in force at a tick. -/
def cfgAt (s : Dev) (n : Ch) (a : ArrId) (t : Nat) : ArrCfg :=
  match (arrOf s n a).cfgLog.find? fun e => e.1 ≤ t with
  | some e => e.2
  | none => arrCfg s n a

/-- P₀ of an enable (R123): ARR_START in free-running scheduling, else the position `p` of the Keystone. -/
def enableP0 (s : Dev) (n : Ch) (a : ArrId) (p : Nat) : Nat :=
  if rd s oSched [n, a.idx] = 0 then rd s oArrStart [n, a.idx] else p

/-- The array can no longer serve its mode and aperture: slots in progress ABORTED, no further slots (Table 4.6). -/
def arrFail (n : Ch) (a : ArrId) (s : Dev) : Dev :=
  arrEnter n a .fault (abortSlots n a (freeSlices n a s))

/-- The array starts from OFF (Table 4.6), with P₀ given; one whose slices in service cannot serve it enters FAULT (log 108). `ts` is the settling
time of what changed with it. -/
def arrStart (n : Ch) (a : ArrId) (p0 ts : Nat) (s : Dev) : Dev :=
  let s := placeSequence n a p0 true s
  let s := arrEnter n a .starting (updArr n a (fun x => { x with enableWait := none }) s)
  let c := arrCfg s n a
  let s := markRun n a (max ts (settleTicks a c c true)) s
  let x := arrOf s n a
  if servable x.mode x.aperture (curRec (dieRecs s n) s.now).len (inService x) then s else arrFail n a s

/-- ARR_ENABLE applied by a Keystone of position `p` (Table 4.6, R123). `ts` is the settling time of what the Keystone changed with it. -/
def applyArrEnable (n : Ch) (a : ArrId) (on : Bool) (p ts : Nat) (s : Dev) : Dev :=
  let x := arrOf s n a
  match x.st, on with
  | .off, true =>
    if x.ready then arrStart n a (enableP0 s n a p) ts s else s
  | .off, false => updArr n a (fun x => { x with enableWait := none }) s
  | .starting, false | .running, false =>
    if x.slots = [] && x.done = [] then arrEnter n a .off s else arrEnter n a .draining s
  | .draining, true =>
    if servable (rd s oArrMode [n, a.idx]) (rd s oAperture [n, a.idx]) (curRec (dieRecs s n) s.now).len (inService x) then
      arrEnter n a .starting (arrRestart n a p ts s)
    else arrFail n a s
  | .fault, false => arrEnter n a .off s
  | _, _ => s

/-- REF_SETTLED clears and sets again after `d` ticks, or at the later end of a settling still in progress (R116). -/
def refUnsettle (n : Ch) (a : ArrId) (d : Nat) (s : Dev) : Dev :=
  updArr n a (fun x => { x with refSettled := false, refSettleAt := some (max (x.refSettleAt.getD 0) (s.now + d)) }) s

/-- A configuration comes into force at the present tick, after `old` (R116, R139, R145): the log, the reference settling, the tap samples. -/
def cfgEnters (n : Ch) (a : ArrId) (old : ArrCfg) (s : Dev) : Dev :=
  let new := arrCfg s n a
  if old = new then s
  else
    let s := logCfg n a old s
    let s := if old.ref = new.ref then s
      else refUnsettle n a (if old.ref = 2 || new.ref = 2 then usTicks 2000 else usTicks 500) s
    if old.range = new.range then s
    else updArr n a (fun x => { x with tap := { x.tap with
      settles := (s.now, s.now + usTicks (inputSettleUs a new.range 0)) :: pruneSpans (s.now - 176) x.tap.settles } }) s

/-- A change of configuration objects applied at the present tick by a Keystone of position `p`, from `old` (R116, R124, R134): the reference
settling, the run of invalid takes, a restart at `p` where APERTURE or ARR_MODE changed (R123). -/
def arrChanged (n : Ch) (a : ArrId) (old : ArrCfg) (restart : Bool) (p : Nat) (s : Dev) : Dev :=
  let x := arrOf s n a
  let s := cfgEnters n a old s
  let ts := settleTicks a old (arrCfg s n a) false
  let live := x.st = .starting || x.st = .running
  if restart && (live || x.st = .fault) then
    let len := (curRec (dieRecs s n) s.now).len
    if servable (rd s oArrMode [n, a.idx]) (rd s oAperture [n, a.idx]) len (inService x) then
      let s := arrRestart n a p ts s
      if x.st = .fault then arrEnter n a .starting s else s
    else if live then arrFail n a (markRun n a ts s) else markRun n a ts s
  else if restart && x.st = .off then markRun n a ts (placeSequence n a x.p0 false s)
  else markRun n a ts s

/-! ### Monitors -/

/-- A monitor of a channel. -/
def monOf (s : Dev) (n : Ch) (m : Mon) : Monitor := (s.ch n).mons[m]

/-- A monitor rewritten. -/
def updMon (n : Ch) (m : Mon) (f : Monitor → Monitor) (s : Dev) : Dev :=
  updCh n (fun c => { c with mons := c.mons.set m (f c.mons[m]) }) s

/-- The array whose spare verifies a monitor. -/
def verifyArr (m : Mon) : ArrId := if m = 0 || m = 3 then .vm else .im

/-- The identifier of a monitor's VERIFY requester (Table 10.2). -/
def verifyId (n : Ch) (m : Mon) : Nat := reqId 7 (4 * n.val + m.val)

/-- The four monitors in ascending order. -/
def forMons (f : Mon → Dev → Dev) (s : Dev) : Dev := (List.finRange 4).foldl (fun s m => f m s) s

/-- The blanking hold of a RANGE change of a watched array (R252), until the end of the TAP_SETTLING interval. A monitor that the same Keystone takes
out of OFF is held too. -/
def guardRangeChanged (n : Ch) (a : ArrId) (s : Dev) : Dev :=
  let m : Mon := match a with | .vm => 0 | .im => 1
  if rd s oBlank [n, m] = 1 && rd s oMonMode [n, m] ≠ 0 then
    updMon n m (fun x => { x with blankTo := some (max (x.blankTo.getD 0) (s.now + usTicks (inputSettleUs a (rd s oRange [n, a.idx]) 0))) }) s
  else s

end Sys2Proof.Machine
end

