-- ==== Sys2Proof/Machine/Source.lean ====
section
/-! DEFINITION. The source path of a channel (03): slots, queue, composition, sine generator, step hold, enable and disable sequences,
range changes, reference settling. -/

namespace Sys2Proof.Machine

/-- The channel's source path rewritten. -/
def updSrc (n : Ch) (f : Src → Src) (s : Dev) : Dev := updCh n (fun c => { c with src := f c.src }) s

/-- STATE code of a source path (Table 3.9). -/
def srcStateCode : SrcState → Nat
  | .off => 0 | .enabling => 1 | .running => 2 | .disabling => 3 | .tripped => 4

/-- Entry to a source state, with its channel event (Table 5.6). -/
def srcEnter (n : Ch) (st : SrcState) (s : Dev) : Dev :=
  if (s.ch n).src.st = st then s else chEvent n 0x01 (srcStateCode st) (updSrc n (fun x => { x with st := st }) s)

/-- Code 2³⁸, positive full scale (R74). -/
def fullScale : Int := 2 ^ 38

/-! ### Sample slots and the source queue -/

/-- The Reel position of slot j (R77), moved with the count by a renumbering since SRC_START was applied (log 150). -/
def slotPos (s : Dev) (n : Ch) (j : Nat) : Nat :=
  let p := rd s oSrcRateNum [n]
  let q := rd s oSrcRateDen [n]
  (rd s oSrcStart [n] + (s.ch n).src.shift * 2 ^ 32 + (j * q / p) * 2 ^ 32 + (j * q % p) * 2 ^ 32 / p) % posMod

/-- The number of the first slot whose tick lies at or after tick `t` (R77). -/
def firstSlot (s : Dev) (n : Ch) (t : Nat) : Nat :=
  let recs := dieRecs s n
  let p := rd s oSrcRateNum [n]
  let q := rd s oSrcRateDen [n]
  let a := slotPos s n 0
  let here := posOf recs (t * 256)
  if posReached here a then
    let d := (here + posMod - a) % posMod
    let j := d * p / (q * 2 ^ 32)
    if t ≤ tickNear recs (slotPos s n (j - 1)) then j - 1
    else if t ≤ tickNear recs (slotPos s n j) then j
    else if t ≤ tickNear recs (slotPos s n (j + 1)) then j + 1 else j + 2
  else 0

/-- The code of a queue entry: bits [63:24] (R79). -/
def entryCode (w : QEntry) : Int := toSigned 40 (w.word.toNat / 2 ^ 24)

/-- The queue entry of a code; a Sequencer's code names its slot (R213). -/
def codeEntry (slot : Option Nat) (v : Int) : QEntry := ⟨BitVec.ofNat 64 (ofSigned 40 v * 2 ^ 24), slot⟩

/-- Entries of the source queue (Table 1.4). -/
def srcQueueDepth : Nat := 4096

/-- Codes appended to the source queue in order; those that do not fit are discarded and counted in OVERFLOWS (R79). -/
def srcQueueAppend (n : Ch) (slot : Option Nat) (codes : List Int) (s : Dev) : Dev :=
  codes.foldl (fun s c =>
    if (s.ch n).src.queue.length < srcQueueDepth then updSrc n (fun x => { x with queue := x.queue ++ [codeEntry slot c] }) s
    else bump oOverflows [n] s) s

/-- The source queue emptied and Q_PRIMED cleared (R80). -/
def srcQueueEmpty (n : Ch) (s : Dev) : Dev :=
  updSrc n (fun x => { x with queue := [], primed := false, segs := [], lastLeft := 0 }) s

/-- Whether the queue feeds something at a served slot: origins 1 and 3, or a Loop Engine setpoint (R80, R106). -/
def queueFeeds (s : Dev) (n : Ch) : Bool :=
  let o := rd s oSrcOrigin [n]
  o == 1 || o == 3 || (o == 4 && (rd s oSpOrigin [n] == 1 || rd s oSpOrigin [n] == 3))

/-- The codes of slots j + 1 and j + 2 present at slot j (R81); a Sequencer's code is that of its own slot (R213). -/
def readAhead (j : Nat) (rest : List QEntry) : List Int :=
  let due (e : QEntry) (k : Nat) : Bool := e.slot.all fun i => i == k
  match rest with
  | a :: b :: _ => if due a (j + 1) then entryCode a :: (if due b (j + 2) then [entryCode b] else []) else []
  | [a] => if due a (j + 1) then [entryCode a] else []
  | [] => []

/-- The interval that begins at a slot at which an entry leaves (R81): read-ahead, PEEK_MISS, code j − 1. -/
def slotLeaves (n : Ch) (j t0 t1 : Nat) (w : QEntry) (rest : List QEntry) (s : Dev) : Dev :=
  let x := (s.ch n).src
  let mode := rd s oSrcInterp [n]
  let c0 := entryCode w
  let cm := if x.primed then x.lastLeft else c0
  let ahead := readAhead j rest
  let c1 := ahead.headD c0
  let c2 := ahead.getD 1 c1
  let miss := (mode == 1 && ahead.length < 1) || (mode == 2 && ahead.length < 2)
  let s := updSrc n (fun x => { x with
    queue := rest, primed := true, lastLeft := c0, segs := (⟨t0, t1, cm, c0, c1, c2, mode⟩ :: x.segs).take 16 }) s
  if miss then bump oPeekMiss [n] s else s

/-- A served slot at which the queue is empty (R80): the last code repeats, counted once Q_PRIMED is set. -/
def slotEmpty (n : Ch) (t0 t1 : Nat) (s : Dev) : Dev :=
  let x := (s.ch n).src
  let c := if x.primed then x.lastLeft else 0
  let s1 := updSrc n (fun x => { x with segs := (⟨t0, t1, c, c, c, c, 0⟩ :: x.segs).take 16 }) s
  if x.primed then bump oUnderruns [n] s1 else s1

/-- The queue as slot `j` finds it: codes of the Sequencer whose slot has gone by are dropped, and a code of a later slot does not
leave yet (R213, log 12). -/
def queueAt (j : Nat) (l : List QEntry) : Option (QEntry × List QEntry) × List QEntry :=
  let l := l.dropWhile fun e => match e.slot with
    | some k => decide (k < j)
    | none => false
  match l with
  | [] => (none, l)
  | e :: t => match e.slot with
    | some k => if k = j then (some (e, t), l) else (none, l)
    | none => (some (e, t), l)

/-- One slot of a RUNNING source (R76, R78, R80). A slot less than 160 ticks after the last served one is not served (log 107): it counts in
RATE_CLIPS whatever the origin, and its entry is consumed where the queue feeds something, without becoming the last code that left (log 107). -/
def serveSlot (n : Ch) (j t0 t1 tick : Nat) (s : Dev) : Dev :=
  let x := (s.ch n).src
  let clipped : Bool := match x.lastSlot with
    | some l => decide (tick < l + 160)
    | none => false
  let s := updSrc n (fun x => { x with
    clampCounted := x.clampCounted && rd s oSrcOrigin [n] == 4, lastSlot := if clipped then x.lastSlot else some tick }) s
  let s := if clipped then bump oRateClips [n] s else s
  let s := if rd s oSrcOrigin [n] = 0 && !clipped then updSrc n (fun x => { x with static := rdI s oSrcCode [n] }) s else s
  if queueFeeds s n then
    let q := queueAt j x.queue
    let s := updSrc n (fun x => { x with queue := q.2 }) s
    match q.1 with
    | some (w, rest) =>
      if clipped then updSrc n (fun x => { x with queue := rest }) s
      else slotLeaves n j t0 t1 w rest s
    | none => if clipped then s else slotEmpty n t0 t1 s
  else s

/-- The tick of the next source sample slot on the channel's die (R49, R77); none while its cadence record has not arrived (R48). -/
def sampleTick (s : Dev) (n : Ch) : Option Nat := dieTick s.dies[n.die] (slotPos s n (s.ch n).src.slot)

/-- The next source sample slot (R77). A slot of a source that is not RUNNING serves nothing. -/
def sampleSlot (n : Ch) (s : Dev) : Dev :=
  let recs := dieRecs s n
  let j := (s.ch n).src.slot
  match sampleTick s n with
  | none => s
  | some tick =>
    let st := actStamp s.dies[n.die] (stampNear recs (slotPos s n j))
    let s := advance tick s
    let s := if (s.ch n).src.st = .running then serveSlot n j st (actStamp s.dies[n.die] (stampNear recs (slotPos s n (j + 1)))) tick s else s
    updSrc n (fun x => { x with slot := j + 1 }) s

/-! ### The sine generator -/

/-- The terms of the sine series from one on, alternating: `x2` is the square of the argument and `term` the term, both times 2⁶⁴. -/
def sineSeries (x2 : Nat) : Nat → Nat → Nat → Int
  | 0, _, _ => 0
  | fuel + 1, k, term => (term : Int) - sineSeries x2 fuel (k + 2) (term * x2 / 2 ^ 64 / ((k + 1) * (k + 2)))

/-- sin(2π i / 16384) for a quarter wave, times 2⁶⁴, from π times 2⁶⁴ (Table 3.2, R82). -/
def sineExact (i : Nat) : Int :=
  let x := 57952155664616982739 * i / 8192
  sineSeries (x * x / 2 ^ 64) 12 1 x

/-- Entry `i` of the quarter-wave table as a 40-bit Q39 fraction (R9, R82): one of the two values next to the sine, at most the greatest a 40-bit
value holds. Entry 4096, the peak, is what the symmetry puts at the quadrant edge (log 19). -/
def sineTable (i : Nat) : Int :=
  min (2 ^ 39 - 1) (sineExact i / 2 ^ 25 + if i ≠ 0 && Config.sineRoundsUp i then 1 else 0)

/-- Entry `k` of the full wave, from the quarter-wave table by its symmetry (R82). -/
def waveEntry (k : Nat) : Int :=
  let q := k / 4096 % 4
  let i := k % 4096
  if q = 0 then sineTable i
  else if q = 1 then sineTable (4096 - i)
  else if q = 2 then -sineTable i
  else -sineTable (4096 - i)

/-- sin(2π φ) of R82, times 2⁶⁹ (a quotient by 2⁶⁹ of table units): second-order interpolation between an entry and its two
successors. -/
def sineScaled (phase : Nat) : Int :=
  let k := phase / 2 ^ 34
  let x : Int := (phase % 2 ^ 34 : Nat)
  let y0 := waveEntry k
  let y1 := waveEntry (k + 1)
  let y2 := waveEntry (k + 2)
  y0 * 2 ^ 69 + x * (y1 - y0) * 2 ^ 35 + x * (x - 2 ^ 34) * (y2 - 2 * y1 + y0)

/-- SINE_AMPL × sin(2π φ): the table's values are 40-bit fractions Q39 (R9, R82); the product's rounding is open (log 4). -/
def sineTerm (ampl phase : Nat) : Int := roundOpen (ampl * sineScaled phase) (2 ^ 69 * 2 ^ 39)

/-- The increment of φ per modulator clock (R83, R85). -/
def sineInc (s : Dev) (n : Ch) : Nat :=
  if rd s oSineMode [n] = 0 then rd s oSineInc [n]
  else
    let l := (curRec (dieRecs s n) s.now).len
    (quotNearestAway (2 ^ 48 * rd s oSineRatioNum [n] * 2560) (rd s oSineRatioDen [n] * l)).toNat

/-- The advance of R86 in 2⁻⁴⁸ cycle: 960 ticks, 96 modulator clocks. -/
def sineAdvance (s : Dev) (n : Ch) : Nat :=
  if rd s oSineAdvance [n] % 2 = 0 then 0
  else if rd s oSineMode [n] = 0 then 96 * rd s oSineInc [n]
  else
    let l := (curRec (dieRecs s n) s.now).len
    (roundOpen (2 ^ 48 * rd s oSineRatioNum [n] * 960 * 256) (rd s oSineRatioDen [n] * l)).toNat

/-- φ as the generator uses it, the advance included (R86). -/
def sinePhaseNow (s : Dev) (n : Ch) : Nat := ((s.ch n).src.sine.phase + sineAdvance s n) % 2 ^ 48

/-- φ has passed from 2⁴⁸ − 1 to 0 between two values no more than half a cycle apart. -/
def phaseWrapped (old new : Nat) : Bool := new < old && (new + 2 ^ 48 - old) < 2 ^ 47

/-- A pending SINE_AMPL takes effect at a phase wrap (R87). -/
def sineWrap (old new : Nat) (x : Sine) : Sine :=
  if phaseWrapped old new then
    match x.amplWait with
    | some a => { x with ampl := a, amplWait := none }
    | none => x
  else x

/-- φ at a stamp, without the advance (R83, R85): it moves on from its last value by the increment per modulator clock, 2560 units of 1/256
tick; the part of a clock that follows a reload is rounded openly (log 4). -/
def sineAt (s : Dev) (n : Ch) (stamp : Nat) : Nat :=
  let y := (s.ch n).src.sine
  (y.phase + (roundOpen ((sineInc s n * (stamp - y.phaseAt) : Nat) : Int) 2560).toNat) % 2 ^ 48

/-- One modulator clock of the generator, at the present tick: φ advances, a wrap lets a waiting amplitude in (R87), and the value at φ enters the
delay line. -/
def sineClock (n : Ch) (s : Dev) : Dev :=
  let p := sineAt s n (s.now * 256)
  let now := (p + sineAdvance s n) % 2 ^ 48
  updSrc n (fun x =>
    let y := sineWrap x.sine.seen now x.sine
    { x with sine := { y with phase := p, phaseAt := s.now * 256, seen := now, delay := (sineTerm y.ampl now :: y.delay).take 87 } }) s

/-- The exact phase of R84 at the boundary of cycle `c`; the anchor moves with the count (log 150). -/
def reelPhase (s : Dev) (n : Ch) (c : Nat) : Nat :=
  let y := (s.ch n).src.sine
  let k := (c + 2 ^ 32 - y.anchor) % 2 ^ 32
  (y.anchorPhase + (roundOpen ((2 ^ 48 * rd s oSineRatioNum [n] * k : Nat) : Int) ((rd s oSineRatioDen [n] : Nat) : Int)).toNat) % 2 ^ 48

/-- The generator at the boundary of cycle `c` of its die: waiting REEL settings take effect (R84), φ reloads with its exact value (R85). -/
def sineBoundary (n : Ch) (c : Nat) (s : Dev) : Dev :=
  let y := (s.ch n).src.sine
  let b := stampNear (dieRecs s n) (c * 2 ^ 32)
  let reel := rd s oSineMode [n] = 1
  let here := if reel then reelPhase s n c else sineAt s n b
  if y.waiting = [] then
    if reel then updSrc n (fun x => { x with sine := { x.sine with phase := here, phaseAt := b } }) s else s
  else
    let set := tabFind y.waiting (keyOf oSinePhase [n] 0)
    let ph := set.getD here
    let s := y.waiting.foldl (fun s e => putKey e.1 e.2 s) s
    let s := updSrc n (fun x => { x with sine := { x.sine with phase := ph, phaseAt := b, anchor := c, anchorPhase := ph, waiting := [] } }) s
    if set.isSome then updSrc n (fun x => { x with sine := { x.sine with seen := sinePhaseNow s n } }) s else s

/-! ### Composition -/

/-- The interpolated output of an interval at a stamp (R81): zero-order hold, a line, or the cubic through four codes. -/
def segValue (g : Seg) (t : Nat) : Int :=
  let h : Int := ((g.t1 - g.t0 : Nat) : Int)
  let x : Int := ((min t g.t1 - g.t0 : Nat) : Int)
  if h = 0 then g.c0
  else if g.mode = 0 then g.c0
  else if g.mode = 1 then g.c0 + roundOpen ((g.c1 - g.c0) * x) h
  else
    -- Newton's form of the cubic through (−1, cm), (0, c0), (1, c1), (2, c2), over 6 h³
    let d1 := g.c0 - g.cm
    let d2 := g.c1 - 2 * g.c0 + g.cm
    let d3 := g.c2 - 3 * g.c1 + 3 * g.c0 - g.cm
    g.cm + roundOpen (6 * d1 * (x + h) * h * h + 3 * d2 * (x + h) * x * h + d3 * (x + h) * x * (x - h)) (6 * h * h * h)

/-- The resampler's output for the time 860 ticks ago (Table 3.1). -/
def queueOutput (x : Src) (tick : Nat) : Int :=
  let t := (tick - 860) * 256
  match x.segs.find? fun g => g.t0 ≤ t with
  | some g => segValue g t
  | none => 0

/-- The frozen origin ramping to 0 at SRC_RAMP code units per µs (R95); a ramp of 0 steps. -/
def rampCode (s : Dev) (n : Ch) (tick : Nat) : Int :=
  match (s.ch n).src.rampFrom with
  | none => 0
  | some (t, c) =>
    let r := rd s oSrcRamp [n]
    let d := roundOpen ((r * (tick - t) * 100 : Nat) : Int) 24576
    if r = 0 then 0
    else if 0 ≤ c then max 0 (c - d) else min 0 (c + d)

/-- The code of the channel safe state (R204): held until the ramp begins, then equal steps, one per modulator clock. -/
def safeCode (y : SafeRamp) (tick : Nat) : Int :=
  if tick < y.begin_ then y.held
  else if y.clocks = 0 then y.target
  else y.held + roundOpen ((y.target - y.held) * (min ((tick - y.begin_) / 10) y.clocks : Nat)) y.clocks

/-- The sum of the origin in force before the limit (Table 3.2, R94, R95). -/
def originSum (s : Dev) (n : Ch) (tick : Nat) : Int :=
  let x := (s.ch n).src
  let sine := rdI s oSineOffset [n] + (if x.sine.delay.length < 87 then 0 else x.sine.delay.getLastD 0)
  match x.st with
  | .running =>
    match rd s oSrcOrigin [n] with
    | 0 => x.static
    | 1 => queueOutput x tick
    | 2 => sine
    | 3 => queueOutput x tick + sine
    | _ => x.loopCode
  | .disabling => rampCode s n tick
  | _ => 0

/-! ### The step hold -/

/-- The hold engages, or its release moves out if later (R97, R98); within 1 µs (246 ticks) of a forced release it cannot. -/
def holdEngage (n : Ch) (dur : Nat) (s : Dev) : Dev :=
  let x := (s.ch n).src
  match x.hold with
  | some h => updSrc n (fun x => { x with hold := some { h with release := max h.release (s.now + dur) } }) s
  | none =>
    if (match x.forcedAt with | some f => decide (s.now < f + 246) | none => false) = true then s
    else bump oStepHolds [n] (updSrc n (fun x => { x with hold := some ⟨x.pin, s.now, s.now + dur⟩ }) s)

/-- The step test of R97 on two consecutive composed codes; origin 4 is exempt (R99), also in the disable of R95 (DESIGN CHOICE, log 156). -/
def stepTest (n : Ch) (old new : Int) (s : Dev) : Dev :=
  let us := rd s oStepHoldUs [n]
  if us ≠ 0 && rd s oSrcOrigin [n] ≠ 4 && (rd s oStepThresh [n] : Int) < (new - old).natAbs then holdEngage n (usTicks us) s
  else s

/-- What FORCE_OUT shows: 0 under a clamp, the held value under the hold, else the reconstruction, 100 ticks behind (R73). -/
def pinCode (x : Src) : Int :=
  if x.gndClamp || x.hizClamp then 0
  else match x.hold with
    | some h => h.value
    | none => x.recon.getLastD 0

/-- The tick of the next modulator clock: every 10 ticks from the epoch (Table 3.1). -/
def modulatorTick (s : Dev) (n : Ch) : Nat := max ((s.ch n).src.clock + 10) ((s.now + 9) / 10 * 10)

/-- One modulator clock of the source path (R75, R97): advance the sine, compose, limit, correct, judge the step. -/
def modulatorClock (n : Ch) (outLimit compliance : Bool) (s : Dev) : Dev :=
  let x := (s.ch n).src
  let t := modulatorTick s n
  let s := advance t s
  let s := sineClock n s
  let lim : Int := (rd s oCodeLimit [n] : Nat)
  let sum := match x.safe with
    | some y => safeCode y t
    | none => originSum s n t
  let code := if x.safe.isSome then sum else clampInt (-lim) lim sum
  let acts := code != sum
  let s := if acts && !x.clampCounted then bump oClamps [n] s else s
  let s := stepTest n x.code code s
  let m := srcCorrected s n code
  let volt := rd s oSrcMode [n] = 0
  let s := updCh n (fun c => { c with track := { c.track with hi := max c.track.hi code, lo := min c.track.lo code } }) s
  updSrc n (fun x =>
    let x := { x with
      clock := t, code := code, modCode := m, codeClamped := acts, clampCounted := x.clampCounted || acts,
      recon := (code :: x.recon).take 11, outLimit := outLimit && volt, compliance := compliance && !volt }
    { x with pin := pinCode x }) s

/-- The hold let go: FORCE_OUT follows the reconstruction again. -/
def holdRelease (n : Ch) (s : Dev) : Dev :=
  updSrc n (fun x => let x := { x with hold := none }; { x with pin := pinCode x }) s

/-- STEP_HOLD_RELEASE (R97): the release scheduled lies within 1 ms of the engagement. -/
def execStepHoldRelease (n : Ch) (s : State) : Host.Outcome State Fault Refusal := onDev s fun s =>
  .next (
    match (s.ch n).src.hold with
    | some h => if h.release ≤ h.since + msTicks then holdRelease n (advance h.release s) else s
    | none => s)

/-- HOLD_FORCED (R98): engaged for 1 ms without a break, the hold releases regardless. -/
def execHoldForced (n : Ch) (s : State) : Host.Outcome State Fault Refusal := onDev s fun s =>
  .next (
    match (s.ch n).src.hold with
    | some h =>
      if h.since + msTicks < h.release then
        let s := advance (h.since + msTicks) s
        bump oHoldForced [n] (updSrc n (fun x => { x with forcedAt := some s.now }) (holdRelease n s))
      else s
    | none => s)

/-! ### Enable, disable, trip -/

/-- t_en of R94 in µs: the larger of 2 µs and SETTLE_US of the range in force. -/
def enableUs (s : Dev) (n : Ch) : Nat := max 2 (rd s oSettleUs [n, rd s oRangeActive [n]])

/-- The RANGE_SEL pattern of the range in force. -/
def patternInForce (s : Dev) (n : Ch) : Nat := rd s oPattern [n, rd s oRangeActive [n]]

/-- Start of the enable sequence at the present tick (Table 3.5). -/
def enableStart (n : Ch) (s : Dev) : Dev :=
  let p := patternInForce s n
  srcEnter n .enabling <| updSrc n (fun x => { x with
    gndClamp := true, hizClamp := false, enableT := some s.now, enablePending := false,
    rangeSel := p, rampFrom := none, rampDone := none, code := 0, pin := 0, resetGndAt := none }) s

/-- GND_CLAMP_OPEN (Table 3.5): 492 ticks after T. -/
def execGndClampOpen (n : Ch) (s : State) : Host.Outcome State Fault Refusal := onDev s fun s =>
  .next (
    let x := (s.ch n).src
    match x.st, x.enableT with
    | .enabling, some t =>
      let s := advance (t + 492) s
      updSrc n (fun x => let x := { x with gndClamp := false, clampCause := 0 }; { x with pin := pinCode x }) s
    | _, _ => s)

/-- FORCE_EN_ASSERT (Table 3.5): t_en after T. -/
def execForceEnAssert (n : Ch) (s : State) : Host.Outcome State Fault Refusal := onDev s fun s =>
  .next (
    let x := (s.ch n).src
    match x.st, x.enableT with
    | .enabling, some t => updSrc n (fun x => { x with forceEn := true }) (advance (t + usTicks (enableUs s n)) s)
    | _, _ => s)

/-- Release of the enable sequence on the source path itself (R94): the origin takes over the modulator input. -/
def sourceRelease (n : Ch) (t : Nat) (s : Dev) : Dev :=
  let s := advance (t + usTicks (enableUs s n + rd s oRelaySettleUs [n])) s
  let j := firstSlot s n s.now
  let a := rd s oSineAmpl [n]
  srcEnter n .running <| updSrc n (fun x => { x with
    enableT := none, gndClamp := false, clampCause := 0, forceEn := true,
    static := rdI s oSrcCode [n], slot := j, lastSlot := none, clampCounted := false,
    sine := { x.sine with ampl := 0, amplWait := some a, delay := [] } }) s

/-- Start of the disable sequence at the present tick (R95): the origin frozen at its last composed code. -/
def disableStart (n : Ch) (s : Dev) : Dev :=
  srcEnter n .disabling <| updSrc n (fun x => { x with enableT := none, enablePending := false, rampFrom := some (s.now, x.code), rampDone := none }) s

/-- The tick at which the disable ramp reaches code 0. -/
def rampEndTick (s : Dev) (n : Ch) : Nat :=
  match (s.ch n).src.rampFrom with
  | none => s.now
  | some (t, c) =>
    let r := rd s oSrcRamp [n]
    if r = 0 then t else t + (c.natAbs * 24576 + 100 * r - 1) / (100 * r)

/-- DISABLE_RAMP_END (R95): the code has reached 0 and FORCE_EN_n goes high. -/
def execDisableRampEnd (n : Ch) (s : State) : Host.Outcome State Fault Refusal := onDev s fun s =>
  .next (
    let x := (s.ch n).src
    if x.st = .disabling && x.rampDone = none && x.safe = none then
      let s := advance (rampEndTick s n) s
      updSrc n (fun x => { x with forceEn := false, rampDone := some s.now }) s
    else s)

/-- A range change in progress completes its break at once (R96). -/
def rangeFinish (n : Ch) (s : Dev) : Dev :=
  match (s.ch n).src.range with
  | none => s
  | some r => updSrc n (fun x => { x with rangeSel := rd s oPattern [n, r.target], range := none }) s

/-- Entry to TRIPPED on a hard trip (cause 3) or at the end of a safe state (cause 4): Table 3.3, Table 3.4, R96. An OFF or TRIPPED
source keeps its state. -/
def sourceTrip (n : Ch) (cause : Nat) (s : Dev) : Dev :=
  let x := (s.ch n).src
  match x.st with
  | .off | .tripped => s
  | _ =>
    let volt := rd s oSrcMode [n] = 0
    let s := wr s oSrcEnable 0 [n]
    let s := rangeFinish n (srcQueueEmpty n s)
    srcEnter n .tripped <| updSrc n (fun x => { x with
      gndClamp := volt, hizClamp := !volt, clampCause := cause, forceEn := false,
      enableT := none, enablePending := false, rampFrom := none, rampDone := none, hold := none,
      safe := none, code := 0, pin := 0 }) s

/-- The value of SRC_ENABLE a Keystone applies (Table 3.4); `safe` says that a channel safe state runs. -/
def applySrcEnable (n : Ch) (on safe : Bool) (s : Dev) : Dev :=
  match (s.ch n).src.st, on with
  | .off, true => enableStart n s
  | .tripped, true => enableStart n s
  | .disabling, true => updSrc n (fun x => { x with enablePending := true }) s
  | .disabling, false => updSrc n (fun x => { x with enablePending := false }) s
  | .enabling, false => if safe then s else disableStart n s
  | .running, false => if safe then s else disableStart n s
  | _, _ => s

/-! ### Range changes -/

/-- A change of RANGE_ACTIVE applied at the present tick (R101). `old` is the pattern before it. -/
def rangeStart (n : Ch) (r : Nat) (s : Dev) : Dev :=
  let new := rd s oPattern [n, r]
  let x := (s.ch n).src
  match x.st with
  | .off | .tripped => updSrc n (fun x => { x with rangeSel := new }) s
  | _ =>
    let hold := rd s oHoldUs [n, r]
    let s := holdEngage n (usTicks hold) s
    updSrc n (fun x => { x with
      rangeSel := x.rangeSel ||| new,
      range := some ⟨s.now, r, s.now + usTicks (rd s oOverlapUs [n, r]), s.now + usTicks hold, false⟩ }) s

/-- RANGE_BREAK (Table 3.6): the old-only bits go low. -/
def execRangeBreak (n : Ch) (s : State) : Host.Outcome State Fault Refusal := onDev s fun s =>
  .next (
    match (s.ch n).src.range with
    | some r =>
      let s := advance r.breakAt s
      updSrc n (fun x => { x with rangeSel := rd s oPattern [n, r.target], range := some { r with broken := true } }) s
    | none => s)

/-- The source path's part of the release of a range change (Table 3.6): the hold releases unless a step has moved it out (R98). -/
def rangeRelease (n : Ch) (r : RangeChange) (s : Dev) : Dev :=
  let s := advance r.releaseAt s
  let s := updSrc n (fun x => { x with rangeSel := rd s oPattern [n, r.target], range := none }) s
  match (s.ch n).src.hold with
  | some h => if h.release ≤ r.releaseAt then holdRelease n s else s
  | none => s

/-- RESET_GND_CLAMP (Table 3.3): 492 ticks after a reset the GND clamp joins the HIZ clamp. -/
def execResetGndClamp (n : Ch) (s : State) : Host.Outcome State Fault Refusal := onDies s fun s =>
  .next (
    match (s.ch n).src.resetGndAt with
    | some t => updSrc n (fun x => { x with gndClamp := true, resetGndAt := none }) (advance t s)
    | none => s)

/-! ### Reference -/

/-- The reference the source path uses changes: REF_SRC_SETTLED clears for 200 µs (R104). -/
def srcRefChanged (n : Ch) (s : Dev) : Dev :=
  updSrc n (fun x => { x with refSettled := false, settleAt := some (s.now + usTicks 200) }) s

/-- REF_SRC_SETTLE (R104). -/
def execRefSrcSettle (n : Ch) (s : State) : Host.Outcome State Fault Refusal := onDev s fun s =>
  .next (
    match (s.ch n).src.settleAt with
    | some t => updSrc n (fun x => { x with refSettled := true, settleAt := none }) (advance t s)
    | none => s)

/-- Counters cleared by C(n)+0x11:0A (Table 3.8): bit i clears sub 03 + i, bit 6 clears sub 0B. -/
def clearSrcCounters (n : Ch) (v : Nat) (s : Dev) : Dev :=
  let s := if bitOf v 0 then wr s oUnderruns 0 [n] else s
  let s := if bitOf v 1 then wr s oOverflows 0 [n] else s
  let s := if bitOf v 2 then wr s oClamps 0 [n] else s
  let s := if bitOf v 3 then wr s oStepHolds 0 [n] else s
  let s := if bitOf v 4 then wr s oHoldForced 0 [n] else s
  let s := if bitOf v 5 then wr s oRateClips 0 [n] else s
  if bitOf v 6 then wr s oPeekMiss 0 [n] else s

end Sys2Proof.Machine
end

