-- ==== Sys2Proof/Machine/Compare.lean ====
section
/-! DEFINITION. The reference distribution switch and the comparison of the reference with a laboratory standard (09, R271 to R280). -/

namespace Sys2Proof.Machine

/-- The Reference die rewritten. -/
def updRef (f : RefDie → RefDie) (s : Dev) : Dev := { s with ref := f s.ref }

/-! ### The switch -/

/-- Position in force (Table 9.2). -/
def switchPos (s : Dev) : Nat := rd s oRefSwitch []

/-- REFX is an input: EXTERNAL or REVERSED. -/
def switchIn (v : Nat) : Bool := v == 1 || v == 3

/-- An array on the external pair when the switch moves (R39, R116): REF_SETTLED clears and its next takes are invalid. -/
def arrSwitched (n : Ch) (a : ArrId) (s : Dev) : Dev :=
  if rd s oRefSel [n, a.idx] = 1 then
    markRun n a (usTicks 500) (refUnsettle n a (usTicks 500) s)
  else s

/-- The switch moves at the present tick (R272, R274, R39, R104). -/
def switchMove (v : Nat) (s : Dev) : Dev :=
  let old := switchPos s
  if old = v then s
  else
    let s := wr s oRefSwitch v []
    let s := if switchIn v && switchIn old then s else wr s oExtLevel 0 []
    let s := updRef (fun r => { r with extAt := s.now, extRangeErr := switchIn v && r.extRangeErr }) s
    forChans (fun n s =>
      let s := arrSwitched n .im (arrSwitched n .vm s)
      if srcPair s n = 1 then srcRefChanged n s else s) s

/-- A source path that is not OFF or TRIPPED uses the external pair (R273). -/
def externalSource (s : Dev) : Bool :=
  (List.finRange 24).any fun n =>
    srcPair s n == 1 && (match (s.ch n).src.st with
      | .enabling | .running | .disabling => true
      | .off | .tripped => false)

/-! ### The comparison -/

/-- The requester of the comparison (Table 10.2). -/
def cmpId : Nat := reqId 8 0

/-- The comparison rewritten. -/
def updCmp (f : Comparison → Comparison) (s : Dev) : Dev := updRef (fun r => { r with comparison := r.comparison.map f }) s

/-- The channel a comparison uses. -/
def cmpChannel (c : Comparison) : Ch := ⟨c.channel % 24, Nat.mod_lt _ (by decide)⟩

/-- A comparison that has begun owns this array (R276). -/
def cmpOwns (s : Dev) (n : Ch) (a : ArrId) : Bool :=
  match s.ref.comparison with
  | some c => a == .vm && c.channel == n.val
  | none => false

/-- The OVEN bits of Table 9.5 at the present tick. -/
def ovenBits (s : Dev) : Nat := flagAt (s.ref.oven != .regulating) 0 + flagAt s.ref.ovenOut 1 + flagAt s.ref.ovenFault 2

/-- The OVEN bits of a comparison that runs collect the state of the oven (Table 9.5). -/
def cmpOven (s : Dev) : Dev := updCmp (fun c => if c.begun then { c with oven := c.oven ||| ovenBits s } else c) s

/-- The objects of Table 4.11 that the procedure sets: row and its value. -/
def cmpObjects (c : Comparison) : List (Row × Nat) :=
  [(oArrEnable, 1), (oArrMode, 0), (oAperture, c.aperture), (oArrStart, c.start), (oInputSel, 7), (oRange, 2), (oFilter, 2), (oRefSel, 0),
    (oSched, 0)]

/-- The first Reel cycle boundary at or after 1 ms from now (R277). -/
def cmpStartPos (s : Dev) : Nat := nextMultiple s (s.now + msTicks) 32

/-- A comparison is scheduled (R276, R277): its settings are copied, and the switch is asked for. -/
def cmpSchedule (origin start deadline : Nat) (s : Dev) : Dev :=
  let c : Comparison := ⟨rd s oCmpChannel [], rd s oCmpAperture [], rd s oCmpTakes [], rd s oCmpPairs [], rdI s oStdValue [], rd s oStdU [],
    rd s oStdId [], origin, start, false, 0, [], 0, 1, false, 0, 0, 0, 0, 0, [], 0⟩
  unitRequest cmpId 0x20 deadline (updRef (fun r => { r with comparison := some c }) s)

/-- The conditions of R276 under which CMP_START is refused with 0x0F10_0095. -/
def cmpBarred (s : Dev) : Bool :=
  let n : Ch := ⟨rd s oCmpChannel [] % 24, Nat.mod_lt _ (by decide)⟩
  let x := (s.ch n).vm
  rd s oStdU [] == 0 || x.st != .off || !x.ready || s.ref.comparison.isSome || switchPos s == 3 || s.ref.linkFault

/-- Ticks of the switch's hold bound (Table 10.2). -/
def cmpBound (s : Dev) : Nat := 2 * rd s oCmpPairs [] * (5 * rd s oCmpTakes [] + 4) * durTicks s (rd s oCmpAperture [])

/-- COMPARISON_BACKGROUND_DUE (R280, R303): the request is entered at deadline minus hold bound, under the conditions of R276. -/
def execComparisonBackgroundDue (s : State) : Host.Outcome State Fault Refusal := onDev s fun s =>
  .next (
    let h := rd s oCmpInterval []
    if h = 0 then s
    else
      let due := s.ref.lastComparison + h * 3600000 * msTicks
      let s := advance (due - cmpBound s) s
      if cmpBarred s then s else cmpSchedule 0xFF (cmpStartPos s) (posOf s.cad.recs (due * 256)) s)

/-- The payload of a comparison that has completed or been abandoned (Table 9.5). `vals` are RATIO_DEV, U_A, OFFSET, V_INT and U_INT. -/
def cmpPayload (c : Comparison) (status endPos : Nat) (vals : Int × Int × Int × Int × Int) : List Byte :=
  let i8 (v : Int) := leBytes 8 (ofSigned 64 v)
  i8 c.stdValue ++ leBytes 4 c.stdU ++ leBytes 4 0 ++ leBytes 16 c.stdId ++ i8 vals.1 ++ i8 vals.2.1 ++ i8 vals.2.2.1 ++ i8 vals.2.2.2.1 ++
    i8 vals.2.2.2.2 ++ leBytes 1 c.channel ++ leBytes 1 c.pairs ++ leBytes 2 c.takes ++ leBytes 1 status ++ leBytes 1 c.oven ++
    leBytes 2 (min 65535 c.skippedAll) ++ leBytes 8 c.start ++ leBytes 8 endPos

/-- The pairs of ended phases, F and R, newest first. -/
def cmpPairs : List (Int × Nat) → List ((Int × Nat) × (Int × Nat))
  | r :: f :: t => (f, r) :: cmpPairs t
  | _ => []

/-- U_A² as a quotient (R278): from the spread of m_p, or for one pair from the spreads of its takes. -/
def cmpSpread (p n : Nat) (l : List ((Int × Nat) × (Int × Nat))) : Nat × Nat :=
  let ds := l.map fun e => e.1.1 - e.2.1
  let d := ds.sum
  if 2 ≤ p then (4 * (p * (ds.map fun x => x * x).sum - d * d).toNat, (p - 1) * (d * d).toNat)
  else match l with
    | (f, r) :: _ => (4 * ((n : Int) * ((f.2 + r.2 : Nat) : Int) - f.1 * f.1 - r.1 * r.1).toNat, (n - 1) * (d * d).toNat)
    | [] => (0, 0)

/-- An integer with the sign of another. -/
def withSign (neg : Bool) (v : Nat) : Int := if neg then -(v : Int) else v

/-- The results of R278, computed exactly and rounded at the end: RATIO_DEV, U_A, OFFSET, V_INT, U_INT. A root is taken of the magnitude and bears the
sign its formula gives it; a value whose formula divides by 0 is open (log 33). -/
def cmpResult (c : Comparison) : Int × Int × Int × Int × Int :=
  let l := cmpPairs c.phases
  let np : Int := ((c.takes * c.pairs : Nat) : Int)
  let d := (l.map fun e => e.1.1 - e.2.1).sum
  let o := (l.map fun e => e.1.1 + e.2.1).sum
  let rn := 12 * d
  let rdn := 20 * np * 2 ^ 38
  let a := cmpSpread c.pairs c.takes l
  let ratio := roundOpen ((rn - rdn) * 10 ^ 12) rdn
  let offset := roundOpen (o * 12000000000) (2 * np * 2 ^ 38)
  let v := if rn = 0 then Config.cmpUndefined 1 else if rn < 0 then roundOpen (-(c.stdValue * rdn)) (-rn) else roundOpen (c.stdValue * rdn) rn
  let v2 := (c.stdValue * c.stdValue).toNat
  let neg := decide (rn < 0)
  let u := (rdn * rdn).toNat * (c.stdU * c.stdU * a.2 * 10 ^ 16 + v2 * a.1 * 10 ^ 16 + v2 * a.2)
  let open_ := decide (rn = 0) || a.2 == 0
  (ratio, if open_ then Config.cmpUndefined 0 else withSign neg (rootOpen (a.1 * 10 ^ 24) a.2), offset, v,
    if open_ || c.stdValue = 0 then Config.cmpUndefined 2
    else withSign (neg != decide (c.stdValue < 0)) (rootOpen u ((rn * rn).toNat * a.2 * 10 ^ 16)))

/-- The end step of Table 9.4 (R279): the array disabled and its objects restored, the switch back in the position before S, the record
caused. `endPos` is 0 after a Control-die restart. -/
def cmpEnd (abandoned : Bool) (endPos : Nat) (s : Dev) : Dev :=
  match s.ref.comparison with
  | none => s
  | some c =>
    let n := cmpChannel c
    let s := if c.begun then
        let s := applyArrEnable n .vm false 0 0 (wr s oArrEnable 0 [n, 0])
        let old := arrCfg s n .vm
        let pair := srcPair s n
        let s := arrChanged n .vm old false 0 (c.saved.foldl (fun s e => putKey e.1 e.2 s) s)
        let s := if (arrCfg s n .vm).range = old.range then s else guardRangeChanged n .vm s
        let s := if srcPair s n = pair then s else srcRefChanged n s
        switchMove c.before s
      else s
    let s := unitWithdraw cmpId 0x20 (unitRelease cmpId 0x20 s)
    let vals := if abandoned then (0, 0, 0, 0, 0) else cmpResult c
    let s := updRef (fun r => { r with
      comparison := none
      lastComparison := if abandoned then r.lastComparison else s.now
      cmpLate := abandoned && r.cmpLate }) s
    let s := if abandoned then s else wr s oCmpLastRatio (ofSigned 64 vals.1) []
    let s := wr s oCmpStatus (flagAt abandoned 2) []
    causeRecord (ownAppend 2 (cmpPayload c (if abandoned then 1 else 0) endPos vals) 0 c.origin s) s

/-- A take of the comparison's array, of the slot at place `ord`, is used or skipped (R277). One whose slot started before the switch moved belongs to
no phase. -/
def cmpTake (n : Ch) (a : ArrId) (ord : Nat) (w : Word64) (s : Dev) : Dev :=
  match s.ref.comparison with
  | none => s
  | some c =>
    if c.begun && cmpOwns s n a && c.used < c.takes && c.first ≤ ord then
      let tag := getField w.toNat 16 8
      if bitOf tag 7 && !bitOf tag 2 && !bitOf tag 1 then
        let v := toSigned 40 (w.toNat / 2 ^ 24)
        updCmp (fun c => { c with used := c.used + 1, sum := c.sum + v, sumSq := c.sumSq + (v * v).toNat }) s
      else bump oCmpSkipped [] (updCmp (fun c => { c with skipped := c.skipped + 1, skippedAll := c.skippedAll + 1 }) s)
    else s

/-- The cases of R279 that arise in the procedure itself: too many takes skipped in a phase, the array in FAULT. -/
def cmpWatch (s : Dev) : Dev :=
  match s.ref.comparison with
  | some c =>
    if c.begun && (4 * c.takes < c.skipped || (s.ch (cmpChannel c)).vm.st = .fault) then cmpEnd true (ctlPos s) s else s
  | none => s

/-- COMPARISON_START (R277, Table 9.4): at S, once the switch is granted. An array that cannot serve the procedure is in FAULT at once, and the end
step follows (R279). -/
def execComparisonStart (s : State) : Host.Outcome State Fault Refusal := onDev s fun s =>
  .next (
    match s.ref.comparison with
    | none => s
    | some c =>
      if c.begun || !holds s cmpId 0x20 then s
      else
        let n := cmpChannel c
        let s := advance (tickNear s.cad.recs c.start) s
        let objs := cmpObjects c
        let saved := objs.map fun e => (keyOf e.1 [n, 0] 0, rd s e.1 [n, 0])
        let s := updCmp (fun c => { c with begun := true, before := switchPos s, saved := saved, first := (s.ch n).vm.ord }) s
        let s := switchMove 1 s
        let old := arrCfg s n .vm
        let pair := srcPair s n
        let s := objs.foldl (fun s e => wr s e.1 e.2 [n, 0]) s
        let s := cfgEnters n .vm old s
        let s := if saved.any fun e => e == (keyOf oRange [n, 0] 0, 2) then s else guardRangeChanged n .vm s
        let s := if srcPair s n = pair then s else srcRefChanged n s
        cmpWatch (cmpOven (arrStart n .vm c.start (settleTicks .vm old (arrCfg s n .vm) false) s)))

/-- Stamp of the array's next slot boundary, at which the switch moves (R277); none while the cadence record of its slot has not arrived (R48). -/
def cmpMoveStamp (s : Dev) (c : Comparison) : Option Nat :=
  let n := cmpChannel c
  stampOf (dieRecs s n) (slotStart (s.ch n).vm (firstArrSlot s n (s.ch n).vm))

/-- Place of the array's slot that starts at that boundary. -/
def cmpMoveOrd (s : Dev) (c : Comparison) : Nat :=
  let x := (s.ch (cmpChannel c)).vm
  x.ord + firstArrSlot s (cmpChannel c) x - x.nextK

/-- COMPARISON_PHASE_END (R277): a phase has used its takes; at the array's next slot boundary the switch reverses, or the end step runs. -/
def execComparisonPhaseEnd (s : State) : Host.Outcome State Fault Refusal := onDev s fun s =>
  .next (
    match s.ref.comparison with
    | none => s
    | some c =>
      match if c.begun && c.used = c.takes then cmpMoveStamp s c else none with
      | none => s
      | some st =>
        let n := cmpChannel c
        let first := cmpMoveOrd s c
        let s := advance ((st + 255) / 256) s
        let s := cmpOven (updCmp (fun c => { c with first := first, phases := (c.sum, c.sumSq) :: c.phases, used := 0, skipped := 0, sum := 0, sumSq := 0 }) s)
        if c.reversed && c.pair = c.pairs then cmpEnd false (ctlPos s) s
        else
          let s := updCmp (fun c => { c with reversed := !c.reversed, pair := if c.reversed then c.pair + 1 else c.pair }) s
          markRun n .vm (usTicks 40000) (switchMove (if c.reversed then 1 else 3) s))

end Sys2Proof.Machine
end

