-- ==== Sys2Proof/Machine/Arrays.lean ====
section
/-! DEFINITION. Measure arrays (04) and take formation (05): slots, apertures, slices and rotation, overrange, urgent conversions, the
tap converter, the measure configuration table. -/

namespace Sys2Proof.Machine

/-- A granted verify path of a rotation (R130): it takes effect at the next slot boundary of the next role in order, at once while the
array is OFF. Where ROT_ENABLE or the array's state no longer allows a rotation, or DS2 has stopped, the path is given back (log 126). -/
def rotationGranted (n : Ch) (a : ArrId) (s : Dev) : Dev :=
  let x := arrOf s n a
  if rd s oRotEnable [n, a.idx] ≠ 1 || !(x.st == .running || x.st == .off) || !serviceRuns s n.die 2 then rotationCancel n a s else
  let r := x.nextRole % (max 1 x.roles.length)
  let s := updArr n a (fun x => { x with rotRole := some r }) s
  if x.st = .off then idleRoles n a (rotateAt n a r s) else s

/-- A granted multiplexer: the calibration of the leaving slice begins now at the earliest. -/
def calGranted (n : Ch) (a : ArrId) (s : Dev) : Dev :=
  updArr n a (fun x => { x with cal := x.cal.map fun c => { c with since := max c.since s.now } }) s

/-- R falls by one at a slot boundary (R132), subject to Table 4.3. -/
def dropRoleAt (n : Ch) (a : ArrId) (s : Dev) : Dev :=
  let x := arrOf s n a
  if x.dropRole then
    let s := updArr n a (fun x => { x with roles := x.roles.filter Option.isSome, dropRole := false }) s
    let y := arrOf s n a
    if servable y.mode y.aperture (curRec (dieRecs s n) s.now).len (inService y) then s else arrFail n a s
  else s

/-- The tick of the first modulator clock edge at or after a tick (R109): clocks lie every 40 ticks from the epoch. -/
def clockEdge (t : Nat) : Nat := (t + 39) / 40 * 40

/-- The donor of a Pipeline slot's gap fill (R120, R141): the latest slot before it in progress. -/
def donorOf (x : Arr) (k : Nat) : Option Slot :=
  if x.mode = 1 && k ≠ 0 then
    (x.slots.filter fun y => y.k < k && !y.idle).foldl (fun m y => match m with
      | none => some y
      | some z => if z.k < y.k then some y else some z) none
  else none

/-- A slice that converts or recovers from an urgent conversion at a tick (R141). -/
def urgentHolds (x : Arr) (i : Fin 7) (tick : Nat) : Bool :=
  (match x.urgent with
    | some u => u.slice == i
    | none => false) || decide (tick < x.slices[i].urgentFree)

/-- The bytes a transaction stages for an object. -/
def stagedFor (t : Txn) (index sub : Nat) : Option (List Byte) := (t.staged.find? fun w => w.index == index && w.sub == sub).map Staged.data

/-- The bytes a transaction stages for a row at places. -/
def stagedAt (t : Txn) (r : Row) (places : List Nat) : Option (List Byte) :=
  stagedFor t (r.ix + dimsOff r.dims places) r.sub

/-- One half of a measure configuration entry at reset (Table 4.14): KEEP, RANGE 2, APERTURE 1 cycle. -/
def mcfgHalfDefault : Nat := 2 ^ 52 + 2 ^ 46 + 0x40000000

/-- An entry at reset. -/
def mcfgDefault : Nat := mcfgHalfDefault * 2 ^ 64 + mcfgHalfDefault

/-- The half of entry `i` for an array. -/
def mcfgHalf (s : Dev) (n : Ch) (i : Nat) (a : ArrId) : Nat :=
  tabGet (s.ch n).mcfg mcfgDefault i / 2 ^ (64 * a.idx) % 2 ^ 64

/-- The tick of a restart of the array that is already known to it (R124): by a Keystone whose commit decision its die holds, or a Course start that
is decided. The manual does not say when a restart becomes known (DESIGN CHOICE, log 152). -/
def restartTick (s : Dev) (n : Ch) (a : ArrId) : Option Nat :=
  let places := [n.val, a.idx]
  let d := s.dies[n.die]
  let keystones := s.ports.toList.flatMap fun p => p.txns.toList.filterMap fun t =>
    if t.st == .committed && bitOf t.decided n.die.val && [oArrMode, oAperture].any (fun r =>
        (stagedAt t r places).any fun l => ofBytes l != rd s r places) then some (tickNear d.recs t.pos) else none
  let courses := if rd s oSched places = 1 then (s.ch n).seq.starts.filterMap fun b =>
      if bitOf (mcfgHalf s n b.mcfg a) 52 || !bitOf (mcfgHalf s n b.mcfg a) 51 then none else some (tickNear d.recs (slotPos s n b.slot)) else []
  (keystones ++ courses).min?

/-- A slot begins on its slice, or is emitted ABORTED where its role has none, its slice is not free, or it is too short (R119, R122,
R132, R133, R141). -/
def beginSlot (n : Ch) (a : ArrId) (k st : Nat) (s : Dev) : Dev :=
  let x := arrOf s n a
  let role := k % (max 1 x.roles.length)
  let recs := dieRecs s n
  let sp := slotStart x k
  let ep := slotEnd x k
  let en := actStamp s.dies[n.die] (stampNear recs ep)
  let len := en - st
  let cfg := arrCfg s n a
  let crr := if rd s oSched [n, a.idx] = 1 then (s.ch n).seq.crr else none
  let least := if x.mode = 0 then max 246 ((532 + (x.roles.length - 1) - 1) / (max 1 (x.roles.length - 1))) else 3192
  let aborted : Done := ⟨x.ord, st, en, 0, true, none, none, false, cfg, crr⟩
  let s := updArr n a (fun x => { x with nextK := k + 1, ord := x.ord + 1 }) s
  if len < least * 256 then
    bump oShortApertures [n, a.idx] (updArr n a (fun x => { x with done := doneInsert aborted x.done }) s)
  else
    match x.roles.getD role none with
    | none => updArr n a (fun x => { x with done := doneInsert aborted x.done }) s
    | some i =>
      let z := x.slices[i]
      let tick := (st + 255) / 256
      if urgentHolds x i tick then updArr n a (fun x => { x with done := doneInsert aborted x.done }) s
      else
        let donor := donorOf x k
        let atRestart := decide (st < stampNear recs x.p0 + 532 * 256)
        let late := z.freeAt ≠ 0 && (atRestart || donor.isNone) && tick < z.freeAt + 532
        let conv := if late then clockEdge (z.freeAt + 532) * 256 else st
        let donor := if late then none else donor
        let dz : Int × Int := match donor with
          | some d => (x.slices[d.slice].offset, x.slices[d.slice].gain)
          | none => (0, 0)
        let dswap := match donor with
          | some d => d.fresh && !d.gave
          | none => false
        let idle := (restartTick s n a).any fun t => t * 256 < en
        let slot : Slot :=
          ⟨k, x.ord, sp, ep, st, conv, role, i, donor.map Slot.slice, (z.offset, z.gain), dz, z.fresh && !idle, !idle && (z.fresh || dswap), false,
            idle, false, cfg, crr⟩
        let s := updArr n a (fun x => { x with
          slots := (x.slots.map fun y => { y with gave := y.gave || (!idle && donor.any fun d => d.ord == y.ord) }) ++ [slot] }) s
        if idle then s else updSlice n a i (fun z => { z with fresh := false }) s

/-- A role has lost its slice (R132): with no spare left, Interleave drops the role at the next slot boundary, at once where no slot starts any
more, and Pipeline enters FAULT, while it drains too (log 127). -/
def roleLost (n : Ch) (a : ArrId) (s : Dev) : Dev :=
  let x := arrOf s n a
  if noSpare x then
    let s := rotationCancel n a s
    match x.st with
    | .starting | .running => if x.mode = 0 then updArr n a (fun x => { x with dropRole := true }) s else arrFail n a s
    | .draining => if x.mode = 0 then updArr n a (fun x => { x with roles := x.roles.filter Option.isSome }) s else arrFail n a s
    | .off | .fault => idleRoles n a s
  else s

/-- SLOT_START (R117 to R122): the next slot of a STARTING or RUNNING array, at its tick; held while the cadence record of its start
has not arrived (R48). -/
def execSlotStart (n : Ch) (a : ArrId) (s : State) : Host.Outcome State Fault Refusal := onDev s fun s =>
  .next (
    let x := arrOf s n a
    if x.st = .starting || x.st = .running then
      match (stampOf (dieRecs s n) (slotStart x x.nextK)).map (actStamp s.dies[n.die]) with
      | none => s
      | some st =>
        let s := advance ((st + 255) / 256) s
        let s := dropRoleAt n a s
        let x := arrOf s n a
        if x.st = .starting || x.st = .running then
          let r := x.nextK % (max 1 x.roles.length)
          let s := fillRole n a r (rotateAt n a r s)
          let s := showMap n a (if (arrOf s n a).roles.contains none then roleLost n a s else s)
          if (arrOf s n a).st = .fault then cmpWatch s else arrEnter n a .running (beginSlot n a x.nextK st s)
        else cmpWatch s
    else s)

/-! ### Apertures -/

/-- Overlap of modulator clock j with a stamp interval, in 1/256 tick (R110). -/
def clockOverlap (j s e : Nat) : Nat := min e ((j + 1) * 10240) - max s (j * 10240)

/-- Σ w y and Σ w of a list of clock outputs from clock j on, over [s, e) (R110). -/
def weighted (s e : Nat) : Nat → List Int → Int × Nat
  | _, [] => (0, 0)
  | j, y :: t =>
    let w := clockOverlap j s e
    let r := weighted s e (j + 1) t
    (w * y + r.1, w + r.2)

/-- Modulator clocks that overlap [s, e). -/
def clocksIn (s e : Nat) : Nat := if s < e then (e - 1) / 10240 - s / 10240 + 1 else 0

/-- The raw value of R110 over [s, e), as a quotient (numerator, denominator). -/
def rawValue (s e : Nat) (ys : List Int) : Int × Int :=
  let w := weighted s e (s / 10240) ys
  (2 ^ 38 * w.1, (Config.fullScaleOutput + 1) * w.2)

/-- The slice trims on a quotient (R128): (v − o)(1 + δ), δ in Q39. -/
def trimQ (q : Int × Int) (t : Int × Int) : Int × Int := ((q.1 - t.1 * q.2) * (2 ^ 39 + t.2), q.2 * 2 ^ 39)

/-- A quotient rounded to the nearest 40-bit value (R128), held in range. -/
def round40 (q : Int × Int) : Int := if q.2 = 0 then 0 else satSigned 40 (roundNearestOpen q.1 q.2)

/-- The trimmed value of a slot from its clock outputs (R110, R120, R128): in a gap-filled Pipeline slot the first outputs are the
donor's over the first 492 ticks, then the slice's own over the rest. -/
def slotValue (y : Slot) (e : Nat) (ys : List Int) : Int :=
  match y.donor with
  | none => round40 (trimQ (rawValue y.conv e ys) y.trim)
  | some _ =>
    let m := min e (y.conv + 492 * 256)
    let c := clocksIn y.conv m
    let p := trimQ (rawValue y.conv m (ys.take c)) y.donorTrim
    let q := trimQ (rawValue m e (ys.drop c)) y.trim
    if p.2 = 0 then round40 q
    else if q.2 = 0 then round40 p
    else
      let wp : Int := ((m - y.conv : Nat) : Int)
      let wq : Int := ((e - m : Nat) : Int)
      round40 (wp * p.1 * q.2 + wq * q.1 * p.2, (wp + wq) * p.2 * q.2)

/-- The clamp value of an overranged take (R137). -/
def ovrValue (positive : Bool) : Int := if positive then 2 ^ 39 - 1 else -(2 ^ 39)

/-- APERTURE_END (R110, R111): the oldest slot in progress ends, its value is computed and its slice enters its dead time; held while the
cadence record of its end has not arrived. -/
def execApertureEnd (n : Ch) (a : ArrId) (c : Conv) (s : State) : Host.Outcome State Fault Refusal := onDev s fun s =>
  .next (
    let x := arrOf s n a
    match x.slots with
    | [] => s
    | y :: t =>
      match (stampOf (dieRecs s n) y.endPos).map (actStamp s.dies[n.die]) with
      | none => s
      | some e =>
        let tick := (e + 255) / 256
        let s := advance tick s
        let v := match c.ovr with
          | some (p, _) => ovrValue p
          | none => slotValue y e c.ys
        let d : Done := ⟨y.ord, y.start, e, v, false, c.ovr.map Prod.fst, c.ovr.map Prod.snd, y.swap, y.cfg, y.crr⟩
        if y.idle then updArr n a (fun x => { x with slots := t, done := doneInsert (abortedDone n a y e) x.done }) s
        else
          let s := updArr n a (fun x => { x with
            slots := t, done := doneInsert d x.done, overClock := some (tick / 40, c.ovr.any fun o => decide (tick / 40 * 40 ≤ o.2)) }) s
          updSlice n a y.slice (fun z => { z with freeAt := tick }) s)

/-! ### Take formation -/

/-- A span list meets [s, e) in ticks. -/
def spansMeet (l : List Span) (s e : Nat) : Bool :=
  l.any fun p => p.start < e && (match p.stop with | some t => s < t | none => true)

/-- A take's window lies in a holdover interval (R60): of the Cadence Unit, of its die's own records, of the chain master. -/
def inHoldover (s : Dev) (n : Ch) (t0 t1 : Nat) : Bool :=
  spansMeet s.cad.tagged t0 t1 || spansMeet (s.dies[n.die]).extended t0 t1 || spansMeet s.zh.masterSpans t0 t1

/-- A take's window lies in a supply episode (Table 5.2). -/
def inSupplyEvent (s : Dev) (t0 t1 : Nat) : Bool := spansMeet s.supply.spans t0 t1

/-- The subindex of a correction entry of a measure array (R283): the key of Table 5.3; none for inputs 6 and 8. -/
def corrSub (c : ArrCfg) : Option Nat := corrKey c.input c.range (if c.ref = 1 then 1 else 0)

/-- The correction of R155 with the entry in force (R154, R156): the value, whether an entry applied, whether it was provisioned. -/
def corrected (s : Dev) (n : Ch) (a : ArrId) (c : ArrCfg) (v : Int) : Int × Bool × Bool :=
  match corrSub c with
  | none => (v, false, true)
  | some j =>
    let e := corrEntry s n a j
    if e.provisioned then (applyCorr v e.offset e.gain, true, true) else (v, true, false)

/-- The tags of a take (Table 5.2, R152). `marked` is SETTLING, `rec_` RECOVER. -/
def takeTagByte (s : Dev) (n : Ch) (d : Done) (marked rec_ provisioned : Bool) : Nat :=
  let t0 := d.start / 256
  let t1 := (d.stop + 255) / 256
  let ovr := d.ovr.isSome
  let valid := !marked && !ovr && !rec_ && !d.aborted && d.cfg.ref ≠ 2 && provisioned
  flagAt valid 7 + flagAt marked 6 + flagAt ovr 5 + flagAt rec_ 4 + flagAt d.aborted 3 +
    flagAt (inHoldover s n t0 t1) 2 + flagAt (inSupplyEvent s t0 t1) 1 + flagAt d.swap 0

/-- A stamp lies in the clean-neighbour interval (E, E + 12 288 ticks] of the last overrange (R138). -/
def afterOverrange (x : Arr) (start : Nat) : Bool := match x.ovrE with
  | some (e, _) => e * 256 < start && start ≤ (e + 12288) * 256
  | none => false

/-- RECOVER of R138: the next two takes after an overrange, and the clean neighbours that start within 12 288 ticks of E in another
Course entry. -/
def recoverMark (x : Arr) (start : Nat) (crr : Option Nat) (ovr : Bool) : Bool :=
  !ovr && (0 < x.recover || (afterOverrange x start && crr.isSome && crr != (match x.ovrE with | some (_, c) => c | none => none)))

/-- The Course in progress at a tick (R138, R218). -/
def crrAt (q : Seq) (t : Nat) : Option Nat := match q.crrLog.find? fun e => e.1 ≤ t with
  | some e => e.2
  | none => none

/-- E of an overrange with the Course in progress at E, after the overrange known so far (R138). -/
def laterE (s : Dev) (n : Ch) (x : Arr) (e : Option Nat) : Option (Nat × Option Nat) := match e, x.ovrE with
  | some t, some (u, c) => if u ≤ t then some (t, crrAt (s.ch n).seq t) else some (u, c)
  | some t, none => some (t, crrAt (s.ch n).seq t)
  | none, o => o

/-- A half of a Course result register written; the take it held before this tick is kept for a read on the same tick (R159). -/
def crrWrite (now half w : Nat) (c : Chan) : Chan :=
  { c with
    crrs := tabPut c.crrs 0 half w
    crrOld := if c.crrOld.any fun e => e.1 == half && e.2.1 == now then c.crrOld
      else (half, now, tabGet c.crrs 0 half) :: c.crrOld.filter fun e => e.2.1 == now }

/-- The latest-take objects and the Course result register (R158, R159). -/
def writeLatest (n : Ch) (a : ArrId) (w : Word64) (pos : Nat) (crr : Option Nat) (s : Dev) : Dev :=
  let s := match a with
    | .vm => wr (wr s oVmLatest w.toNat [n]) oVmLatestPos pos [n]
    | .im => wr (wr s oImLatest w.toNat [n]) oImLatestPos pos [n]
  match crr with
  | none => s
  | some r => updCh n (crrWrite s.now (2 * r + a.idx) w.toNat) s

/-- TAKE_FORMATION (R149 to R158): the oldest ended slot becomes a take, 369 ticks after its aperture: corrected, tagged, numbered, and
written to the latest-take registers, the Course result register, the queues and the PEs. The take of a slot that was never converted waits for no
stage: it may come from the slot's start on (DESIGN CHOICE, log 154). -/
def takeFormation (n : Ch) (a : ArrId) (d : Done) (t : List Done) (s : Dev) : Dev :=
  let s := if d.aborted then s else advance ((d.stop + 255) / 256 + 369) s
  let x := arrOf s n a
  let plain := !d.aborted && d.ovr.isNone
  let c := if plain then corrected s n a d.cfg d.value else (d.value, false, true)
  let marked := x.runFirst ≤ d.ord && d.ord ≤ x.runEnd && x.runFirst ≤ x.runEnd
  let rec_ := recoverMark x d.start d.crr d.ovr.isSome
  let w := takeWord c.1 (takeTagByte s n d marked rec_ c.2.2) x.seq
  let pos := posOf (dieRecs s n) d.start
  let s := updArr n a (fun x => { x with
    done := t, seq := (x.seq + 1) % 65536, emitted := max x.emitted (d.ord + 1),
    recover := if d.ovr.isSome then 2 else x.recover - 1,
    ovrE := laterE s n x d.ovrEnd }) s
  let s := if c.2.1 && !c.2.2 then bump oUncorrected [n] s else s
  let s := if d.ovr.isSome then bump oOvrCount [n, a.idx] s else s
  let s := if d.aborted then bump oAbortCount [n, a.idx] s else s
  let s := cmpTake n a d.ord w (writeLatest n a w pos d.crr s)
  let s := streamWrite n (1 + a.idx) [w] pos s
  let s := peTake n 1 a w pos (peTake n 0 a w pos s)
  let y := arrOf s n a
  if y.st = .draining && y.slots = [] && y.done = [] then arrEnter n a .off s else s

/-! ### Slices: rotation, calibration, retirement -/

/-- A slice retires (R127, R132): counted, reported, its slot ABORTED, its role to be filled by the spare, which then takes part in no rotation
(log 126), or lost. An urgent conversion it ran is dropped: no urgent take and no count (log 128). -/
def retire (n : Ch) (a : ArrId) (i : Fin 7) (s : Dev) : Dev :=
  let s := updSlice n a i (fun z => { z with st := .retired }) s
  let s := bump oRetirements [n, a.idx] s
  let s := chFault n 6 (chEvent n 0x0A (arrArg a i.val) s)
  let s := updArr n a (fun x => { x with
    done := (x.slots.filter fun y => y.slice == i).foldl (fun l y => doneInsert (abortedDone n a y (s.now * 256)) l) x.done
    slots := x.slots.filter fun y => y.slice != i
    roles := x.roles.map fun r => if r = some i then none else r
    spare := if x.spare = some i then none else x.spare
    cal := match x.cal with | some c => if c.slice = i then none else some c | none => none
    urgent := match x.urgent with | some u => if u.slice = i then none else some u | none => none }) s
  let s := idleRoles n a s
  let s := if (arrOf s n a).roles.contains none then roleLost n a (if noSpare (arrOf s n a) then s else rotationCancel n a s) else s
  staleCheck n a s

/-- The conditions of R130 for a rotation hold. No new calibration starts during a supply warning (R143). -/
def rotationDue (s : Dev) (n : Ch) (a : ArrId) : Bool :=
  let x := arrOf s n a
  rd s oRotEnable [n, a.idx] == 1 && x.rotTick + rd s oRotInterval [n, a.idx] * msTicks ≤ s.now &&
    (match x.spare with | some sp => x.slices[sp].st == .spareIdle | none => false) &&
    (x.st == .running || x.st == .off) && x.cal.isNone && x.rotRole.isNone && x.roles.all Option.isSome && !s.supply.warning

/-- ROTATION (R130): the rotation interval has passed: DS2 asks for the verify path of the array. -/
def execRotation (n : Ch) (a : ArrId) (s : State) : Host.Outcome State Fault Refusal := onDev s fun s =>
  .next (
    let x := arrOf s n a
    let s := advance (x.rotTick + rd s oRotInterval [n, a.idx] * msTicks) s
    if rotationDue s n a && serviceRuns s n.die 2 then
      match x.roles.getD (x.nextRole % (max 1 x.roles.length)) none with
      | some l => unitRequest (sliceCalId n a) (pathUnit n a) (calDeadline s n a l) s
      | none => s
    else s)

/-- The leaving slice becomes the spare, its new trims in force from its next slot (Table 4.7); a role that waits is filled. -/
def calDone (n : Ch) (a : ArrId) (c : Cal) (s : Dev) : Dev :=
  let pos := posOf (dieRecs s n) (s.now * 256)
  let s := updSlice n a c.slice (fun z => { z with
    st := .spareIdle, offset := c.offset, gain := c.gain, calPos := pos, calTick := s.now }) s
  let s := updArr n a (fun x => { x with spare := some c.slice, cal := none }) s
  let s := bump oRotations [n, a.idx] s
  staleCheck n a (idleRoles n a s)

/-- Limits of Table 4.8: 50 ppm of range for o, 0.1 % for δ. -/
def offsetWithin (o : Int) : Bool := 1000000 * o.natAbs ≤ 50 * 2 ^ 38
/-- The gain limit of Table 4.8. -/
def gainWithin (g : Int) : Bool := 1000 * g.natAbs ≤ 2 ^ 39

/-- The slot whose window the neighbour phase takes (Table 4.8): the first of the role visited next which starts at least 532 ticks after the
−Reference phase. -/
def neighbourSlot (s : Dev) (n : Ch) (a : ArrId) (c : Cal) : Nat :=
  let x := arrOf s n a
  let k := firstArrSlot { s with now := c.since + 532 } n x
  let r := max 1 x.roles.length
  k + ((c.role + 1) % r + r - k % r) % r

/-- The end of the neighbour phase's window. -/
def neighbourEnd (s : Dev) (n : Ch) (a : ArrId) (c : Cal) : Nat :=
  tickNear (dieRecs s n) (slotEnd (arrOf s n a) (neighbourSlot s n a c))

/-- Whether the neighbour phase is skipped (R129): the array OFF or in FAULT, its window shorter than 3192 ticks; a DRAINING array starts no
slot whose window it could take (log 129). -/
def neighbourSkipped (s : Dev) (n : Ch) (a : ArrId) (c : Cal) : Bool :=
  let x := arrOf s n a
  let k := neighbourSlot s n a c
  let recs := dieRecs s n
  x.st == .off || x.st == .fault || x.st == .draining || stampNear recs (slotEnd x k) - stampNear recs (slotStart x k) < 3192 * 256

/-- DS2 of the die runs (Table 1.2), the phase in progress has the multiplexer, and no supply warning has kept it from starting (R143). -/
def calMayRun (s : Dev) (n : Ch) (a : ArrId) (c : Cal) : Bool :=
  serviceRuns s n.die 2 && (c.phase == .neighbour || holds s (sliceCalId n a) (muxUnit n)) && !(s.supply.warning && s.supply.warnAt < c.since)

/-- CAL_PHASE_COMPLETE (R129, Table 4.8): a phase of the leaving slice ends with its result. -/
def execCalPhaseComplete (n : Ch) (a : ArrId) (r : PhaseResult) (s : State) : Host.Outcome State Fault Refusal := onDev s fun s =>
  .next (
    match (arrOf s n a).cal with
    | none => s
    | some c =>
      let ap := rd s oCalAperture [n, a.idx] * msTicks
      let next (c : Cal) (s : Dev) : Dev := updArr n a (fun x => { x with cal := some { c with since := s.now } }) s
      let drop := unitRelease (sliceCalId n a) (muxUnit n)
      if !calMayRun s n a c then s
      else cmpWatch <| match c.phase with
      | .zero =>
        let s := advance (c.since + ap) s
        if offsetWithin r.value then next { c with phase := .plus, offset := r.value } s
        else drop (retire n a c.slice s)
      | .plus => next { c with phase := .minus } (advance (c.since + usTicks 500 + ap) s)
      | .minus =>
        let s := drop (advance (c.since + usTicks 500 + ap) s)
        let c := { c with gain := r.value }
        if gainWithin r.value then
          (if neighbourSkipped s n a { c with since := s.now } then calDone n a c s else next { c with phase := .neighbour } s)
        else retire n a c.slice s
      | .neighbour =>
        if neighbourSkipped s n a c then calDone n a c s else
        let s := advance (neighbourEnd s n a c) s
        let s := updSlice n a c.slice (fun z => { z with nbrDiff := r.value }) s
        if r.value.natAbs ≤ rd s oNbrLimit [n, a.idx] then
          calDone n a c (updSlice n a c.slice (fun z => { z with nbrFails := 0 }) s)
        else
          let f := (arrOf s n a).slices[c.slice].nbrFails + 1
          let s := updSlice n a c.slice (fun z => { z with nbrFails := f }) s
          if 2 ≤ f then retire n a c.slice s else calDone n a c s)

/-- Calibrations that were to start a phase during a supply warning start it at the recovery (R143). -/
def calRecover (s : Dev) : Dev :=
  let one (n : Ch) (a : ArrId) (s : Dev) : Dev := updArr n a (fun x => { x with cal := x.cal.map fun c =>
      if s.supply.warnAt < c.since then { c with since := max c.since s.now } else c }) s
  forChans (fun n s => one n .im (one n .vm s)) s

/-- SLICE_RETIREMENT (Table 4.7): the stuck-modulator count of a slice in service reaches 64. -/
def execSliceRetirement (n : Ch) (a : ArrId) (i : Fin 7) (s : State) : Host.Outcome State Fault Refusal := onDev s fun s =>
  .next (
    let x := arrOf s n a
    if x.slices[i].st = .active && (x.st = .starting || x.st = .running || x.st = .draining) then cmpWatch (retire n a i s) else s)

/-- CAL_STALE (R131): a slice in service passes STALE_LIMIT with no calibration complete. -/
def execCalStale (n : Ch) (a : ArrId) (s : State) : Host.Outcome State Fault Refusal := onDev s fun s =>
  .next (
    let x := arrOf s n a
    let lim := rd s oStaleLimit [n, a.idx] * msTicks
    let ages := x.roles.filterMap fun r => r.map fun i => x.slices[i].calTick
    match ages with
    | [] => s
    | c :: t =>
      let s := advance (t.foldl min c + lim + 1) s
      updArr n a (fun x => { x with calStale := true }) s)

/-- The oldest ended slot of an array that can become a take: takes come in sequence, so a slot cut short waits for one in progress that began before
it (R141). -/
def takeReady (x : Arr) : Option Done :=
  match x.done with
  | [] => none
  | d :: _ => if x.slots.any fun y => y.ord < d.ord then none else some d

/-- The tick at which the next take is formed (R149): 369 ticks after its aperture; a slot cut short or never converted has no stage to wait for
(log 154). -/
def takeTick (s : Dev) (n : Ch) (a : ArrId) : Option Nat :=
  (takeReady (arrOf s n a)).map fun d => if d.aborted then s.now else (d.stop + 255) / 256 + 369

/-- The oldest ended slot becomes a take (R149). -/
def formTake (n : Ch) (a : ArrId) (s : Dev) : Dev :=
  match takeReady (arrOf s n a) with
  | none => s
  | some d => cmpWatch (takeFormation n a d ((arrOf s n a).done.drop 1) s)

/-! ### Power-up calibration -/

/-- The trims of the power-up calibration for a slice (R126); one outside the limits of Table 4.8 removes it. -/
def powerupSlice (n : Ch) (a : ArrId) (i : Fin 7) (l : List SliceTrim) (s : Dev) : Dev :=
  let r := l.find? fun t => t.local_ == n.loc && t.arr == a && t.slice == i
  let o := match r with | some t => t.offset | none => 0
  let g := match r with | some t => t.gain | none => 0
  let pos := posOf (dieRecs s n) (s.now * 256)
  if offsetWithin o && gainWithin g then
    updSlice n a i (fun z => { z with
      st := if i.val = 6 then .spareIdle else .active, offset := o, gain := g, calPos := pos, calTick := s.now }) s
  else
    let s := updSlice n a i (fun z => { z with st := .retired }) s
    chFault n 6 (chEvent n 0x0A (arrArg a i.val) (bump oRetirements [n, a.idx] s))

/-- Roles 0 to 5 after the power-up calibration (Table 4.7): slice 6 fills the first role that is left, others are lost. -/
def powerupRoles (n : Ch) (a : ArrId) (s : Dev) : Dev :=
  let x := arrOf s n a
  let ok (i : Fin 7) : Bool := x.slices[i].st != .retired
  let roles := (List.range 6).map fun i => if h : i < 7 then (if ok ⟨i, h⟩ then some (⟨i, h⟩ : Fin 7) else none) else none
  let s := updArr n a (fun x => { x with
    roles := roles, spare := if ok 6 then some 6 else none, ready := true, nextRole := 0, rotTick := s.now }) s
  idleRoles n a s

/-- The array of a die takes its power-up results: READY sets (R126), and an enable that waits takes effect (Table 4.6). -/
def powerupArray (n : Ch) (a : ArrId) (l : List SliceTrim) (s : Dev) : Dev :=
  let s := (List.finRange 7).foldl (fun s i => powerupSlice n a i l s) s
  let s := powerupRoles n a s
  match (arrOf s n a).enableWait with
  | some p => arrStart n a p 0 s
  | none => s

/-- The result of one mode of a source self-calibration (R281): trims within the limits are taken; others keep the previous trims and set
SELFCAL_FAIL of the mode. -/
def selfcalResult (n : Ch) (current : Bool) (offset gain : Int) (s : Dev) : Dev :=
  let bit := if current then 2 else 1
  let st := rd s oSelfcalStatus [n]
  if offsetWithin offset && gainWithin gain then
    let s := wr s oSelfcalStatus (clearBit st bit) [n]
    if current then wr (wr s oTrimIOffset (ofSigned 40 offset) [n]) oTrimIGain (ofSigned 40 gain) [n]
    else wr (wr s oTrimVOffset (ofSigned 40 offset) [n]) oTrimVGain (ofSigned 40 gain) [n]
  else wr s oSelfcalStatus (setBit st bit) [n]

/-- A self-calibration of a channel has completed at the present tick (Table 9.8). -/
def selfcalDone (n : Ch) (s : Dev) : Dev := wr s oSelfcalPos (posOf (dieRecs s n) (s.now * 256)) [n]

/-- The power-up self-calibration (R281) of a channel, mode by mode, in the manner of every other run. -/
def powerupSource (n : Ch) (l : List SourceTrim) (s : Dev) : Dev :=
  match l.filter fun t => t.local_ == n.loc with
  | [] => s
  | ts => selfcalDone n (ts.foldl (fun s t => selfcalResult n t.current t.offset t.gain s) s)

/-- The requester of the single grant under which DS2 holds the multiplexer for the power-up calibration (R126; log 30). -/
def powerupId (k : Die) : Nat := reqId 5 (8 * k.val)

/-- REF_SETTLED_SET (R116). -/
def execRefSettledSet (n : Ch) (a : ArrId) (s : State) : Host.Outcome State Fault Refusal := onDev s fun s =>
  .next (
    match (arrOf s n a).refSettleAt with
    | some t => updArr n a (fun x => { x with refSettled := true, refSettleAt := none }) (advance t s)
    | none => s)

/-! ### Urgent conversions -/

/-- The URGENT_SRC bit of a source (Table 4.11). -/
def urgentBit : UrgentSrc → Nat
  | .ge => 0 | .le => 1 | .object => 2

/-- An urgent request on its way to the array (R139). -/
def urgentRaise (n : Ch) (a : ArrId) (src : UrgentSrc) (s : Dev) : Dev :=
  updArr n a (fun x => { x with urgentReqs := x.urgentReqs ++ [src] }) s

/-- The slot in progress that started earliest; one that its slice did not begin is not converted (R124). -/
def earliestSlot (x : Arr) : Option Slot := (x.slots.filter fun y => !y.idle).foldl (fun m y => match m with
  | none => some y
  | some z => if y.start < z.start then some y else some z) none

/-- The conversion begins (Table 4.9): the chosen slice aborts at the next clock edge, its dead time passes, its aperture runs; a slot whose end lies
before that edge is chosen and aborted all the same (DESIGN CHOICE, log 158). Where no slot is in
progress and the role whose next slot starts first has no slice, no slice is named and the request is dropped and counted (log 130). -/
def urgentBegin (n : Ch) (a : ArrId) (s : Dev) : Dev :=
  let x := arrOf s n a
  let edge := clockEdge s.now
  let u := usTicks (rd s oUrgentAp [n, a.idx])
  match earliestSlot x with
  | some y =>
    let back := (donorOf { x with slots := x.slots.filter fun z => z.k < y.k } y.k).map Slot.slice
    let s := updArr n a (fun x => { x with
      slots := (x.slots.filter fun z => z.ord != y.ord).map fun z =>
        if z.donor = some y.slice && edge * 256 < z.conv + 492 * 256 then { z with donor := back } else z
      done := doneInsert (abortedDone n a y (edge * 256)) x.done
      urgent := some ⟨y.slice, (edge + 492) * 256, (edge + 492 + u) * 256⟩ }) s
    updSlice n a y.slice (fun z => { z with freeAt := edge }) s
  | none =>
    match x.roles.getD (x.nextK % (max 1 x.roles.length)) none with
    | some i => updArr n a (fun x => { x with urgent := some ⟨i, (edge + 492) * 256, (edge + 492 + u) * 256⟩ }) s
    | none => bump oUrgentDropped [n, a.idx] s

/-- URGENT_REQUEST_ARRIVAL (R139 to R142): the oldest request reaches the array and is dropped, merged or served. -/
def execUrgentRequestArrival (n : Ch) (a : ArrId) (s : State) : Host.Outcome State Fault Refusal := onDev s fun s =>
  .next (
    let x := arrOf s n a
    match x.urgentReqs with
    | [] => s
    | src :: t =>
      let s := updArr n a (fun x => { x with urgentReqs := t }) s
      if x.st = .off || x.st = .fault || !bitOf (rd s oUrgentSrc [n, a.idx]) (urgentBit src) then bump oUrgentDropped [n, a.idx] s
      else if x.urgent.isSome then bump oUrgentMerged [n, a.idx] s
      else urgentBegin n a s)

/-- The configuration at an urgent aperture's start, with the supply reference where REF_SEL selected it at any point of the window (R115, R152). -/
def windowCfg (x : Arr) (cfg : ArrCfg) (u : Urgent) : ArrCfg :=
  if x.cfgLog.any fun e => decide (u.start / 256 < e.1) && decide (e.1 < u.stop / 256) && e.2.ref == 2 then { cfg with ref := 2 } else cfg

/-- URGENT_APERTURE_END (R141, R154): the urgent take is formed with the configuration in force at its start and goes to URGENT_TAKE and
the urgent stream. -/
def urgentEnd (n : Ch) (a : ArrId) (u : Urgent) (c : Conv) (s : Dev) : Dev :=
  let stop := u.stop / 256
  let s := advance stop s
  let x := arrOf s n a
  let cfg := cfgAt s n a (u.start / 256)
  let z := x.slices[u.slice]
  let raw := match c.ovr with
    | some (p, _) => ovrValue p
    | none => round40 (trimQ (rawValue u.start u.stop c.ys) (z.offset, z.gain))
  let s := advance (stop + 369) s
  let q := if c.ovr.isNone then corrected s n a cfg raw else (raw, false, true)
  let s := bump oUrgentCount [n, a.idx] s
  let crr := (s.ch n).seq.crr
  let d : Done := ⟨0, u.start, u.stop, raw, false, c.ovr.map Prod.fst, c.ovr.map Prod.snd, z.fresh, windowCfg x cfg u, crr⟩
  let settling := x.settles.any fun e => e.1 ≤ u.start / 256 && u.start / 256 < e.2
  let rec_ := c.ovr.isNone && rd s oSched [n, a.idx] = 1 && afterOverrange x u.start
  let w := takeWord q.1 (takeTagByte s n d settling rec_ q.2.2) (rd s oUrgentCount [n, a.idx])
  let pos := posOf (dieRecs s n) u.start
  let s := if q.2.1 && !q.2.2 then bump oUncorrected [n] s else s
  let s := if c.ovr.isSome then bump oOvrCount [n, a.idx] s else s
  let s := wr (wr s oUrgentTake w.toNat [n, a.idx]) oUrgentPos pos [n, a.idx]
  let s := updSlice n a u.slice (fun z => { z with freeAt := stop, urgentFree := stop + 492, fresh := false }) s
  let s := updArr n a (fun x => { x with
    urgent := none
    ovrE := laterE s n x (c.ovr.map Prod.snd)
    recover := if c.ovr.isSome then 2 else x.recover }) s
  streamWrite n (3 + a.idx) [w] pos s

/-- The tick at which the urgent take is formed. -/
def urgentTick (s : Dev) (n : Ch) (a : ArrId) : Option Nat := (arrOf s n a).urgent.map fun u => u.stop / 256 + 369

/-- The urgent conversion in progress becomes a take. -/
def formUrgent (n : Ch) (a : ArrId) (c : Conv) (s : Dev) : Dev :=
  match (arrOf s n a).urgent with
  | some u => urgentEnd n a u c s
  | none => s

/-! ### The tap converter -/

/-- A tap sample handed over to the LE (R180): at most the 256 of the longest period are kept. -/
def tapPush (a : ArrId) (v : Option Int × Bool) (l : Loop) : Loop :=
  match a with
  | .vm => { l with tapV := (v :: l.tapV).take 256 }
  | .im => { l with tapI := (v :: l.tapI).take 256 }

/-- TAP_SAMPLE (R145): the next multiple of 160 ticks; the sample is flagged TAP_SETTLING until READY and after a RANGE change. -/
def execTapSample (n : Ch) (a : ArrId) (v : Option (BitVec 40)) (overload : Bool) (s : State) : Host.Outcome State Fault Refusal := onDev s fun s =>
  .next (
    let x := arrOf s n a
    let t := max (x.tap.tick + 160) ((s.now + 159) / 160 * 160)
    let s := advance t s
    let lo := t - 176
    let hi := t - 16
    let settling := !x.ready || x.tap.settles.any fun e => lo < e.2 && e.1 < hi
    let s := updCh n (fun c => { c with loop := tapPush a (v.map BitVec.toInt, settling) c.loop }) s
    let s := updArr n a (fun x => { x with
      slots := if overload then x.slots.map fun y => if y.conv ≤ lo * 256 then { y with fired := true } else y else x.slots
      tap := { x.tap with value := v.map BitVec.toInt, settling := settling, overload := overload, tick := t } }) s
    match v with
    | some w => wr s oTapNow w.toNat [n, a.idx]
    | none => s)

/-! ### Measure configuration table -/

/-- The fields of a half lie within the limits of their objects (R148). -/
def mcfgHalfOk (s : Dev) (h : Nat) : Bool :=
  getField h 49 2 ≤ 2 && getField h 47 2 ≤ 2 && getField h 45 2 ≤ 2 && getField h 41 4 ≤ 8 &&
    apertureAllowed (getField h 40 1) (getField h 0 40) (curRec s.cad.recs s.now).len

/-- A half writes a reserved bit (Table 4.14, R8). -/
def mcfgHalfReserved (h : Nat) : Bool := getField h 53 11 ≠ 0

/-- The entries of a write, 16 bytes each. -/
def mcfgEntries : List Byte → List Nat
  | l => (List.range (l.length / 16)).map fun i => ofBytes ((l.drop (16 * i)).take 16)

/-- Entries from `i` on replaced. -/
def mcfgStore (n : Ch) : Nat → List Nat → Dev → Dev
  | _, [], s => s
  | i, e :: t, s => mcfgStore n (i + 1) t (updCh n (fun c => { c with mcfg := tabPut c.mcfg mcfgDefault i e }) s)

/-- The objects of an entry half applied as a Keystone would (R148): values, then the consequences of a Course start at position `p0`
(R123, R124, Table 4.6). -/
def applyMeasure (n : Ch) (a : ArrId) (h p0 : Nat) (s : Dev) : Dev :=
  if bitOf h 52 || rd s oSched [n, a.idx] = 0 then s
  else
    let x := arrOf s n a
    let pair := srcPair s n
    let old := arrCfg s n a
    let en := bitOf h 51
    let p := [n.val, a.idx]
    let s := wr s oRefSel (getField h 49 2) p
    let s := wr s oFilter (getField h 47 2) p
    let s := wr s oRange (getField h 45 2) p
    let s := wr s oInputSel (getField h 41 4) p
    let s := wr s oArrMode (getField h 40 1) p
    let s := wr s oAperture (getField h 0 40) p
    let s := wr s oArrEnable (if en then 1 else 0) p
    let ts := settleTicks a old (arrCfg s n a) false
    let s := cfgEnters n a old s
    let s := if old.range = (arrCfg s n a).range then s else guardRangeChanged n a s
    let s := if srcPair s n = pair then s else srcRefChanged n s
    let mark := markRun n a ts
    let len := (curRec (dieRecs s n) s.now).len
    let can := servable (getField h 40 1) (getField h 0 40) len (inService x)
    let restart (s : Dev) : Dev := if can then arrRestart n a p0 ts s else arrFail n a (mark s)
    match x.st, en with
    | .off, true =>
      if !x.ready then mark (updArr n a (fun x => { x with enableWait := some p0 }) s)
      else if can then arrEnter n a .starting (restart (updArr n a (fun x => { x with enableWait := none }) s))
      else restart s
    | .off, false => mark (updArr n a (fun x => { x with enableWait := none }) s)
    | .fault, true => if can then arrEnter n a .starting (restart s) else mark s
    | .fault, false => arrEnter n a .off (mark s)
    | .draining, true => if can then arrEnter n a .starting (restart s) else restart s
    | .draining, false => mark s
    | _, true => restart s
    | _, false =>
      if !can then restart s
      else if x.slots = [] && x.done = [] then arrEnter n a .off (mark s) else arrEnter n a .draining (mark s)

/-- Counters cleared by C(n)+a+0x3:09 (Table 4.11). -/
def clearArrCounters (n : Ch) (a : ArrId) (v : Nat) (s : Dev) : Dev :=
  let p := [n.val, a.idx]
  let s := if bitOf v 0 then wr s oOvrCount 0 p else s
  let s := if bitOf v 1 then wr s oAbortCount 0 p else s
  let s := if bitOf v 2 then wr s oShortApertures 0 p else s
  let s := if bitOf v 3 then wr s oRotations 0 p else s
  if bitOf v 4 then wr (wr (wr s oUrgentCount 0 p) oUrgentMerged 0 p) oUrgentDropped 0 p else s

/-- Counters cleared by C(n)+0x50:08 (Table 5.7). -/
def clearTakeCounters (n : Ch) (v : Nat) (s : Dev) : Dev :=
  let s := if bitOf v 0 then wr s oUncorrected 0 [n] else s
  let s := if bitOf v 1 then wr s oEccCorrected 0 [n] else s
  let s := if bitOf v 2 then wr s oEccDrops 0 [n] else s
  if bitOf v 3 then updCh n (fun c => { c with queues := c.queues.map fun e => (e.1, { e.2 with overflows := 0, high := 0 }) }) s else s

end Sys2Proof.Machine
end

