-- ==== Sys2Proof/Machine/Loop.lean ====
section
/-! DEFINITION. The Loop Engine of a channel (06): periods, law, overrun, compliance, range crossover, feedback loss and the channel
safe state; and the source events the LE takes part in (03). -/

namespace Sys2Proof.Machine

/-- The Loop Engine of a channel rewritten. -/
def updLoop (n : Ch) (f : Loop → Loop) (s : Dev) : Dev := updCh n (fun c => { c with loop := f c.loop }) s

/-- The loop period P in ticks (R179). -/
def loopPeriod (s : Dev) (n : Ch) : Nat := 160 * 2 ^ rd s oLoopRate [n]

/-- The loop is closed: PRIMED, PRIMARY, LIMIT or RANGE_XOVER. -/
def loopClosed : LoopState → Bool
  | .primed | .primary | .limit | .rangeXover => true
  | .openState | .safeHold | .safeRamp => false

/-- A channel safe state runs (Table 6.5). -/
def loopSafe : LoopState → Bool
  | .safeHold | .safeRamp => true
  | _ => false

/-- The current is forced: LOOP_MODE [0] (R183). -/
def forcesCurrent (s : Dev) (n : Ch) : Bool := rd s oLoopMode [n] % 2 == 1

/-- The coefficient set that COEF_ACTIVE selects, loaded from its objects (Table 6.10). -/
def loadSet (s : Dev) (n : Ch) : CoefSet :=
  let p := [n.val, rd s oCoefActive [n]]
  { kp := rdI s oKp p, ki := rdI s oKi p, kd := rdI s oKd p, shift := rd s oPidShift p,
    kpL := rdI s oKpL p, kiL := rdI s oKiL p, kdL := rdI s oKdL p, shiftL := rd s oPidShiftL p,
    bqCount := rd s oBqCount p,
    bqs := (List.range 6).map fun j =>
      ⟨rdIJ s oBqB0 p j, rdIJ s oBqB1 p j, rdIJ s oBqB2 p j, rdIJ s oBqA1 p j, rdIJ s oBqA2 p j, rdJ s oBqShift p j⟩,
    uMax := rdI s oUMax p, uMin := rdI s oUMin p,
    slewP := ((rd s oSlewMax p * loopPeriod s n * 25 / 6144 : Nat) : Int),
    ff0 := rdI s oFf0 p, ff1 := rdI s oFf1 p, ffShift := rd s oFfShift p }

/-- Worst-case ticks of the law of a set (R191). -/
def lawNeed (bqCount : Nat) : Nat := 60 + 14 * bqCount

/-- The law's ticks under microcode of other cycle costs (R191, R210). -/
def costedNeed (costs : Option (Nat × Nat)) (bqCount : Nat) : Nat :=
  match costs with
  | some (a, b) => a + b * bqCount
  | none => lawNeed bqCount

/-- The cycle costs of the microcode that a channel's Loop Engine runs: those of the bank in force on its die, or of the other until the engine
has changed (R400). -/
def loopCosts (s : Dev) (n : Ch) : Option (Nat × Nat) :=
  let c := s.fw.rams[n.die]
  let one := bitOf (rd s oFwChBank []) n.die.val != c.changing.contains (.channel ⟨n.val % 4, Nat.mod_lt _ (by decide)⟩ .le)
  (if one then c.bank1 else c.bank0).bind Bank.costs

/-- sat40 of R186. -/
def sat40 (i : Int) : Int := satSigned 40 i

/-- sat96 of R186: ±(2⁹⁵ − 1). -/
def sat96 (i : Int) : Int := clampInt (-(2 ^ 95 - 1)) (2 ^ 95 - 1) i

/-- Loop units of a tap value in take scaling (R182): ×0.01, ×0.1 or ×1 by the array range in force, rounded. -/
def loopUnits (range : Nat) (v : Int) : Int :=
  sat40 (if range = 0 then quotNearestAway v 100 else if range = 1 then quotNearestAway v 10 else v)

/-- The mean of the samples of a period, rounded to 40 bits (R180). -/
def tapMean (l : List (Option Int × Bool)) : Int :=
  if l.length = 0 then 0 else sat40 (quotNearestAway (l.map fun e => e.1.getD 0).sum l.length)

/-- The integrator that makes a PID reproduce the output w with error e and measurement change dy (R193, R195); integ is held scaled
by 2³⁹. -/
def integFor (w : Int) (shift : Nat) (kp e kd dy : Int) : Int := sat96 (w * 2 ^ (39 - shift) - kp * e + kd * dy)

/-- Proportional, integral and derivative gain and shift of the controller in force. -/
def gains (c : CoefSet) (limit : Bool) : Int × Int × Int × Nat :=
  if limit then (c.kpL, c.kiL, c.kdL, c.shiftL) else (c.kp, c.ki, c.kd, c.shift)

/-- The control in force is LIMIT. -/
def onLimit (l : Loop) : Bool :=
  match l.st with
  | .limit => true
  | .rangeXover => match l.xover with | some x => x.back = .limit | none => false
  | _ => false

/-- A coefficient switch at the present tick (R193): the integrator is recomputed, biquad states and everything else kept, counters of
R195 reset. -/
def switchSet (n : Ch) (s : Dev) : Dev :=
  let c := loadSet s n
  updLoop n (fun l =>
    let g := gains c (onLimit l)
    { l with set := c, setNo := rd s oCoefActive [n], setWaits := false, count := 0, integ := integFor l.wPrev g.2.2.2 g.1 l.ePrev g.2.2.1 l.dyPrev }) s

/-- One biquad (R187): its output and histories. -/
def biquad (c : BqCoef) (h : BqHist) (x : Int) : Int × BqHist :=
  let y := sat40 (((c.b0 * x + c.b1 * h.x1 + c.b2 * h.x2 - c.a1 * h.y1 - c.a2 * h.y2) * 2 ^ c.shift) / 2 ^ 39)
  (y, ⟨x, h.x1, y, h.y1⟩)

/-- The first `k` biquads in order; the others are bypassed and keep their states (R187). -/
def biquads : Nat → List BqCoef → List BqHist → Int → Int × List BqHist
  | k + 1, c :: cs, h :: hs, x =>
    let r := biquad c h x
    let t := biquads k cs hs r.1
    (t.1, r.2 :: t.2)
  | _, _, hs, x => (x, hs)

/-- The setpoint of SP_ORIGIN at boundary tick b (R183). -/
def setpoint (s : Dev) (n : Ch) (b : Nat) : Int :=
  let x := (s.ch n).src
  let q := queueOutput x b
  let w := rdI s oSineOffset [n] + (if x.sine.delay.length < 87 then 0 else x.sine.delay.getLastD 0)
  match rd s oSpOrigin [n] with
  | 0 => rdI s oLoopSp [n]
  | 1 => q
  | 2 => w
  | _ => q + w

/-! ### Opening, priming, trips -/

/-- The states the LE discards (R178, R198). CONSEC_OVERRUNS and OVERRUN_LAST stay until a period completes (R194). -/
def loopClear (l : Loop) : Loop :=
  { l with
    integ := 0, bqs := List.replicate 6 ⟨0, 0, 0, 0⟩, uPrev := 0, yPrev := none, rPrev := 0, ePrev := 0, dyPrev := 0, wPrev := 0,
    law := none, handed := none, owed := false, count := 0, decided := none, released := false, frozenFound := false, window := [],
    softSent := [], softWaits := none, xover := none, coastRun := 0, sideLow := false, coasting := false, slewLimited := false,
    magLimited := false }

/-- The loop opens: the result in progress and the states are discarded (Table 6.5). Loop objects waiting for b_x take effect. -/
def loopOpen (n : Ch) (s : Dev) : Dev :=
  let s := match (s.ch n).loop.xover with
    | some x => x.writes.foldl (fun s e => putKey e.1 e.2 s) s
    | none => s
  updLoop n (fun l => { loopClear l with st := .openState, setWaits := false }) s

/-- The loop is PRIMED (Table 6.5): set in force loaded, states 0, control primary; u_prev given. Its periods are not consecutive to those of a loop
closed before (log 137). -/
def loopPrime (n : Ch) (u : Int) (s : Dev) : Dev :=
  let c := loadSet s n
  let s := updLoop n (fun l => { loopClear l with
    st := .primed, set := c, setNo := rd s oCoefActive [n], setWaits := false, uPrev := u, uOut := u, consec := 0, overrunLast := false }) s
  updSrc n (fun x => { x with loopCode := u }) s

/-- An urgent request of the LE (R139). -/
def loopUrgent (n : Ch) (a : ArrId) (s : Dev) : Dev := urgentRaise n a .le s

/-- A hard trip has acted on this tick. -/
def trippedNow (s : Dev) (n : Ch) : Bool := match (s.ch n).loopBefore with
  | some (t, _) => t == s.now
  | none => false

/-- A loss of feedback declared at the present tick (R203, Table 6.4): cause 0 OVERRUN3, 1 tap-missing, 2 tap-frozen, 3 engine. A second
loss only sets its cause bit (R205), as does one on the tick of a hard trip, which wins (R207). -/
def declareLoss (n : Ch) (cause : Nat) (held : Int) (s : Dev) : Dev :=
  let s := wr s oLoopFault (setBit (rd s oLoopFault [n]) cause) [n]
  if loopSafe (s.ch n).loop.st || trippedNow s n then s
  else
    let pos := posOf (dieRecs s n) (s.now * 256)
    let s := wr s oFaultPos pos [n]
    let s := chFault n 0 s
    let s := if cause = 1 then chEvent n 0x06 0 s else if cause = 2 then chEvent n 0x06 1 s else s
    let s := if bitOf (rd s oLeUrgent [n]) 1 then loopUrgent n .im (loopUrgent n .vm s) else s
    let target := rdI s oSafeCode [n]
    let slew := max 1 (rd s oSlewMax [n, rd s oCoefActive [n]])
    let us := ((held - target).natAbs + slew - 1) / slew
    let clocks := (usTicks us + 9) / 10
    let begin_ := s.now + usTicks (rd s oSafeHoldUs [n])
    let s := match (s.ch n).loop.xover with
      | some x => x.writes.foldl (fun s e => putKey e.1 e.2 s) s
      | none => s
    let s := updLoop n (fun l => { loopClear l with st := .safeHold, safeAt := s.now, uOut := l.uOut, setWaits := false }) s
    let s := updSrc n (fun x => { x with safe := some ⟨held, target, begin_, clocks⟩ }) s
    if bitOf (rd s oSafeSlate [n]) 0 then slateTrigger 4 n s else s

/-- The Guard Engine of a channel, which has failed, drops the verify paths it was granted or waits for (R300). -/
def guardDrops (n : Ch) (s : Dev) : Dev :=
  (List.finRange 4).foldl (fun s m =>
    let s := unitWithdraw (verifyId n m) (pathUnit n (verifyArr m)) (unitRelease (verifyId n m) (pathUnit n (verifyArr m)) s)
    let a := verifyArr m
    let s := match (monOf s n m).verifyAt, (arrOf s n a).spare with
      | some _, some i => updSlice n a i (fun z => if z.st = .verify then { z with st := .spareIdle } else z) s
      | _, _ => s
    updMon n m (fun y => { y with verifyAt := none, verifyWant := none, verifyVoid := false }) s) s

/-- An engine of the channel fails (Table 1.3): ENGINE_FAULT, CH_FAULT, event 0x09, and the channel safe state (R203). -/
def channelEngineFails (n : Ch) (e : ChEngine) (s : Dev) : Dev :=
  let old := rd s oEngineFault [n]
  let s := if old = 0 then wr s oEngineFaultPos (posOf (dieRecs s n) (s.now * 256)) [n] else s
  let s := wr s oEngineFault (setBit old e.idx) [n]
  let s := chFault n 1 s
  let s := if e = .ge then guardDrops n s else s
  let s := dieEvent n.die 0x09 (n.die.val + 1) e.idx s
  let l := (s.ch n).loop
  let held := if loopClosed l.st then l.uOut else (s.ch n).src.code
  declareLoss n 3 held s

/-- SAFE_RAMP_BEGIN (Table 6.4). -/
def execSafeRampBegin (n : Ch) (s : State) : Host.Outcome State Fault Refusal := onDev s fun s =>
  .next (
    let x := s.ch n
    match x.src.safe with
    | some y => if x.loop.st = .safeHold then updLoop n (fun l => { l with st := .safeRamp }) (advance y.begin_ s) else s
    | none => s)

/-- SAFE_RAMP_END (Table 6.4, R80): safe-state clamp, source TRIPPED with CLAMP_CAUSE 4, LE OPEN. -/
def execSafeRampEnd (n : Ch) (s : State) : Host.Outcome State Fault Refusal := onDev s fun s =>
  .next (
    let x := s.ch n
    match x.src.safe with
    | some y =>
      if x.loop.st = .safeRamp then
        let s := advance (y.begin_ + 10 * y.clocks) s
        loopOpen n (updSrc n (fun x => { x with safe := none }) (sourceTrip n 4 s))
      else s
    | none => s)

/-! ### Source events with the loop -/

/-- SOURCE_RELEASE (Table 3.5): the origin takes over; a Reel position stamps the state change (Table 5.6). -/
def execSourceRelease (n : Ch) (s : State) : Host.Outcome State Fault Refusal := onDev s fun s =>
  .next (
    let x := (s.ch n).src
    match x.st, x.enableT with
    | .enabling, some t => sourceRelease n t s
    | _, _ => s)

/-- The enable sequence starts (Table 3.4) and, in origin 4, the loop is PRIMED (Table 6.5). -/
def enableWithLoop (n : Ch) (s : Dev) : Dev :=
  let s := enableStart n s
  if rd s oSrcOrigin [n] = 4 && !loopSafe (s.ch n).loop.st then loopPrime n 0 s else s

/-- DISABLE_COMPLETE (R95, Table 3.4): RELAY_SETTLE_US after the ramp end the GND clamp closes, the queue empties, and the source is OFF
or a pending enable begins on the same tick. A safe state that stands halts it (DESIGN CHOICE, log 155); a step hold still engaged lets go with the
clamp (DESIGN CHOICE, log 157). -/
def execDisableComplete (n : Ch) (s : State) : Host.Outcome State Fault Refusal := onDev s fun s =>
  .next (
    let x := (s.ch n).src
    match x.st, x.rampDone with
    | .disabling, some t =>
      if x.safe.isSome then s
      else
        let s := advance (t + usTicks (rd s oRelaySettleUs [n])) s
        let s := srcQueueEmpty n s
        let s := updSrc n (fun x => { x with gndClamp := true, clampCause := 2, hold := none, rampFrom := none, rampDone := none, code := 0, pin := 0 }) s
        if x.enablePending then enableWithLoop n s else srcEnter n .off s
    | _, _ => s)

/-- RANGE_CHANGE_RELEASE (Table 3.6), with its channel event (Table 5.6). -/
def execRangeChangeRelease (n : Ch) (s : State) : Host.Outcome State Fault Refusal := onDev s fun s =>
  .next (
    match (s.ch n).src.range with
    | some r => let s := rangeRelease n r s; chEvent n 0x02 r.target s
    | none => s)

/-! ### A loop period boundary -/

/-- Judgement of the period that ends (R181, R194): its code enters the source path, or it has overrun. A period that has overrun has not run the
law, so the frozen window begins again (R203, log 135). -/
def judgePeriod (n : Ch) (s : Dev) : Dev :=
  let l := (s.ch n).loop
  if !l.owed then s
  else match l.handed with
    | some u =>
      let s := updSrc n (fun x => { x with loopCode := u, clampCounted := false }) s
      updLoop n (fun l => { l with uOut := u, handed := none, owed := false, consec := 0, overrunLast := false }) s
    | none =>
      if l.frozenFound then updLoop n (fun l => { l with owed := false }) s
      else
        let c := l.consec + 1
        let s := bump oOverruns [n] s
        let s := chFault n 8 (chEvent n 0x05 (min c 255) s)
        let s := updSrc n (fun x => { x with clampCounted := false }) s
        updLoop n (fun l =>
          let l := match l.law with
            | some w => match w.undo with
              | some (c, k, i) => { l with set := c, setNo := k, integ := i, setWaits := true }
              | none => l
            | none => l
          { l with law := none, owed := false, consec := min c 255, overrunLast := true, window := [] }) s

/-- The period that ends has overrun: a hand-off was owed and there is none. -/
def periodOverran (l : Loop) : Bool := l.owed && l.handed.isNone && !l.frozenFound

/-- Losses found by the period that ended: tap-frozen, or the third consecutive overrun, `over` saying that it overran (R194, R203). -/
def judgeLoss (n : Ch) (over_ : Bool) (s : Dev) : Dev :=
  let l := (s.ch n).loop
  if l.frozenFound then declareLoss n 2 l.uOut s
  else if over_ && 3 ≤ l.consec then declareLoss n 0 l.uOut s
  else s

/-- A coasting period hands off the code `u`, u_{k−1} again but in the crossover period (R184, R200), and is counted; beyond COAST_MAX the loss is
declared, whose held code is the last one handed off before this period (R203). -/
def coastPeriod (n : Ch) (u : Int) (s : Dev) : Dev :=
  let s := wr (bump oCoastPeriods [n] s) oLoopOut (ofSigned 40 u) [n]
  let s := updLoop n (fun l => { l with coasting := true, coastRun := l.coastRun + 1, handed := some u, owed := true, law := none, window := [] }) s
  let l := (s.ch n).loop
  if rd s oCoastMax [n] < l.coastRun then declareLoss n 1 l.uOut s else s

/-- A value times ρ = m × 2^(e − 100), rounded to nearest, ties away from zero (R200). -/
def mulRho (m : Int) (e : Nat) (v : Int) : Int := quotNearestAway (v * m * 2 ^ e) (2 ^ 100)

/-- ρ of R200 as (m, e), from the magnitudes of the two stage gains: 39 significant bits. -/
def rhoOf (old new : Nat) : Int × Nat :=
  let e0 := 100 + Nat.log2 old - Nat.log2 new - 38
  let m (e : Nat) : Int := quotNearestAway ((old * 2 ^ 100 : Nat) : Int) ((new * 2 ^ e : Nat) : Int)
  if m e0 < 2 ^ 38 then (m (e0 - 1), e0 - 1) else if 2 ^ 39 ≤ m e0 then (m (e0 + 1), e0 + 1) else (m e0, e0)

/-- A waiting write changes the coefficients in force (R193): COEF_ACTIVE, or an object of the set it selects. -/
def coefKey (s : Dev) (n : Ch) (e : Nat × Nat) : Bool :=
  e.1 == keyOf oCoefActive [n] 0 || e.1 / 256 % 65536 % 0x100 == 0x70 + rd s oCoefActive [n]

/-- The crossover period of a range change (R200): states scaled by ρ, u_x handed off, waiting loop objects in force, with the switch of R193 where
coefficients are among them. -/
def scaleLoop (n : Ch) (x : LoopXover) (s : Dev) : Dev :=
  let f := mulRho x.rhoM x.rhoE
  let s := updLoop n (fun l =>
    let u := f l.uPrev
    { l with
      uPrev := sat40 u, magLimited := sat40 u != u, integ := sat96 (f l.integ), wPrev := sat40 (f l.wPrev),
      bqs := l.bqs.map fun h => ⟨sat40 (f h.x1), sat40 (f h.x2), sat40 (f h.y1), sat40 (f h.y2)⟩,
      window := [], count := 0, decided := none,
      xover := some { x with scaled := true, writes := [] } }) s
  let s := x.writes.foldl (fun s e => putKey e.1 e.2 s) s
  if x.writes.any (coefKey s n) then switchSet n s else s

/-- A boundary while a range change runs (R200): scale at b_x, coast, or resume at the first boundary at or after the release. -/
def xoverBoundary (n : Ch) (t : Nat) (s : Dev) : Dev :=
  match (s.ch n).loop.xover with
  | none => s
  | some x =>
    if !x.scaled && x.scaleAt ≤ t then
      let s := scaleLoop n x s
      coastPeriod n (s.ch n).loop.uPrev s
    else if x.scaled && x.resumeAt ≤ t then
      updLoop n (fun l => { l with st := x.back, xover := none, window := [], count := 0 }) s
    else coastPeriod n (s.ch n).loop.uOut s

/-- Entry to LIMIT or return to PRIMARY (R195): bumpless load, y_prev, counters and window reset, XOVERS, urgent request. -/
def crossOver (n : Ch) (target : Option Bool) (y : Int) (s : Dev) : Dev :=
  let cur := forcesCurrent s n
  let limit := target.isSome
  let s := bump oXovers [n] s
  let s := updLoop n (fun l =>
    let g := gains l.set limit
    { l with
      st := if limit then .limit else .primary, sideLow := target.getD false,
      integ := integFor l.uPrev g.2.2.2 0 0 0 0, yPrev := some y, ePrev := 0, dyPrev := 0, wPrev := l.uPrev,
      count := 0, window := [], decided := none, released := false }) s
  -- the quantity that becomes controlled: the limited one on entry to LIMIT, the primary one on return
  let toIm := if limit then !cur else cur
  if bitOf (rd s oLeUrgent [n]) 0 then loopUrgent n (if toIm then .im else .vm) s else s

/-- Transitions that take effect at a boundary: a soft trip forces LIMIT (R196) and voids a return decided in the same period
(Table 6.8); else the decision of the last period. -/
def takeTransitions (n : Ch) (yLimited : Int) (s : Dev) : Dev :=
  let l := (s.ch n).loop
  match l.softWaits, l.st with
  | some low, .primary => crossOver n (some low) yLimited (updLoop n (fun l => { l with softWaits := none }) s)
  | some _, .limit => updLoop n (fun l => { l with softWaits := none, decided := none, count := 0 }) s
  | _, _ => match l.decided with
    | some t => crossOver n t l.decidedY s
    | none => s

/-- The samples of an array handed over in the period that ends, newest first. -/
def periodTaps (s : Dev) (n : Ch) (l : List (Option Int × Bool)) : List (Option Int × Bool) := l.take (2 ^ rd s oLoopRate [n])

/-- A tap sample of either array is absent at its tick (R203). -/
def tapsMissing (s : Dev) (n : Ch) : Bool :=
  let l := (s.ch n).loop
  let bad (x : List (Option Int × Bool)) : Bool := x.length < 2 ^ rd s oLoopRate [n] || x.any fun e => e.1.isNone
  bad (periodTaps s n l.tapV) || bad (periodTaps s n l.tapI)

/-- The law of the period starts (R180): its samples, setpoint and limits are taken in, unless it coasts. `undo` is what a coefficient switch at
this boundary replaced. -/
def startPeriod (n : Ch) (t : Nat) (undo : Option (CoefSet × Nat × Int)) (s : Dev) : Dev :=
  let l := (s.ch n).loop
  let tv := periodTaps s n l.tapV
  let ti := periodTaps s n l.tapI
  let cur := forcesCurrent s n
  let fed := if cur then ti else tv
  let yv := loopUnits (rd s oRange [n, 0]) (tapMean tv)
  let yi := loopUnits (rd s oRange [n, 1]) (tapMean ti)
  if fed.any fun e => e.2 then coastPeriod n l.uOut s
  else
    let s := takeTransitions n (if cur then yv else yi) s
    let w : Law := ⟨t, yv, yi, match fed with | e :: _ => e.1.getD 0 | [] => 0, setpoint s n t,
      rdI s oLimHi [n], rdI s oLimLo [n], if undo.isSome then 12 else 0, undo, loopCosts s n⟩
    updLoop n (fun l => { l with law := some w, owed := true, handed := none, coasting := false, coastRun := 0 }) s

/-- What a boundary does for a closed loop, after the period that ended is judged: a missing sample is a loss (R203); a coefficient switch that
waits takes effect, whatever the period does (R193). -/
def boundaryWork (n : Ch) (t : Nat) (s : Dev) : Dev :=
  let l := (s.ch n).loop
  if tapsMissing s n then declareLoss n 1 l.uOut s
  else
    let undo := if l.setWaits then some (l.set, l.setNo, l.integ) else none
    let s := if l.setWaits then switchSet n s else s
    match l.st with
    | .primed =>
      if (s.ch n).src.st = .running then startPeriod n t undo (updLoop n (fun l => { l with st := .primary }) s) else s
    | .rangeXover =>
      let s := xoverBoundary n t s
      let y := (s.ch n).loop
      if y.st = .primary || y.st = .limit then startPeriod n t undo s else s
    | .primary | .limit => startPeriod n t undo s
    | _ => s

/-- The tick of the next loop period boundary (R179), a multiple of P ticks from the epoch. -/
def boundaryTick (s : Dev) (n : Ch) : Nat :=
  let p := loopPeriod s n
  max ((s.ch n).loop.boundary / p * p + p) ((s.now + p - 1) / p * p)

/-- The work of the boundary at tick `t`, reached, for a Loop Engine that is closed (R181, R194). -/
def closedBoundary (n : Ch) (t : Nat) (s : Dev) : Dev :=
  let over_ := periodOverran (s.ch n).loop
  let s := judgeLoss n over_ (judgePeriod n s)
  let s := if loopClosed (s.ch n).loop.st then boundaryWork n t s else s
  updLoop n (fun l => { l with tapV := [], tapI := [] }) s

/-- The causes that the boundary would have declared had no hard trip opened the Loop Engine on its tick (R207): their bits are set. -/
def lostAnyway (n : Ch) (t : Nat) (l : Loop) (s : Dev) : Dev :=
  let d := closedBoundary n t (updCh n (fun c => { c with
    loop := { l with boundary := t, tapV := c.loop.tapV, tapI := c.loop.tapI }, loopBefore := none }) s)
  wr s oLoopFault (rd d oLoopFault [n]) [n]

/-- The Loop Engine of a channel changes to the microcode bank in force, if it has yet to (R210, R400). -/
def loopBank (n : Ch) (s : Dev) : Dev :=
  let e : BankEngine := .channel ⟨n.val % 4, Nat.mod_lt _ (by decide)⟩ .le
  { s with fw := { s.fw with rams := s.fw.rams.set n.die (
    let c := s.fw.rams[n.die]
    { c with changing := c.changing.filter fun x => x != e }) } }

/-- The next loop period boundary (R179, R180), where a bank change reaches the Loop Engine (R210). -/
def loopBoundary (n : Ch) (s : Dev) : Dev :=
  let t := boundaryTick s n
  let s := updLoop n (fun l => { l with boundary := t }) (loopBank n (advance t s))
  if loopClosed (s.ch n).loop.st then closedBoundary n t s
  else match (s.ch n).loopBefore with
    | some (u, l) => if u = s.now && loopClosed l.st then lostAnyway n t l s else s
    | none => s

/-! ### The law -/

/-- The compliance step (Table 6.3): the side or return whose condition holds in this period, if any. -/
def complianceNow (l : Loop) (w : Law) (cur autoReturn : Bool) : Option (Option Bool) :=
  let prim := if cur then w.yi else w.yv
  let limited := if cur then w.yv else w.yi
  match l.st with
  | .primary => if w.limHi < limited then some (some false) else if limited < w.limLo then some (some true) else none
  | .limit =>
    let free := autoReturn || l.released
    if l.sideLow then (if prim ≤ w.r && free then some none else none)
    else (if w.r ≤ prim && free then some none else none)
  | _ => none

/-- The counter of R195 after a period. -/
def complianceStep (l : Loop) (w : Law) (cur autoReturn : Bool) (need : Nat) : Loop :=
  match complianceNow l w cur autoReturn with
  | none => { l with count := 0 }
  | some t =>
    let low := t.getD false
    let c := if l.count ≠ 0 && l.countLow = low then l.count + 1 else 1
    let other := match t with
      | some _ => if cur then w.yv else w.yi
      | none => if cur then w.yi else w.yv
    if need ≤ c then { l with count := c, countLow := low, decided := some t, decidedY := other }
    else { l with count := c, countLow := low }

/-- The largest of a nonempty list. -/
def maxInt : List Int → Int
  | [] => 0
  | a :: t => t.foldl max a

/-- The smallest of a nonempty list. -/
def minInt : List Int → Int
  | [] => 0
  | a :: t => t.foldl min a

/-- The tap-frozen test of R203 over the window, newest first. -/
def frozenTest (periods move : Nat) (win : List (Int × Int)) : Bool :=
  let w := win.take periods
  let oldest := (w.getLastD (0, 0)).1
  w.length == periods && (w.all fun e => (e.1 - oldest).natAbs ≤ 2 * 2 ^ 16) &&
    (move : Int) < maxInt (w.map Prod.snd) - minInt (w.map Prod.snd)

/-- The law of one period as R186 writes it, committed at its hand-off: the code handed off and the new states. -/
def runLaw (l : Loop) (w : Law) (cur : Bool) : Loop × Int × Int :=
  let limit := onLimit l
  let prim := if cur then w.yi else w.yv
  let limited := if cur then w.yv else w.yi
  let y := if limit then limited else prim
  let r := if limit then (if l.sideLow then w.limLo else w.limHi) else w.r
  let g := gains l.set limit
  let yPrev := l.yPrev.getD y
  let e := sat40 (r - y)
  let dy := y - yPrev
  let integ := sat96 (l.integ + g.2.1 * e)
  let w0 := sat40 (quotNearestAway ((g.1 * e - g.2.2.1 * dy + integ) * 2 ^ g.2.2.2) (2 ^ 39))
  let bq := biquads l.set.bqCount l.set.bqs l.bqs w0
  let u1 := clampInt (l.uPrev - l.set.slewP) (l.uPrev + l.set.slewP) bq.1
  let u2 := clampInt l.set.uMin l.set.uMax u1
  let integ2 := if u2 = bq.1 then integ else sat96 (integ - (bq.1 - u2) * 2 ^ (39 - g.2.2.2))
  let rp := match l.yPrev with | some _ => l.rPrev | none => r
  let u3 := if limit then u2
    else sat40 (u2 + ((l.set.ff0 * r + l.set.ff1 * (r - rp)) * 2 ^ l.set.ffShift) / 2 ^ 39)
  ({ l with
      integ := integ2, bqs := bq.2, uPrev := u2, yPrev := some y, rPrev := r, ePrev := e, dyPrev := dy,
      wPrev := sat40 (quotNearestAway ((g.1 * e - g.2.2.1 * dy + integ2) * 2 ^ g.2.2.2) (2 ^ 39)),
      slewLimited := u1 != bq.1, magLimited := u2 != u1 }, u3, e)

/-- LAW_HANDOFF (R181, R186, R191): the law completes after its ticks, ECC re-reads included; beyond the period it is an overrun, judged
at the boundary. -/
def lawHandoff (n : Ch) (ecc : Nat) (w : Law) (s : Dev) : Dev :=
  let p := loopPeriod s n
  let l := (s.ch n).loop
  let cost := costedNeed w.costs l.set.bqCount + w.extra + 6 * ecc
  let s := bumpBy oEccRetries ecc [n] s
  let s := wr s oWorstTicks (min 65535 (max (rd s oWorstTicks [n]) cost)) [n]
  if p < cost then s
  else
    let s := advance (w.b + cost) s
    let cur := forcesCurrent s n
    let q := runLaw l w cur
    let m := complianceStep { q.1 with decided := none } w cur (bitOf (rd s oLoopMode [n]) 1) (rd s oXoverCount [n])
    let periods := rd s oFrozenPeriods [n]
    let win := ((w.last, q.1.uPrev) :: l.window).take periods
    if frozenTest periods (rd s oFrozenMove [n]) win then
      updLoop n (fun l => { l with law := none, frozenFound := true }) s
    else
      let s := wr s oLoopErr (ofSigned 40 q.2.2) [n]
      let s := wr s oLoopOut (ofSigned 40 q.2.1) [n]
      updLoop n (fun _ => { m with law := none, handed := some q.2.1, window := win }) s

/-- LAW_HANDOFF. -/
def execLawHandoff (n : Ch) (eccCorrections : Nat) (s : State) : Host.Outcome State Fault Refusal := onDev s fun s =>
  .next (match (s.ch n).loop.law with
    | some w => lawHandoff n eccCorrections w s
    | none => s)

/-- SOFT_TRIP_AT_LE (R196): the request of the limited quantity's monitor reaches the LE; in LIMIT it resets the return count; while the
range crossover runs it waits for the resumed law. -/
def execSoftTripAtLe (n : Ch) (m : Mon) (s : State) : Host.Outcome State Fault Refusal := onDev s fun s =>
  .next (
    let l := (s.ch n).loop
    match l.softSent.find? fun e => e.1 == m with
    | none => s
    | some (_, side) =>
      let s := updLoop n (fun l => { l with softSent := l.softSent.erase (m, side) }) s
      let limited : Mon := if forcesCurrent s n then 0 else 1
      match side with
      | some low =>
        if m = limited && loopClosed l.st then updLoop n (fun l => { l with softWaits := some low, count := if l.st = .limit then 0 else l.count }) s
        else s
      | none => s)

/-- A change of RANGE_ACTIVE at the present tick with the loop PRIMARY or LIMIT (R200): coasting begins, in a period whose law still runs too.
`writes` are the loop objects of the same Keystone. -/
def loopRangeStart (n : Ch) (old new : Nat) (writes : List (Nat × Nat)) (s : Dev) : Dev :=
  let l := (s.ch n).loop
  let go := (rdI s oStageGain [n, old]).natAbs
  let gn := (rdI s oStageGain [n, new]).natAbs
  let q := rhoOf go gn
  let s := updLoop n (fun l => { l with
    st := .rangeXover, count := 0, decided := none
    xover := some ⟨s.now + usTicks (rd s oOverlapUs [n, new]), s.now + usTicks (rd s oHoldUs [n, new]), q.1, q.2, false, l.st, writes⟩ }) s
  if l.law.isSome then coastPeriod n l.uOut s else s

/-- Counters cleared by C(n)+0x61:0D (Table 6.7). -/
def clearLoopCounters (n : Ch) (v : Nat) (s : Dev) : Dev :=
  let s := if bitOf v 0 then wr s oOverruns 0 [n] else s
  let s := if bitOf v 1 then wr s oWorstTicks 0 [n] else s
  let s := if bitOf v 2 then wr s oXovers 0 [n] else s
  let s := if bitOf v 3 then wr s oCoastPeriods 0 [n] else s
  if bitOf v 4 then wr s oEccRetries 0 [n] else s

end Sys2Proof.Machine
end

