-- ==== Sys2Proof/Machine/Seq.lean ====
section
/-! DEFINITION. The Sequencer of a channel (07): Courses, waits, decision points, banks, Cuts, patches, holds, groups, vector lanes and
markers. -/

namespace Sys2Proof.Machine

/-- The Sequencer of a channel rewritten. -/
def updSeq (n : Ch) (f : Seq → Seq) (s : Dev) : Dev := updCh n (fun c => { c with seq := f c.seq }) s

/-- The tick on which a slot acts on the channel's die, R49, from the newest record where its own has not arrived. -/
def slotTick (s : Dev) (n : Ch) (j : Nat) : Nat := (actStamp s.dies[n.die] (stampNear (dieRecs s n) (slotPos s n j)) + 255) / 256

/-- The position of the present tick on the channel's die. -/
def chPos (s : Dev) (n : Ch) : Nat := posOf (dieRecs s n) (s.now * 256)

/-! ### Courses (Table 7.1) and banks -/

/-- The entries of a bank. -/
def bankTable (q : Seq) (b : Nat) : List (Nat × Nat) := if b = 0 then q.bankA else q.bankB

/-- The state of a bank. -/
def bankState (q : Seq) (b : Nat) : BankState := if b = 0 then q.stateA else q.stateB

/-- A Course entry as a 256-bit number (R214). -/
def courseOf (q : Seq) (b e : Nat) : Nat := tabGet (bankTable q b) 0 e

/-- A bank's state rewritten. -/
def setBankState (b : Nat) (v : BankState) (q : Seq) : Seq := if b = 0 then { q with stateA := v } else { q with stateB := v }

/-- A Course entry rewritten. -/
def setCourse (b e v : Nat) (q : Seq) : Seq :=
  if b = 0 then { q with bankA := tabPut q.bankA 0 e v } else { q with bankB := tabPut q.bankB 0 e v }

/-- FUNC. -/
def coFunc (c : Nat) : Nat := getField c 253 3
/-- CCUT. -/
def coCcut (c : Nat) : Bool := bitOf c 252
/-- V0. -/
def coV0 (c : Nat) : Int := toSigned 40 (getField c 212 40)
/-- V1. -/
def coV1 (c : Nat) : Int := toSigned 40 (getField c 172 40)
/-- SEGLEN, slots minus 1. -/
def coSegLen (c : Nat) : Nat := getField c 148 24
/-- REPEAT. -/
def coRepeat (c : Nat) : Nat := getField c 124 24
/-- MCFG. -/
def coMcfg (c : Nat) : Nat := getField c 116 8
/-- DUNIT. -/
def coDunit (c : Nat) : Bool := bitOf c 115
/-- DELAY. -/
def coDelay (c : Nat) : Nat := getField c 84 31
/-- WAIT. -/
def coWait (c : Nat) : Nat := getField c 81 3
/-- WAIT_ARG. -/
def coArg (c : Nat) : Nat := getField c 49 32
/-- CUT_TARGET. -/
def coTarget (c : Nat) : Nat := getField c 36 13
/-- MARK_A (0) or MARK_B (1). -/
def coMark (c m : Nat) : Nat := getField c (32 + 2 * m) 2
/-- VDRIVE. -/
def coDrive (c : Nat) : Nat := getField c 16 16
/-- VCMP. -/
def coCompare (c : Nat) : Nat := getField c 0 16

/-- An entry with a reserved FUNC, WAIT or compare code (R214). -/
def courseReserved (c : Nat) : Bool :=
  5 ≤ coFunc c || 6 ≤ coWait c || (List.range 8).any fun i => getField (coCompare c) (2 * i) 2 == 3

/-- The code of sample i of segment g (Table 7.2); interpolation rounds to nearest, ties away from zero (R215). -/
def courseCode (c : Nat) (last : Int) (g i : Nat) : Int :=
  match coFunc c with
  | 0 => last
  | 1 => coV0 c
  | 2 => if coSegLen c = 0 then coV0 c else quotNearestAway (coV0 c * coSegLen c + (coV1 c - coV0 c) * i) (coSegLen c)
  | 3 => if i < (coSegLen c + 2) / 2 then coV0 c else coV1 c
  | _ => if g % 2 = 0 then coV0 c else coV1 c

/-- The registers of a Course result cleared, both arrays (R159, R160). -/
def clearCrr (n : Ch) (reg : Nat) (s : Dev) : Dev :=
  updCh n (fun c => { c with
    crrs := tabDrop (tabDrop c.crrs (2 * reg)) (2 * reg + 1), crrOld := c.crrOld.filter fun e => e.1 / 2 != reg }) s

/-- Every Course result register of a bank cleared (R160). -/
def clearBankCrrs (n : Ch) (b : Nat) (s : Dev) : Dev :=
  updCh n (fun c => { c with
    crrs := c.crrs.filter fun e => e.1 / 16384 != b, crrOld := c.crrOld.filter fun e => e.1 / 16384 != b }) s

/-! ### Markers -/

/-- A marker of a channel. -/
def markOf (q : Seq) (m : Nat) : Marker := if m = 0 then q.markA else q.markB

/-- A marker rewritten. -/
def updMark (n : Ch) (m : Nat) (f : Marker → Marker) (s : Dev) : Dev :=
  updSeq n (fun q => if m = 0 then { q with markA := f q.markA } else { q with markB := f q.markB }) s

/-- The level of a marker's nominal output or ball. -/
def markHigh (x : MarkLevel) : Bool := x.hold || x.pulse.isSome

/-- A marker edge asked for at a slot, nominal and at the ball. -/
def markAt (n : Ch) (m slot : Nat) (k : MarkKind) (s : Dev) : Dev :=
  updMark n m (fun x => { x with items := x.items ++ [⟨slot, false, k⟩, ⟨slot, true, k⟩] }) s

/-- The edges of Table 7.5 at a Course's first sample in `slot`, after the codes `old` of the Course that ended at that slot. -/
def markStart (n : Ch) (slot : Nat) (old : Nat → Nat) (c : Nat) (s : Dev) : Dev :=
  [0, 1].foldl (fun s m =>
    let x := coMark c m
    let s := if x = 1 && old m ≠ 1 then markAt n m slot .up s
      else if x ≠ 1 && old m = 1 then markAt n m slot .down s else s
    if 2 ≤ x then markAt n m slot .pulse s else s) s

/-- The falling edges of a Course that ended with no Course following at once. -/
def markEnd (n : Ch) (slot : Nat) (c : Nat) (s : Dev) : Dev :=
  [0, 1].foldl (fun s m => if coMark c m = 1 then markAt n m slot .down s else s) s

/-- The pulses of code 0b11 at a later segment's first sample. -/
def markSegment (n : Ch) (slot : Nat) (c : Nat) (s : Dev) : Dev :=
  [0, 1].foldl (fun s m => if coMark c m = 3 then markAt n m slot .pulse s else s) s

/-- Markers low at once (Table 7.12); edges to come are dropped. -/
def markersLow (n : Ch) (s : Dev) : Dev :=
  updSeq n (fun q => { q with
    markA := ⟨⟨false, none⟩, ⟨false, none⟩, []⟩, markB := ⟨⟨false, none⟩, ⟨false, none⟩, []⟩ }) s

/-! ### Samples, waits, Course starts -/

/-- The code of slot j written into the source queue under R213, or discarded. -/
def supply (n : Ch) (j : Nat) (code : Int) (s : Dev) : Dev :=
  let x := (s.ch n).src
  let live := match x.st, x.enableT with
    | .running, _ => true
    | .enabling, some t => t + usTicks (enableUs s n + rd s oRelaySettleUs [n]) ≤ slotTick s n j
    | _, _ => false
  let s := updSeq n (fun q => { q with last := code }) s
  if rd s oSrcQOwner [n] = 2 && live && queueFeeds s n then srcQueueAppend n (some j) [code] s else s

/-- A hold cause stands (R241). -/
def holdCause (q : Seq) : Bool := q.holdHost || q.holdLink || q.holdSupply

/-- A group message of a channel on its way to the Control die (R232). -/
def groupSend (n : Ch) (g : Nat) (arrive : Bool) (s : Dev) : Dev :=
  { s with groups := { s.groups with msgs := s.groups.msgs ++ [(n, g, arrive)] } }

/-- The wait in progress ends; a group arrival with no release position yet is withdrawn (R232). -/
def endWait (n : Ch) (s : Dev) : Dev :=
  let q := (s.ch n).seq
  let c := courseOf q q.bank q.idx
  let s := match q.wait with
    | some w => if coWait c = 4 && w.release.isNone then groupSend n (coArg c % 8) false s else s
    | none => s
  updSeq n (fun q => { q with wait := none }) s

/-- A condition of Table 7.3 on a decided monitor state. -/
def condMet (cond : Nat) (d : Decided) : Bool :=
  match d with
  | .undecided => false
  | .inside => cond == 3
  | .above => cond == 0 || cond == 1
  | .below => cond == 0 || cond == 2

/-- The decided state of a monitor of a channel (R248), numbered as Table 7.3 numbers it. -/
def decidedOf (s : Dev) (n : Ch) (m : Nat) : Decided := ((s.ch n).mons.toList.getD m monOff).decided

/-- The release of a wait that is known as it begins (Table 7.3). -/
def waitRelease (s : Dev) (n : Ch) (c j : Nat) : Option Release :=
  let a := coArg c
  match coWait c with
  | 0 => some (.pos (slotPos s n j))
  | 2 =>
    let here := chPos s n
    let q := here / 2 ^ 48 * 2 ^ 48 + a * 2 ^ 16
    some (.pos (if posReached q here then q else (q + 2 ^ 48) % posMod))
  | 3 => if condMet (getField a 2 2) (decidedOf s n (a % 4)) then some (.tick s.now) else none
  | 5 => match s.dies[n.die].sync with
    | some t => if (bitOf a 16 || t.1 = a % 65536) && s.now ≤ tickNear (dieRecs s n) t.2 then some (.pos t.2) else none
    | none => none
  | _ => none

/-- The wait of an entry begins at D(j) (R216). -/
def beginWait (n : Ch) (e j : Nat) (s : Dev) : Dev :=
  let s := endWait n s
  let q := (s.ch n).seq
  let c := courseOf q q.bank e
  let r := waitRelease s n c j
  let s := updSeq n (fun q => { q with st := .waiting, idx := e, wait := some ⟨s.now, j, r⟩ }) s
  if coWait c = 4 then groupSend n (coArg c % 8) true s else s

/-- r + delay as a tick (R217). -/
def releaseTick (s : Dev) (n : Ch) (c : Nat) (r : Release) : Nat :=
  let recs := dieRecs s n
  let t := match r with
    | .pos p => tickNear recs p
    | .tick t => t
  if coDunit c then tickNear recs ((posOf recs (t * 256) + coDelay c * 2 ^ 16) % posMod) else t + coDelay c

/-- The last sample of the landing unit: a segment, or the whole Course under CCUT (R229). -/
def lastOfUnit (c seg i : Nat) : Bool :=
  i == coSegLen c && (!(coCcut c && coRepeat c ≠ 0) || seg + 1 == coRepeat c)

/-- The sample last decided supplied to slot j, and a pending Cut armed at the last sample of its unit (R220, R229). -/
def playSample (n : Ch) (j : Nat) (s : Dev) : Dev :=
  let q := (s.ch n).seq
  let c := courseOf q q.bank q.idx
  let s := supply n j (courseCode c q.last q.seg q.i) s
  if q.cut.isSome && lastOfUnit c q.seg q.i then updSeq n (fun q => { q with landing := true }) s else s

/-- A Course starts at slot j (R217): its first sample, and what R218 does at the tick of the slot. -/
def startCourse (n : Ch) (j : Nat) (old : Nat → Nat) (s : Dev) : Dev :=
  let q := (s.ch n).seq
  let c := courseOf q q.bank q.idx
  let s := updSeq n (fun q => { q with
    st := .playing, wait := none, seg := 0, i := 0, played := c,
    starts := q.starts ++ [⟨j, q.bank, q.idx, coMcfg c⟩], marksLow := false, segs := ((j, 0) :: q.segs).take 16,
    drives := q.drives ++ [⟨j, coDrive c, coCompare c, none, false⟩] }) s
  playSample n j (markStart n j old c s)

/-- WAITING or DELAYING at D(j): the Course starts, or the slot carries the last code (R217). -/
def tryStart (n : Ch) (j : Nat) (old : Nat → Nat) (s : Dev) : Dev :=
  let q := (s.ch n).seq
  let c := courseOf q q.bank q.idx
  match q.wait with
  | some w => match w.release with
    | some r => if releaseTick s n c r ≤ slotTick s n j then startCourse n j old s else supply n j q.last s
    | none => supply n j q.last s
  | none => supply n j q.last s

/-- The Sequencer becomes HELD at D(j) (Table 7.12); `next` is the entry chosen next, none from END_HOLD. -/
def enterHeld (n : Ch) (next : Option Nat) (s : Dev) : Dev :=
  let s := endWait n s
  let s := wr s oHoldPos (chPos s n) [n]
  markersLow n (updSeq n (fun q => { q with
    st := .held, chosen := next, marksLow := true, compare := [], drives := q.drives.map fun d => { d with vcmp := 0 } }) s)

/-- What follows a Course end, a Cut or a swap at D(j) (R219, Table 7.12): HELD under a hold, else the wait of the entry chosen, else
END_HOLD. `prev` is the Course that ended at this decision. -/
def goNext (n : Ch) (next prev : Option Nat) (j : Nat) (s : Dev) : Dev :=
  let q := (s.ch n).seq
  if holdCause q then enterHeld n next s
  else match next with
    | none => supply n j q.last (updSeq n (fun q => { q with st := .endHold }) s)
    | some e =>
      let s := beginWait n e j s
      let old (m : Nat) : Nat := match prev with
        | some c => coMark c m
        | none => 0
      let t := tryStart n j old s
      if (t.ch n).seq.st = .playing then t
      else match prev with
        | some c => markEnd n j c t
        | none => t

/-! ### Patches -/

/-- A committed patch lands (R226): the entry replaced, its Course result register cleared, PATCHES counted. -/
def landPatch (n : Ch) (p : Patch) (s : Dev) : Dev :=
  let s := updSeq n (fun q => setCourse p.bank p.entry p.data { q with patch := none }) s
  bump oPatches [n] (clearCrr n (p.bank * 8192 + p.entry) s)

/-- The entry e of bank b ends at this decision point: a patch of it lands (R226). -/
def patchEnd (n : Ch) (b e : Nat) (s : Dev) : Dev :=
  match (s.ch n).seq.patch with
  | some p => if p.bank = b && p.entry = e then landPatch n p s else s
  | none => s

/-- A patch applied by a Keystone (R225, R226): it lands at once unless its entry is in progress, waiting or delaying. After a STOP the last Course is
still the one in progress (R218): a patch of its entry waits for the next decision point at which that entry ends (log 153). -/
def applyPatch (n : Ch) (target data : Nat) (s : Dev) : Dev :=
  let p : Patch := ⟨getField target 13 1, getField target 0 13, data⟩
  let q := (s.ch n).seq
  let s := updSeq n (fun q => { q with patch := some p }) s
  let busy := (q.st == .waiting || q.st == .playing || q.st == .endHold) && q.bank == p.bank && q.idx == p.entry
  let inProgress := q.crr == some (p.bank * 8192 + p.entry) || q.starts.any fun x => x.bank == p.bank && x.entry == p.entry
  if busy || inProgress then s else landPatch n p s

/-! ### Course ends, swaps, Cuts -/

/-- The codes of the Course that plays are compared until 960 ticks after slot j (R236). -/
def stopCompare (j : Nat) (q : Seq) : Seq :=
  match q.drives.reverse with
  | d :: t => { q with drives := ({ d with stop := some j } :: t).reverse }
  | [] => match q.compare with
    | (d, t, f) :: l => { q with compare := ({ d with stop := some j }, t, f) :: l }
    | [] => q

/-- The drive in force at a Course end stops comparing at the slot after its last sample (R236); CUR_SEGMENT counts the last segment. -/
def closeCourse (n : Ch) (j : Nat) (s : Dev) : Dev :=
  updSeq n (fun q => stopCompare j { q with segs := ((j, q.seg + 1) :: q.segs).take 16 }) s

/-- swap(j) of R223. -/
def bankSwap (n : Ch) (prev : Option Nat) (j : Nat) (s : Dev) : Dev :=
  let b := (s.ch n).seq.bank
  let o := 1 - b
  let s := updSeq n (fun q => { setBankState b .idle (setBankState o .playing q) with bank := o, swaps := countUp (2 ^ 32 - 1) q.swaps 1 }) s
  goNext n (some 0) prev j (chEvent n 0x07 o s)

/-- BANK_LATE (R223, Table 11.14). -/
def bankLate (n : Ch) (b : Nat) (s : Dev) : Dev :=
  let s := bump oBankLates [n] (wr s oBankLate (setBit (rd s oBankLate [n]) 0) [n])
  chFault n 7 (chEvent n 0x08 b s)

/-- A Course ends at D(j) with no Cut (R219, R223). `c` is its entry as it played: a patch that has just landed in it does not change its markers. -/
def courseEnd (n : Ch) (j c : Nat) (s : Dev) : Dev :=
  let q := (s.ch n).seq
  let b := q.bank
  let e := q.idx
  let s := patchEnd n b e (closeCourse n j s)
  let flags := rd s oBankFlags [n, b]
  if e = rd s oBankEnd [n, b] then
    if bankState q (1 - b) = .ready then bankSwap n (some c) j s
    else
      let s := if bitOf flags 1 then bankLate n b s else s
      goNext n (if bitOf flags 0 then some (rd s oLoopStart [n, b]) else none) (some c) j s
  else if e = 8191 then goNext n none (some c) j s
  else goNext n (some (e + 1)) (some c) j s

/-- A pending Cut lands at D(j) (R229 to R231). -/
def landCut (n : Ch) (j : Nat) (s : Dev) : Dev :=
  let q := (s.ch n).seq
  let ended := q.st == .playing || q.st == .endHold || (q.st == .held && q.chosen.isNone)
  let from_ := courseOf q q.bank (if q.st = .held then q.chosen.getD q.idx else q.idx)
  let tgt := match q.cut with
    | some x => x.target.getD (coTarget from_)
    | none => coTarget from_
  let src := match q.cut with
    | some x => x.source
    | none => 0
  let s := if q.st = .playing then closeCourse n j s else s
  let s := if ended then patchEnd n q.bank q.idx s else s
  let s := updSeq n (fun q => { q with cut := none, landing := false }) s
  let s := bump oCuts [n] s
  let s := wr (wr s oCutLastPos (chPos s n) [n]) oCutLast (src * 2 ^ 13 + tgt) [n]
  let s := chEvent n 0x09 (tgt % 256) s
  goNext n (some tgt) (if (q.st = .playing || q.st = .endHold) && !q.marksLow then some q.played else none) j s

/-- A Cut seen at the present tick (R228, R230): dropped while STOPPED, merged while one is pending. -/
def cutSeen (n : Ch) (src : Nat) (target : Option Nat) (s : Dev) : Dev :=
  let q := (s.ch n).seq
  if q.st = .stopped then bump oCutsDropped [n] s
  else if q.cut.isSome then bump oCutsMerged [n] s
  else updSeq n (fun q => { q with cut := some ⟨src, target⟩ }) s

/-- The end of a segment with segments to come at D(j) (R220, R227): the repeat boundary, where a patch of a REPEAT 0 Course lands. -/
def segmentEnd (n : Ch) (j : Nat) (s : Dev) : Dev :=
  let q := (s.ch n).seq
  let c := courseOf q q.bank q.idx
  let lands := coRepeat c = 0 && (match q.patch with
    | some p => p.bank = q.bank && p.entry = q.idx
    | none => false)
  if lands then
    let s := patchEnd n q.bank q.idx s
    let d := courseOf (s.ch n).seq q.bank q.idx
    if coRepeat d ≠ 0 && coRepeat d ≤ q.seg + 1 then courseEnd n j c s
    else
      let s := updSeq n (fun q =>
        let q := stopCompare j { q with seg := q.seg + 1, i := 0, segs := ((j, q.seg + 1) :: q.segs).take 16, played := d }
        { q with drives := q.drives ++ [⟨j, coDrive d, coCompare d, none, true⟩] }) s
      playSample n j (markStart n j (coMark c) d s)
  else
    let s := updSeq n (fun q => { q with seg := q.seg + 1, i := 0, segs := ((j, q.seg + 1) :: q.segs).take 16 }) s
    playSample n j (markSegment n j c s)

/-- HELD at D(j) with no hold cause (Table 7.12): a pending Cut lands, the entry chosen next begins its wait, or END_HOLD resumes. -/
def resumeHeld (n : Ch) (j : Nat) (s : Dev) : Dev :=
  let q := (s.ch n).seq
  if q.cut.isSome then landCut n j s
  else match q.chosen with
    | some e => tryStart n j (fun _ => 0) (beginWait n e j s)
    | none =>
      let s := updSeq n (fun q => { q with st := .endHold }) s
      if bankState q (1 - q.bank) = .ready then bankSwap n none j (patchEnd n q.bank q.idx s) else supply n j q.last s

/-- The step of R220 at D(j). -/
def decideAt (n : Ch) (j : Nat) (s : Dev) : Dev :=
  let q := (s.ch n).seq
  let c := courseOf q q.bank q.idx
  match q.st with
  | .stopped => s
  | .held => if holdCause q then s else resumeHeld n j s
  | .waiting =>
    if q.cut.isSome then landCut n j s
    else if holdCause q then enterHeld n (some q.idx) s
    else if q.wait.isNone then tryStart n j (fun _ => 0) (beginWait n q.idx j s)
    else tryStart n j (fun _ => 0) s
  | .endHold =>
    if q.cut.isSome then landCut n j s
    else if holdCause q then enterHeld n none s
    else if bankState q (1 - q.bank) = .ready then bankSwap n (if q.marksLow then none else some q.played) j (patchEnd n q.bank q.idx s)
    else supply n j q.last s
  | .playing =>
    if q.i < coSegLen c then playSample n j (updSeq n (fun q => { q with i := q.i + 1 }) s)
    else if q.landing then landCut n j s
    else if coRepeat c = 0 || q.seg + 1 < coRepeat c then segmentEnd n j s
    else courseEnd n j c s

/-- The tick of the next decision point D(j), that of slot j − 2 (R212); none while the cadence record of that slot has not arrived (R48). -/
def decisionTick (s : Dev) (n : Ch) : Option Nat := dieTick s.dies[n.die] (slotPos s n ((s.ch n).seq.next - 2))

/-- The next decision point (R212, R220). -/
def decisionPoint (n : Ch) (s : Dev) : Dev :=
  let j := (s.ch n).seq.next
  match decisionTick s n with
  | none => s
  | some t => updSeq n (fun q => { q with next := j + 1 }) (decideAt n j (advance t s))

/-- PEs with COURSE_SYNC set restart (R176, R218). -/
def courseSync (n : Ch) (s : Dev) : Dev :=
  [(0 : Fin 2), 1].foldl (fun s (p : Fin 2) => if rd s oCourseSync [n, p] = 1 then peRestart n p s else s) s

/-- The tick of the next Course start (R218); none with no Course to come, or while the record of its cycle has not arrived (R48). -/
def courseTick (s : Dev) (n : Ch) : Option Nat :=
  match (s.ch n).seq.starts with
  | [] => none
  | x :: _ => dieTick s.dies[n.die] (slotPos s n x.slot)

/-- The earliest tick that a window of an array not yet a take reaches back to. -/
def windowsFrom (s : Dev) (x : Arr) : Nat :=
  ((x.slots.map Slot.start) ++ (x.done.map Done.start)).foldl (fun m t => min m (t / 256)) (urgentFrom x s.now)

/-- The Course in progress changes at the present tick (R218); the log of Courses reaches back to the windows that may still end an overrange (R138). -/
def courseNow (n : Ch) (c : Option Nat) (s : Dev) : Dev :=
  let from_ := min (windowsFrom s (s.ch n).vm) (windowsFrom s (s.ch n).im)
  updSeq n (fun q => { q with crr := c, crrLog := (s.now, c) :: keepSince from_ q.crrLog }) s

/-- The next Course start (R218): at the tick of its first slot the Course is in progress, MCFG applies and PEs restart. -/
def courseStart (n : Ch) (s : Dev) : Dev :=
  match (s.ch n).seq.starts, courseTick s n with
  | x :: t, some at_ =>
    let p := slotPos s n x.slot
    let s := advance at_ s
    let s := courseNow n (some (x.bank * 8192 + x.entry)) (updSeq n (fun q => { q with starts := t }) s)
    let s := applyMeasure n .vm (mcfgHalf s n x.mcfg .vm) p s
    let s := applyMeasure n .im (mcfgHalf s n x.mcfg .im) p s
    courseSync n s
  | _, _ => s

/-! ### Commands and holds -/

/-- SEQ_CMD START may be applied (R241). -/
def startAllowed (s : Dev) (n : Ch) : Bool :=
  (s.ch n).seq.st == .stopped && bankState (s.ch n).seq (rd s oStartBank [n]) == .ready

/-- SEQ_CMD START at the present tick (R213, R241, Table 7.12): the source queue empties, and Q_PRIMED stays (R80). -/
def seqStart (n : Ch) (s : Dev) : Dev :=
  let b := rd s oStartBank [n]
  if startAllowed s n then
    let s := if rd s oSrcQOwner [n] = 2 then updSrc n (fun x => { x with queue := [] }) s else s
    let s := courseNow n none s
    let j := firstSlot s n s.now + 2
    updSeq n (fun q => { setBankState b .playing q with
      st := .waiting, bank := b, idx := 0, seg := 0, i := 0, last := 0, wait := none, chosen := none, cut := none,
      landing := false, next := j, starts := [], segs := [], marksLow := false, played := 0 }) s
  else s

/-- The counts of segments without those of the Courses of `starts`, which are dropped before they begin (R218, CUR_SEGMENT). -/
def segsKept (starts : List CourseBegin) (segs : List (Nat × Nat)) : List (Nat × Nat) :=
  match starts with
  | [] => segs
  | x :: _ => match segs.dropWhile fun e => e != (x.slot, 0) with
    | [] => segs.filter fun e => decide (e.1 < x.slot)
    | _ :: t => t

/-- SEQ_CMD STOP at the present tick (Table 7.12). The Course in progress stays so until the next one starts (R218). -/
def seqStop (n : Ch) (s : Dev) : Dev :=
  if (s.ch n).seq.st = .stopped then s
  else
    let s := markersLow n (endWait n s)
    updSeq n (fun q => { setBankState q.bank .idle q with
      st := .stopped, chosen := none, cut := none, landing := false, starts := [], marksLow := false,
      segs := segsKept q.starts q.segs, drives := [], compare := [] }) s

/-- SEQ_CMD HOLD: cause HOST (R241). -/
def seqHold (n : Ch) (s : Dev) : Dev := updSeq n (fun q => { q with holdHost := true }) s

/-- SEQ_CMD RESUME: causes HOST and LINK cleared (R241). -/
def seqResume (n : Ch) (s : Dev) : Dev := updSeq n (fun q => { q with holdHost := false, holdLink := false }) s

/-- RESUME may be applied: HELD, a hold requested, or a recorded HOST or LINK cause while STOPPED (R241). -/
def resumeAllowed (s : Dev) (n : Ch) : Bool :=
  let q := (s.ch n).seq
  q.st == .held || (q.st != .stopped && holdCause q) || (q.st == .stopped && (q.holdHost || q.holdLink))

/-- The value of SEQ_CMD a Keystone applies (R241). -/
def applySeqCmd (n : Ch) (v : Nat) (s : Dev) : Dev :=
  match v with
  | 1 => seqStart n s
  | 2 => seqStop n s
  | 3 => seqHold n s
  | 4 => seqResume n s
  | _ => s

/-- BANK_READY applied by a Keystone (R222). -/
def applyBankReady (n : Ch) (b v : Nat) (s : Dev) : Dev :=
  match bankState (s.ch n).seq b, v with
  | .idle, 1 => clearBankCrrs n b (updSeq n (setBankState b .ready) s)
  | .ready, 0 => updSeq n (setBankState b .idle) s
  | _, _ => s

/-- Cause SUPPLY set or cleared on every Sequencer (R242). -/
def supplyHold (on : Bool) (s : Dev) : Dev :=
  (List.finRange 24).foldl (fun s n => updSeq n (fun q => { q with holdSupply := on }) s) s

/-- Cause LINK on the Sequencers of a die (R243). -/
def linkHold (k : Die) (s : Dev) : Dev :=
  (List.finRange 24).foldl (fun s n => if Ch.die n = k then updSeq n (fun q => { q with holdLink := true }) s else s) s

/-! ### Cut sources -/

/-- TRIG_IN_EDGE (R216, R228): after an edge on a trigger pin of a die, `samples` consecutive samples were equal: the channels whose TRIG_FILTER that
is see the edge, which releases their trigger-pin waits and raises their Cuts (Table 7.6). -/
def trigEdge (k : Die) (pin : Nat) (falling : Bool) (samples : Nat) (s : Dev) : Dev :=
  (List.finRange 24).foldl (fun s (n : Ch) =>
    if Ch.die n = k && rd s oTrigFilter [n] = samples then
      let q := (s.ch n).seq
      let c := courseOf q q.bank q.idx
      let a := coArg c
      let s := match q.wait with
        | some w =>
          if coWait c = 1 && w.release.isNone && a % 4 = pin && bitOf a 2 == falling && w.since < s.now then
            updSeq n (fun q => { q with wait := some { w with release := some (.tick s.now) } }) s
          else s
        | none => s
      let z := rd s oCutSrc [n]
      if bitOf z 5 && getField z 6 2 = pin && bitOf z 8 == falling then cutSeen n 1 none s else s
    else s) s

/-- A change of a monitor's decided state: comparator waits release, and an entry into the selected condition is a Cut (R216, R228). -/
def comparatorSeen (n : Ch) (m : Nat) (old new : Decided) (s : Dev) : Dev :=
  let q := (s.ch n).seq
  let c := courseOf q q.bank q.idx
  let a := coArg c
  let s := match q.wait with
    | some w =>
      if coWait c = 3 && w.release.isNone && a % 4 = m && condMet (getField a 2 2) new then
        updSeq n (fun q => { q with wait := some { w with release := some (.tick s.now) } }) s
      else s
    | none => s
  let z := rd s oCutSrc [n]
  let cond := getField z 13 2
  if bitOf z 10 && getField z 11 2 = m && !condMet cond old && condMet cond new then cutSeen n 2 none s else s

/-- Chain Cut lines reach a die (R228, R234). -/
def dieCut (k : Die) (lines : Nat) (s : Dev) : Dev :=
  (List.finRange 24).foldl (fun s (n : Ch) =>
    let z := rd s oCutSrc [n]
    if n.die = k && bitOf z 19 && bitOf lines (getField z 20 4) then cutSeen n 5 none s else s) s

/-- Chain Cut lines are seen (R228, R234): by the dies with an ACTIVE link now, by one whose link retrains when it returns (Table 1.6). -/
def chainCutSeen (lines : Nat) (s : Dev) : Dev :=
  (List.finRange 6).foldl (fun s (k : Die) => overLink k (.cut lines) (dieCut k lines) s) s

/-- A SYNC reaches a die (R233, Table 7.3): matching chain SYNC waits take its position as their release. -/
def dieSync (k : Die) (num pos : Nat) (s : Dev) : Dev :=
  (List.finRange 24).foldl (fun s (n : Ch) =>
    let q := (s.ch n).seq
    let c := courseOf q q.bank q.idx
    let a := coArg c
    match q.wait with
    | some w =>
      if n.die = k && coWait c = 5 && w.release.isNone && (bitOf a 16 || num = a % 65536) then
        updSeq n (fun q => { q with wait := some { w with release := some (.pos pos) } }) s
      else s
    | none => s) (updDie k (fun d => { d with sync := some (num, pos) }) s)

/-- A SYNC is known to the device (R70, R233): to the dies with an ACTIVE link now, to one whose link retrains when it returns. -/
def syncKnown (t : Target) (s : Dev) : Dev :=
  (List.finRange 6).foldl (fun s (k : Die) => overLink k (.sync t.num t.pos) (dieSync k t.num t.pos) s) s

/-! ### Groups (R232) -/

/-- The channels whose SEQ_GROUPS bit is set, together with the arrived ones. -/
def groupMembers (s : Dev) (g : Nat) (arrived : List Ch) : List Ch :=
  (List.finRange 24).filter fun n => bitOf (rd s oSeqGroups [n]) g || arrived.contains n

/-- The channels that have arrived in a group. -/
def groupArrived (s : Dev) (g : Nat) : List Ch := (s.groups.arrived.filter fun e => e.2 == g).map Prod.fst

/-- The Control die evaluates a group at the present tick: once every member has arrived, the release position is sent to each. -/
def groupEvaluate (g : Nat) (s : Dev) : Dev :=
  let got := groupArrived s g
  let members := groupMembers s g got
  if got ≠ [] && members.all fun n => got.contains n then
    let p := posOf s.cad.recs ((s.now + 12288) * 256)
    let p := (p + 0xFFFF) / 0x10000 * 0x10000 % posMod
    { s with groups := { s.groups with
        arrived := s.groups.arrived.filter fun e => e.2 != g
        releases := s.groups.releases ++ members.map fun n => (n, g, p) } }
  else s

/-- The oldest message of a channel for a group, and the messages without it. -/
def takeMsg (n : Ch) (g : Nat) : List (Ch × Nat × Bool) → Option (Bool × List (Ch × Nat × Bool))
  | [] => none
  | m :: t =>
    if m.1 = n && m.2.1 = g then some (m.2.2, t)
    else (takeMsg n g t).map fun r => (r.1, m :: r.2)

/-- GROUP_ARRIVAL (R232): an arrival or withdrawal reaches the Control die over an ACTIVE link. -/
def execGroupArrival (n : Ch) (g : Fin 8) (s : State) : Host.Outcome State Fault Refusal := onDev s fun s =>
  .next (
    if s.dies[n.die].link.st = .active && s.ctlRunning then
      match takeMsg n g.val s.groups.msgs with
      | none => s
      | some (arrive, rest) =>
        let others := s.groups.arrived.filter fun e => !(e.1 == n && e.2 == g.val)
        groupEvaluate g.val { s with groups := { s.groups with
          msgs := rest, arrived := if arrive then others ++ [(n, g.val)] else others } }
    else s)

/-- GROUP_RELEASE_POSITION (R232): the oldest release position for the channel reaches its die. -/
def execGroupReleasePosition (n : Ch) (s : State) : Host.Outcome State Fault Refusal := onDev s fun s =>
  .next (
    if s.dies[n.die].link.st = .active then
      match s.groups.releases.find? fun e => e.1 == n with
      | none => s
      | some (_, g, p) =>
        let s := { s with groups := { s.groups with releases := s.groups.releases.erase (n, g, p) } }
        let q := (s.ch n).seq
        let c := courseOf q q.bank q.idx
        match q.wait with
        | some w =>
          if coWait c = 4 && coArg c % 8 = g && w.release.isNone then
            updSeq n (fun q => { q with wait := some { w with release := some (.pos p) } }) s
          else s
        | none => s
    else s)

/-! ### Vector lanes -/

/-- An offset in 1/16 tick added to a tick, rounded up. -/
def offsetTick (t : Nat) (o : Int) : Nat := (((t : Int) * 16 + o + 15) / 16).toNat

/-- The drive states after the codes of a Course (Table 7.4): 0b11 keeps. -/
def driveLanes (v : Nat) (l : List Nat) : List Nat :=
  (List.range 8).map fun i => let x := getField v (2 * i) 2; if x = 3 then l.getD i 2 else x

/-- A comparison has reached its end (R236). -/
def compareOver (s : Dev) (n : Ch) (d : Drive) : Bool :=
  match d.stop with
  | some j => decide (slotTick s n j + 960 ≤ s.now)
  | none => false

/-- VECTOR_DRIVE_EDGE (R236): at s_j + 960 ticks + VEC_OFFSET the drive codes of a Course take effect. The Course that ended is compared until 960
ticks after its last sample's slot, also where this edge comes before that tick. -/
def execVectorDriveEdge (n : Ch) (s : State) : Host.Outcome State Fault Refusal := onDev s fun s =>
  .next (
    match (s.ch n).seq.drives with
    | [] => s
    | d :: t =>
      let s := advance (offsetTick (slotTick s n d.slot + 960) (rdI s oVecOffset [n])) s
      updSeq n (fun q =>
        let failed := match q.compare with
          | e :: _ => if d.goesOn then e.2.2 else 0
          | [] => 0
        { q with
          drives := t, lanes := driveLanes d.vdrive q.lanes
          compare := (d, s.now, failed) :: q.compare.filter fun e => !compareOver s n e.1 }) s)

/-- A lane slot whose input has been at `level` for `held` ticks fails at the present tick in a comparison (R236): the level is not the one expected,
in the Course's window on a mapped lane, for VEC_DEGLITCH ticks of that window, and the lane has not failed in this Course. -/
def compareFails (s : Dev) (n : Ch) (lane : Nat) (level : Bool) (held : Nat) (x : Drive × Nat × Nat) : Bool :=
  let need := rd s oVecDeglitch [n]
  need ≤ held && x.2.1 + usTicks (rd s oVecCmpDelay [n]) + need ≤ s.now + 1 && !compareOver s n x.1 &&
    getField x.1.vcmp (2 * lane) 2 == (if level then 1 else 2) && !bitOf x.2.2 lane && rdJ s oVecMap [n] lane ≠ 0xFF

/-- What one failure of a lane slot does (R236). -/
def laneFailed (n : Ch) (lane : Nat) (s : Dev) : Dev :=
  let old := rd s oVecFail [n]
  let s := if old = 0 then wr s oVecFailPos (chPos s n) [n] else s
  let s := bump oVecFails [n] (wr s oVecFail (setBit old lane) [n])
  if bitOf (rd s oCutSrc [n]) 9 then cutSeen n 3 none s else s

/-- VECTOR_COMPARE_FAILURE (R236): the synchronised input of a lane slot has been at a level for so many ticks. Each Course whose comparison it fails
has its failure, once per lane. -/
def execVectorCompareFailure (n : Ch) (x : LaneSample) (s : State) : Host.Outcome State Fault Refusal := onDev s fun s =>
  .next (
    let fails := compareFails s n x.lane.val x.level x.held.toNat
    let k := ((s.ch n).seq.compare.filter fails).length
    let s := updSeq n (fun q => { q with compare := q.compare.map fun e => if fails e then (e.1, e.2.1, setBit e.2.2 x.lane.val) else e }) s
    (List.range k).foldl (fun s _ => laneFailed n x.lane.val s) s)

/-! ### Marker edges -/

/-- The tick of a marker edge (R238): nominal, or at the ball with MARK_OFFSET. -/
def markTick (s : Dev) (n : Ch) (m : Nat) (x : MarkItem) : Nat :=
  let t := slotTick s n x.slot + 960
  if x.ball then offsetTick t (if m = 0 then rdI s oMarkOffsetA [n] else rdI s oMarkOffsetB [n]) else t

/-- An edge on one output: a pulse on a marker that is already high has no effect (Table 7.5). -/
def markStep (k : MarkKind) (endTick : Nat) (x : MarkLevel) : MarkLevel :=
  match k with
  | .up => { x with hold := true }
  | .down => { x with hold := false }
  | .pulse => if markHigh x then x else { x with pulse := some endTick }

/-- The nominal rising edge of a marker is a Cut source of the channels of its die that select it (R228, Table 7.10). -/
def markerCut (n : Ch) (m : Nat) (s : Dev) : Dev :=
  (List.finRange 24).foldl (fun s (k : Ch) =>
    let z := rd s oCutSrc [k]
    if Ch.die k = Ch.die n && bitOf z 15 && getField z 17 2 = (Ch.loc n).val && getField z 16 1 = m then cutSeen k 4 none s else s) s

/-- One marker edge acts. -/
def markApply (n : Ch) (m : Nat) (x : MarkItem) (s : Dev) : Dev :=
  let e := s.now + rd s oMarkWidth [n]
  let old := markOf (s.ch n).seq m
  let s := updMark n m (fun y => if x.ball then { y with ball := markStep x.kind e y.ball } else { y with nominal := markStep x.kind e y.nominal }) s
  if !x.ball && !markHigh old.nominal && markHigh (markOf (s.ch n).seq m).nominal then markerCut n m s else s

/-- The earliest tick of a list of edges. -/
def earliest : List Nat → Option Nat
  | [] => none
  | a :: t => some (t.foldl min a)

/-- The tick of the next edge of a marker. -/
def markerTick (s : Dev) (n : Ch) (m : Nat) : Option Nat := earliest ((markOf (s.ch n).seq m).items.map (markTick s n m))

/-- The edges of a marker that are due first act (R238). -/
def markerEdge (n : Ch) (m : Nat) (s : Dev) : Dev :=
  match markerTick s n m with
  | none => s
  | some t =>
    let l := (markOf (s.ch n).seq m).items
    let due := l.filter fun x => markTick s n m x == t
    let rest := l.filter fun x => markTick s n m x != t
    due.foldl (fun s x => markApply n m x s) (updMark n m (fun y => { y with items := rest }) (advance t s))

/-- The marker that CUT_SRC of a channel makes a Cut source (Table 7.10), a channel of its die and one of its two markers. -/
def cutMarker (s : Dev) (n : Ch) : Option (Ch × Nat) :=
  let z := rd s oCutSrc [n]
  if bitOf z 15 then some (dieCh n.die ⟨getField z 17 2 % 4, by omega⟩, getField z 16 1) else none

/-- MARKER_EDGE (R238): the edges of a marker that are due first act. -/
def execMarkerEdge (n : Ch) (m : Fin 2) (s : State) : Host.Outcome State Fault Refusal := onDev s fun s => .next (markerEdge n m.val s)

/-- A pulse that ends at tick t. -/
def pulseEnd (t : Nat) (x : MarkLevel) : MarkLevel := if x.pulse = some t then { x with pulse := none } else x

/-- MARKER_PULSE_END (R238): the pulse that ends first, after MARK_WIDTH ticks. -/
def execMarkerPulseEnd (n : Ch) (m : Fin 2) (s : State) : Host.Outcome State Fault Refusal := onDev s fun s =>
  .next (
    let x := markOf (s.ch n).seq m.val
    match earliest (x.nominal.pulse.toList ++ x.ball.pulse.toList) with
    | none => s
    | some t => updMark n m.val (fun y => { y with nominal := pulseEnd t y.nominal, ball := pulseEnd t y.ball }) (advance t s))

/-! ### Views -/

/-- STATE of Table 7.9: a released wait reads DELAYING. -/
def seqStateCode (s : Dev) (n : Ch) : Nat :=
  let q := (s.ch n).seq
  match q.st with
  | .stopped => 0
  | .playing => 3
  | .endHold => 4
  | .held => 5
  | .waiting => match q.wait with
    | some w => match w.release with
      | some (.tick t) => if t ≤ s.now then 2 else 1
      | some (.pos p) => if tickNear (dieRecs s n) p ≤ s.now then 2 else 1
      | none => 1
    | none => 1

/-- SEQ_STATUS (Table 7.9). -/
def seqStatus (s : Dev) (n : Ch) : Nat :=
  let q := (s.ch n).seq
  let c := courseOf q q.bank q.idx
  let groupWait := coWait c = 4 && (match q.wait with
    | some w => w.release.isNone
    | none => false)
  seqStateCode s n + flagAt (q.st != .stopped && q.st != .held && holdCause q) 14 + flagAt (q.bank == 1) 15 +
    flagAt groupWait 16 + flagAt q.cut.isSome 17 + flagAt q.landing 18 + flagAt q.patch.isSome 19 +
    flagAt q.holdHost 20 + flagAt q.holdLink 21 + flagAt q.holdSupply 22

/-- CUR_COURSE (R218): 0 with no Course in progress. -/
def curCourse (q : Seq) : Nat := q.crr.getD 0

/-- CUR_SEGMENT, an UNSIGNED32 that stops at its largest value. -/
def curSegment (s : Dev) (n : Ch) : Nat :=
  match (s.ch n).seq.segs.find? fun e => slotTick s n e.1 ≤ s.now with
  | some e => min e.2 (2 ^ 32 - 1)
  | none => 0

/-- BANK_READY reads 1 while READY or PLAYING (R222). -/
def bankReadyView (q : Seq) (b : Nat) : Nat := if bankState q b = .idle then 0 else 1

/-- Code of a bank state (Table 7.15). -/
def bankCode : BankState → Nat
  | .idle => 0 | .ready => 1 | .playing => 2

/-- BANK_STATE (Table 7.15). -/
def bankStateWord (q : Seq) : Nat := bankCode q.stateA + 4 * bankCode q.stateB + q.swaps * 2 ^ 32

/-- VEC_LEVELS: driven lanes read their drive level, the others a level the manual cannot give (free value). -/
def vecLevels (s : Dev) (n : Ch) : Nat :=
  let q := (s.ch n).seq
  ((List.range 8).map fun i =>
    let d := q.lanes.getD i 2
    let driving := d < 2 && rdJ s oVecMap [n] i ≠ 0xFF
    flagAt (if driving then d == 1 else Config.laneLevel n.val i s.now) i + flagAt driving (8 + i)).sum

/-- MARK_LEVELS: the levels at the balls. -/
def markLevels (q : Seq) : Nat := flagAt (markHigh q.markA.ball) 0 + flagAt (markHigh q.markB.ball) 1

/-- Counters cleared by C(n)+0x80:12 (Table 7.8). -/
def clearSeqCounters (n : Ch) (v : Nat) (s : Dev) : Dev :=
  let s := if bitOf v 0 then wr s oCuts 0 [n] else s
  let s := if bitOf v 1 then wr s oCutsMerged 0 [n] else s
  let s := if bitOf v 2 then wr s oCutsDropped 0 [n] else s
  if bitOf v 3 then wr s oBankLates 0 [n] else s

end Sys2Proof.Machine
end

