-- ==== Sys2Proof/Machine/Guard.lean ====
section
/-! DEFINITION. Guard comparators (08): decisions and hysteresis, trips, escalation, blanking, latches, threshold verify. A monitor's input
is given in 2⁻¹⁶ of a threshold code. -/

namespace Sys2Proof.Machine

/-- The Guard Engine has failed (Table 1.3). -/
def geFailed (s : Dev) (n : Ch) : Bool := bitOf (rd s oEngineFault [n]) 5

/-- COND_MET (R249). -/
def monMet (s : Dev) (n : Ch) (m : Mon) : Bool := condMet (rd s oTripCond [n, m]) (monOf s n m).decided

/-! ### Decisions -/

/-- A threshold code in 2⁻¹⁶ code. -/
def code16 (v : Nat) : Int := ((v * 65536 : Nat) : Int)

/-- The decided state after an input value (Table 8.2); the first decision takes HYST as 0. -/
def nextDecided (old : Decided) (hi lo hyst x : Int) : Decided :=
  match old with
  | .undecided | .inside => if hi < x then .above else if x < lo then .below else .inside
  | .above => if x < lo then .below else if x < hi - hyst then .inside else .above
  | .below => if hi < x then .above else if lo + hyst < x then .inside else .below

/-- The input lies in a hysteresis band (R248). -/
def inBands (hi lo hyst x : Int) : Bool := (hi - hyst ≤ x && x ≤ hi) || (lo ≤ x && x ≤ lo + hyst)

/-- COND_MET judged at the present tick (R249): one that has turned false ends its run and its escalation (R254). -/
def condUpdate (n : Ch) (m : Mon) (s : Dev) : Dev :=
  if monMet s n m then
    updMon n m (fun x => { x with condSince := if x.condSince.isSome then x.condSince else some s.now }) s
  else updMon n m (fun x => { x with condSince := none, acted := false, esc := none, escOver := false }) s

/-- A decided state at the present tick, seen by the consumers (R248, R249). -/
def setDecided (n : Ch) (m : Mon) (d : Decided) (s : Dev) : Dev :=
  let old := (monOf s n m).decided
  if old = d then s
  else condUpdate n m (comparatorSeen n m.val old d (updMon n m (fun x => { x with decided := d, inBand := false }) s))

/-- The decision on an input value with the settings in force. -/
def decideOn (n : Ch) (m : Mon) (first : Bool) (x : Int) (s : Dev) : Dev :=
  let hi := code16 (rd s oThHi [n, m])
  let lo := code16 (rd s oThLo [n, m])
  let hyst := code16 (rd s oHyst [n, m])
  let d := nextDecided (monOf s n m).decided hi lo (if first then 0 else hyst) x
  let s := setDecided n m d s
  if first && inBands hi lo hyst x then updMon n m (fun y => { y with inBand := true }) s else s

/-- The tick of a STARTING monitor's first decision (R250). -/
def firstTick (s : Dev) (n : Ch) (m : Mon) : Option Nat :=
  let y := monOf s n m
  if y.st = .starting then some (max (y.onAt + 2458) (y.blankTo.getD 0)) else none

/-- The first decision of a monitor (R250): 2458 ticks after the Keystone, or at the end of a blanking hold that lasts longer (log 32). -/
def firstDecision (n : Ch) (m : Mon) (x : Int) (s : Dev) : Dev :=
  match firstTick s n m with
  | some t => decideOn n m true x (updMon n m (fun y => { y with st := .running, blankTo := none }) (advance t s))
  | none => s

/-- A crossing of a RUNNING monitor that is not blanked (R248). -/
def stateChange (n : Ch) (m : Mon) (x : Int) (s : Dev) : Dev :=
  let y := monOf s n m
  if y.st = .running && y.blankTo.isNone then decideOn n m false x s else s

/-! ### Trips -/

/-- A hard trip acts (R255): hard latch, CH_FAULT [2], event 0x03 unless the GE has failed (R257), the source TRIPPED, the LE OPEN. -/
def hardTrip (n : Ch) (m : Mon) (s : Dev) : Dev :=
  let s := updMon n m (fun x => { x with hard := some s.now, esc := none, escOver := false }) s
  let s := chFault n 2 s
  let s := if geFailed s n then s else chEvent n 0x03 m.val s
  let s := sourceTrip n 3 s
  let l := (s.ch n).loop
  let s := if trippedNow s n then s else updCh n (fun c => { c with loopBefore := some (s.now, l) }) s
  if l.st = .openState then s else loopOpen n (updSrc n (fun x => { x with safe := none }) s)

/-- The side a soft trip concerns: the high side above the window, the low side below it. -/
def tripSide : Decided → Option Bool
  | .above => some false
  | .below => some true
  | .inside | .undecided => none

/-- A soft trip acts (R253, R257): latch, event 0x04, and its way to the LE. -/
def softTrip (n : Ch) (m : Mon) (s : Dev) : Dev :=
  let d := (monOf s n m).decided
  let s := updMon n m (fun x => { x with soft := some s.now }) s
  if geFailed s n then s
  else chEvent n 0x04 m.val (updLoop n (fun l => { l with softSent := l.softSent ++ [(m, tripSide d)] }) s)

/-- A qualified trip acts at the present tick (R249, R253, R254, R257). -/
def tripQualified (n : Ch) (m : Mon) (s : Dev) : Dev :=
  let a := rd s oAction [n, m]
  let esc := usTicks (rd s oEscUs [n, m])
  let s := wr (bump oTrips [n, m] s) oLastTripPos (posOf (dieRecs s n) (s.now * 256)) [n, m]
  let s := updMon n m (fun x => { x with acted := true }) s
  let s := if bitOf a 0 then softTrip n m s else s
  let s := if bitOf a 1 then
      (if bitOf a 0 && esc ≠ 0 then updMon n m (fun x => { x with esc := some (s.now + esc) }) s else hardTrip n m s)
    else s
  if geFailed s n then s
  else
    let s := if bitOf a 2 then
        (if m = 0 then urgentRaise n .vm .ge s else if m = 1 then urgentRaise n .im .ge s else s)
      else s
    if bitOf a 3 then slateTrigger 3 (n.val * 256 + m.val) s else s

/-- The tick at which a trip qualifies (R249): COND_MET has then been true for TRIP_FILTER + 1 ticks. -/
def qualifyTick (s : Dev) (n : Ch) (m : Mon) : Option Nat :=
  let x := monOf s n m
  if x.st = .running && x.blankTo.isNone && !x.acted then x.condSince.map fun t => t + rd s oTripFilter [n, m] else none

/-- A trip qualifies (R249); a blanked monitor cannot trip (R252). -/
def tripQualify (n : Ch) (m : Mon) (s : Dev) : Dev :=
  match qualifyTick s n m with
  | some t => tripQualified n m (advance t s)
  | none => s

/-- The tick at which an escalation that has not expired does (R254). -/
def escTick (s : Dev) (n : Ch) (m : Mon) : Option Nat :=
  let x := monOf s n m
  if x.escOver then none else x.esc

/-- An escalation expires (R254): the hard trip acts, but inside a blanking hold it waits for the hold's end. -/
def escalationExpires (n : Ch) (m : Mon) (s : Dev) : Dev :=
  match escTick s n m with
  | some t =>
    let s := advance t s
    if (monOf s n m).blankTo.isSome then updMon n m (fun x => { x with escOver := true }) s else hardTrip n m s
  | none => s

/-- The tick at which a RUNNING monitor's blanking hold ends (R252). -/
def blankTick (s : Dev) (n : Ch) (m : Mon) : Option Nat :=
  let y := monOf s n m
  if y.st = .running then y.blankTo else none

/-- A blanking hold ends (R252, R254): decisions resume under the thresholds in force, a deferred escalation acts or ends, and a fault that began
in the hold trips on this tick, the first after it. -/
def blankingEnds (n : Ch) (m : Mon) (x : Int) (s : Dev) : Dev :=
  match blankTick s n m with
  | some t =>
    let y := monOf s n m
    let s := decideOn n m false x (updMon n m (fun y => { y with blankTo := none }) (advance t s))
    let ripe := match y.condSince with
      | some t => decide (t + rd s oTripFilter [n, m] ≤ s.now)
      | none => true
    if !monMet s n m then s
    else if y.escOver then hardTrip n m s
    else if ripe && !y.acted then tripQualified n m s
    else s
  | none => s

/-! ### Latches -/

/-- A latch that a write clears: it sets again on the next tick while COND_MET is true (R258), and one that a trip sets on this tick stays set
(R263). -/
def latchCleared (met : Bool) (now : Nat) (l : Option Nat) : Option Nat :=
  if l = some now then l else if l.isSome && met then some (now + 1) else none

/-- A W1C write of GUARD_LATCH (R258): it clears latches of monitors in LATCH_MODE 0. -/
def clearGuardLatch (n : Ch) (v : Nat) (s : Dev) : Dev :=
  forMons (fun m s => if rd s oLatchMode [n, m] = 0 then updMon n m (fun x => { x with
    soft := if bitOf v m then latchCleared (monMet s n m) s.now x.soft else x.soft
    hard := if bitOf v (4 + m) then latchCleared (monMet s n m) s.now x.hard else x.hard }) s else s) s

/-- LATCH_MODE 1 at a Reel cycle boundary (R258): latches of a monitor whose COND_MET is false clear. -/
def guardBoundary (n : Ch) (s : Dev) : Dev :=
  forMons (fun m s =>
    if rd s oLatchMode [n, m] = 1 && !monMet s n m then updMon n m (fun x => { x with soft := none, hard := none }) s else s) s

/-- A latch reads set at the present tick. -/
def latchSet (s : Dev) (l : Option Nat) : Bool := l.any fun t => decide (t ≤ s.now)

/-- GUARD_LATCH (Table 8.9). -/
def guardLatch (s : Dev) (n : Ch) : Nat :=
  (List.finRange 4).foldl (fun v m => v + flagAt (latchSet s (monOf s n m).soft) m + flagAt (latchSet s (monOf s n m).hard) (4 + m)) 0

/-- Any hard latch of the channel is set (R93). -/
def anyHardLatch (s : Dev) (n : Ch) : Bool := guardLatch s n ≥ 16

/-! ### Threshold verify -/

/-- A verify request at the arbiter (R259): entered, merged with one that waits, or entered afresh with an earlier deadline. It is background work
(R264) while nothing but VERIFY_PERIODIC has asked for it. -/
def verifyEnter (n : Ch) (m : Mon) (bg : Bool) (deadline : Nat) (s : Dev) : Dev :=
  let u := pathUnit n (verifyArr m)
  match (sharedOf s u).waiters.find? fun r => r.id == verifyId n m with
  | some r =>
    let s := updMon n m (fun y => { y with verifyBg := y.verifyBg && bg }) s
    if posLater r.deadline deadline then unitRequest (verifyId n m) u deadline (unitWithdraw (verifyId n m) u s) else s
  | none => unitRequest (verifyId n m) u deadline (updMon n m (fun y => { y with verifyBg := bg }) s)

/-- The GE asks for a verify of a monitor (R259, R262): it waits while the array is not READY or the monitor's verify is in progress. -/
def verifyAsk (n : Ch) (m : Mon) (bg : Bool) (deadline : Nat) (s : Dev) : Dev :=
  let y := monOf s n m
  let x := arrOf s n (verifyArr m)
  if y.st = .off || geFailed s n || noSpare x then s
  else if y.verifyAt.isSome || !x.ready then
    let d := match y.verifyWant with
      | some w => if posLater w deadline then deadline else w
      | none => deadline
    updMon n m (fun y => { y with verifyWant := some d, verifyBg := bg && (y.verifyWant.isNone || y.verifyBg) }) s
  else verifyEnter n m bg deadline s

/-- A request that waited for READY, or for a verify to end, is entered. -/
def verifyResume (n : Ch) (m : Mon) (s : Dev) : Dev :=
  match (monOf s n m).verifyWant with
  | some d =>
    let bg := (monOf s n m).verifyBg
    verifyAsk n m bg d (updMon n m (fun y => { y with verifyWant := none }) s)
  | none => s

/-- A verify is granted (R260): the spare is in VERIFY from the grant tick. -/
def verifyGranted (n : Ch) (m : Mon) (s : Dev) : Dev :=
  let s := updMon n m (fun y => { y with verifyAt := some s.now, verifyVoid := false }) s
  match (arrOf s n (verifyArr m)).spare with
  | some i => updSlice n (verifyArr m) i (fun z => { z with st := .verify }) s
  | none => s

/-- A verify requested by VERIFY_REQ for every monitor not OFF (R259). -/
def verifyAll (n : Ch) (deadline : Nat) (s : Dev) : Dev := forMons (fun m s => verifyAsk n m false deadline s) s

/-- The tick from which the staleness of a monitor's verify counts (R261). -/
def verifyBase (y : Monitor) : Nat := max (y.verifyLast.getD 0) y.onAt

/-- VERIFY_STALE in ticks. -/
def verifyStaleTicks (s : Dev) (n : Ch) : Nat := rd s oVerifyStale [n] * msTicks

/-- VERIFY_PERIODIC_DUE (R259): a background verify is asked for with deadline last completion + VERIFY_STALE, that of a monitor never verified
counting from its enable (log 125); during a supply warning it is not granted (R264). -/
def execVerifyPeriodicDue (n : Ch) (m : Mon) (s : State) : Host.Outcome State Fault Refusal := onDev s fun s =>
  .next (
    let y := monOf s n m
    if bitOf (rd s oVerifyCtrl [n]) 1 && y.st ≠ .off then
      verifyAsk n m true (posOf (dieRecs s n) ((y.verifyLast.getD y.onAt + verifyStaleTicks s n) * 256)) s
    else s)

/-- d of a threshold (R260): measured less applied code, to the nearest LSB, saturated to ±127. -/
def verifyDiff (measured : Int) (applied : Nat) : Int := clampInt (-127) 127 (roundNearestOpen (measured - code16 applied) 65536)

/-- The results of a verify are written (R260, R261). -/
def verifyResult (n : Ch) (m : Mon) (hi lo : Int) (s : Dev) : Dev :=
  let dh := verifyDiff hi (rd s oThHi [n, m])
  let dl := verifyDiff lo (rd s oThLo [n, m])
  let s := wr (wr s oVerifyDiffHi (ofSigned 8 dh) [n, m]) oVerifyDiffLo (ofSigned 8 dl) [n, m]
  let s := wr s oVerifyPos (posOf (dieRecs s n) (s.now * 256)) [n, m]
  let s := updMon n m (fun y => { y with verifyLast := some s.now, verifyStale := false }) s
  let tol := rd s oVerifyTol [n]
  if dh.natAbs ≤ tol && dl.natAbs ≤ tol then updMon n m (fun y => { y with verified := true, threshFault := false }) s
  else
    let s := chFault n 3 (updMon n m (fun y => { y with verified := false, threshFault := true }) s)
    if bitOf (rd s oVerifyCtrl [n]) 2 && !noSpare (arrOf s n (verifyArr m)) then hardTrip n m s else s

/-- VERIFY_COMPLETE (R260, R261): 123 864 ticks after the grant the spare is released and the results are written, unless the verify is
void. `hi` and `lo` are the measured threshold codes in 2⁻¹⁶. DS2 of the die runs the verify; one that has stopped completes none (R31). -/
def execVerifyComplete (n : Ch) (m : Mon) (hi lo : Int) (s : State) : Host.Outcome State Fault Refusal := onDev s fun s =>
  .next (
    let y := monOf s n m
    match if serviceRuns s n.die 2 then y.verifyAt else none with
    | none => s
    | some g =>
      let a := verifyArr m
      let s := advance (g + 123864) s
      let s := match (arrOf s n a).spare with
        | some i => updSlice n a i (fun z => { z with st := if z.st = .verify then .spareIdle else z.st }) s
        | none => s
      let s := unitRelease (verifyId n m) (pathUnit n a) s
      let s := updMon n m (fun y => { y with verifyAt := none, verifyVoid := false }) s
      let s := if y.verifyVoid || y.st = .off then s else verifyResult n m hi lo s
      verifyResume n m (idleRoles n a s))

/-- VERIFY_STALE (R261). -/
def execVerifyStale (n : Ch) (m : Mon) (s : State) : Host.Outcome State Fault Refusal := onDev s fun s =>
  .next (
    let y := monOf s n m
    if y.st = .off then s
    else updMon n m (fun y => { y with verifyStale := true }) (advance (verifyBase y + verifyStaleTicks s n) s))

/-! ### Keystones -/

/-- A change of MON_MODE applied at the present tick (Table 8.3). -/
def applyMonMode (n : Ch) (m : Mon) (mode : Nat) (s : Dev) : Dev :=
  let y := monOf s n m
  if mode = 0 then
    if y.st = .off then s
    else
      let s := setDecided n m .undecided s
      let s := unitWithdraw (verifyId n m) (pathUnit n (verifyArr m)) s
      updMon n m (fun y => { y with
        st := .off, inBand := false, esc := none, escOver := false, blankTo := none, verifyWant := none, verifyStale := false }) s
  else if y.st = .off then updMon n m (fun y => { y with st := .starting, onAt := s.now }) s
  else s

/-- New thresholds of a monitor applied at the present tick (R259, R261): a verify in progress is void and asked for anew. -/
def thresholdChanged (n : Ch) (m : Mon) (s : Dev) : Dev :=
  let d := posOf (dieRecs s n) ((s.now + 12288) * 256)
  let y := monOf s n m
  if y.verifyAt.isSome then verifyAsk n m false d (updMon n m (fun y => { y with verifyVoid := true }) s)
  else if bitOf (rd s oVerifyCtrl [n]) 0 then verifyAsk n m false d s
  else s

/-- GUARD_REQUIRED is met (R251): some monitor with ACTION [1] is RUNNING. -/
def guardPresent (s : Dev) (n : Ch) : Bool :=
  (List.finRange 4).any fun m => bitOf (rd s oAction [n, m]) 1 && (monOf s n m).st == .running

/-! ### Power-up calibration -/

/-- POWERUP_CALIBRATION_COMPLETE (R126): all slices and source paths of a die have been calibrated; verifies that waited for READY are
entered (R259). -/
def execPowerupCalibrationComplete (k : Die) (slices : List SliceTrim) (sources : List SourceTrim) (s : State) :
    Host.Outcome State Fault Refusal := onDev s fun s =>
  .next (
    let ready := (List.finRange 24).any fun n => decide (Ch.die n = k) && (s.ch n).vm.ready
    if s.supply.released && !ready && serviceRuns s k 2 then
      let s := unitRelease (powerupId k) (0x80 + k.val) s
      forDie k (fun n s =>
        let s := powerupSource n sources (powerupArray n .im slices (powerupArray n .vm slices s))
        forMons (fun m s => verifyResume n m s) s) s
    else s)

/-! ### Views -/

/-- DECIDED codes (Table 8.10). -/
def decidedCode : Decided → Nat
  | .undecided => 0 | .inside => 1 | .above => 2 | .below => 3

/-- STATE codes of a monitor (Table 8.10). -/
def monStateCode : MonState → Nat
  | .off => 0 | .starting => 1 | .running => 2

/-- MON_STATUS (Table 8.10). -/
def monStatus (s : Dev) (n : Ch) (m : Mon) : Nat :=
  let y := monOf s n m
  decidedCode y.decided + 4 * monStateCode y.st + flagAt y.inBand 4 + flagAt (monMet s n m) 5 + flagAt y.blankTo.isSome 6 +
    flagAt (latchSet s y.soft) 7 + flagAt (latchSet s y.hard) 8 + flagAt y.esc.isSome 9 + flagAt y.threshFault 10 + flagAt y.verifyStale 11

/-- A verify of the monitor is requested and not complete. -/
def verifyPending (s : Dev) (n : Ch) (m : Mon) : Bool :=
  let y := monOf s n m
  y.verifyWant.isSome || y.verifyAt.isSome || (sharedOf s (pathUnit n (verifyArr m))).waiters.any fun r => r.id == verifyId n m

/-- VERIFY_STATUS (Table 8.11). -/
def verifyStatus (s : Dev) (n : Ch) : Nat :=
  let c := s.ch n
  let inVerify (x : Arr) : Bool := x.slices.toList.any fun z => z.st == .verify
  (List.finRange 4).foldl (fun v m =>
    let y := monOf s n m
    v + flagAt (y.verified && !y.verifyStale) m + flagAt (verifyPending s n m) (4 + m)) 0 +
    flagAt (inVerify c.vm) 8 + flagAt (inVerify c.im) 9 + flagAt (noSpare c.vm) 10 + flagAt (noSpare c.im) 11

/-- MON_STATES (Table 8.9). -/
def monStates (s : Dev) (n : Ch) : Nat := (List.finRange 4).foldl (fun v m => v + decidedCode (monOf s n m).decided * 4 ^ m.val) 0

/-- Counters cleared by C(n)+0xA4:09 (Table 8.9). -/
def clearGuardCounters (n : Ch) (v : Nat) (s : Dev) : Dev :=
  forMons (fun m s => if bitOf v m then wr s oTrips 0 [n, m] else s) s

end Sys2Proof.Machine
end

