-- ==== Sys2Proof/Machine/Ledger.lean ====
section
/-! DEFINITION. The traceability ledger (09, R283 to R293): calibration objects and statements, records, appends, scan, load, marks, the
drift model. -/

namespace Sys2Proof.Machine

/-- The ledger unit rewritten. -/
def updLedger (f : Ledger → Ledger) (s : Dev) : Dev := { s with ledger := f s.ledger }

/-! ### Records -/

/-- The part of a 64-byte header before the hashes (Table 9.11), APPLY_MARK as given. -/
def headerStart (r : LRecord) (mark : Nat) : List Byte :=
  leBytes 2 r.type ++ leBytes 1 1 ++ leBytes 1 r.flags ++ leBytes 4 r.seq ++ leBytes 8 r.effectPos ++ leBytes 4 r.powerUps ++
    leBytes 4 r.authSeq ++ leBytes 8 r.age ++ leBytes 8 r.utc ++ leBytes 4 r.payload.length ++ leBytes 1 r.origin ++ leBytes 1 mark ++
    leBytes 2 0

/-- The 176 header bytes of a record (Table 9.11), APPLY_MARK as given. -/
def headerBytes (r : LRecord) (mark : Nat) : List Byte :=
  headerStart r mark ++ leBytes 64 r.prevHash ++ leBytes 64 (Config.shake256 r.payload)

/-- The authority signature as stored: present with FLAGS [0]. -/
def authBytes (r : LRecord) : List Byte := if r.flags = 1 then leBytes 114 r.authSig else []

/-- The record hash (R290): APPLY_MARK is read as 0xFF. -/
def recordHash (r : LRecord) : Nat := Config.shake256 (headerBytes r 0xFF ++ leBytes 114 r.devSig ++ authBytes r)

/-- The record as stored (R290). -/
def recordStored (r : LRecord) : List Byte := headerBytes r r.mark ++ r.payload ++ leBytes 114 r.devSig ++ authBytes r

/-- HEAD_SEQ. -/
def headSeq (nv : Nv) : Nat :=
  match nv.recs.getLast? with
  | some r => r.seq
  | none => Config.shippedSeq

/-- HEAD_HASH. -/
def headHash (nv : Nv) : Nat :=
  match nv.recs.getLast? with
  | some r => recordHash r
  | none => Config.shippedHash

/-- LEDGER_FREE. -/
def ledgerFree (nv : Nv) : Nat := Config.shippedFree - nv.used

/-- AGE_NOW (R291), ms. -/
def ageNow (s : Dev) : Nat := s.ledger.ageBase + s.now / msTicks

/-- UTC extrapolated from HOST_UTC; 0 if unknown (Table 9.11). -/
def utcNow (s : Dev) : Nat :=
  match s.ledger.utc with
  | some (v, t) => v + (s.now - t) / msTicks
  | none => 0

/-- The record of an append, at the present tick (R290; log 37). -/
def mkRecord (nv : Nv) (s : Dev) (a : Append) : LRecord :=
  let r : LRecord := {
    type := a.type, flags := if a.authSig.isSome then 1 else 0, seq := (headSeq nv + 1) % 2 ^ 32, effectPos := a.effectPos
    powerUps := s.ledger.powerUps, authSeq := a.authSeq, age := ageNow s, utc := if a.authSig.isSome then a.utc else utcNow s
    payload := a.payload, origin := a.origin, mark := 0xFF, prevHash := headHash nv, devSig := 0, authSig := a.authSig.getD 0 }
  { r with devSig := Config.identitySign (headerBytes r 0xFF) }

/-- Pages of so many bytes. -/
def pagesOf (bytes : Nat) : Nat := (bytes + 255) / 256

/-- A transaction slot rewritten. -/
def updTxn (p : Fin 5) (slot : Nat) (f : Txn → Txn) (s : Dev) : Dev :=
  { s with ports := s.ports.set p (let x := s.ports[p]
      { x with txns := x.txns.mapIdx fun i t => if i + 1 = slot then f t else t }) }

/-- The payload of an ABORT record (Table 9.12). -/
def abortPayload (seq cause : Nat) : List Byte := leBytes 4 seq ++ leBytes 1 cause ++ leBytes 3 0

/-- What follows a durable record: its transaction knows it (R286), a comparison's SEQ is reported, a record whose transaction has aborted
is followed by its ABORT. -/
def appended (a : Append) (seq : Nat) (s : Dev) : Dev :=
  let s := match a.slot, a.aborted with
    | some (p, i), none => updTxn (portOfClass p) i (fun t => { t with record := some seq }) s
    | _, _ => unitRelease (appendId a) 0xA0 s
  let s := if a.type = 2 then wr s oCmpLastSeq seq [] else s
  let s := updLedger (fun l => { l with lastAt := s.now }) s
  match a.aborted with
  | some c => causeRecord (ownAppend 6 (abortPayload seq c) 0 0xFF s) s
  | none => ledgerAsk s

/-- The record being programmed (R291): the first whose requester holds the ledger (log 41). -/
def programmed (s : Dev) : Option Append := s.ledger.queue.find? fun a => holds s (appendId a) 0xA0

/-- LEDGER_APPEND (R289 to R291): the record whose requester holds the ledger is durable; `notBlank` pages were found not blank. With no
room left it is lost. -/
def ledgerAppend (notBlank : Nat) (nv : Nv) (s : Dev) : Nv × Dev :=
  match programmed s with
  | none => (nv, s)
  | some a =>
    if !s.ledger.scanDone then (nv, s)
    else
      let n := pagesOf (recordBytes a)
      let s := updLedger (fun l => { l with queue := l.queue.erase a }) s
      if ledgerFree nv < n + notBlank then
        let s := bump oLedgerLost [] (updLedger (fun l => { l with full := true }) s)
        let s := if a.slot.isNone || a.aborted.isSome then unitRelease (appendId a) 0xA0 s else s
        (nv, ledgerAsk s)
      else
        let r := mkRecord nv s a
        ({ nv with recs := nv.recs ++ [r], used := nv.used + n + notBlank }, appended a r.seq (bumpBy oLedgerSkips notBlank [] s))

/-- A page program that a reset found in progress completes on the hold-up (R381, R382): its record is in the ledger. -/
def programEnds (nv : Nv) (s : Dev) : Nv × Dev :=
  match s.ledger.program with
  | some (r, n) => ({ nv with recs := nv.recs ++ [r], used := nv.used + n }, updLedger (fun l => { l with program := none }) s)
  | none => (nv, s)

/-- LEDGER_APPEND. -/
def execLedgerAppend (notBlank : Nat) (s : State) : Host.Outcome State Fault Refusal :=
  if s.dev.supply.released then onBoth s (ledgerAppend notBlank)
  else
    let r := programEnds s.nv s.dev
    .next { s with dev := r.2, nv := r.1 }

/-- The record whose program a reset cuts short (R381): the one being programmed, or one that an earlier reset cut short before the scan. -/
def programCut (nv : Nv) (s : Dev) : Option (LRecord × Nat) :=
  if s.ledger.scanDone then (programmed s).map fun a => (mkRecord nv s a, pagesOf (recordBytes a)) else s.ledger.program

/-- CHECKPOINT (R291): 24 h of powered time without another record. -/
def execCheckpoint (s : State) : Host.Outcome State Fault Refusal := onDev s fun s =>
  .next (
    if s.ledger.queue = [] && s.ledger.scanDone then
      let s := advance (s.ledger.lastAt + 86400000 * msTicks) s
      causeRecord (ownAppend 9 [] 0 0xFF s) s
    else s)

/-! ### Calibration objects -/

/-- A correction entry (R283). -/
def isCorrection (index : Nat) : Bool :=
  0x3000 ≤ index && index < 0x4800 && 0xC0 ≤ index % 0x100 && index % 0x100 ≤ 0xC2

/-- A calibration object of R283 other than AUTH_KEY: a correction entry, OVEN_SETPOINT, a compensation point or COMP_COUNT. -/
def isCalObject (index sub : Nat) : Bool := isCorrection index || (index == 0x2600 && sub == 2) || index == 0x2601

/-- AUTH_KEY. -/
def isAuthKey (index sub : Nat) : Bool := index == 0x2611 && sub == 1

/-- CAL_STATEMENT. -/
def isStatement (index sub : Nat) : Bool := index == 0x2610 && sub == 1

/-- Any object that only the calibration authority writes. -/
def isAuthority (index sub : Nat) : Bool := isCalObject index sub || isAuthKey index sub || isStatement index sub

/-- A staged write put in ascending order of index and subindex (R284). -/
def stagedInsert (w : Staged) : List Staged → List Staged
  | [] => [w]
  | x :: t => if w.index * 256 + w.sub ≤ x.index * 256 + x.sub then w :: x :: t else x :: stagedInsert w t

/-- The calibration writes a transaction stages, in the order of the payload. -/
def calWrites (t : Txn) : List Staged := (t.staged.filter fun w => isCalObject w.index w.sub).foldr stagedInsert []

/-- The AUTH_KEY write a transaction stages. -/
def keyWrite (t : Txn) : Option Staged := t.staged.find? fun w => isAuthKey w.index w.sub

/-- The CAL_STATEMENT a transaction stages. -/
def statementOf (t : Txn) : Option (List Byte) := (t.staged.find? fun w => isStatement w.index w.sub).map Staged.data

/-- The payload of a CAL_SET (R284): 20 bytes per object. -/
def calPayload (t : Txn) : List Byte :=
  (calWrites t).flatMap fun w =>
    leBytes 2 w.index ++ leBytes 1 w.sub ++ leBytes 1 w.data.length ++ (w.data ++ leBytes 16 0).take 16

/-- The record a calibration transaction appends: type and payload; none where it stages no calibration object. -/
def calRecord (t : Txn) : Option (Nat × List Byte) :=
  match keyWrite t with
  | some w => some (5, (w.data ++ leBytes 64 0).take 64)
  | none => if calWrites t = [] then none else some (1, calPayload t)

/-- AUTH_SEQ, UTC and signature of a staged statement. -/
def statementFields (l : List Byte) : Nat × Nat × Nat := (ofBytes (l.take 4), ofBytes ((l.drop 4).take 8), ofBytes (l.drop 12))

/-- The authority statement (Table 9.9). -/
def statementBytes (type : Nat) (payload : List Byte) (seq utc : Nat) : List Byte :=
  leBytes 64 (Config.shake256 (leBytes 57 Config.provPubkey)) ++ leBytes 64 (Config.shake256 payload) ++ leBytes 2 type ++ leBytes 4 seq ++
    leBytes 8 utc

/-- The authority's signature of a staged statement is good, by the key in force (R285, R288). -/
def signatureGood (s : Dev) (type : Nat) (payload l : List Byte) : Bool :=
  let f := statementFields l
  Config.edVerify (rd s oAuthKey []) (statementBytes type payload f.1 f.2.1) f.2.2

/-- LEDGER_LEAD of what a transaction stages (R285), ms; 0 where it stages nothing that is recorded. -/
def stagedLeadMs (t : Txn) : Nat :=
  match calRecord t with
  | none => 0
  | some (_, p) => 2 + 3 * pagesOf (176 + p.length + 114 + (if (statementOf t).isSome then 114 else 0))

/-- Pages of the record a transaction appends. -/
def stagedPages (t : Txn) : Nat :=
  match calRecord t with
  | none => 0
  | some (_, p) => pagesOf (176 + p.length + 114 + (if (statementOf t).isSome then 114 else 0))

/-- The checks of a Keystone write on calibration objects (R284, R285, R288, R291): the abort code, if any. -/
def calRefusal (nv : Nv) (s : Dev) (t : Txn) : Option Nat :=
  let cal := calWrites t ≠ []
  let key := (keyWrite t).isSome
  let st := statementOf t
  let factory := rd s oAuthKeyFactory [] = 1
  if (cal && key) || (cal && st.isNone) || (st.isSome && !cal && !key) || (key && st.isNone && !factory) then some 0x0F100098
  else match calRecord t with
    | none => none
    | some (type, payload) =>
      let bad := match st with
        | some l =>
          if !signatureGood s type payload l then some (if key && !factory then 0x0F100093 else 0x0F100091)
          else if (statementFields l).1 ≤ rd s oLastAuthSeq [] then some 0x0F100091
          else none
        | none => none
      match bad with
      | some c => some c
      | none => if ledgerFree nv < stagedPages t + 256 then some 0x0F100092 else none

/-! ### Load -/

/-- The items of a CAL_SET payload: key and value. -/
def calItems (fuel : Nat) (l : List Byte) : List (Nat × Nat) :=
  match fuel, l with
  | 0, _ => []
  | _, [] => []
  | k + 1, l =>
    (objKey (ofBytes (l.take 2)) (ofBytes ((l.drop 2).take 1)) 0, ofBytes ((l.drop 4).take (ofBytes ((l.drop 3).take 1)))) ::
      calItems k (l.drop 20)

/-- A record passes the scan: it lies before a broken chain (R292). -/
def beforeBroken (s : Dev) (r : LRecord) : Bool :=
  match s.ledger.broken with
  | some b => decide (r.seq < b)
  | none => true

/-- An ABORT record of the ledger names this SEQ. -/
def abortNamed (nv : Nv) (seq : Nat) : Bool := nv.recs.any fun r => r.type == 6 && ofBytes (r.payload.take 4) == seq

/-- One record of the ledger loaded (R287): applied CAL_SETs and AUTHORITY_KEYs take effect, unmarked ones of an earlier power-up are
reported and aborted. -/
def loadRecord (nv : Nv) (s : Dev) (r : LRecord) : Dev :=
  if !beforeBroken s r || (r.type ≠ 1 && r.type ≠ 5) then s
  else if r.mark = 0 then
    let s := if r.type = 1 then (calItems r.payload.length r.payload).foldl (fun s e => putKey e.1 e.2 s) s
      else wr (wr s oAuthKey (ofBytes (r.payload.take 57)) []) oAuthKeyFactory 0 []
    if r.flags = 1 then wr s oLastAuthSeq r.authSeq [] else s
  else if r.powerUps < s.ledger.powerUps && !abortNamed nv r.seq then
    let s := updLedger (fun l => { l with unconfirmed := true }) s
    causeRecord (ownAppend 6 (abortPayload r.seq 0) 0 0xFF s) s
  else s

/-- The keys of the correction entries (R283). -/
def corrKeys : List Nat :=
  (List.range 24).flatMap fun n => [(0xC0, 34), (0xC1, 34), (0xC2, 4)].flatMap fun (e : Nat × Nat) =>
    (List.range e.2).map fun j => objKey (0x3000 + 0x100 * n + e.1) (j + 1) 0

/-- The entries of shipped records that lie at or after a broken chain are not loaded (R292): they are not provisioned (R156). -/
def unloadShipped (b : Nat) (s : Dev) : Dev := corrKeys.foldl (fun s k => if b ≤ Config.shippedCalSeq k then putKey k 0 s else s) s

/-- CAL_LOADED (R287): after the scan of the ledger, the calibration objects are rebuilt from the records that passed it, those the part shipped
with (the objects' defaults, R283) and those appended since. -/
def execCalLoaded (s : State) : Host.Outcome State Fault Refusal := onDevNv s fun nv s =>
  .next (
    if !s.supply.released || s.ref.calLoaded || !s.ledger.scanDone then s
    else
      let s := match s.ledger.broken with
        | some b => unloadShipped b s
        | none => s
      let s := nv.recs.foldl (loadRecord nv) s
      updRef (fun r => { r with calLoaded := true }) s)

/-- The payload of a START record (R396). -/
def startPayload (cause : Nat) : List Byte := leBytes 8 cause

/-- The authority's signature of a record that is loaded is bad by the key then in force (R285, R288, R292). A new factory key needs none. -/
def signatureBad (key : Nat) (r : LRecord) : Bool :=
  r.mark == 0 && (r.type == 1 || (r.type == 5 && r.flags == 1)) &&
    !Config.edVerify key (statementBytes r.type r.payload r.authSeq r.utc) r.authSig

/-- The first record at which the scan finds the chain broken (R292): PREV_HASH is not the hash of the record before it, or a signature fails. The
payload hash of a record is that of the payload the model holds. -/
def scanBreak (key hash : Nat) : List LRecord → Option Nat
  | [] => none
  | r :: t =>
    if r.prevHash ≠ hash || signatureBad key r then some r.seq
    else scanBreak (if r.type = 5 && r.mark = 0 then ofBytes (r.payload.take 57) else key) (recordHash r) t

/-- The earlier of two breaks. -/
def earlierBreak : Option Nat → Option Nat → Option Nat
  | some a, some b => some (min a b)
  | a, none => a
  | none, b => b

/-- A START record (Table 13.2, R396): it waits for the ledger scan. -/
def startRecord (cause : Nat) (s : Dev) : Dev :=
  if s.ledger.scanDone then causeRecord (ownAppend 7 (startPayload cause) 0 0xFF s) s
  else { s with control := { s.control with starts := s.control.starts ++ [cause] } }

/-- The START records that waited for the scan. -/
def startsFollow (s : Dev) : Dev :=
  s.control.starts.foldl (fun s c => startRecord c s) { s with control := { s.control with starts := [] } }

/-- LEDGER_SCAN_COMPLETE (R292): the scan checks the chain and the signatures; `torn` and `broken` are what the flash itself shows, a torn last record and
the first record that reads damaged; a record whose program a reset cut short is torn. TORN or BROKEN is reported with a NOTICE, the START records that wait follow, SCAN_DONE sets. At power-up the
START record waits for the Control image too (Table 13.2). -/
def execLedgerScanComplete (torn : Bool) (broken : Option Nat) (s : State) : Host.Outcome State Fault Refusal := onDevNv s fun nv s =>
  .next (
    if !s.supply.released || s.ledger.scanDone then s
    else
      let broken := earlierBreak broken (scanBreak Config.provAuthKey Config.shippedHash nv.recs)
      let torn := torn || s.ledger.program.isSome
      let s := updLedger (fun l => { l with torn := torn, broken := broken, scanDone := true, program := none }) s
      let notice (offset cause : Nat) (s : Dev) : Dev :=
        causeRecord (ownAppend 10 (leBytes 4 offset ++ leBytes 4 cause) 0 0xFF s) s
      let s := if torn then notice (Config.noticeOffset 0) 1 s else s
      let s := match broken with
        | some b => notice (Config.noticeOffset (b + 1)) 2 s
        | none => s
      startsFollow (ledgerAsk s))

/-- APPLY_MARK_PROGRAM (R286, R289): the oldest applied record whose mark is still to be programmed is marked. -/
def applyMark (nv : Nv) (s : Dev) : Nv × Dev :=
  match s.ledger.marks with
  | [] => (nv, s)
  | (seq, _) :: t =>
    ({ nv with recs := nv.recs.map fun r => if r.seq = seq && r.mark = 0xFF then { r with mark := 0 } else r },
      updLedger (fun l => { l with marks := t, lastApplied := true }) s)

/-- APPLY_MARK_PROGRAM. -/
def execApplyMarkProgram (s : State) : Host.Outcome State Fault Refusal := onBoth s applyMark

/-! ### The drift model -/

/-- A comparison as the fit sees it (R293). -/
structure DriftRec where
  seq : Nat
  age : Nat
  utc : Nat
  status : Nat
  oven : Nat
  v : Int
  u : Nat
  deriving DecidableEq, Repr

/-- A REF_COMPARISON record of the ledger as the fit sees it. -/
def driftOf (r : LRecord) : DriftRec :=
  ⟨r.seq, r.age, r.utc, ofBytes ((r.payload.drop 76).take 1), ofBytes ((r.payload.drop 77).take 1),
    toSigned 64 (ofBytes ((r.payload.drop 56).take 8)), ofBytes ((r.payload.drop 64).take 8)⟩

/-- The comparisons of the ledger: those the part shipped with and those appended since. -/
def driftAll (nv : Nv) : List DriftRec :=
  ((List.range Config.shippedComparisons).map fun i =>
    let e := Config.shippedComparison i
    ⟨e.1, e.2.1, e.2.2.1, e.2.2.2.1, e.2.2.2.2.1, e.2.2.2.2.2.1, e.2.2.2.2.2.2⟩) ++
    (nv.recs.filter fun r => r.type == 2).map driftOf

/-- The records a port's selection takes (R293). -/
def driftPick (nv : Nv) (s : Dev) (p : Port) : List DriftRec :=
  let sel := rdP s oDriftSelect p []
  let last := rdP s oDriftLastSeq p []
  (driftAll nv).filter fun r =>
    r.status == 0 && rdP s oDriftFirstSeq p [] ≤ r.seq && (last == 0xFFFFFFFF || r.seq ≤ last) && !(bitOf sel 1 && bitOf r.oven 0) &&
      !(bitOf sel 0 && r.utc == 0)

/-- The unit of x, ms in a year (R293). -/
def yearMs : Int := 31557600000

/-- A result rounded to its object; one outside the object's range is open. -/
def driftVal (i : Nat) (lo hi v : Int) : Int := if lo ≤ v && v ≤ hi then v else Config.driftUndefined i

/-- The fit of R293 over times t (ms), deviations v − 10 V (nV) and uncertainties u (nV): slope, U_slope, prediction, U_pred in 10⁻¹² and
χ² × 1000. Sums run over c = Πu² / u², so that every quotient is exact until it is rounded (log 4). -/
def driftFit (l : List (Int × Int × Nat)) (t0 : Int) : Int × Int × Int × Int × Int :=
  let m : Nat := (l.map fun e => e.2.2 * e.2.2).foldl (fun a b => a * b) 1
  let c (e : Int × Int × Nat) : Int := ((m / (e.2.2 * e.2.2) : Nat) : Int)
  let sw := (l.map c).sum
  let sx := (l.map fun e => c e * e.1).sum
  let sy := (l.map fun e => c e * e.2.1).sum
  let sxx := (l.map fun e => c e * e.1 * e.1).sum
  let sxy := (l.map fun e => c e * e.1 * e.2.1).sum
  let syy := (l.map fun e => c e * e.2.1 * e.2.1).sum
  let a := sw * sxx - sx * sx
  let b := sw * sxy - sx * sy
  let d := t0 * sw - sx
  let mi : Int := (m : Int)
  if l.any fun e => e.2.2 = 0 then
    (Config.driftUndefined 0, Config.driftUndefined 1, Config.driftUndefined 2, Config.driftUndefined 3, Config.driftUndefined 4)
  else
    (driftVal 0 (-(2 ^ 63)) (2 ^ 63 - 1) (roundOpen (b * yearMs * 100) a),
      driftVal 1 0 (2 ^ 64 - 1) (rootOpen (mi * sw * yearMs * yearMs * 10000).toNat a.toNat : Nat),
      driftVal 2 (-(2 ^ 63)) (2 ^ 63 - 1) (roundOpen (100 * (sy * a + b * d)) (a * sw)),
      driftVal 3 0 (2 ^ 64 - 1) (rootOpen (10000 * mi * (a + d * d)).toNat (sw * a).toNat : Nat),
      driftVal 4 0 (2 ^ 32 - 1) (roundOpen (4000 * (syy * sw * a - sy * sy * a - b * b)) (mi * sw * a)))

/-- A write of DRIFT_RUN (R293); none where it is refused with 0x0F10_0097. -/
def driftRun (p : Port) (nv : Nv) (s : Dev) : Option Dev :=
  let byUtc := bitOf (rdP s oDriftSelect p []) 0
  let l := (driftPick nv s p).map fun r => (((if byUtc then r.utc else r.age : Nat) : Int), r.v - 10000000000, r.u)
  match l with
  | [] => none
  | e :: t =>
    if t.all fun x => x.1 == e.1 then none
    else
      let f := driftFit l (rdP s oDriftAt p [] : Nat)
      let s := wr (wr s oDriftN l.length []) oDriftSlope (ofSigned 64 f.1) []
      let s := wr (wr s oDriftUSlope f.2.1.toNat []) oDriftPred (ofSigned 64 f.2.2.1) []
      let s := wr (wr s oDriftUPred f.2.2.2.1.toNat []) oDriftChi2 f.2.2.2.2.toNat []
      some (wr s oDriftStatus 1 [])

/-! ### Views -/

/-- A record is being programmed. -/
def appending (s : Dev) : Bool := (programmed s).isSome

/-- Appends wait behind the record being programmed, if one is. -/
def appendsWait (s : Dev) : Bool := decide ((if appending s then 1 else 0) < s.ledger.queue.length)

/-- LEDGER_STATUS (Table 9.14). -/
def ledgerStatus (nv : Nv) (s : Dev) : Nat :=
  let l := s.ledger
  flagAt l.unconfirmed 0 + flagAt (appending s) 1 + flagAt (s.supply.warning && appendsWait s) 2 + flagAt l.full 3 +
    flagAt (ledgerFree nv < 4096) 4 + flagAt l.torn 5 + flagAt l.broken.isSome 6 + flagAt l.scanDone 7

/-- A record by SEQ as stored; none beyond HEAD_SEQ. -/
def recordAt (nv : Nv) (seq : Nat) : Option (List Byte) :=
  if headSeq nv < seq then none
  else match nv.recs.find? fun r => r.seq == seq with
    | some r => some (recordStored r)
    | none => some (Config.shippedRecord seq)

/-- CAL_STATUS (Table 9.10). -/
def calStatus (s : Dev) : Nat :=
  let adding := s.ledger.queue.any fun a => (a.type == 1 || a.type == 5) && holds s (appendId a) 0xA0
  flagAt s.sec.sealOpen 0 + flagAt adding 1 + flagAt s.ledger.lastApplied 2 + flagAt s.ledger.calAborted 3

end Sys2Proof.Machine
end

