-- ==== Sys2Proof/Machine/Reference.lean ====
section
/-! DEFINITION. The Reference die and source self-calibration (09, R267 to R270, R274, R281, R294; 01, R38). -/

namespace Sys2Proof.Machine

/-! ### The trim -/

/-- A compensation point (Table 9.16): temperature and trim. -/
def compPointOf (v : Nat) : Int × Int := (toSigned 16 (v / 2 ^ 48), toSigned 32 v)

/-- The factory table of the Reference die (R269): written with the points of the shipped ledger. -/
def factoryTable : List (Int × Int) :=
  (List.range (compCountDefault 0x2601 0x11)).map fun j => compPointOf (compPointDefault 0x2601 (j + 1))

/-- The compensation points in force (R269): the factory table until CAL_LOADED, then those the ledger was rebuilt to. A point of which the ledger
holds no other value is the shipped one, so a ledger that holds no point keeps the factory table (log 124). -/
def compPoints (s : Dev) : List (Int × Int) :=
  if s.ref.calLoaded then (List.range (rd s oCompCount [])).map fun j => compPointOf (rdJ s oCompPoint [] j) else factoryTable

/-- Linear interpolation between the points at a temperature (R269; log 4). -/
def compBetween (x : Int) : List (Int × Int) → Int
  | [] => 0
  | [p] => p.2
  | p :: q :: t => if x ≤ q.1 then p.2 + roundOpen ((q.2 - p.2) * (x - p.1)) (q.1 - p.1) else compBetween x (q :: t)

/-- The trim of the table at a temperature, and whether an end value applied (R269). -/
def compTrim (l : List (Int × Int)) (x : Int) : Int × Bool :=
  match l with
  | [] => (0, false)
  | p :: t =>
    if x < p.1 then (p.2, true)
    else
      let e := t.getLastD p
      if e.1 < x then (e.2, true) else (compBetween x (p :: t), false)

/-- REF_TRIM held to its range, ±500 ppm (R267; log 109). -/
def trimIn (i : Int) : Int := clampInt (-5000000) 5000000 i

/-- The points ascend in temperature (R269). -/
def compOrdered : List (Int × Int) → Bool
  | p :: q :: t => decide (p.1 < q.1) && compOrdered (q :: t)
  | _ => true

/-- REF_TRIM_UPDATE (R269): every 100 ms the sensors are read, and outside REGULATING REF_TRIM moves toward the table value by at most
0.005 ppm. Temperatures are in 0.01 °C, the heater power in mW; a heater that is off draws none. -/
def execRefTrimUpdate (dieTemp subTemp : Int) (heaterMw : Nat) (s : State) : Host.Outcome State Fault Refusal := onDev s fun s =>
  .next (
    let s := advance (s.ref.trimAt + 100 * msTicks) s
    let s := updRef (fun r => { r with trimAt := s.now }) s
    let s := wr (wr (wr s oRefDieTemp (ofSigned 16 dieTemp) []) oSubstrateTemp (ofSigned 16 subTemp) []) oHeaterPower (if s.ref.heater then heaterMw else 0) []
    if s.ref.oven = .regulating then s
    else
      let t := compTrim (compPoints s) (if s.ref.oven = .fault && s.ref.dieSensorFailed then subTemp else dieTemp)
      updRef (fun r => { r with trim := trimIn (r.trim + clampInt (-50) 50 (t.1 - r.trim)), clamped := t.2 }) s)

/-! ### The oven -/

/-- OVEN_STATE codes (Table 9.17). -/
def ovenCode : OvenState → Nat
  | .warmup => 0 | .regulating => 1 | .out => 2 | .fault => 3

/-- The heater loop of a state: it starts or restarts toward SP on entry to WARMUP, runs on in REGULATING, and the heater is off in OUT and
FAULT (Table 9.1). -/
def heaterRuns : OvenState → Bool
  | .warmup | .regulating => true
  | .out | .fault => false

/-- Entry to an oven state: the heater loop runs or is off, the change is counted and seen by a comparison (Table 9.1, Table 9.16, Table 9.5). -/
def ovenEnter (st : OvenState) (s : Dev) : Dev :=
  let on_ := heaterRuns st
  let s := if on_ then s else wr s oHeaterPower 0 []
  cmpOven (bump oOvenEvents [] (updRef (fun r => { r with oven := st, heater := on_, ovenSince := s.now }) s))

/-- The Control die cannot read the Reference die (R270). -/
def refUnread (s : Dev) : Bool := s.ref.linkFault || !s.control.running

/-- An OVEN_EVENT record (Table 9.12; log 36), held on the Reference die while it cannot be read (R270). -/
def ovenRecord (old : OvenState) (s : Dev) : Dev :=
  let payload := leBytes 1 (ovenCode old) ++ leBytes 1 (ovenCode s.ref.oven) ++ leBytes 2 (rd s oRefDieTemp []) ++ leBytes 2 (rd s oSubstrateTemp [])
  if refUnread s then updRef (fun r => { r with heldEvents := if r.heldEvents.length < 16 then r.heldEvents ++ [payload] else r.heldEvents }) s
  else causeRecord (ownAppend 8 payload 0 0xFF s) s

/-- Held OVEN_EVENT records are appended once the Control die can read them (R270). -/
def ovenHeld (s : Dev) : Dev :=
  if refUnread s then s
  else
    let l := s.ref.heldEvents
    l.foldl (fun s p => causeRecord (ownAppend 8 p 0 0xFF s) s) (updRef (fun r => { r with heldEvents := [] }) s)

/-- OVEN_REGULATING (Table 9.1): REF_TRIM is fixed at the table value for SP. -/
def execOvenRegulating (s : State) : Host.Outcome State Fault Refusal := onDev s fun s =>
  .next (
    if s.ref.oven = .warmup && s.supply.released then
      let t := compTrim (compPoints s) (rd s oOvenSetpoint [] : Nat)
      let s := updRef (fun r => { r with settled := true, ovenOut := false, warmupLong := false, trim := trimIn t.1, clamped := t.2 }) s
      ovenEnter .regulating s
    else s)

/-- OVEN_WARMUP_LONG (Table 9.1): 30 min in WARMUP. -/
def execOvenWarmupLong (s : State) : Host.Outcome State Fault Refusal := onDev s fun s =>
  .next (
    if s.ref.oven = .warmup && s.supply.released then
      updRef (fun r => { r with warmupLong := true }) (advance (s.ref.ovenSince + 1800000 * msTicks) s)
    else s)

/-- OVEN_OUT_ENTRY (Table 9.1). -/
def execOvenOutEntry (s : State) : Host.Outcome State Fault Refusal := onDev s fun s =>
  .next (
    let old := s.ref.oven
    if (old = .warmup || old = .regulating) && s.supply.released then
      ovenRecord old (ovenEnter .out (updRef (fun r => { r with ovenOut := true }) s))
    else s)

/-- OVEN_OUT_EXIT (Table 9.1). -/
def execOvenOutExit (s : State) : Host.Outcome State Fault Refusal := onDev s fun s =>
  .next (if s.ref.oven = .out then ovenRecord .out (ovenEnter .warmup s) else s)

/-- OVEN_FAULT (Table 9.1). -/
def execOvenFault (dieSensorFailed : Bool) (s : State) : Host.Outcome State Fault Refusal := onDev s fun s =>
  .next (
    let old := s.ref.oven
    if old = .fault || !s.supply.released then s
    else
      let s := updRef (fun r => { r with ovenFault := true, dieSensorFailed := dieSensorFailed }) s
      ovenRecord old (ovenEnter .fault s))

/-- A new OVEN_SETPOINT applied at the present tick (Table 9.1). -/
def setpointChanged (s : Dev) : Dev :=
  if s.ref.oven = .regulating then ovenEnter .warmup (updRef (fun r => { r with settled := false }) s) else s

/-- EXT_LEVEL_MEASUREMENT (R274): every 100 ms in EXTERNAL and REVERSED. -/
def execExtLevelMeasurement (microvolt : Int) (s : State) : Host.Outcome State Fault Refusal := onDev s fun s =>
  .next (
    if switchIn (switchPos s) then
      let s := advance (s.ref.extAt + 100 * msTicks) s
      let s := wr s oExtLevel (ofSigned 32 microvolt) []
      updRef (fun r => { r with extAt := s.now, extRangeErr := microvolt < 9000000 || 10500000 < microvolt }) s
    else s)

/-- The reference control link goes into fault or recovers: event 0x05 at the change (Table 11.9). -/
def refLinkTo (fault : Bool) (s : Dev) : Dev :=
  if s.ref.linkFault = fault then s
  else updRef (fun r => { r with linkFault := fault }) (logEvent 0x05 (if fault then 1 else 0) 0 s)

/-- REF_LINK_FAULT (R38): the Reference die keeps its state. A comparison is abandoned, and its end step moves the switch back (R279; log 140). -/
def execRefLinkFault (s : State) : Host.Outcome State Fault Refusal := onDev s fun s =>
  .next (
    let s := refLinkTo true s
    match s.ref.comparison with
    | some _ => cmpEnd true (ctlPos s) s
    | none => s)

/-- REF_LINK_RECOVER (R38, R270): held OVEN_EVENT records are read. -/
def execRefLinkRecover (s : State) : Host.Outcome State Fault Refusal := onDev s fun s =>
  .next (ovenHeld (refLinkTo false s))

/-! ### Source self-calibration -/

/-- The requester of a channel's self-calibration (Table 10.2). -/
def selfcalId (n : Ch) : Nat := reqId 6 n.val

/-- A channel's self-calibration rewritten. -/
def updSelfcal (n : Ch) (f : Selfcal → Selfcal) (s : Dev) : Dev := updCh n (fun c => { c with selfcal := f c.selfcal }) s

/-- A write of SRC_SELFCAL (R281): the modes named are run, the verify path first. -/
def selfcalStart (n : Ch) (p : Port) (v : Nat) (s : Dev) : Dev :=
  if v % 4 = 0 then s
  else
    let s := updSelfcal n (fun x =>
      let new := flagAt (bitOf v 0 && !x.voltage) 0 + flagAt (bitOf v 1 && !x.current) 0
      ⟨x.voltage || bitOf v 0, x.current || bitOf v 1, true, x.modes + new⟩) s
    unitRequest (selfcalId n) (pathUnit n .vm) (deadlineIn s (dlOffset s p.idx)) s

/-- The verify path is granted: the spare is held as for a verify, and the multiplexer is asked for with the same deadline (R281,
Table 10.2). -/
def selfcalPath (n : Ch) (deadline : Nat) (s : Dev) : Dev :=
  let s := match (s.ch n).vm.spare with
    | some i => updSlice n .vm i (fun z => { z with st := .verify }) s
    | none => s
  unitRequest (selfcalId n) (muxUnit n) deadline s

/-- The run ends: its units and the spare are released. -/
def selfcalStop (n : Ch) (s : Dev) : Dev :=
  let held := holds s (selfcalId n) (pathUnit n .vm)
  let s := dropRequester (selfcalId n) (updSelfcal n (fun _ => ⟨false, false, false, 0⟩) s)
  let s := if held then
      (match (s.ch n).vm.spare with
        | some i => updSlice n .vm i (fun z => { z with st := if z.st = .verify then .spareIdle else z.st }) s
        | none => s)
    else s
  idleRoles n .vm s

/-- A Keystone that applies SRC_ENABLE = 1 ends a run, the previous trims stay (R281). -/
def selfcalEnable (n : Ch) (s : Dev) : Dev := if (s.ch n).selfcal.running then selfcalStop n s else s

/-- SELFCAL_COMPLETE (R281): the results of one mode, with the multiplexer held and DS2 of the die running (R31). Results outside the limits keep the previous trims. -/
def execSelfcalComplete (n : Ch) (current : Bool) (offset gain : Int) (s : State) : Host.Outcome State Fault Refusal := onDev s fun s =>
  .next (
    let x := (s.ch n).selfcal
    if (if current then x.current else x.voltage) && holds s (selfcalId n) (muxUnit n) && serviceRuns s n.die 2 then
      let s := updSelfcal n (fun y => if current then { y with current := false } else { y with voltage := false })
        (selfcalResult n current offset gain s)
      let y := (s.ch n).selfcal
      if y.voltage || y.current then s else selfcalStop n (selfcalDone n s)
    else s)

/-! ### Views -/

/-- REF_STATUS (Table 9.17). CMP_RUNNING is set from the grant of the switch on. -/
def refStatus (s : Dev) : Nat :=
  let r := s.ref
  ovenCode r.oven + 16 * switchPos s + flagAt (r.comparison.isSome && holds s cmpId 0x20) 8 + flagAt r.settled 9 + flagAt r.ovenOut 10 +
    flagAt r.ovenFault 11 + flagAt r.warmupLong 12 + flagAt r.clamped 13 + flagAt r.calLoaded 14 + flagAt (calStaleAny s) 15 +
    flagAt r.cmpLate 16 + flagAt r.linkFault 17 + flagAt r.extRangeErr 18

/-- CMP_STATUS (Table 9.16). -/
def cmpStatus (s : Dev) : Nat :=
  match s.ref.comparison with
  | some c => rd s oCmpStatus [] % 8 + 1 + flagAt c.reversed 1 + c.pair * 256
  | none => rd s oCmpStatus []

/-- SELFCAL_STATUS (Table 9.8). -/
def selfcalStatus (s : Dev) (n : Ch) : Nat := rd s oSelfcalStatus [n] + flagAt (s.ch n).selfcal.running 0

end Sys2Proof.Machine
end

