-- ==== Sys2Proof/Machine/Checks.lean ====
section
/-! DEFINITION. The checks of a request (R332): existence, rights, length, reachability, limits, and the rules of the block chapters at
the three times of R312: as a write is staged, as its Keystone is admitted, at the prepare phase. -/

namespace Sys2Proof.Machine

/-- What a check says of a write: it passes, it is refused with an abort code, or it sets a reserved bit (R8). -/
inductive Verdict where
  | ok
  | abort (code : Nat)
  | reserved
  deriving DecidableEq, Repr

/-- The first check of a list that does not pass. -/
def firstBad : List Verdict → Verdict
  | [] => .ok
  | .ok :: t => firstBad t
  | v :: _ => v

/-- Refused with a device-specific code (Table 11.7) when the condition holds. -/
def refuseIf (b : Bool) (k : Nat) : Verdict := if b then .abort (0x0F100000 + k) else .ok

/-- The row is this one. -/
def rowIs (r o : Row) : Bool := r.ix == o.ix && r.sub == o.sub

/-! ### Objects, places, dies -/

/-- The places of an index in its row. -/
def placesOf (r : Row) (index : Nat) : List Nat := dimsPlace r.dims (index - r.ix)

/-- The element of a row that a subindex names. -/
def elementOf (r : Row) (sub : Nat) : Nat := (sub - r.sub) / r.subs.1

/-- The channel of an index (R17, Table 11.3). -/
def chOf (index : Nat) : Ch :=
  ⟨(if index < 0x5000 then (index - 0x3000) / 0x100 else (index - 0x5000) / 0x10 % 0x100) % 24, Nat.mod_lt _ (by decide)⟩

/-- The array of an index in the array ranges, place 1 of its row. -/
def arrAt (r : Row) (index : Nat) : ArrId := if (placesOf r index).getD 1 0 = 0 then .vm else .im

/-- The monitor of an index in the monitor range, place 1 of its row. -/
def monAt (r : Row) (index : Nat) : Mon := ⟨(placesOf r index).getD 1 0 % 4, Nat.mod_lt _ (by decide)⟩

/-- The bank of channel tables: 0x5000 + 0x10 n. -/
def isTable (index : Nat) : Bool := 0x5000 ≤ index && index < 0x6000

/-- The die that holds an object, numbered as DIE_MASK: 0 Control, 1 to 6 Channel, 7 Reference (R26, Table 10.12). -/
def objDie (index : Nat) : Nat :=
  if 0x3000 ≤ index && index < 0x4800 then 1 + (index - 0x3000) / 0x400
  else if isTable index then 1 + (index - 0x5000) / 0x40
  else if 0x2600 ≤ index && index ≤ 0x2602 then 7
  else 0

/-- A Channel die by its number in DIE_MASK. -/
def dieNo (d : Nat) : Die := ⟨(d - 1) % 6, Nat.mod_lt _ (by decide)⟩

/-- Check 4 of R332: the die can be reached. -/
def dieReachable (s : Dev) (d : Nat) : Bool :=
  if d = 0 then true
  else if d = 7 then !s.ref.linkFault
  else match s.dies[dieNo d].link.st with
    | .active | .retraining => true
    | .reset | .training | .lost => false

/-- The Channel die of an object whose link retrains (Table 1.6). -/
def linkWaits (s : Dev) (index : Nat) : Option Die :=
  let d := objDie index
  if 1 ≤ d && d ≤ 6 && s.dies[dieNo d].link.st == .retraining then some (dieNo d) else none

/-- The die whose link holds a request of a port. -/
def portHolds (s : Dev) (p : Port) : Option Die :=
  (List.finRange 6).find? fun k => s.dies[k].link.held.any fun m => match m with
    | .request q _ => q == p
    | .fabric _ | .record | .sync _ _ | .cut _ | .telemetry _ _ _ _ | .rx _ _ | .prepare _ _ => false

/-- Where a request of a port to an object waits: on the link that holds an earlier request of the port, for a port's requests act in their order
(R333), else on the retraining link of the object's die; none, it is served at once. -/
def heldAt (s : Dev) (p : Port) (index : Nat) : Option Die :=
  match portHolds s p with
  | some k => some k
  | none => linkWaits s index

/-- A request held by a link: its port has no answer yet. -/
def holdRequest (k : Die) (p : Port) (r : HeldReq) (s : Dev) : Dev := setAnswer p .none (linkHolds k (.request p r) s)

/-! ### Existence and rights -/

/-- What the Ports column gives a port (R19). -/
def rightOf (r : Row) (p : Port) : Right := r.rights.getD p.idx Right.none

/-- The highest subindex of an object (R329). -/
def highestSub (l : List Row) : Nat := maxNat (l.map fun r => r.sub + r.subs.1 * (r.subs.2 - 1))

/-- What an index and subindex name for a port. -/
inductive Named where
  /-- A row of an object map. -/
  | row (r : Row)
  /-- The subindex 00 of R329: the highest subindex. -/
  | count (n : Nat)
  /-- Nothing: the abort code of check 1. -/
  | missing (code : Nat)

/-- Check 1 of R332, with the subindex 00 of R329. -/
def nameOf (p : Port) (index sub : Nat) : Named :=
  match rowsAt index with
  | [] => .missing 0x06020000
  | l =>
    match l.find? fun r => rowHasSub r sub with
    | some r => if rightOf r p == .none then .missing 0x0F100001 else .row r
    | none =>
      if sub = 0 then (if l.any fun r => rightOf r p != .none then .count (highestSub l) else .missing 0x0F100001)
      else .missing 0x06090011

/-- Check 2 of R332 for a write. -/
def mayWrite (r : Row) (p : Port) : Verdict :=
  match rightOf r p with
  | .none => .abort 0x0F100001
  | .read => if r.acc == .ro then .abort 0x06010002 else .abort 0x0F100001
  | .full => if r.acc == .ro then .abort 0x06010002 else .ok

/-! ### Length -/

/-- A DOMAIN layout of a first number of two bytes and entries of `k` bytes. -/
def entriesFit (k len : Nat) : Bool := k + 2 ≤ len && (len - 2) % k == 0

/-- Check 3 of R332 (R330, R335). -/
def lengthOk (r : Row) (len : Nat) : Bool :=
  if r.size ≠ 0 then len == r.size
  else if rowIs r oQueueConfig || rowIs r oCtrlQueueConfig then entriesFit 8 len
  else if rowIs r oMcfgTable then entriesFit 16 len
  else if rowIs r oBankA || rowIs r oBankB then entriesFit 32 len
  else if rowIs r oPatchData then len == 32
  else if rowIs r oSrcQData then len ≠ 0 && len % 5 == 0 && len ≤ 20480
  else true

/-! ### Limits -/

/-- Check 6 of R332 as the Meaning column states it. -/
def limitCheck (r : Row) (v : Nat) : Verdict :=
  let i : Int := if r.signed then toSigned (8 * r.size) v else (v : Int)
  match r.lim with
  | .any => .ok
  | .rng lo hi => refuseIf (!(lo ≤ i && i ≤ hi)) 3
  | .vals l => refuseIf (!l.contains i) 3
  | .bits m => if v &&& m ≠ 0 then .reserved else .ok

/-- A class has a DL_OFFSET, and a GRACE (Table 10.2). -/
def hasOffset (c : Nat) : Bool := ArbValues.dflt.offset.getD c 0 ≠ 0
/-- GRACE. -/
def hasGrace (c : Nat) : Bool := ArbValues.dflt.grace.getD c 0 ≠ 0

/-- A queue descriptor's own fields (R163, R168, Table 5.8): reserved bits, DEPTH, STREAM, CONSUMER. -/
def descCheck (ctrl : Bool) (v : Nat) : Verdict :=
  let d := BitVec.ofNat 64 v
  if getField v 61 3 ≠ 0 || getField v 0 16 ≠ 0 || (ctrl && (descStream d ≠ 0 || descCompanion d || descTarget d ≠ 0)) then .reserved
  else refuseIf (4096 < getField v 48 13 || 8 ≤ descStream d || (ctrl && descConsumer d == 2)) 3

/-- The 8-byte entries of a descriptor write. -/
def descEntries (l : List Byte) : List Nat := (List.range ((l.length - 2) / 8)).map fun i => ofBytes ((l.drop (2 + 8 * i)).take 8)

/-- Values that the Meaning column of a row excludes beyond its range. QUEUE_FLUSH of a number that no queue bears is refused too (DESIGN CHOICE,
log 159). -/
def valueCheck (r : Row) (index sub : Nat) (data : List Byte) : Verdict :=
  let v := ofBytes data
  let first := ofBytes (data.take 2)
  let count (k : Nat) := (data.length - 2) / k
  if r.size ≠ 0 then
    firstBad [limitCheck r v,
      if rowIs r oDlOffset then refuseIf (!hasOffset (elementOf r sub)) 3
      else if rowIs r oGrace then refuseIf (!hasGrace (elementOf r sub)) 3
      else if rowIs r oBlank then refuseIf (2 ≤ (monAt r index).val && v ≠ 0) 3
      else if rowIs r oAuxSel then refuseIf ((monAt r index).val ≠ 2 && v ≠ 0) 3
      else if rowIs r oAction then refuseIf (2 ≤ (monAt r index).val && bitOf v 2) 3
      else if rowIs r oCutSrc then (if v &&& 0xFF00000F ≠ 0 then .reserved else refuseIf (12 ≤ getField v 20 4) 3)
      else if rowIs r oHostHold then
        refuseIf ((List.range 256).any (fun u => bitOf v u && !hostMayHold u) || 16 < ((List.range 256).filter (bitOf v)).length) 3
      -- a number that names no device queue (log 134)
      else if rowIs r oHeadMap then refuseIf (v ≠ 0xFFFF && 16384 ≤ v) 3
      else if rowIs r oCrrSel then
        (if bitOf v 15 || getField v 25 7 ≠ 0 then .reserved else refuseIf (bitOf v 14 || getField v 16 9 = 0 || 256 < getField v 16 9) 3)
      else if rowIs r oIrqMask then (if 64 ≤ v then .reserved else .ok)
      else if rowIs r oQueueFlush then refuseIf (v = 0 || 512 ≤ v) 3
      else if rowIs r oKeystone then (if getField v 9 7 ≠ 0 then .reserved else refuseIf (v % 256 = 0 || 16 < v % 256) 3)
      else .ok]
  else if rowIs r oQueueConfig then
    firstBad (refuseIf (first = 0 || 511 < first + count 8 - 1) 3 :: (descEntries data).map (descCheck false))
  else if rowIs r oCtrlQueueConfig then
    firstBad (refuseIf (4095 < first + count 8 - 1) 3 :: (descEntries data).map (descCheck true))
  else if rowIs r oBankA || rowIs r oBankB then
    firstBad [refuseIf (8191 < first + count 32 - 1) 3,
      refuseIf ((List.range (count 32)).any fun i => courseReserved (ofBytes ((data.drop (2 + 32 * i)).take 32))) 3]
  else if rowIs r oPatchData then refuseIf (courseReserved v) 3
  else .ok

/-! ### The transaction as it will stand -/

/-- Slots of every port, with port and slot number. -/
def allTxns (s : Dev) : List (Port × Nat × Txn) :=
  [Port.n, .s, .c, .x, .d].flatMap fun p => (List.range 16).map fun i => (p, i + 1, txnOf s p.idx (i + 1))

/-- PREPARING or COMMITTED. -/
def txnPending (t : Txn) : Bool := t.st == .preparing || t.st == .committed

/-- A transaction stages some object of a channel's row. -/
def stages (t : Txn) (r : Row) (places : List Nat) : Bool := (stagedAt t r places).isSome

/-- Staged values of plain objects stored. -/
def storeSettings (s : Dev) (t : Txn) : Dev :=
  t.staged.foldl (fun s w => match rowOf w.index w.sub with
    | some r => if r.size ≠ 0 && !r.perPort then putKey (objKey w.index w.sub 0) (ofBytes w.data) s else s
    | none => s) s

/-- A transaction applies before one of position `pos` and admission number `order` (R315). -/
def appliesBefore (pos order : Nat) (t : Txn) : Bool := posLater pos t.pos || (t.pos % posMod == pos % posMod && decide (t.order < order))

/-- A transaction put in the order in which a list of them applies. -/
def txnInsert (t : Txn) : List Txn → List Txn
  | [] => [t]
  | u :: l => if appliesBefore u.pos u.order t then t :: u :: l else u :: txnInsert t l

/-- Transactions of some state that apply before a position and admission number, in their order. -/
def txnsBefore (s : Dev) (pick : Txn → Bool) (pos order : Nat) : List Txn :=
  ((allTxns s).filterMap fun e => if pick e.2.2 && appliesBefore pos order e.2.2 then some e.2.2 else none).foldr txnInsert []

/-- Settings a Keystone has applied that wait for a boundary of their own: those of 0x2100 (R62), of a sine in REEL mode (R84), of a loop during a
range change (R200). -/
def settingsWaiting (s : Dev) : List (Nat × Nat) :=
  (s.cad.waiting.map fun w => (w.key, w.value)) ++ s.chans.toList.flatMap fun c =>
    c.src.sine.waiting ++ (match c.loop.xover with
      | some x => x.writes
      | none => [])

/-- The objects as they will stand before a Keystone: what waits for a boundary and what COMMITTED transactions apply first are stored. -/
def settingsBefore (s : Dev) (pos order : Nat) : Dev :=
  (txnsBefore s (fun t => t.st == .committed) pos order).foldl storeSettings
    ((settingsWaiting s).foldl (fun s e => putKey e.1 e.2 s) s)

/-- The objects as a Keystone would leave them. -/
def settingsAfter (s : Dev) (t : Txn) : Dev := storeSettings (settingsBefore s t.pos t.order) t

/-- A staged value differs from the one in force. -/
def changes (s o : Dev) (r : Row) (places : List Nat) : Bool := rd s r places != rd o r places

/-! ### Reel settings (R46, R54, R72, R78, R84) -/

/-- The frequency in Hz on REFCLK_IN at the present tick, as a quotient (R46, R72): from the last group of D edges while REFCLK_IN is in force, else
free (log 118); 10 MHz where no edges are present. -/
def refclkHz (s : Dev) : Nat × Nat :=
  if s.cad.src = 1 then
    match s.cad.present, s.cad.lastLen with
    | true, some l => (unitsPerSecond * rd s oRefclkDiv [], l)
    | _, _ => (10000000, 1)
  else ((Config.refclkMeasured s.now).getD 10000000, 1)

/-- The Reel frequency in Hz that source and settings give, as a quotient (R46, R72). -/
def reelHz (s o : Dev) : Nat × Nat :=
  match rd o oReelSource [] with
  | 0 => (if rd o oMainsBand [] = 0 then 45 else 360, 1)
  | 1 => ((refclkHz s).1, (refclkHz s).2 * rd o oRefclkDiv [])
  | 2 => (rd o oPpsMult [], 1)
  | _ => (rd o oReelNom [], 1000)

/-- R46: the Reel frequency lies between 1 Hz and 10 kHz; the Zhewick source is not checked. -/
def reelHzOk (s o : Dev) : Bool :=
  let f := reelHz s o
  rd o oReelSource [] = 3 || (f.2 ≤ f.1 && f.1 ≤ 10000 * f.2)

/-- R72: the loop bandwidth, 10^PLL_BW / 1000 Hz, is at most one twentieth of the Reel frequency. -/
def bandwidthOk (s o : Dev) : Bool :=
  let f := reelHz s o
  rd o oReelSource [] = 3 || 20 * 10 ^ rd o oPllBw [] * f.2 ≤ 1000 * f.1

/-- A position is pending whose meaning a renumbering would change (R54). -/
def positionPending (s : Dev) : Bool :=
  (allTxns s).any (fun e => txnPending e.2.2) ||
    s.chans.any (fun c => match c.seq.wait with
      | some w => (match w.release with | some (.pos _) => true | _ => false)
      | none => false) ||
    rd s oSlateAt [] ≠ 0 || s.zh.slate.isSome || s.zh.sync.isSome

/-- The present cycle length. -/
def lenNow (s : Dev) : Nat := (curRec s.cad.recs s.now).len

/-- R78: 1 S/s to 1.536 MS/s. -/
def rateOk (s o : Dev) (n : Ch) : Bool :=
  let a := unitsPerSecond * rd o oSrcRateNum [n]
  let b := lenNow s * rd o oSrcRateDen [n]
  b ≤ a && a ≤ 1536000 * b

/-- R84: at most 200 kHz. -/
def sineOk (s o : Dev) (n : Ch) : Bool :=
  unitsPerSecond * rd o oSineRatioNum [n] ≤ 200000 * lenNow s * rd o oSineRatioDen [n]

/-! ### Queues and head mappings (R34, R168, R170) -/

/-- The descriptor a write of entries gives a queue number. -/
def descIn (data : List Byte) (q : Nat) : Option Nat :=
  let f := ofBytes (data.take 2)
  if f ≤ q && q < f + (data.length - 2) / 8 then (descEntries data)[q - f]? else none

/-- A Keystone with the COMMITTED ones that apply before it, newest first: what they stage is in force when it applies. -/
def inForceTxns (s : Dev) (t : Txn) : List Txn := t :: (txnsBefore s (fun u => u.st == .committed) t.pos t.order).reverse

/-- The descriptor of a channel queue after Keystones, newest first. -/
def descAfter (s : Dev) (ts : List Txn) (n : Ch) (q : Nat) : BitVec 64 :=
  match ts.findSome? fun t => (stagedAt t oQueueConfig [n]).bind fun l => descIn l q with
  | some v => BitVec.ofNat 64 v
  | none => (qFind (s.ch n).queues q).desc

/-- The descriptor of a Control-die queue after Keystones. -/
def ctrlDescAfter (s : Dev) (ts : List Txn) (q : Nat) : BitVec 64 :=
  match ts.findSome? fun t => (stagedAt t oCtrlQueueConfig []).bind fun l => descIn l q with
  | some v => BitVec.ofNat 64 v
  | none => (qFind s.ctrlQueues q).desc

/-- Numbers of the queues that staged descriptors name. -/
def stagedQueues (ts : List Txn) (r : Row) (places : List Nat) : List Nat :=
  ts.flatMap fun t => match stagedAt t r places with
    | some l => (List.range ((l.length - 2) / 8)).map fun i => ofBytes (l.take 2) + i
    | none => []

/-- Numbers of the channel queues that a descriptor names after Keystones: those listed and those staged. -/
def namedQueues (s : Dev) (ts : List Txn) (n : Ch) : List Nat :=
  ((s.ch n).queues.map Prod.fst ++ stagedQueues ts oQueueConfig [n]).eraseDups

/-- The channel queue that forwards into a Control-die queue after a Keystone. -/
def forwarder (s : Dev) (ts : List Txn) (target : Nat) : List (Ch × Nat) :=
  (List.finRange 24).flatMap fun n => ((namedQueues s ts n).filter fun q =>
    let d := descAfter s ts n q
    descConsumer d = 2 && descDepth d ≠ 0 && descTarget d = target).map fun q => (n, q)

/-- The channel queues whose descriptors name a Control-die queue as their target after a Keystone, at any depth (R168). -/
def namers (s : Dev) (ts : List Txn) (target : Nat) : List (Ch × Nat) :=
  (List.finRange 24).flatMap fun n => ((namedQueues s ts n).filter fun q =>
    let d := descAfter s ts n q
    descConsumer d = 2 && descTarget d = target).map fun q => (n, q)

/-- The record length of a stream (Table 5.4, Table 5.10). -/
def streamLen (o : Dev) (n : Ch) (d : BitVec 64) : Nat :=
  let c := if descCompanion d then 1 else 0
  match descStream d with
  | 0 => 0
  | 5 | 6 =>
    let p := descStream d - 5
    match rd o oPeFunc [n, p] with
    | 0 => 0
    | 1 => 3 + c
    | 2 | 3 => 2 + c
    | 4 => 1 + rd o oOctaves [n, p] + c
    | _ => 1 + c
  | 7 => 1
  | _ => 1 + c

/-- The length of the records a device queue holds after a Keystone; none for a Control-die queue into which nothing forwards. -/
def mappedLen (s o : Dev) (ts : List Txn) (q : Nat) : Option Nat :=
  if q < 12288 then some (streamLen o ⟨q / 512 % 24, Nat.mod_lt _ (by decide)⟩ (descAfter s ts ⟨q / 512 % 24, Nat.mod_lt _ (by decide)⟩ (q % 512)))
  else match forwarder s ts (q - 12288) with
    | (n, c) :: _ => some (streamLen o n (descAfter s ts n c))
    | [] => none

/-- HEAD_MAP_k of channel n as R170 judges it after a Keystone. -/
def mapCheck (s o : Dev) (ts : List Txn) (n : Ch) (k : Nat) : Verdict :=
  let v := rdJ o oHeadMap [n] k
  if v = 0xFFFF then .ok
  else
    let d := if v < 12288 then descAfter s ts ⟨v / 512 % 24, Nat.mod_lt _ (by decide)⟩ (v % 512) else ctrlDescAfter s ts (v - 12288)
    let w := (mappedLen s o ts v).getD 0
    let overlaps := (List.range 8).any fun j =>
      let u := rdJ o oHeadMap [n] j
      j ≠ k && u ≠ 0xFFFF && j < k + w && k < j + (mappedLen s o ts u).getD 0
    firstBad [refuseIf (v % 512 ≠ 0 && v < 12288 && descDepth d = 0) 0x50, refuseIf (12288 ≤ v && descDepth d = 0) 0x50,
      refuseIf (v < 12288 && (v / 512 ≠ n.val || v % 512 = 0)) 0x53, refuseIf (12288 ≤ v && (mappedLen s o ts v).isNone) 0x53,
      refuseIf (descConsumer d ≠ 0) 0x53, refuseIf (8 < k + w) 0x53, refuseIf overlaps 0x53]

/-- Every mapping of a channel. -/
def mapsCheck (s o : Dev) (ts : List Txn) (n : Ch) : Verdict := firstBad ((List.range 8).map (mapCheck s o ts n))

/-- The forwarding targets a QUEUE_CONFIG write names (R168). -/
def targetsCheck (s : Dev) (ts : List Txn) (n : Ch) (data : List Byte) : Verdict :=
  firstBad ((List.range ((data.length - 2) / 8)).map fun i =>
    let q := ofBytes (data.take 2) + i
    let d := descAfter s ts n q
    if descConsumer d = 2 then
      firstBad [refuseIf (descDepth (ctrlDescAfter s ts (descTarget d)) = 0) 0x50,
        refuseIf ((namers s ts (descTarget d)).any fun e => e != (n, q)) 0x51]
    else .ok)

/-! ### As a write is staged, or applied directly -/

/-- Rows of Table 4.11 and Table 4.14: an array that a comparison owns takes no writes (R276). -/
def arrayRow (index : Nat) : Bool := 0x3000 ≤ index && index < 0x4800 && 0x30 ≤ index % 0x100 && index % 0x100 < 0x50

/-- The array of an index in 0x30 to 0x4F of a channel. -/
def arrayOf (index : Nat) : ArrId := if index % 0x100 < 0x40 then .vm else .im

/-- A comparison owns the array that a write addresses (R276). -/
def ownedCheck (s : Dev) (index : Nat) : Verdict := refuseIf (arrayRow index && cmpOwns s (chOf index) (arrayOf index)) 0x95

/-- A patch of the channel is committed and has not landed, or waits for its Keystone (R225). -/
def patchPending (s : Dev) (n : Ch) : Bool :=
  (s.ch n).seq.patch.isSome || (allTxns s).any fun e => e.2.2.st == .committed && stages e.2.2 oPatchTarget [n]

/-- The comparison holds the switch (R272). -/
def switchTaken (s : Dev) : Bool := holds s cmpId 0x20

/-- The rules tied to an RK write itself (R312). -/
def stageRules (s : Dev) (r : Row) (index sub : Nat) (data : List Byte) : Verdict :=
  let n := chOf index
  let v := ofBytes data
  firstBad [ownedCheck s index, refuseIf (isAuthority index sub && !s.sec.sealOpen) 0x90,
    if rowIs r oPatchTarget || rowIs r oPatchData then refuseIf (patchPending s n) 0x72
    else if rowIs r oBankReady then refuseIf (bankState (s.ch n).seq ((placesOf r index).getD 1 0) == .playing) 0x70
    else if rowIs r oArrEnable then refuseIf (v = 1 && !(arrOf s n (arrAt r index)).ready) 0x40
    else if rowIs r oSeqCmd then refuseIf (v = 4 && !resumeAllowed s n) 0x76
    else if rowIs r oRefSwitch then refuseIf (s.ref.linkFault || switchTaken s || (v = 3 && externalSource s)) 0x94
    else .ok]

/-! ### As a Keystone is admitted -/

/-- The monitors that some transaction stages to OFF. -/
def stagedOff (s : Dev) (t : Txn) (n : Ch) (m : Mon) : Bool :=
  (t :: (allTxns s).filterMap fun e => if txnPending e.2.2 || e.2.2.st == .opened then some e.2.2 else none).any fun x =>
    stagedAt x oMonMode [n, m] == some [0]

/-- GUARD_REQUIRED is met for an enable (R251). -/
def guardMet (s : Dev) (t : Txn) (n : Ch) : Bool :=
  rd s oGuardRequired [n] % 2 = 0 ||
    (List.finRange 4).any fun m => bitOf (rd s oAction [n, m]) 1 && (monOf s n m).st == .running && !stagedOff s t n m

/-- A loop closes on an array that is not READY, or with a fault set (R199). -/
def loopBarred (s : Dev) (n : Ch) : Bool := rd s oLoopFault [n] ≠ 0 || !(s.ch n).vm.ready || !(s.ch n).im.ready

/-- A source path whose range change runs a sequence: neither OFF nor TRIPPED (R101). -/
def sequenced (s : Dev) (n : Ch) : Bool := match (s.ch n).src.st with
  | .off | .tripped => false
  | _ => true

/-- RANGE_ACTIVE as it will stand before a position and admission number: PREPARING and COMMITTED changes counted (R102). -/
def rangeBefore (s : Dev) (n : Ch) (pos order : Nat) : Nat :=
  (txnsBefore s txnPending pos order).foldl (fun v t => match stagedAt t oRangeActive [n] with
    | some l => ofBytes l
    | none => v) (rd s oRangeActive [n])

/-- The source will be neither OFF nor TRIPPED there: it is not now, or an enable pending takes effect first. -/
def sequencedBefore (s : Dev) (n : Ch) (pos order : Nat) : Bool :=
  sequenced s n || (txnsBefore s txnPending pos order).any fun t => stagedAt t oSrcEnable [n] == some [1]

/-- Keystone tick and release tick of the sequence of a transaction's range change (R101), from the settings `o` after it; none where it changes
nothing or the source runs no sequence. -/
def rangeSequence (s o : Dev) (n : Ch) (t : Txn) : Option (Nat × Nat) :=
  match stagedAt t oRangeActive [n] with
  | some l =>
    if ofBytes l ≠ rangeBefore s n t.pos t.order && sequencedBefore s n t.pos t.order then
      some (tickNear s.cad.recs t.pos, tickNear s.cad.recs t.pos + usTicks (rd o oHoldUs [n, ofBytes l]))
    else none
  | none => none

/-- The sequence of a range change overlaps another of the channel: one that runs, or one of a PREPARING or COMMITTED transaction (R102). -/
def rangeOverlaps (s o : Dev) (n : Ch) (t : Txn) : Bool :=
  match rangeSequence s o n t with
  | none => false
  | some (a, b) =>
    (match (s.ch n).src.range with
      | some x => decide (a < x.releaseAt)
      | none => false) ||
    (allTxns s).any fun e => txnPending e.2.2 && (match rangeSequence s (settingsAfter s e.2.2) n e.2.2 with
      | some (c, d) => decide (c < b ∧ a < d)
      | none => false)

/-- ρ is positive and lies within 2⁻²⁰ to 2²⁰, and the new gain is not 0 (R201). -/
def gainOk (o : Dev) (n : Ch) (old new : Nat) : Bool :=
  let x := rdI o oStageGain [n, old]
  let y := rdI o oStageGain [n, new]
  let a := x.natAbs
  let b := y.natAbs
  b ≠ 0 && (decide (x < 0) == decide (y < 0)) && b ≤ a * 2 ^ 20 && a ≤ b * 2 ^ 20

/-- The loop may regulate when a Keystone applies (R201): it is closed, or an enable in progress, pending or staged before the Keystone closes it under
origin 4. A loop in RANGE_XOVER regulates again from the release of the change in progress, before which no other change may begin. -/
def loopWillClose (s : Dev) (n : Ch) (t : Txn) : Bool :=
  let x := (s.ch n).src
  loopClosed (s.ch n).loop.st ||
    (rd (settingsBefore s t.pos t.order) oSrcOrigin [n] = 4 && (x.st == .enabling || x.st == .running || x.enablePending ||
      (txnsBefore s txnPending t.pos t.order).any fun u => stagedAt u oSrcEnable [n] == some [1]))

/-- The rules of a selection of RANGE_ACTIVE (R100, R102, R201). -/
def rangeRules (s o : Dev) (t : Txn) (n : Ch) : Verdict :=
  let r := rd o oRangeActive [n]
  let old := rangeBefore s n t.pos t.order
  let closed := loopWillClose s n t
  firstBad [refuseIf (!bitOf (rd o oModes [n, r]) (rd o oSrcMode [n])) 0x34,
    refuseIf (rd o oHoldUs [n, r] < rd o oOverlapUs [n, r]) 3,
    refuseIf (rangeOverlaps s o n t) 0x33,
    refuseIf (r ≠ old && closed &&
      usTicks (rd o oHoldUs [n, r]) < usTicks (rd o oOverlapUs [n, r]) + 2 * loopPeriod o n + 100) 0x63,
    refuseIf (r ≠ old && closed && !gainOk o n old r) 0x64]

/-- A Sequencer that must be STOPPED for a change (R241). -/
def notStopped (s : Dev) (n : Ch) : Bool := (s.ch n).seq.st != .stopped

/-- The channels of the die that hold a lane in a map: VEC_MAP entries other than 0xFF. -/
def laneOwners (o : Dev) (k : Die) (lane : Nat) : List Ch :=
  (List.finRange 24).filter fun n => Ch.die n == k && (List.range 8).any fun i => rdJ o oVecMap [n] i == lane

/-- A lane given to two channels (R235). -/
def laneShared (o : Dev) (k : Die) : Bool := (List.range 32).any fun l => 1 < (laneOwners o k l).length

/-- The Sequencers of the old and new owners of the lanes that a map changes (R235). -/
def mapOwnersRun (s b o : Dev) (n : Ch) : Bool :=
  (List.range 8).any fun i =>
    let old := rdJ b oVecMap [n] i
    let new := rdJ o oVecMap [n] i
    old ≠ new && (notStopped s n || (new ≠ 0xFF && (laneOwners b n.die new).any fun m => notStopped s m) ||
      (old ≠ 0xFF && (laneOwners o n.die old).any fun m => notStopped s m))

/-- The banks of a Sequencer after a Keystone's BANK_READY writes (R222). -/
def banksReadied (t : Txn) (n : Ch) (q : Seq) : Seq :=
  [0, 1].foldl (fun q b => match stagedAt t oBankReady [n, b] with
    | some l => if bankState q b == .playing then q else setBankState b (if ofBytes l = 1 then .ready else .idle) q
    | none => q) q

/-- A Sequencer after a Keystone's BANK_READY and SEQ_CMD (R241), with the settings that the Keystone leaves: a START makes its bank PLAYING, a STOP
makes it IDLE. -/
def seqAfter (n : Ch) (e : Dev × Seq) (t : Txn) : Dev × Seq :=
  let o := storeSettings e.1 t
  let q := banksReadied t n e.2
  let b := rd o oStartBank [n]
  (o, match (stagedAt t oSeqCmd [n]).map ofBytes with
    | some 1 => if q.st == .stopped && bankState q b == .ready then { setBankState b .playing q with st := .waiting, bank := b } else q
    | some 2 => if q.st == .stopped then q else { setBankState q.bank .idle q with st := .stopped }
    | _ => q)

/-- The bank that START_BANK names will be READY at the Keystone (R241): as COMMITTED transactions that apply first and its own BANK_READY leave
it. -/
def bankWillBeReady (s o : Dev) (t : Txn) (n : Ch) : Bool :=
  let q := ((txnsBefore s (fun u => u.st == .committed) t.pos t.order).foldl (seqAfter n) (s, (s.ch n).seq)).2
  bankState (banksReadied t n q) (rd o oStartBank [n]) == .ready

/-- The object belongs to the coefficient set in force after the Keystone, or chooses it, or sets the rate (R192). -/
def loopBudgetRow (o : Dev) (n : Ch) (r : Row) (index : Nat) : Bool :=
  rowIs r oLoopRate || rowIs r oCoefActive ||
    (index % 0x100 / 0x10 == 7 && 0x3000 ≤ index && index < 0x4800 && (placesOf r index).getD 1 0 == rd o oCoefActive [n])

/-- The tests of R192 on the ticks a law needs. -/
def budgetMet (o : Dev) (n : Ch) (need : Nat) : Bool := need * 10 ≤ loopPeriod o n * 9 && need + 12 ≤ loopPeriod o n

/-- R192. -/
def loopBudgetOk (o : Dev) (n : Ch) : Bool := budgetMet o n (lawNeed (rd o oBqCount [n, rd o oCoefActive [n]]))

/-- The rules of one staged write as its Keystone is admitted (R312). `b` holds the settings before it, `o`
those after it. A switch to the Zhewick source renumbers as a preset does (R54). A head mapping takes records for Port N, so no other port maps (R166). -/
def admitRules (p : Port) (s b o : Dev) (t : Txn) (w : Staged) : Verdict :=
  match rowOf w.index w.sub with
  | none => .ok
  | some r =>
    let index := w.index
    let n := chOf index
    let v := ofBytes w.data
    if index = 0x2100 then
      if w.sub ≤ 5 then firstBad [refuseIf (!reelHzOk s o) 3, refuseIf (!bandwidthOk s o) 3,
        refuseIf (w.sub = 1 && v = 3 && rd b oReelSource [] ≠ 3 && positionPending s) 0x21]
      else if w.sub = 6 then refuseIf (!bandwidthOk s o) 3
      else .ok
    else if rowIs r oCyclePreset then refuseIf (positionPending s) 0x21
    else if index < 0x3000 then
      (if rowIs r oCtrlQueueConfig then firstBad ((List.finRange 24).map (mapsCheck s o (inForceTxns s t))) else .ok)
    else if rowIs r oSrcRateNum || rowIs r oSrcRateDen then
      firstBad [refuseIf (!rateOk s o n) 3, refuseIf (changes b o r [n] && notStopped s n) 0x74]
    else if rowIs r oSrcStart || rowIs r oSrcQOwner || rowIs r oSeqGroups then refuseIf (changes b o r [n] && notStopped s n) 0x74
    else if rowIs r oSineRatioNum || rowIs r oSineRatioDen then refuseIf (!sineOk s o n) 3
    else if rowIs r oSrcMode then refuseIf (sequenced s n || stagedAt t oSrcEnable [n] == some [1]) 0x31
    else if rowIs r oSrcEnable then
      (if v = 1 then firstBad [refuseIf (anyHardLatch s n) 0x32, refuseIf (rd o oSrcOrigin [n] = 4 && loopBarred s n) 0x61,
        refuseIf (!guardMet s t n) 0x80] else .ok)
    else if rowIs r oSrcOrigin then
      refuseIf (v = 4 && ((s.ch n).src.st == .enabling || (s.ch n).src.st == .running) && loopBarred s n) 0x61
    else if rowIs r oRangeActive then rangeRules s o t n
    else if rowIs r oArrMode || rowIs r oAperture then
      let x := arrAt r index
      let mode := rd o oArrMode [n, x.idx]
      let ap := rd o oAperture [n, x.idx]
      firstBad [refuseIf (!apertureAllowed mode ap (lenNow s)) 3, refuseIf (!servable mode ap (lenNow s) (inService (arrOf s n x))) 0x41]
    else if rowIs r oStaleLimit || rowIs r oRotInterval then
      let x := (arrAt r index).idx
      refuseIf (rd o oStaleLimit [n, x] < 7 * rd o oRotInterval [n, x]) 3
    else if rowIs r oQueueConfig then firstBad [targetsCheck s (inForceTxns s t) n w.data,
      firstBad ((List.finRange 24).map (mapsCheck s o (inForceTxns s t)))]
    else if rowIs r oHeadMap then firstBad [mapCheck s o (inForceTxns s t) n (elementOf r w.sub), refuseIf (v ≠ 0xFFFF && p ≠ .n) 0x52]
    else if rowIs r oPeFunc || rowIs r oInput || rowIs r oBlock || rowIs r oOctaves then
      let pe := (placesOf r index).getD 1 0
      let f := rd o oPeFunc [n, pe]
      firstBad [refuseIf ((f = 2 || f = 3) != (rd o oInput [n, pe] = 2)) 3, refuseIf (f = 1 && rd o oBlock [n, pe] < 2) 3,
        refuseIf (f = 4 && rd o oBlock [n, pe] < 2 ^ rd o oOctaves [n, pe]) 3,
        if rowIs r oPeFunc || rowIs r oOctaves then mapsCheck s o (inForceTxns s t) n else .ok]
    else if rowIs r oLoopMode then
      refuseIf (rd s oLoopMode [n] % 2 ≠ v % 2 && loopClosed (s.ch n).loop.st) 0x62
    else if rowIs r oLimHi || rowIs r oLimLo then refuseIf (rdI o oLimHi [n] ≤ rdI o oLimLo [n]) 3
    else if rowIs r oSeqCmd then
      refuseIf (v = 1 && (notStopped s n || !bankWillBeReady s o t n)) 0x73
    else if rowIs r oVecMap then
      firstBad [refuseIf (laneShared o n.die) 0x75, refuseIf (mapOwnersRun s b o n) 0x74]
    else if rowIs r oPatchTarget || rowIs r oPatchData then
      refuseIf (!(stages t oPatchTarget [n] && stages t oPatchData [n])) 0x78
    else if rowIs r oThHi || rowIs r oThLo || rowIs r oHyst || rowIs r oMonMode then
      let m := (monAt r index).val
      refuseIf (rd o oMonMode [n, m] ≠ 0 && rd o oThHi [n, m] ≤ rd o oThLo [n, m] + 2 * rd o oHyst [n, m]) 3
    else if rowIs r oTrkFloor || rowIs r oTrkSpan then refuseIf (2047 < rd o oTrkFloor [n] + rd o oTrkSpan [n]) 3
    else if rowIs r oTrkMode then refuseIf (v = 0 && rd s oTrkMode [n] ≠ 0 && sequenced s n) 3
    else
      let k := (placesOf r index).getD 1 0
      firstBad [
        refuseIf ((rowIs r oUMax || rowIs r oUMin) && rdI o oUMax [n, k] ≤ rdI o oUMin [n, k]) 3,
        refuseIf (loopBudgetRow o n r index && !loopBudgetOk o n) 0x60,
        refuseIf (rowIs r oLoopRate && changes b o r [n] && loopClosed (s.ch n).loop.st) 0x62]

/-- A failed check of a transaction: abort code, index, subindex and die (R318). -/
structure Failed where
  code : Nat
  index : Nat
  sub : Nat
  die : Nat
  deriving DecidableEq, Repr

/-- The first staged write that a rule refuses. -/
def firstFailed (f : Staged → Verdict) : List Staged → Option Failed
  | [] => none
  | w :: t => match f w with
    | .abort c => some ⟨c, w.index, w.sub, objDie w.index⟩
    | _ => firstFailed f t

/-- A transaction as its Keystone of position `pos` would admit it now (R315, R317). -/
def asAdmitted (s : Dev) (t : Txn) (pos : Nat) : Txn := { t with pos := pos, order := s.admitted + 1 }

/-- The transaction checks at admission (R312, R317), of a Keystone of position `pos`: the block rules, then those of calibration. -/
def admitFailed (nv : Nv) (s : Dev) (p : Port) (t : Txn) (pos : Nat) : Option Failed :=
  let t := asAdmitted s t pos
  match firstFailed (admitRules p s (settingsBefore s t.pos t.order) (settingsAfter s t) t) t.staged with
  | some f => some f
  | none => (calRefusal nv s t).map fun c => ⟨c, 0x2610, 1, 0⟩

/-! ### At the prepare phase -/

/-- Free entries of a pool once a transaction's depths hold, after those of the COMMITTED ones that apply before it (R34). -/
def poolAfter (s : Dev) (t : Txn) (k : Die) : Int :=
  let ts := inForceTxns s t
  245760 - ((((List.finRange 24).filter fun n => Ch.die n == k).map fun n =>
    ((namedQueues s ts n).map fun q => descDepth (descAfter s ts n q)).sum).sum : Nat)

/-- Free entries of the Control-die pool once a transaction's depths hold. -/
def ctrlPoolAfter (s : Dev) (t : Txn) : Int :=
  let ts := inForceTxns s t
  let l := (s.ctrlQueues.map Prod.fst ++ stagedQueues ts oCtrlQueueConfig []).eraseDups
  131072 - ((l.map fun q => descDepth (ctrlDescAfter s ts q)).sum : Nat)

/-- The compensation points that a transaction leaves ascend (R269). -/
def pointsOrdered (o : Dev) : Bool :=
  compOrdered ((List.range (rd o oCompCount [])).map fun j =>
    (toSigned 16 (rdJ o oCompPoint [] j / 2 ^ 48), toSigned 32 (rdJ o oCompPoint [] j)))

/-- The bank a bit of FW_CH_BANK names holds verified microcode on its die (R368). -/
def bankHeld (s : Dev) (k : Die) (b : Bool) : Bool :=
  let c := s.fw.rams[k]
  (if b then c.bank1 else c.bank0).isSome && c.loading.isNone

/-- A source path that runs, or that the transaction or a COMMITTED one before it enables, would stand on the external pair with the switch in
REVERSED (R273). -/
def externalReversed (s o : Dev) (t : Txn) : Bool :=
  rd o oRefSwitch [] = 3 && (externalSource o ||
    (List.finRange 24).any fun n => srcPair o n == 1 && (inForceTxns s t).any fun u => stagedAt u oSrcEnable [n] == some [1])

/-- The microcode of a die's bank meets R192 on the die's channels (R210); only a bank whose cycle costs differ from Table 6.2 is checked. -/
def bankBudgetOk (s o : Dev) (k : Die) (b : Bool) : Bool :=
  match (if b then s.fw.rams[k].bank1 else s.fw.rams[k].bank0).bind Bank.costs with
  | none => true
  | some c => (List.finRange 24).all fun (n : Ch) => Ch.die n != k || budgetMet o n (costedNeed (some c) (rd o oBqCount [n, rd o oCoefActive [n]]))

/-- The rules that the prepare phase runs for one staged write (R312): the cause (Table 10.5) and the code, 0 where the manual names
none. -/
def prepareRules (s o : Dev) (t : Txn) (w : Staged) : Option (Nat × Nat) :=
  match rowOf w.index w.sub with
  | none => none
  | some r =>
    let n := chOf w.index
    let v := ofBytes w.data
    if isAuthority w.index w.sub && !s.sec.sealOpen then some (4, 0x0F100090)
    else if rowIs r oSrcEnable && v = 1 && anyHardLatch s n then some (4, 0x0F100032)
    else if rowIs r oSrcEnable && v = 1 && !guardMet s t n then some (4, 0x0F100080)
    else if rowIs r oQueueConfig && poolAfter s t n.die < 0 then some (4, 0)
    else if rowIs r oCtrlQueueConfig && ctrlPoolAfter s t < 0 then some (4, 0)
    else if rowIs r oBankReady && v = 1 && rd o oBankEnd [n, (placesOf r w.index).getD 1 0] < rd o oLoopStart [n, (placesOf r w.index).getD 1 0] then
      some (2, 0)
    else if (rowIs r oPatchTarget || rowIs r oPatchData) && (s.ch n).seq.patch.isSome then some (4, 0x0F100072)
    else if (rowIs r oSrcRateNum || rowIs r oSrcRateDen || rowIs r oSrcStart || rowIs r oSrcQOwner || rowIs r oSeqGroups) &&
        changes s o r [n] && notStopped s n then some (2, 0x0F100074)
    else if rowIs r oRefSwitch && (s.ref.linkFault || switchTaken s) then some (4, 0x0F100094)
    else if (rowIs r oRefSwitch || rowIs r oSrcRef || rowIs r oRefSel || rowIs r oSrcEnable) && externalReversed s o t then some (4, 0x0F100094)
    else if w.index = 0x2601 && !pointsOrdered o then some (2, 0)
    else if rowIs r oFwCtrlSelect && (if v = 0 then s.fw.slots[0] else s.fw.slots[1]).st != SlotState.valid then some (2, 0)
    else if rowIs r oFwChBank && (List.finRange 6).any (fun k => bitOf v k != bitOf (rd s oFwChBank []) k &&
        !(bankHeld s k (bitOf v k) && bankBudgetOk s o k (bitOf v k))) then
      some (4, 0)
    else none

/-- The first prepare rule that fails among the staged writes a die holds. -/
def prepareFailed (s : Dev) (t : Txn) (d : Nat) : Option (Nat × Failed) :=
  let o := settingsAfter s t
  (t.staged.filter fun w => objDie w.index == d).findSome? fun w =>
    (prepareRules s o t w).map fun e => (e.1, ⟨e.2, w.index, w.sub, d⟩)

end Sys2Proof.Machine
end

