-- ==== Sys2Proof/Machine/Firmware.lean ====
section
/-! DEFINITION. Firmware (12, R363 to R370; 13, R394, R400): image slots, uploads and verification, code RAMs, trial and confirmation. -/

namespace Sys2Proof.Machine

/-- The firmware rewritten. -/
def updFw (f : Firmware → Firmware) (s : Dev) : Dev := { s with fw := f s.fw }

/-- An image slot rewritten. -/
def updImage (i : Fin 4) (f : ImageSlot → ImageSlot) (s : Dev) : Dev := updFw (fun w => { w with slots := w.slots.set i (f w.slots[i]) }) s

/-- A code RAM rewritten. -/
def updRam (k : Die) (f : CodeRam → CodeRam) (s : Dev) : Dev := updFw (fun w => { w with rams := w.rams.set k (f w.rams[k]) }) s

/-- A Control slot number. -/
def ctrlSlot (v : Nat) : Fin 4 := if v = 0 then 0 else 1

/-- A microcode slot number. -/
def mcSlot (v : Nat) : Fin 4 := if v = 2 then 2 else 3

/-- The payload of a FIRMWARE record (R369). -/
def firmPayload (slot event arg : Nat) (version rollback hash : Nat) : List Byte :=
  leBytes 1 (if slot < 2 then 1 else 2) ++ leBytes 1 (slot % 2) ++ leBytes 1 event ++ leBytes 1 arg ++ leBytes 4 version ++ leBytes 1 rollback ++
    leBytes 3 0 ++ leBytes 64 hash

/-- A FIRMWARE record caused for the image of a slot (R369); verifications have no effect position (log 38). -/
def firmRecord (i : Fin 4) (event arg : Nat) (s : Dev) : Dev :=
  let x := s.fw.slots[i]
  causeRecord (ownAppend 3 (firmPayload i event arg x.version x.rollback x.hash) (if event ≤ 2 then 0 else ctlPos s) 0xFF s) s

/-! ### Uploads -/

/-- The upload slot of a target (R366). -/
def uploadSlot (s : Dev) (target : Nat) : Fin 4 := if target = 1 then ctrlSlot (1 - s.fw.running) else mcSlot (5 - s.fw.boot)

/-- The target has a slot that receives an upload. -/
def uploadBusy (s : Dev) (target : Nat) : Bool := s.fw.slots[uploadSlot s target].st == .receiving

/-- The requester of uploads (Table 10.2): SERVICE, instance 64 + 7. -/
def uploadId : Nat := reqId 14 71

/-- Pages of a slot's upload that can be programmed: whole ones, and the last when its last byte has arrived. -/
def pagesReady (x : ImageSlot) : Nat :=
  match x.st with
  | .receiving => x.data.length / 256
  | .verifying => pagesOf x.data.length
  | .empty | .valid | .invalid => 0

/-- An upload has sectors to erase or pages to program. -/
def flashOwed (x : ImageSlot) : Bool := decide (0 < x.erase) || decide (x.pages < pagesReady x)

/-- A slot whose upload is owed flash work. -/
def flashWaits (s : Dev) : Option (Fin 4) := (List.finRange 4).find? fun i => flashOwed s.fw.slots[i]

/-- An upload asks for the flash, unless its grant is in force (R366). -/
def uploadAsk (s : Dev) : Dev :=
  if (flashWaits s).isSome && !holds s uploadId 0xA0 then unitRequest uploadId 0xA0 (deadlineIn s (dlOffset s 14)) s else s

/-- What one grant does: the erase of the slot, which another requester that waits suspends, and after it three pages (R366, log 164). -/
def flashStep (suspended : Bool) (x : ImageSlot) : ImageSlot :=
  if 0 < x.erase then (if suspended then x else { x with erase := 0 }) else { x with pages := min (x.pages + 3) (pagesReady x) }

/-- Another requester than the upload waits for the flash. -/
def flashWanted (s : Dev) : Bool := (sharedOf s 0xA0).waiters.any fun w => w.id != uploadId

/-- The grant of an upload ends, and it asks for the next (R366). -/
def uploadGoes (s : Dev) : Dev :=
  match flashWaits s with
  | some i => uploadAsk (updImage i (flashStep (flashWanted s)) s)
  | none => s

/-- The largest image of a target, in bytes (R363). -/
def imageLimit (slot : Nat) : Nat := if slot < 2 then 8388608 else 4194304

/-- An upload begins: its slot is RECEIVING and is erased in sectors of 4 KiB (R366). -/
def uploadStart (p : Port) (target : Nat) (s : Dev) : Dev :=
  let i := uploadSlot s target
  uploadAsk (updImage i (fun _ =>
    { st := .receiving, cause := 0, version := 0, rollback := 0, key := 0, hash := 0, costs := none, by_ := p.idx, data := []
      erase := imageLimit i / 4096, pages := 0 }) s)

/-- The slot that a port's upload fills. -/
def uploading (s : Dev) (p : Port) : Option (Fin 4) :=
  (List.finRange 4).find? fun i => s.fw.slots[i].st == .receiving && s.fw.slots[i].by_ == p.idx.val

/-- Bytes of an upload. -/
def uploadBytes (p : Port) (l : List Byte) (s : Dev) : Dev :=
  match uploading s p with
  | some i => uploadAsk (updImage i (fun x => { x with data := x.data ++ l }) s)
  | none => s

/-- During a supply warning no page is programmed: once the bytes that wait fill the 64 KiB buffer, responses wait (Table 12.12). -/
def uploadFull (p : Port) (s : Dev) : Bool :=
  s.supply.warning && (uploading s p).any fun i => decide (65536 + 256 * s.fw.slots[i].pages < s.fw.slots[i].data.length)

/-- The last byte of an upload has arrived (R364). -/
def uploadEnd (p : Port) (s : Dev) : Dev :=
  match uploading s p with
  | some i => uploadAsk (updImage i (fun x => { x with st := .verifying }) s)
  | none => s

/-- The slot of an abandoned upload: cause 6 (R364). -/
def uploadDropped (x : ImageSlot) : ImageSlot := { x with st := .invalid, cause := 6, data := [], erase := 0 }

/-- An upload is abandoned (R364). -/
def uploadAbandon (p : Port) (s : Dev) : Dev :=
  match uploading s p with
  | some i => updImage i uploadDropped s
  | none => s

/-- Every upload in progress is abandoned, one whose pages are not all programmed too (log 164). -/
def uploadsLost (s : Dev) : Dev :=
  updFw (fun w => { w with
    held := []
    slots := w.slots.map fun x => if x.st = .receiving || x.st = .verifying && flashOwed x then uploadDropped x else x }) s

/-- A whole upload in one transfer; in a supply warning it ends with the recovery where it fills the buffer (Table 12.12). -/
def uploadWhole (p : Port) (target : Nat) (l : List Byte) (s : Dev) : Dev :=
  let s := uploadBytes p l (uploadStart p target s)
  if uploadFull p s then updFw (fun w => { w with held := w.held ++ [p] }) s else uploadEnd p s

/-- The uploads whose answers waited for the recovery end (Table 12.12). -/
def uploadsResume (s : Dev) : Dev :=
  s.fw.held.foldl (fun s p => setAnswer p (.done []) (uploadEnd p s)) (updFw (fun w => { w with held := [] }) s)

/-! ### Verification -/

/-- A number of the image's bytes (Table 12.9). -/
def imageField (l : List Byte) (at_ n : Nat) : Nat := ofBytes ((l.drop at_).take n)

/-- FUSES (Table 12.6). -/
def fuseWord (nv : Nv) : Nat := nv.fuses % 16 + flagAt Config.provKey1 4

/-- A firmware key that images may be signed with (R364). -/
def keyUsable (nv : Nv) (key : Nat) : Bool := (key == 0 && !bitOf (fuseWord nv) 3) || (key == 1 && bitOf (fuseWord nv) 4)

/-- The first check of R364 that an image fails: its cause, 0 if none. -/
def imageCause (nv : Nv) (s : Dev) (slot : Nat) (l : List Byte) : Nat :=
  let len := imageField l 20 4
  let key := imageField l 7 1
  if imageField l 0 4 ≠ 0x574D5243 || imageField l 4 2 ≠ 1 then 1
  else if imageField l 6 1 ≠ (if slot < 2 then 1 else 2) || imageField l 16 2 ≠ 0x2408 || 0x00B0 < imageField l 18 2 || imageLimit slot < len then 2
  else if !keyUsable nv key || !Config.edVerify (Config.firmwareKey key) (l.take 256) (imageField l (len - 114) 114) then 3
  else if Config.shake256 ((l.take (len - 114)).drop 256) ≠ imageField l 24 64 then 4
  else if imageField l 12 1 < s.fw.floor then 5
  else 0

/-- IMAGE_VERIFY_COMPLETE (R364, R369): a slot's verification ends; a flash read-back mismatch during the upload gives cause 7.
Its last byte is verified once the slot is erased and every page programmed (R366). -/
def execImageVerifyComplete (slot : Fin 4) (flashOk : Bool) (s : State) : Host.Outcome State Fault Refusal := onDevNv s fun nv s =>
  .next (
    let x := s.fw.slots[slot]
    if x.st = .verifying && !flashOwed x then
      let l := x.data
      let c := if flashOk then imageCause nv s slot l else 7
      let s := updImage slot (fun x => { x with
        st := if c = 0 then .valid else .invalid
        cause := c
        version := imageField l 8 4
        rollback := imageField l 12 1
        key := imageField l 7 1
        hash := Config.shake256 (l.take (imageField l 20 4))
        costs := if slot.val < 2 then none else Config.microcodeCosts (Config.shake256 (l.take (imageField l 20 4)))
        data := [] }) s
      firmRecord slot (if c = 0 then 1 else 2) c s
    else s)

/-! ### Control images -/

/-- A Control-die restart that is to begin at a tick (R396). -/
def restartDue (cause at_ : Nat) (s : Dev) : Dev := { s with control := { s.control with due := s.control.due ++ [(cause, at_)] } }

/-- FW_CTRL_SELECT applied (R367): a slot other than the running one starts a restart 10 ms on; a later value takes the place of one that
waits. -/
def applyCtrlSelect (v : Nat) (s : Dev) : Dev :=
  let s := { s with control := { s.control with due := s.control.due.filter fun e => e.1 != 2 } }
  if v = s.fw.running then s else restartDue 2 (s.now + 10 * msTicks) s

/-- FW_CONFIRM (R367). -/
def confirmTrial (s : Dev) : Dev :=
  match s.fw.trial with
  | some _ => firmRecord (ctrlSlot s.fw.running) 4 0 (updFw (fun w => { w with confirmed := w.running, trial := none }) s)
  | none => s

/-- A fallback (R367): the confirmed slot is selected, with a FIRMWARE record that names it (log 38). -/
def fallBack (s : Dev) : Dev :=
  let s := wr s oFwCtrlSelect s.fw.confirmed []
  firmRecord (ctrlSlot s.fw.confirmed) 5 0 (updFw (fun w => { w with trial := none }) s)

/-- Ticks of a second. -/
def secTicks : Nat := 1000 * msTicks

/-- TRIAL_EXPIRY (R367, R396): FW_TRIAL_S passes without a confirm. During a restart the fallback waits for RUNNING. -/
def execTrialExpiry (s : State) : Host.Outcome State Fault Refusal := onDev s fun s =>
  .next (
    match s.fw.trial with
    | some t =>
      let s := advance (t + rd s oFwTrialS [] * secTicks) s
      restartDue 3 s.now (fallBack s)
    | none => s)

/-! ### Microcode -/

/-- FW_CH_BANK of a die. -/
def bankBit (s : Dev) (k : Die) : Bool := bitOf (rd s oFwChBank []) k

/-- Microcode in a bank of a die. -/
def bankOf (c : CodeRam) (one : Bool) : Option Bank := if one then c.bank1 else c.bank0

/-- Microcode in the bank in force on a die. -/
def bankForce (s : Dev) (k : Die) : Option Bank := bankOf s.fw.rams[k] (bankBit s k)

/-- A bank written. -/
def setBank (one : Bool) (b : Option Bank) (c : CodeRam) : CodeRam :=
  let c := { c with marked := c.marked.filter fun e => e.1 != one }
  if one then { c with bank1 := b } else { c with bank0 := b }

/-- FW_CH_LOAD is refused (R368, Table 12.12): no such slot, or a named die's other bank is in force or to be. -/
def loadBarred (s : Dev) (v : Nat) : Bool :=
  s.fw.slots[mcSlot (5 - s.fw.boot)].st != .valid ||
    (List.finRange 6).any fun (k : Die) => bitOf v k && (s.fw.rams[k].changing != [] ||
      (allTxns s).any fun e => txnPending e.2.2 && (match stagedAt e.2.2 oFwChBank [] with
        | some l => bitOf (ofBytes l) k != bankBit s k
        | none => false))

/-- The named dies start to load. -/
def loadStart (v : Nat) (s : Dev) : Dev :=
  (List.finRange 6).foldl (fun (s : Dev) (k : Die) => if bitOf v k then updRam k (fun c => { c with loading := some (s.now, 5 - s.fw.boot), failed := false }) s else s) s

/-- FW_CH_LOAD_COMPLETE (R368): the bank not in force holds the microcode of the slot that was not the boot slot at the write, or the load failed. -/
def execFwChLoadComplete (k : Die) (ok : Bool) (s : State) : Host.Outcome State Fault Refusal := onDev s fun s =>
  .next (
    match s.fw.rams[k].loading with
    | some (_, slot) =>
      let i := mcSlot slot
      let x := s.fw.slots[i]
      let good := ok && x.st == .valid
      let b := bankBit s k
      updRam k (fun c => { setBank (!b) (if good then some ⟨i, x.version, x.rollback, x.hash, x.costs⟩ else none) c with
        loading := none, failed := !good }) s
    | none => s)

/-- The engines of a die: its services DS0 to DS7, and the eight engines of each of its channels. -/
def dieEngines : List BankEngine :=
  (List.finRange 8).map .service ++
    (List.finRange 4).flatMap fun c => [ChEngine.le, .sq, .mpv, .mpi, .se, .ge, .pe0, .pe1].map fun e => .channel c e

/-- The slot that every die has in force. -/
def agreedSlot (s : Dev) : Option Nat :=
  match bankForce s 0 with
  | some b => if (List.finRange 6).all fun k => (bankForce s k).any fun c => c.slot == b.slot then some b.slot else none
  | none => none

/-- FW_CH_BANK applied (R368, R369, R400): every engine of a changed die has yet to change, but one that has
not made the change before, which is where it is to be; a slot in force everywhere becomes the boot
slot; a FIRMWARE record states the dies. -/
def applyChBank (old new : Nat) (s : Dev) : Dev :=
  let dies : List Die := (List.finRange 6).filter fun (k : Die) => bitOf old k != bitOf new k
  match dies with
  | [] => s
  | k :: _ =>
    let s := dies.foldl (fun s k => updRam k (fun c => { c with changing := dieEngines.filter fun e => !c.changing.contains e }) s) s
    let s := match agreedSlot s with
      | some b => updFw (fun w => { w with boot := b }) s
      | none => s
    let arg := dies.foldl (fun v k => v + 2 ^ k.val) 0
    let b := (bankForce s k).getD ⟨2, 0, 0, 0, none⟩
    causeRecord (ownAppend 3 (firmPayload b.slot 6 arg b.version b.rollback b.hash) (ctlPos s) 0xFF s) s

/-- MICROCODE_BANK_CHANGE (R400, Table 13.14): an engine of the die changes bank at its safe point, a Loop Engine at the next loop period boundary
(R210); its state carries over. -/
def execMicrocodeBankChange (k : Die) (e : BankEngine) (s : State) : Host.Outcome State Fault Refusal := onDev s fun s =>
  .next (
    let s := match e with
      | .channel c .le => if s.fw.rams[k].changing.contains e then advance (boundaryTick s (dieCh k c)) s else s
      | _ => s
    updRam k (fun c => { c with changing := c.changing.filter fun x => x != e }) s)

/-- A microcode slot holds the image of a bank (R394). -/
def slotMatches (s : Dev) (b : Bank) : Bool :=
  [(2 : Fin 4), 3].any fun i => s.fw.slots[i].st == .valid && s.fw.slots[i].hash == b.hash

/-- An uncorrectable microcode word (Table 13.11): marked, and its reload asked for where a slot matches. -/
def markWord (k : Die) (one : Bool) (addr : Nat) (s : Dev) : Dev :=
  let found := (bankOf s.fw.rams[k] one).any (slotMatches s)
  updRam k (fun c => { c with marked := c.marked ++ [(one, addr, found)] }) s

/-- The first marked word whose reload was asked for dropped. -/
def reloadFirst : List (Bool × Nat × Bool) → List (Bool × Nat × Bool)
  | [] => []
  | e :: t => if e.2.2 then t else e :: reloadFirst t

/-- MC_RELOAD_COMPLETE (R394): a marked word is reloaded. -/
def execMcReloadComplete (k : Die) (s : State) : Host.Outcome State Fault Refusal := onDev s fun s =>
  .next (
    if s.fw.rams[k].marked.any fun e => e.2.2 then
      bump oMcReloads [k] (updRam k (fun c => { c with marked := reloadFirst c.marked }) s)
    else s)

/-! ### The rollback floor -/

/-- FW_FLOOR_RAISE is refused (R370). -/
def floorBarred (s : Dev) : Bool :=
  s.fw.trial.isSome ||
    (List.finRange 6).any fun k => (bankForce s k).any fun b => decide (b.rollback < s.fw.slots[ctrlSlot s.fw.confirmed].rollback)

/-- The floor raised. -/
def floorRaise (s : Dev) : Dev := updFw (fun w => { w with floor := max w.floor w.slots[ctrlSlot w.confirmed].rollback }) s

/-! ### Views -/

/-- State code (Table 12.10). -/
def slotCode : SlotState → Nat
  | .empty => 0 | .receiving => 1 | .verifying => 2 | .valid => 3 | .invalid => 4

/-- FW_SLOT_STATE (Table 12.10). -/
def fwSlotState (s : Dev) (i : Fin 4) : Nat :=
  let x := s.fw.slots[i]
  let used := if i.val < 2 then i.val == s.fw.running
    else (List.finRange 6).any fun k => (bankForce s k).any fun b => b.slot == i.val && b.hash == x.hash
  let confirmed := if i.val < 2 then i.val == s.fw.confirmed else i.val == s.fw.boot
  slotCode x.st + flagAt used 4 + flagAt (i.val == s.fw.running && s.fw.trial.isSome) 5 + flagAt confirmed 6 + x.cause * 2 ^ 8 + x.rollback * 2 ^ 16

/-- FW_CH_STATUS (Table 12.8): a bank change shows once every engine has changed (R400). -/
def fwChStatus (s : Dev) : Nat :=
  (List.finRange 6).foldl (fun (v : Nat) (k : Die) =>
    let c := s.fw.rams[k]
    let b := bankBit s k != (c.changing != [])
    v + (flagAt b 0 + flagAt ((bankOf c (!b)).isSome && c.loading.isNone) 1 + flagAt c.loading.isSome 2 + flagAt c.failed 3) * 16 ^ k.val) 0

end Sys2Proof.Machine
end

