-- ==== Sys2Proof/Machine/Apply.lean ====
section
/-! DEFINITION. What a Keystone does at its tick (R315): every staged object takes effect under its Effect column, and the block chapters'
actions on the changes follow. -/

namespace Sys2Proof.Machine

/-- The value a transaction stages for a row at places. -/
def stagedVal (t : Txn) (r : Row) (places : List Nat) : Option Nat := (stagedAt t r places).map ofBytes

/-- A staged value that differs from the value in force. -/
def stagedNew (s : Dev) (t : Txn) (r : Row) (places : List Nat) : Bool := (stagedVal t r places).any fun v => v != rd s r places

/-- Something done with a staged value, if there is one. -/
def withStaged (t : Txn) (r : Row) (places : List Nat) (f : Nat → Dev → Dev) (s : Dev) : Dev :=
  match stagedVal t r places with
  | some v => f v s
  | none => s

/-- Every monitor, and both arrays, of a channel. -/
def bothArrays (f : ArrId → Dev → Dev) (s : Dev) : Dev := f .im (f .vm s)

/-! ### Values in force -/

/-- A loop object of a channel: C(n)+0x60 and C(n)+0x70 to 0x73. -/
def loopRow (index : Nat) : Bool := 0x3000 ≤ index && index < 0x4800 && 0x60 ≤ index % 0x100 && index % 0x100 < 0x74

/-- A sine object that REEL mode holds for its boundary c_a (R84). -/
def sineRow (r : Row) : Bool := rowIs r oSineMode || rowIs r oSineRatioNum || rowIs r oSineRatioDen || rowIs r oSinePhase

/-- The loop objects of this Keystone wait for b_x (R200): the same Keystone changes RANGE_ACTIVE under a closed loop that it leaves closed
(R178). -/
def loopDeferred (s : Dev) (t : Txn) (n : Ch) : Bool :=
  stagedNew s t oRangeActive [n] && ((s.ch n).loop.st == .primary || (s.ch n).loop.st == .limit) &&
    (stagedVal t oSrcOrigin [n]).getD 4 == 4 && (stagedVal t oSrcEnable [n]).getD 1 == 1

/-- One staged value stored, unless an action of its own takes it. -/
def storeStaged (p : Port) (o : Dev) (t : Txn) (s : Dev) (w : Staged) : Dev :=
  match rowOf w.index w.sub with
  | none => s
  | some r =>
    let v := ofBytes w.data
    let key := objKey w.index w.sub 0
    if r.perPort then wrP s r p v []
    else if w.index = 0x2100 then
      let at_ := stampNear s.cad.recs t.pos
      let since := if (stagedVal t oReelSource []).isSome then at_ else at_ + 1
      { s with cad := { s.cad with waiting := (s.cad.waiting.filter fun e => e.key != key) ++ [⟨key, v, since⟩] } }
    else if rowIs r oCyclePreset then wr { s with cad := { s.cad with preset := some (v, stampNear s.cad.recs t.pos) } } r v []
    else if rowIs r oPatchData then { s with objs := tabPut s.objs 0 key v }
    else if r.size = 0 || rowIs r oRefSwitch || sineRow r then s
    else if loopRow w.index then (if loopDeferred o t (chOf w.index) then s else putKey key v (loopWaitsNot (chOf w.index) key s))
    else putKey key v s

/-! ### The source path of a channel -/

/-- The SINE_MODE a channel will have: staged, waiting, or in force. -/
def sineModeNext (s : Dev) (t : Txn) (n : Ch) : Nat :=
  (stagedVal t oSineMode [n]).getD ((tabFind (s.ch n).src.sine.waiting (keyOf oSineMode [n] 0)).getD (rd s oSineMode [n]))

/-- One sine object put among those that wait for c_a. -/
def sineWait (n : Ch) (t : Txn) (r : Row) (s : Dev) : Dev :=
  withStaged t r [n] (fun v => updSrc n (fun x => { x with sine := { x.sine with
    waiting := (x.sine.waiting.filter fun e => e.1 != keyOf r [n] 0) ++ [(keyOf r [n] 0, v)] } })) s

/-- Sine objects applied (R83, R84, R87). -/
def applySine (n : Ch) (t : Txn) (s : Dev) : Dev :=
  let s := withStaged t oSineAmpl [n] (fun v => updSrc n (fun x => { x with sine := { x.sine with amplWait := some v } })) s
  if sineModeNext s t n = 1 then sineWait n t oSineMode (sineWait n t oSineRatioNum (sineWait n t oSineRatioDen (sineWait n t oSinePhase s)))
  else
    let s := if stages t oSineMode [n] then
        updSrc n (fun x => { x with sine := { x.sine with waiting := [], phaseAt := max x.sine.phaseAt (x.clock * 256) } }) (wr s oSineMode 0 [n])
      else s
    let s := withStaged t oSineRatioNum [n] (fun v s => wr s oSineRatioNum v [n]) s
    let s := withStaged t oSineRatioDen [n] (fun v s => wr s oSineRatioDen v [n]) s
    withStaged t oSinePhase [n] (fun v s => updSrc n (fun x => { x with sine := { x.sine with
      phase := v, phaseAt := modulatorTick s n * 256, seen := (v + sineAdvance s n) % 2 ^ 48 } }) (wr s oSinePhase v [n])) s

/-- The loop regulates or is about to (Table 6.5): PRIMED, PRIMARY, LIMIT or RANGE_XOVER. -/
def loopLive (l : LoopState) : Bool := l == .primed || l == .primary || l == .limit || l == .rangeXover

/-- SRC_ORIGIN applied (R76, R178, Table 6.5): a change to origin 0 composes SRC_CODE from the Keystone on. -/
def applyOrigin (n : Ch) (o : Dev) (s : Dev) : Dev :=
  let old := rd o oSrcOrigin [n]
  let new := rd s oSrcOrigin [n]
  let c := s.ch n
  let s := if new = 0 && old ≠ 0 then updSrc n (fun x => { x with static := rdI s oSrcCode [n] }) s else s
  if old = new then s
  else if loopLive c.loop.st then (if new = 4 then s else loopOpen n s)
  else if new = 4 && c.loop.st == .openState && (c.src.st == .enabling || c.src.st == .running) then loopPrime n c.src.code s
  else s

/-- SRC_ENABLE applied (Table 3.4, Table 6.5, R281). -/
def applyEnable (n : Ch) (v : Nat) (s : Dev) : Dev :=
  let c := s.ch n
  if v = 1 then
    let s := selfcalEnable n s
    match c.src.st with
    | .off | .tripped => enableWithLoop n s
    | _ => applySrcEnable n true (loopSafe c.loop.st) s
  else
    let s := applySrcEnable n false (loopSafe c.loop.st) s
    if loopLive c.loop.st then loopOpen n s else s

/-- The loop objects of a Keystone that wait for b_x: LOOP_SP_STAGED is copied to LOOP_SP there. -/
def loopWrites (t : Txn) (n : Ch) : List (Nat × Nat) :=
  (t.staged.filter fun w => loopRow w.index && chOf w.index = n).flatMap fun w =>
    let v := ofBytes w.data
    let e := (objKey w.index w.sub 0, v)
    if w.index % 0x100 = 0x60 && w.sub = 6 then [e, (keyOf oLoopSp [n] 0, v)] else [e]

/-- RANGE_ACTIVE applied (R101, R200). -/
def applyRange (n : Ch) (o : Dev) (t : Txn) (s : Dev) : Dev :=
  let old := rd o oRangeActive [n]
  let new := rd s oRangeActive [n]
  if old = new then s
  else
    let closed := loopDeferred o t n
    let s := rangeStart n new s
    if closed then loopRangeStart n old new (loopWrites t n) s else s

/-- The source path's part of a Keystone. -/
def applySource (n : Ch) (o : Dev) (t : Txn) (s : Dev) : Dev :=
  let s := applySine n t s
  let s := if changes s o oSrcRateNum [n] || changes s o oSrcRateDen [n] || changes s o oSrcStart [n] then
      let s := updSrc n (fun x => { x with shift := 0 }) s
      updSrc n (fun x => { x with slot := firstSlot s n s.now }) s
    else s
  let s := if srcPair o n = srcPair s n then s else srcRefChanged n s
  let s := applyRange n o t (applyOrigin n o s)
  withStaged t oSrcEnable [n] (applyEnable n) s

/-! ### The loop of a channel -/

/-- An immediate switch (R193): a law in progress restarts with the new set. -/
def switchNow (n : Ch) (s : Dev) : Dev :=
  let l := (s.ch n).loop
  updLoop n (fun x => { x with law := l.law.map fun w =>
    { w with extra := s.now - w.b + 12, undo := some (w.undo.getD (l.set, l.setNo, l.integ)) } }) (switchSet n s)

/-- The coefficients in force change with this Keystone (R193). -/
def coefsChange (o s : Dev) (t : Txn) (n : Ch) : Bool :=
  changes s o oCoefActive [n] || t.staged.any fun w => loopRow w.index && chOf w.index == n &&
    w.index % 0x100 == 0x70 + rd s oCoefActive [n]

/-- The loop's part of a Keystone (R183, R192, R193). -/
def applyLoop (n : Ch) (o : Dev) (t : Txn) (s : Dev) : Dev :=
  let budget := t.staged.any fun w => chOf w.index == n && (match rowOf w.index w.sub with
    | some r => loopBudgetRow s n r w.index
    | none => false)
  let s := if budget then wr s oAdmittedTicks (lawNeed (rd (settingsAfter s t) oBqCount [n, rd (settingsAfter s t) oCoefActive [n]])) [n] else s
  if loopDeferred o t n then s
  else
    let s := withStaged t oLoopSpStaged [n] (fun v s => loopSpWrite n v s) s
    if coefsChange o s t n && loopLive (s.ch n).loop.st then
      (if rd s oCoefSwitch [n] = 1 then updLoop n (fun l => { l with setWaits := true }) s else switchNow n s)
    else s

/-! ### Arrays, queues, post-processing, monitors -/

/-- An array's part of a Keystone (R116, R124, R134, Table 4.6). -/
def applyArray (n : Ch) (o : Dev) (t : Txn) (a : ArrId) (s : Dev) : Dev :=
  let p := [n.val, a.idx]
  let old := arrCfg o n a
  let mode := stages t oArrMode p || stages t oAperture p
  let restart := changes s o oArrMode p || changes s o oAperture p || (mode && (arrOf s n a).st == .fault)
  let again := (arrOf s n a).st == .draining && stagedAt t oArrEnable p == some [1]
  let s := if again then cfgEnters n a old s
    else if old = arrCfg s n a && !restart then s else arrChanged n a old restart t.pos s
  let s := if changes s o oRange p then guardRangeChanged n a s else s
  let s := if changes s o oStaleLimit p then staleCheck n a s else s
  withStaged t oArrEnable p (fun v => applyArrEnable n a (v = 1) t.pos (settleTicks a old (arrCfg s n a) false)) s

/-- The descriptors of a QUEUE_CONFIG write applied to a list of queues (R34, R164). -/
def applyDescs (data : List Byte) (l : List (Nat × Queue)) : List (Nat × Queue) :=
  let first := ofBytes (data.take 2)
  ((descEntries data).mapIdx fun i v => (first + i, v)).foldl (fun l e => qPut l e.1 (queueReconfig (BitVec.ofNat 64 e.2) (qFind l e.1))) l

/-- Records a channel's queues have lost (Table 5.12). -/
def recordsLost (l : List (Nat × Queue)) : Nat := (l.map fun e => e.2.overflows).sum

/-- The queues' part of a Keystone: records that a smaller depth discards are lost (R34, Table 11.14). -/
def applyQueues (n : Ch) (t : Txn) (s : Dev) : Dev :=
  match stagedAt t oQueueConfig [n] with
  | some l =>
    let a := recordsLost (s.ch n).queues
    let s := closeRun n (updCh n (fun c => { c with queues := applyDescs l c.queues }) s)
    if a < recordsLost (s.ch n).queues then chFault n 9 s else s
  | none => s

/-- The queues of a stream emptied (R164). -/
def emptyStream (n : Ch) (stream : Nat) (s : Dev) : Dev :=
  updCh n (fun c => { c with queues := c.queues.map fun e => if descStream e.2.desc = stream then (e.1, { e.2 with recs := [] }) else e }) s

/-- A post-processing engine's part of a Keystone (R164, R176): with a change of function or octaves the queues empty, and a result of the old
length not yet written goes with them (log 131). -/
def applyPe (n : Ch) (o : Dev) (p : Fin 2) (s : Dev) : Dev :=
  let l := [n.val, p.val]
  let s := if [oPeFunc, oInput, oBlock, oOctaves, oTagExclude, oCourseSync].any fun r => changes s o r l then peRestart n p s else s
  if changes s o oPeFunc l || changes s o oOctaves l then
    emptyStream n (5 + p.val) (updPe n p (fun x => { x with ready := [] }) s)
  else s

/-- A monitor's part of a Keystone (R249, R259, R261, Table 8.3). A threshold change voids a verify in progress of a monitor that is OFF too; the new
request is made when the monitor leaves OFF, since one that is OFF makes none. -/
def applyMonitor (n : Ch) (o : Dev) (m : Mon) (s : Dev) : Dev :=
  let l := [n.val, m.val]
  let wasOff := (monOf s n m).st == .off
  let s := if changes s o oMonMode l then applyMonMode n m (rd s oMonMode l) s else s
  let s := if changes s o oTripCond l then condUpdate n m s else s
  let changed := changes s o oThHi l || changes s o oThLo l
  let y := monOf s n m
  if y.st = .off then (if changed && y.verifyAt.isSome then updMon n m (fun y => { y with verifyVoid := true }) s else s)
  else if changed || (wasOff && y.verifyAt.isSome && y.verifyVoid) then thresholdChanged n m s
  else s

/-! ### The Sequencer of a channel -/

/-- Lanes whose mapping changes go high-impedance (R235). -/
def applyLanes (n : Ch) (o : Dev) (s : Dev) : Dev :=
  updSeq n (fun q => { q with lanes := q.lanes.mapIdx fun i v => if rdJ s oVecMap [n] i ≠ rdJ o oVecMap [n] i then 2 else v }) s

/-- The Sequencer's part of a Keystone (R222, R225, R241). -/
def applySequencer (n : Ch) (o : Dev) (t : Txn) (s : Dev) : Dev :=
  let s := applyLanes n o s
  let s := withStaged t oBankReady [n, 0] (applyBankReady n 0) s
  let s := withStaged t oBankReady [n, 1] (applyBankReady n 1) s
  let s := match stagedVal t oPatchTarget [n], stagedVal t oPatchData [n] with
    | some a, some d => applyPatch n a d s
    | _, _ => s
  withStaged t oSeqCmd [n] (applySeqCmd n) s

/-- A channel's part of a Keystone. -/
def applyChannel (n : Ch) (o : Dev) (t : Txn) (s : Dev) : Dev :=
  let s := applyQueues n t s
  let s := applyPe n o 1 (applyPe n o 0 s)
  let s := bothArrays (applyArray n o t) s
  let s := forMons (applyMonitor n o) s
  let s := applySource n o t s
  let s := applyLoop n o t s
  applySequencer n o t s

/-! ### The device -/

/-- HOST_HOLD of a port applied (R304): new units keep their prepare grants, cleared ones are released. -/
def applyHostHold (p : Port) (slot v : Nat) (s : Dev) : Dev :=
  let mine (g : Grant) : Bool := clsOf g.id == p.idx.val
  let keep (x : Shared) : Shared :=
    if bitOf v x.unit then { x with grants := x.grants.map fun g => if g.id = reqId p.idx slot then { g with host := true } else g } else x
  let s : Dev := { s with arb := { s.arb with units := s.arb.units.map keep } }
  (s.arb.units.filter fun x => !bitOf v x.unit && x.grants.any fun g => mine g && g.host).foldl (fun s x =>
    (x.grants.filter fun g => mine g && g.host).foldl (fun s g => unitRelease g.id x.unit s) s) s

/-- A comparison whose array's calibration a Keystone changes ends (R279). -/
def calibrationEnds (o : Dev) (t : Txn) (s : Dev) : Dev :=
  match calRecord t, o.ref.comparison with
  | some _, some c => if t.staged.any fun w => w.index == 0x30C0 + 0x100 * c.channel then cmpEnd true (ctlPos s) s else s
  | _, _ => s

/-- The calibration transaction of a Keystone is in force (R284 to R286, R288): its statement is used and its record is to be marked. The Control die
holds the statement, so that this belongs to its apply, for the whole transaction, whatever tick another die applies on. -/
def applyCalibration (t : Txn) (s : Dev) : Dev :=
  match calRecord t with
  | none => s
  | some (type, _) =>
    let s := match statementOf t with
      | some l => wr s oLastAuthSeq (statementFields l).1 []
      | none => s
    let s := if type = 5 then wr s oAuthKeyFactory 0 [] else s
    match t.record with
    | some seq => updLedger (fun l => { l with marks := l.marks ++ [(seq, s.now)], lastApplied := false }) s
    | none => s

/-- The part of a Keystone outside the channels. -/
def applyDevice (p : Port) (slot : Nat) (o : Dev) (t : Txn) (s : Dev) : Dev :=
  let s := match stagedAt t oCtrlQueueConfig [] with
    | some l => { s with ctrlQueues := applyDescs l s.ctrlQueues }
    | none => s
  let s := withStaged t oRefSwitch [] switchMove s
  let s := if changes s o oOvenSetpoint [] then setpointChanged s else s
  let s := withStaged t oHostHold [] (applyHostHold p slot) s
  let s := withStaged t oFwCtrlSelect [] applyCtrlSelect s
  let s := if changes s o oFwChBank [] then applyChBank (rd o oFwChBank []) (rd s oFwChBank []) s else s
  calibrationEnds o t s

/-- Channels that hold a staged object. -/
def stagedChannels (t : Txn) : List Ch :=
  (List.finRange 24).filter fun n => t.staged.any fun w => ((0x3000 ≤ w.index && w.index < 0x4800) || isTable w.index) && chOf w.index == n

/-- The staged writes of the dies in a mask take effect at the present tick (R315). -/
def applyAll (p : Port) (slot mask : Nat) (t : Txn) (s : Dev) : Dev :=
  let whole := t
  let t := { t with staged := t.staged.filter fun w => bitOf mask (objDie w.index) }
  let o := s
  let s := t.staged.foldl (storeStaged p o t) s
  let s := (stagedChannels t).foldl (fun s n => applyChannel n o t s) s
  let s := applyDevice p slot o t s
  cmpWatch (if bitOf mask 0 then applyCalibration whole s else s)

end Sys2Proof.Machine
end

