-- ==== Sys2Proof/Machine/Txn.lean ====
section
/-! DEFINITION. Hardware transactions (10, R311 to R319): slots, staging, admission, prepare, votes, decisions, the apply. -/

namespace Sys2Proof.Machine

/-- The slot number of an operand. -/
def slotNo (i : Fin 16) : Nat := i.val + 1

/-- A slot of a port. -/
def portTxn (s : Dev) (p : Port) (i : Nat) : Txn := txnOf s p.idx i

/-- The port's current OPEN slot (R311). -/
def currentSlot (s : Dev) (p : Port) : Option Nat :=
  let i := s.ports[p.idx].current
  if i ≠ 0 && (portTxn s p i).st == .opened then some i else none

/-- TXN_REFUSED (Table 10.11). -/
def refusedWord (f : Failed) : Nat := f.code * 2 ^ 32 + f.index * 2 ^ 16 + f.sub * 2 ^ 8 + f.die

/-- The first refusal of a slot is kept (R318). -/
def noteRefused (p : Port) (i word : Nat) (s : Dev) : Dev :=
  updTxn p.idx i (fun t => { t with refused := if t.refused = 0 then word else t.refused }) s

/-- The dies that hold a staged object, as a mask (Table 10.12). -/
def dieMask (t : Txn) : Nat := t.staged.foldl (fun m w => setBit m (objDie w.index)) 0

/-- Bytes staged. -/
def stagedBytes (l : List Staged) : Nat := (l.map fun w => w.data.length).sum

/-! ### Slots and staging -/

/-- TXN_OPEN (R311): the slot opens with an empty staging set and is current. -/
def txnOpen (p : Port) (i : Nat) (s : Dev) : Verdict × Dev :=
  let t := portTxn s p i
  match t.st with
  | .opened | .preparing | .committed => (.abort 0x0F100082, s)
  | .free | .applied | .aborted | .split =>
    (.ok, updPort p (fun x => { x with current := i }) (updTxn p.idx i (fun _ => { txnFree with st := .opened }) s))

/-- The staging set with a write accepted: a write to an object already staged replaces it (R20, R311). -/
def stageInto (w : Staged) (l : List Staged) : List Staged := (l.filter fun x => !(x.index == w.index && x.sub == w.sub)) ++ [w]

/-- R311 for an RK write: a current OPEN slot, the limits of a transaction. -/
def stageState (s : Dev) (p : Port) (ws : List Staged) : Verdict :=
  match currentSlot s p with
  | none => .abort 0x0F100080
  | some i =>
    let l := ws.foldl (fun l w => stageInto w l) (portTxn s p i).staged
    refuseIf (512 < l.length || 65536 < stagedBytes l) 0x81

/-- Writes staged in the port's current slot. -/
def stageWrites (p : Port) (ws : List Staged) (s : Dev) : Dev :=
  match currentSlot s p with
  | some i => updTxn p.idx i (fun t => { t with staged := ws.foldl (fun l w => stageInto w l) t.staged }) s
  | none => s

/-- A refused RK write is the first refusal of its slot (R318; log 39). -/
def noteStage (p : Port) (code index sub : Nat) (s : Dev) : Dev :=
  match currentSlot s p with
  | some i => noteRefused p i (refusedWord ⟨code, index, sub, objDie index⟩) s
  | none => s

/-! ### Aborts -/

/-- Units a transaction holds for itself dropped, with what it waits on; units of HOST_HOLD stay (R304, R318). -/
def txnRelease (p : Port) (i : Nat) (keep : Nat → Bool) (s : Dev) : Dev :=
  let id := reqId p.idx i
  (s.arb.units.map Shared.unit).foldl (fun s u =>
    let mine := (sharedOf s u).grants.any fun g => g.id == id && !g.host
    unitWithdraw id u (if mine && !keep u then unitRelease id u s else s)) s

/-- Units a transaction that has applied holds for itself are released one tick on, but for those of HOST_HOLD (R315). -/
def txnReleaseNext (p : Port) (i : Nat) (s : Dev) : Dev :=
  let id := reqId p.idx i
  (s.arb.units.map Shared.unit).foldl (fun s u =>
    let mine := (sharedOf s u).grants.any fun g => g.id == id && !g.host
    unitWithdraw id u (if mine then grantUntil id u (s.now + 1) s else s)) s

/-- What an abort leaves of a calibration record (R286): a durable one is followed by its ABORT; one that is being programmed is completed
and then followed by it. -/
def abortRecord (p : Port) (i cause : Nat) (s : Dev) : Dev :=
  let t := portTxn s p i
  let s := if (calRecord t).isSome then updLedger (fun l => { l with calAborted := true }) s else s
  let mine (a : Append) : Bool := a.slot == some (p.idx.val, i) && a.aborted.isNone
  match t.record with
  | some seq => causeRecord (ownAppend 6 (abortPayload seq cause) 0 0xFF s) s
  | none => updLedger (fun l => { l with queue := l.queue.map fun a => if mine a then { a with aborted := some cause } else a }) s

/-- A record of this slot is being programmed. -/
def recordRuns (s : Dev) (p : Port) (i : Nat) : Bool := s.ledger.queue.any fun a => a.slot == some (p.idx.val, i)

/-- A transaction in PREPARING aborts (R318): the first cause stands. -/
def txnAbortWith (p : Port) (i cause word : Nat) (s : Dev) : Dev :=
  if (portTxn s p i).st = .preparing then
    let s := abortRecord p i cause s
    let runs := recordRuns s p i
    let s := txnRelease p i (fun u => u == 0xA0 && runs) s
    let s := noteRefused p i word s
    bump oAborts [] (updTxn p.idx i (fun t => { t with st := .aborted, cause := cause, staged := [] }) s)
  else s

/-- Every transaction in PREPARING aborts (R318, R321), on a supply warning, and one whose commit decision fell on the same tick with them: the
warning wins (R323). -/
def abortPreparing (cause : Nat) (s : Dev) : Dev :=
  (allTxns s).foldl (fun s e =>
    let t := e.2.2
    if t.st = .preparing || (t.st = .committed && t.commitAt = s.now) then
      txnAbortWith e.1 e.2.1 cause 0 (updTxn e.1.idx e.2.1 (fun t => { t with st := .preparing, decided := 0 }) s)
    else s) s

/-- TXN_ABORT (R319). -/
def txnAbort (p : Port) (i : Nat) (s : Dev) : Verdict × Dev :=
  match (portTxn s p i).st with
  | .committed => (.abort 0x0F100088, s)
  | .free | .applied | .aborted | .split => (.abort 0x0F100085, s)
  | .opened => (.ok, bump oAborts [] (updTxn p.idx i (fun t => { t with st := .aborted, cause := 6, staged := [] }) s))
  | .preparing => (.ok, txnAbortWith p i 6 0 s)

/-! ### Admission -/

/-- Set bits of a map among the unit numbers. -/
def bitsIn (v : Nat) : List Nat := allUnits.filter (bitOf v)

/-- Units that a port holds by HOST_HOLD, ascending (R304). -/
def hostHeld (s : Dev) (p : Port) : List Nat :=
  ((unitsNow s).filter fun x => x.grants.any fun g => clsOf g.id == p.idx.val && g.host).map Shared.unit

/-- Units a transaction acquires, ascending (R304, R306, Table 10.1): lanes of a changed VEC_MAP, the switch, new host holds, the ledger. What
the port holds by HOST_HOLD is not acquired anew (log 110). -/
def txnUnits (s : Dev) (p : Port) (t : Txn) : List Nat :=
  let lanes := (List.finRange 24).filterMap fun (n : Ch) =>
    if t.staged.any (fun w => w.index == 0x3090 + 0x100 * n.val) then some (0x10 + (Ch.die n).val) else none
  let switch := if stages t oRefSwitch [] then [0x20] else []
  let hold := match stagedHold t with
    | some v => bitsIn v
    | none => []
  let ledger := if (calRecord t).isSome then [0xA0] else []
  let l := lanes ++ switch ++ hold ++ ledger
  allUnits.filter fun u => l.contains u && !(hostHeld s p).contains u

/-- The vote deadline V of a transaction, as a tick (Table 10.4). -/
def voteTick (s : Dev) (t : Txn) : Nat := tickAhead s.cad.recs s.now t.pos - 49152

/-- The ledger lead of what a transaction stages, in ticks (R285). -/
def txnLead (t : Txn) : Nat := stagedLeadMs t * msTicks

/-- The tick of the deadline of a unit's request (Table 10.2): V, and V − LEDGER_LEAD for the ledger. -/
def unitTick (s : Dev) (t : Txn) (u : Nat) : Nat := voteTick s t - (if u = 0xA0 then txnLead t else 0)

/-- The deadline of a unit's request. -/
def unitDeadline (s : Dev) (t : Txn) (u : Nat) : Nat := posAhead s.cad.recs s.now (unitTick s t u)

/-- A transaction asks for the next unit in bond order that it does not hold (R297). -/
def nextUnit (p : Port) (i : Nat) (s : Dev) : Dev :=
  let t := portTxn s p i
  let id := reqId p.idx i
  match t.units.find? fun u => !holds s id u with
  | some u => unitRequest id u (unitDeadline s t u) s
  | none => s

/-- A refusal with 0x0F10_0086 (R317, R320): the hint is reported to the port and the refusal counted. -/
def hintRefusal (p : Port) (h : Nat) (s : Dev) : Dev := bump oPromiseRefusals [] (wrP s oHintLast p h [])

/-- The first acquired unit whose hint does not meet V (R317): its hint. -/
def lateHint (s : Dev) (p : Port) (i : Nat) (t : Txn) (v : Nat) : List Nat → Option Nat
  | [] => none
  | u :: rest =>
    let need := if u = 0xA0 then txnLead t else 0
    match hintTick s u (wouldRequest s (reqId p.idx i) (posAhead s.cad.recs s.now (v - need))) with
    | none => some hintNone
    | some h => if v < h + need then some (posOf s.cad.recs (h * 256)) else lateHint s p i t v rest

/-- The transaction enters PREPARING; with no staged write it has every vote (log 40). -/
def startPrepare (p : Port) (i pos : Nat) (acq : List Nat) (s : Dev) : Dev :=
  let t := portTxn s p i
  let mask := dieMask t
  let s := { s with admitted := s.admitted + 1 }
  let s := updTxn p.idx i (fun t => { t with
    st := if mask = 0 then .committed else .preparing
    pos := pos, mask := mask, order := s.admitted, units := acq, prepared := 0, voted := 0, toSend := 0, veto := none
    decided := 0, presumed := 0, applied := 0, record := none, commitAt := s.now }) s
  nextUnit p i s

/-- A refused Keystone write: it is the first refusal of its slot, under the object KEYSTONE where no staged object is at fault (log 39). -/
def keystoneRefused (p : Port) (i code : Nat) (s : Dev) : Verdict × Dev :=
  (.abort (0x0F100000 + code), noteRefused p i (refusedWord ⟨0x0F100000 + code, 0x2401, 1, 0⟩) s)

/-- The end of the frame that carries a write of KEYSTONE: a frame in service has ended before it is served (R317, R353). -/
def frameEnd (s : Dev) (p : Port) : Nat :=
  match s.ports[p.idx].busy with
  | some x => if x.op = 2 && x.frame.index.toNat = 0x2401 then x.since else s.now
  | none => s.now

/-- The admission of a Keystone write (R317). -/
def keystoneWrite (p : Port) (i : Nat) (next : Bool) (at_ : Nat) (nv : Nv) (s : Dev) : Verdict × Dev :=
  let t := portTxn s p i
  if t.st ≠ .opened then (.abort 0x0F100085, s)
  else if s.supply.warning then keystoneRefused p i 0x89 s
  else
    let f := frameEnd s p
    let lead := 122880 + txnLead t
    let pos := if next then nextMultiple s (f + lead) 16 else at_ % posMod
    if !(f + lead ≤ tickAhead s.cad.recs s.now pos && posLater pos (ctlPos s)) then
      let r := keystoneRefused p i 0x84 s
      (r.1, bump oAborts [] (updTxn p.idx i (fun t => { t with st := .aborted, cause := 3, staged := [] }) r.2))
    else
      let acq := txnUnits s p t
      if acq ≠ [] && !(maxNat (unitsOfPort s p) < acq.headD 0) && unitsOfPort s p ≠ [] then keystoneRefused p i 0x83 s
      else
        match admitFailed nv s p t pos with
        | some x => (.abort x.code, noteRefused p i (refusedWord x) s)
        | none =>
          match lateHint s p i t (tickAhead s.cad.recs s.now pos - 49152) acq with
          | some h =>
            let r := keystoneRefused p i 0x86 s
            (r.1, hintRefusal p h r.2)
          | none => (.ok, startPrepare p i pos acq s)

/-! ### Prepare -/

/-- The first object of a transaction that an earlier-admitted PREPARING or COMMITTED one stages too (R314). -/
def conflictOf (s : Dev) (p : Port) (i : Nat) (t : Txn) : Option Failed :=
  let others := (allTxns s).filter fun e => (e.1 != p || e.2.1 != i) && txnPending e.2.2 && e.2.2.order < t.order
  (t.staged.find? fun w => others.any fun e => (stagedFor e.2.2 w.index w.sub).isSome).map fun w =>
    ⟨0, w.index, w.sub, objDie w.index⟩

/-- What a die finds in prepare (R314): the cause and the TXN_REFUSED value of a no vote. -/
def prepareFinds (s : Dev) (p : Port) (i : Nat) (d : Nat) : Option (Nat × Nat) :=
  let t := portTxn s p i
  if !dieReachable s d then some (4, refusedWord ⟨0x0F100002, 0, 0, d⟩)
  else (prepareFailed s t d).map fun e => (e.1, refusedWord e.2)

/-- A die has yet to prepare for a transaction. -/
def prepareAwaited (s : Dev) (p : Port) (i d : Nat) : Bool :=
  let t := portTxn s p i
  t.st == .preparing && bitOf t.mask d && !bitOf t.prepared d

/-- The prepare reaches a die (R314): it runs its checks and has a vote to send. -/
def prepareArrives (p : Port) (i d : Nat) (s : Dev) : Dev :=
  if prepareAwaited s p i d then
    match prepareFinds s p i d with
    | some v => updTxn p.idx i (fun t => { t with prepared := setBit t.prepared d, veto := some (t.veto.getD v) }) s
    | none => updTxn p.idx i (fun t => { t with prepared := setBit t.prepared d, toSend := setBit t.toSend d }) s
  else s

/-- PREPARE_AT_DIE (R314): a conflict is decided on the Control die, at once; else the die prepares, over a retraining link once that returns
(Table 1.6). -/
def execPrepareAtDie (p : Port) (slot : Fin 16) (die : Fin 8) (s : State) : Host.Outcome State Fault Refusal := onDev s fun s =>
  .next (
    let i := slotNo slot
    if prepareAwaited s p i die then
      match (conflictOf s p i (portTxn s p i)).map fun f => (1, refusedWord f) with
      | some f => txnAbortWith p i f.1 f.2 s
      | none =>
        if 1 ≤ die.val && die.val ≤ 6 && s.dies[dieNo die].link.st == .retraining then linkHolds (dieNo die) (.prepare p i) s
        else prepareArrives p i die s
    else s)

/-- The die of a unit's arbiter, numbered as DIE_MASK. -/
def arbiterDie (u : Nat) : Nat := match unitDie u with
  | some k => k.val + 1
  | none => 0

/-- A die may vote yes: the units of its arbiter are granted, and on the Control die the record is durable (R286, R314). The Control die
stands for arbiters of dies that take no part. -/
def voteReady (s : Dev) (p : Port) (i : Nat) (d : Nat) : Bool :=
  let t := portTxn s p i
  let low := (List.range 8).find? (bitOf t.mask)
  let mine (u : Nat) : Bool := let k := arbiterDie u; k == d || (!bitOf t.mask k && low == some d)
  t.units.all (fun u => !mine u || holds s (reqId p.idx i) u) && (d ≠ 0 || (calRecord t).isNone || t.record.isSome)

/-- A vote at the Control die (R313): a no vote aborts, the last yes vote commits. -/
def voteArrives (p : Port) (i d : Nat) (s : Dev) : Dev :=
  let t := portTxn s p i
  if t.st ≠ .preparing || !bitOf t.prepared d || voteTick s t < s.now then s
  else if bitOf t.toSend d then
    if voteReady s p i d then
      let v := setBit t.voted d
      updTxn p.idx i (fun t => { t with
        commitAt := s.now, voted := v, toSend := clearBit t.toSend d, st := if v = t.mask then .committed else .preparing
        decided := if v = t.mask && bitOf t.mask 0 then 1 else t.decided }) s
    else s
  else match t.veto with
    | some (c, w) => if bitOf t.voted d then s else txnAbortWith p i c w s
    | none => s

/-- What the Control die and a die numbered as DIE_MASK say to each other about a transaction: a Channel die over its link (Table 1.6), the
Reference die over its control link while it works (R38). -/
def overDie (d : Nat) (m : FabMsg) (f : Dev → Dev) (s : Dev) : Dev :=
  if d = 0 then f s
  else if d = 7 then (if s.ref.linkFault then s else f s)
  else overLink (dieNo d) (.fabric m) f s

/-- DIE_VOTE (R313). -/
def execDieVote (p : Port) (slot : Fin 16) (die : Fin 8) (s : State) : Host.Outcome State Fault Refusal := onDev s fun s =>
  .next (overDie die (.vote p (slotNo slot)) (voteArrives p (slotNo slot) die) s)

/-- The tick at which a PREPARING transaction finds its deadline passed: V, and V − LEDGER_LEAD while the ledger it acquires is not granted. -/
def deadlineTick (s : Dev) (p : Port) (i : Nat) : Nat :=
  let t := portTxn s p i
  if t.units.contains 0xA0 && !holds s (reqId p.idx i) 0xA0 then unitTick s t 0xA0 else voteTick s t

/-- Why a transaction that V finds in PREPARING aborts (R318, Table 10.5): a unit not granted, the record not durable, a link, a vote. -/
def deadlineFinds (s : Dev) (p : Port) (i : Nat) : Nat × Nat :=
  let t := portTxn s p i
  let missing := (List.range 8).filter fun d => bitOf t.mask d && !bitOf t.voted d
  let away := t.units.filter fun u => !holds s (reqId p.idx i) u
  match (if away.contains 0xA0 then some 0xA0 else away.head?) with
  | some u => (4, refusedWord ⟨0x0F100086, 0, u, arbiterDie u⟩)
  | none =>
    if (calRecord t).isSome && t.record.isNone then (4, refusedWord ⟨0, 0x2610, 1, 0⟩)
    else match missing.find? fun d => !dieReachable s d with
      | some d => (4, refusedWord ⟨0x0F100002, 0, 0, d⟩)
      | none => (3, refusedWord ⟨0, 0, 0, missing.headD 0⟩)

/-- VOTE_DEADLINE (R313, R318): V passes with votes missing, or the deadline of the ledger with the ledger not granted. -/
def execVoteDeadline (p : Port) (slot : Fin 16) (s : State) : Host.Outcome State Fault Refusal := onDev s fun s =>
  .next (
    let i := slotNo slot
    if (portTxn s p i).st = .preparing then
      let s := advance (deadlineTick s p i) s
      let f := deadlineFinds s p i
      txnAbortWith p i f.1 f.2 s
    else s)

/-- A commit decision at a die that holds none (R316); an abort decision needs nothing more there. -/
def decisionArrives (p : Port) (i d : Nat) (s : Dev) : Dev :=
  let t := portTxn s p i
  if t.st = .committed && bitOf t.mask d && dieReachable s d && !bitOf t.presumed d then
    updTxn p.idx i (fun t => { t with decided := setBit t.decided d }) s
  else s

/-- DECISION_ARRIVAL (R316). -/
def execDecisionArrival (p : Port) (slot : Fin 16) (die : Fin 8) (s : State) : Host.Outcome State Fault Refusal := onDev s fun s =>
  .next (overDie die (.decision p (slotNo slot)) (decisionArrives p (slotNo slot) die) s)

/-- PRESUMED_ABORT (R316): 4915 ticks before P a die without a decision presumes an abort. -/
def execPresumedAbort (p : Port) (slot : Fin 16) (die : Fin 8) (s : State) : Host.Outcome State Fault Refusal := onDev s fun s =>
  .next (
    let i := slotNo slot
    let t := portTxn s p i
    if t.st = .committed && bitOf t.mask die && !bitOf t.decided die then
      let s := advance (tickNear s.cad.recs t.pos - 4915) s
      updTxn p.idx i (fun t => { t with presumed := setBit t.presumed die }) s
    else s)

/-! ### The apply -/

/-- A SPLIT (R316): counted, event 0x02, the latch, a Slate if asked for. -/
def splitFound (p : Port) (i : Nat) (s : Dev) : Dev :=
  let s := faultLatch 1 (logEvent 0x02 p.idx i (bump oSplits [] s))
  if bitOf (rd s oSlateOnSplit []) 0 then slateTrigger 5 (p.idx.val * 256 + i) s else s

/-- The tick on which a die, numbered as DIE_MASK, acts on a position (R48, R49, R63, R64); none while it lacks the record of its cycle. -/
def partTick (s : Dev) (d pos : Nat) : Option Nat := if 1 ≤ d && d ≤ 6 then dieTick s.dies[dieNo d] pos else reachTick s.cad.recs pos

/-- Dies that hold the decision and have not applied. -/
def applyDies (t : Txn) : List Nat := (List.range 8).filter fun d => bitOf t.decided d && !bitOf t.applied d

/-- The tick of the next apply of a COMMITTED transaction (R315, R49): the first of the ticks of P on its dies. A die that lacks the record of P's
cycle holds the event (R48); with no die to apply, the Control die ends the transaction. -/
def applyTick (s : Dev) (t : Txn) : Option Nat :=
  match applyDies t with
  | [] => reachTick s.cad.recs t.pos
  | l => (l.filterMap fun d => partTick s d t.pos).min?

/-- Every die that holds the decision has applied (R315, R316): APPLIED, or SPLIT where some participant holds none; the units are released one
tick on, but for those of HOST_HOLD. -/
def txnEnds (p : Port) (i : Nat) (s : Dev) : Dev :=
  let t := portTxn s p i
  let whole := t.decided = t.mask
  let s := updTxn p.idx i (fun t => { t with st := if whole then .applied else .split, staged := if whole then [] else t.staged })
    (txnReleaseNext p i s)
  if whole then bump oCommits [] s else splitFound p i s

/-- The next apply of a COMMITTED transaction: the dies whose tick of P it is apply, and with the last of them the transaction ends. Dies apart only
where one extends its records or waits for one (R48, R63). -/
def keystoneApply (p : Port) (i : Nat) (s : Dev) : Dev :=
  let t := portTxn s p i
  match t.st, applyTick s t with
  | .committed, some at_ =>
    let now := (applyDies t).filter fun d => partTick s d t.pos == some at_
    let mask := now.foldl setBit 0
    let s := updTxn p.idx i (fun t => { t with applied := t.applied + mask }) (applyAll p i mask t (advance at_ s))
    if applyDies (portTxn s p i) = [] then txnEnds p i s else s
  | _, _ => s

/-! ### Views -/

/-- State code (Table 10.12). -/
def txnCode : TxState → Nat
  | .free => 0 | .opened => 1 | .preparing => 2 | .committed => 3 | .applied => 4 | .aborted => 5 | .split => 6

/-- TXN_STATUS (Table 10.12). -/
def txnStatus (t : Txn) : Nat := txnCode t.st + t.cause * 16 + t.mask * 256 + t.applied * 65536

/-- TXN_SUMMARY. -/
def txnSummary (s : Dev) (p : Port) : Nat :=
  (List.range 16).foldl (fun v i => v + flagAt ((portTxn s p (i + 1)).st != .free) i) 0

end Sys2Proof.Machine
end

