-- ==== Sys2Proof/Machine/Views.lean ====
section
/-! DEFINITION. What a read returns (R331 to R335): the stored value of a plain object, and the status words, tables and copies that the
object maps of 01 to 13 compute. -/

namespace Sys2Proof.Machine

/-! ### Places -/

/-- The channel at the first place of a row. -/
def chAt (l : List Nat) : Ch := ⟨l.getD 0 0 % 24, Nat.mod_lt _ (by decide)⟩
/-- The array at the second place of a row. -/
def arrIn (l : List Nat) : ArrId := if l.getD 1 0 = 0 then .vm else .im
/-- The monitor at the second place of a row. -/
def monIn (l : List Nat) : Mon := ⟨l.getD 1 0 % 4, Nat.mod_lt _ (by decide)⟩
/-- The engine PE0 or PE1 at the second place of a row. -/
def peIn (l : List Nat) : Fin 2 := ⟨l.getD 1 0 % 2, Nat.mod_lt _ (by decide)⟩
/-- The slice at the third place of a row. -/
def sliceIn (l : List Nat) : Fin 7 := ⟨l.getD 2 0 % 7, Nat.mod_lt _ (by decide)⟩
/-- A Channel die by number. -/
def dieIn (j : Nat) : Die := ⟨j % 6, Nat.mod_lt _ (by decide)⟩

/-! ### 01: dies and links -/

/-- STATE of a link (Table 1.9). -/
def linkCode : LinkState → Nat
  | .reset => 0 | .training => 1 | .active => 2 | .retraining => 3 | .lost => 4

/-- The descriptor of a Channel die (Table 1.8). -/
def dieDescriptor (k : Nat) (d : DieState) : Nat :=
  2 * 2 ^ 28 + k * 2 ^ 24 + 0xB0 * 2 ^ 16 + d.services.map.toNat * 2 ^ 8 + 2 ^ 7 + flagAt (d.link.st == .active) 6 +
    flagAt d.services.spare.isSome 5 + flagAt (d.services.stopped != 0) 4 + flagAt d.link.degraded 3

/-- Link status (Table 1.9). -/
def linkStatus (l : Link) : Nat :=
  let width := match l.st with
    | .reset | .training | .lost => 0
    | .active | .retraining => l.width.toNat
  l.retrains * 2 ^ 24 + l.retries * 2 ^ 8 + width * 2 ^ 6 + flagAt l.rate8 5 + linkCode l.st

/-! ### 02: the Reel -/

/-- STATE of the Cadence Unit (Table 2.7). -/
def cadCode : CadState → Nat
  | .freerun => 0 | .acquire => 1 | .locked => 2 | .holdover => 3 | .relock => 4

/-- REEL_STATUS (Table 2.7). -/
def reelStatus (s : Dev) : Nat :=
  let c := s.cad
  cadCode c.st + c.src * 2 ^ 4 + flagAt (c.st == .locked || c.st == .freerun) 8 + flagAt c.long 9 + flagAt c.present 10 +
    flagAt c.rangeErr 11 + flagAt (s.dies.any fun d => d.extending) 12 + flagAt (waitingFor s oReelSource).isSome 13

/-- HOP (Table 2.6). -/
def hopOf (s : Dev) : Nat :=
  if s.cad.src ≠ 3 then 0
  else match s.zh.upHop with
    | some h => if s.zh.upValid then h + 1 else 0xFF
    | none => 0xFF

/-- LINK_TIMING (Table 2.6). -/
def linkTiming (s : Dev) : Nat := flagAt s.zh.upValid 0 + flagAt s.zh.downSeen 1 + flagAt s.zh.masterHold 2

/-! ### 03: the source path -/

/-- SRC_STATUS (Table 3.9). -/
def srcStatus (s : Dev) (n : Ch) : Nat :=
  let x := (s.ch n).src
  srcStateCode x.st + flagAt x.gndClamp 3 + flagAt x.forceEn 4 + flagAt x.range.isSome 5 + flagAt x.hold.isSome 6 + flagAt x.codeClamped 7 +
    flagAt x.compliance 8 + flagAt x.outLimit 9 + flagAt x.refSettled 10 + flagAt x.primed 11 + flagAt x.hizClamp 12 +
    flagAt (!(srcEntry s n).provisioned) 13 + x.clampCause * 2 ^ 16

/-- SINE_STATUS (Table 3.10). -/
def sineStatus (x : Src) : Nat := flagAt x.sine.amplWait.isSome 0 + flagAt (x.sine.waiting != []) 1

/-- DRIVER_STATE (Table 3.11). -/
def driverState (x : Src) : Nat := x.rangeSel % 256 + flagAt (!x.forceEn) 8

/-! ### 04: the arrays -/

/-- OVERRANGE_NOW (Table 4.12): the detector fired on the last modulator clock. An aperture end tells it of its last clock; of every other clock no
command does (log 31). -/
def overrangeNow (s : Dev) (n : Ch) (a : ArrId) : Bool :=
  match (arrOf s n a).overClock with
  | some (c, b) => if c = s.now / 40 then b else Config.detectorOn n.val a.idx (s.now / 40)
  | none => Config.detectorOn n.val a.idx (s.now / 40)

/-- ARR_STATUS (Table 4.12), `over` being OVERRANGE_NOW. TAP_SETTLING is that of the last tap sample handed over. -/
def arrStatus (fired : Bool) (x : Arr) : Nat :=
  arrStateCode x.st + flagAt x.cal.isSome 6 + flagAt (invalidRemain x != 0) 7 + flagAt x.refSettled 8 + flagAt (x.recover != 0) 9 +
    flagAt x.urgent.isSome 10 + flagAt (x.tap.settling && x.tap.tick != 0) 11 + x.roles.length * 2 ^ 12 + flagAt x.ready 16 +
    flagAt fired 17 + flagAt x.calStale 18 + flagAt (noSpare x) 19 + serviceable x * 2 ^ 20

/-- A slice number, 0xF none. -/
def sliceNo : Option (Fin 7) → Nat
  | some i => i.val
  | none => 0xF

/-- SLICE_MAP (Table 4.13): a role that does not exist is unfilled. -/
def sliceMap (x : Arr) : Nat :=
  (List.range 6).foldl (fun v i => v + sliceNo (x.shown.1.getD i none) * 16 ^ i) 0 + sliceNo x.shown.2 * 2 ^ 24

/-- SLICE_STATE (Table 4.11). -/
def sliceCode : SliceState → Nat
  | .active => 0 | .spareIdle => 1 | .calibrating => 2 | .verify => 3 | .retired => 4

/-- TAP_STATUS (Table 4.11). -/
def tapStatus (t : Tap) : Nat := flagAt t.settling 0 + flagAt t.overload 1

/-! ### 05: queues, Course results, post-processing -/

/-- The descriptors in force of queues `first` to `first + k − 1` (R163). -/
def descBytes (l : List (Nat × Queue)) (first k : Nat) : List Byte := (List.range k).flatMap fun i => leBytes 8 (qFind l (first + i)).desc.toNat

/-- Their status words (Table 5.12). -/
def statusBytes (l : List (Nat × Queue)) (first k : Nat) : List Byte :=
  (List.range k).flatMap fun i => leBytes 8 (queueStatus (qFind l (first + i)))

/-- Half of a Course result register as a read at a tick returns it (R159): a half written on that tick shows the take from before. -/
def crrRead (c : Chan) (now half : Nat) : Nat :=
  match c.crrOld.find? fun e => e.1 == half && e.2.1 == now with
  | some e => e.2.2
  | none => tabGet c.crrs 0 half

/-- Course result registers as a read at a tick returns them (R159). -/
def crrBytes (c : Chan) (now first k : Nat) : List Byte :=
  (List.range k).flatMap fun i => leBytes 8 (crrRead c now (2 * (first + i))) ++ leBytes 8 (crrRead c now (2 * (first + i) + 1))

/-- CRR_WINDOW (Table 5.7): registers beyond 16 383 are not returned. -/
def crrWindow (s : Dev) (p : Port) (l : List Nat) : List Byte :=
  let v := rdP s oCrrSel p l
  let first := getField v 0 15
  crrBytes (s.ch (chAt l)) s.now first (min (getField v 16 9) (16384 - first))

/-- PE_STATUS (Table 5.13): the inputs of the block, used and skipped. -/
def peStatus (x : Pe) : Nat := (x.used + x.skipped) % 2 ^ 24 + flagAt (x.used + x.skipped != 0) 24

/-- The words of a record as bytes (R149). -/
def wordBytes (l : List Word64) : List Byte := l.flatMap fun w => leBytes 8 w.toNat

/-- The head slots last loaded for a channel: eight words and HEAD_VALID (R169). -/
def headImage (s : Dev) (n : Ch) : List Word64 × Nat :=
  match s.portN.heads.find? fun e => e.1 == n.val with
  | some e => e.2
  | none => ([], 0)

/-! ### 06: the loop -/

/-- STATE of the Loop Engine (Table 6.9). -/
def loopCode : LoopState → Nat
  | .openState => 0 | .primed => 1 | .primary => 2 | .limit => 3 | .rangeXover => 4 | .safeHold => 5 | .safeRamp => 6

/-- Coefficients staged with a range change wait for its boundary b_x (R200). -/
def coefsWait (s : Dev) (n : Ch) : Bool := (s.ch n).loop.xover.any fun x => x.writes.any (coefKey s n)

/-- LOOP_STATUS (Table 6.9). -/
def loopStatus (s : Dev) (n : Ch) : Nat :=
  let l := (s.ch n).loop
  let set := if l.st = .openState then rd s oCoefActive [n] else l.setNo
  loopCode l.st + flagAt (forcesCurrent s n != onLimit l) 4 + flagAt l.sideLow 5 + flagAt l.magLimited 6 + flagAt l.slewLimited 7 +
    flagAt l.coasting 8 + flagAt l.overrunLast 9 + flagAt (rd s oLoopFault [n] ≠ 0) 10 + flagAt (l.setWaits || coefsWait s n) 11 +
    flagAt (l.st == .limit && !bitOf (rd s oLoopMode [n]) 1 && !l.released) 12 + set * 2 ^ 16

/-! ### 11: device, events, Port N, channels -/

/-- STATE of the supplies (Table 13.4). -/
def powerCode : PowerState → Nat
  | .reset | .starting => 0 | .running => 1 | .warning => 2 | .recovering => 3

/-- DEVICE_STATUS (Table 11.11). -/
def deviceStatus (s : Dev) : Nat :=
  powerCode s.supply.st + flagAt s.supply.released 4 + flagAt s.ledger.scanDone 5 + flagAt s.ref.calLoaded 6 +
    flagAt (s.chans.all fun c => c.vm.ready && c.im.ready) 7 + flagAt s.control.restarted 8

/-- An event record (R344). -/
def eventBytes (e : EventRec) : List Byte := leBytes 1 e.code ++ leBytes 1 e.arg0 ++ leBytes 2 e.arg1 ++ leBytes 4 e.seq ++ leBytes 8 e.pos

/-- EVENT_LOG: the records oldest first, those not yet written as zeros behind them. -/
def eventLog (s : Dev) : List Byte := (s.events.reverse.flatMap eventBytes ++ leBytes 1024 0).take 1024

/-- EVENT (Table 11.10). -/
def eventAt (s : Dev) (seq : Nat) : List Byte :=
  match s.events.find? fun e => e.seq == seq with
  | some e => eventBytes e
  | none => leBytes 16 0

/-- AL state as Table 11.9 numbers it. -/
def alCode : AlState → Nat
  | .init => 1 | .preop => 2 | .safeop => 4 | .op => 8

/-- PORTN_STATUS (Table 11.10): a sync type is in force while process data is exchanged. -/
def portnStatus (s : Dev) : Nat :=
  let x := s.portN
  let sync := if x.al = .safeop || x.al = .op then rd s oOutSyncType [] % 4 else 0
  alCode x.al + flagAt x.alError 4 + flagAt x.watchdog 5 + sync * 2 ^ 6 + flagAt x.link0 8 + flagAt x.link1 9

/-- CH_STATUS (Table 11.14). -/
def chStatus (s : Dev) (n : Ch) : Nat :=
  let c := s.ch n
  srcStateCode c.src.st + loopCode c.loop.st * 2 ^ 4 + seqStateCode s n * 2 ^ 8 + arrStateCode c.vm.st * 2 ^ 12 + arrStateCode c.im.st * 2 ^ 16 +
    (List.finRange 4).foldl (fun v (m : Mon) => v + flagAt (c.mons[m].st == .running) (20 + m.val)) 0 + flagAt (rd s oChFault [n] ≠ 0) 24

/-- The RxPDO image latched last for a channel (R338). -/
def rxImage (s : Dev) (n : Ch) : RxImage :=
  match s.portN.rx.find? fun e => e.1 == n with
  | some e => e.2
  | none => ⟨0, 0, 0, 0, 0, []⟩

/-! ### 12: ports, identity, firmware -/

/-- Any queue whose consumer is Port S is at or above its watermark (Table 12.3). -/
def watermarkS (s : Dev) : Bool :=
  let up (e : Nat × Queue) : Bool := descConsumer e.2.desc == 1 && watermarkRaised e.2
  s.ctrlQueues.any up || s.chans.any fun c => c.queues.any up

/-- IRQ_STATUS (Table 12.3). -/
def irqStatus (s : Dev) : Nat :=
  let v := rd s oIrqStatus []
  flagAt (s.ports[1].response.isSome) 0 + flagAt (watermarkS s) 1 + flagAt (bitOf v 2) 2 + flagAt (bitOf v 3) 3 +
    flagAt s.supply.warning 4 + flagAt (bitOf v 5) 5

/-- IRQ_n is driven low (R354). -/
def irqLow (s : Dev) : Bool := irqStatus s &&& rd s oIrqMask [] != 0

/-- FUSES (Table 12.6). -/
def fusesView (nv : Nv) : Nat := fuseWord nv

/-- Port D's object access is open: OBJ_OFF is not blown (Table 12.6). -/
def portDOpen (nv : Nv) : Bool := !bitOf nv.fuses 1

/-- PORT_STATUS (Table 12.8). -/
def portStatus (nv : Nv) (s : Dev) : Nat := flagAt s.sec.sealOpen 0 + flagAt (portDOpen nv) 1 + flagAt s.sec.peer.isSome 2

/-- DEVICE_CERT (R361). -/
def deviceCert : List Byte :=
  leBytes 57 Config.provPubkey ++ leBytes 4 Config.provSerial ++ leBytes 4 0x00B00001 ++ leBytes 122 Config.provCert

/-- ATTEST_STATUS (Table 12.8): a held report is ready unless a build has started since. -/
def attestStatus (s : Dev) (p : Port) : Nat :=
  let building := s.ports[p.idx].attest.isSome
  flagAt building 0 + flagAt (!building && rdP s oAttestReport p [] ≠ 0) 1

/-! ### 13: supplies, Slate -/

/-- A reading of the present ms (Table 13.16). -/
def supplyNow (s : Dev) (i : Nat) : Nat := ofSigned 16 (Config.supplyReading i (s.now / msTicks))

/-- A die reads above 150 °C (R395): a Channel die in its last report, the Control die, the Reference die. -/
def overTemp (s : Dev) : Bool :=
  s.supply.overtemp || decide (15000 < toSigned 16 (supplyNow s 4)) || decide (15000 < rdI s oRefDieTemp [])

/-- SUPPLY_STATUS (Table 13.19). -/
def supplyStatus (s : Dev) : Nat :=
  let x := s.supply
  powerCode x.st + x.below.toNat * 2 ^ 8 + x.cause.toNat * 2 ^ 12 + flagAt (overTemp s) 16

/-- TELEM_STATUS (R395): STALE while the die's link, once trained, is not ACTIVE. -/
def telemStatus (s : Dev) (k : Die) : Nat := flagAt (s.dies[k].link.st != .active && s.dies[k].link.st != .reset) 0

/-- TRK_NOW (Table 13.18). -/
def trkNow (t : Track) : Nat := t.dutyP % 2048 + t.dutyN % 2048 * 2 ^ 16

/-- A Slate entry (Table 13.7, Table 13.8). -/
def slateBytes (e : SlateEntry) : List Byte :=
  leBytes 4 e.seq ++ leBytes 4 e.triggers ++ leBytes 8 e.pos ++ leBytes 8 e.tick ++ leBytes 1 e.mask ++ leBytes 1 e.flags ++
    leBytes 2 e.arg ++ leBytes 36 0 ++ e.body

/-- The selected Slate, where it is in the ring. -/
def slateAt (s : Dev) (seq : Nat) : Option (List Byte) := (s.slate.ring.find? fun e => e.2.seq == seq).map fun e => slateBytes e.2

/-- SLATE_HEAD: the newest entry of the ring. -/
def slateHead (s : Dev) : Nat := maxNat (s.slate.ring.map fun e => e.2.seq)

/-- SLATE_DIR (Table 13.17). -/
def slateDir (s : Dev) : List Byte :=
  (List.range 16).flatMap fun i => leBytes 4 (match s.slate.ring.find? fun e => e.1 == i with
    | some e => e.2.seq
    | none => 0xFFFFFFFF)

/-! ### The table of computed objects -/

/-- An object whose value is computed: from the ledger and fuses, the device, the reading port, the places and the element. -/
structure View where
  row : Row
  read : Nv → Dev → Port → List Nat → Nat → List Byte

/-- A computed number. -/
def num (r : Row) (f : Dev → List Nat → Nat) : View := ⟨r, fun _ s _ l _ => leBytes r.size (f s l)⟩

/-- A computed number that the reading port selects. -/
def numP (r : Row) (f : Dev → Port → Nat) : View := ⟨r, fun _ s p _ _ => leBytes r.size (f s p)⟩

/-- A computed number of the ledger or the fuses. -/
def numV (r : Row) (f : Nv → Dev → Nat) : View := ⟨r, fun nv s _ _ _ => leBytes r.size (f nv s)⟩

/-- A computed string of bytes. -/
def raw (r : Row) (f : Dev → Port → List Nat → List Byte) : View := ⟨r, fun _ s p l _ => f s p l⟩

/-- A text: trailing zeros are not part of it (Table 11.4). -/
def text (n v : Nat) : List Byte := ((leBytes n v).reverse.dropWhile fun b => b == 0).reverse

/-- Computed objects of the communication range and of 0x2000 to 0x22FF. -/
def viewsDev : List View :=
  [raw oDeviceName fun _ _ _ => text 16 (dfltAt oDeviceName 0x1008 0),
   raw oHwVersion fun _ _ _ => text 8 (dfltAt oHwVersion 0x1009 0),
   raw oSwVersion fun s _ _ => text 32 (Config.versionText s.fw.image.version),
   num oInSyncType fun s _ => rd s oOutSyncType [],
   num oDeviceStatus fun s _ => deviceStatus s,
   num oUptime fun s _ => s.now / msTicks,
   num oFaultSummary fun s _ => faultSummary s,
   num oEventHead fun s _ => (s.events.headD ⟨0, 0, 0, 0, 0⟩).seq,
   raw oEvent fun s p _ => eventAt s (rdP s oEventSel p []),
   raw oEventLog fun s _ _ => eventLog s,
   num oPortnStatus fun s _ => portnStatus s,
   num oCtrlDieDesc fun _ _ => 0x10B000C0,
   ⟨oChDieDesc, fun _ s _ _ j => leBytes 4 (dieDescriptor j s.dies[dieIn j])⟩,
   num oRefDieDesc fun s _ => 0x30B00080 + flagAt (!s.ref.linkFault) 6,
   ⟨oLinkStatus, fun _ s _ _ j => leBytes 4 (linkStatus s.dies[dieIn j].link)⟩,
   raw oCtrlQueueConfig fun s _ _ => descBytes s.ctrlQueues 0 4096,
   raw oCtrlQueueStatus fun s _ _ => statusBytes s.ctrlQueues 0 4096,
   num oCtrlPoolFree fun s _ => ctrlPoolFree s,
   num oReelStatus fun s _ => reelStatus s,
   num oReelNow fun s _ => ctlPos s,
   num oCycleLen fun s _ => lenNow s,
   num oHop fun s _ => hopOf s,
   num oLinkTiming fun s _ => linkTiming s,
   num oSlateHead fun s _ => slateHead s,
   raw oSlateRead fun s p _ => (slateAt s (rdP s oSlateSel p [])).getD [],
   raw oSlateDir fun s _ _ => slateDir s]

/-- Computed objects of 0x2300 to 0x28FF. -/
def viewsArb : List View :=
  [num oArbStatus fun s _ => arbStatus s,
   raw oArbInForce fun s _ _ => arbInForce s,
   raw oResStatus fun s _ _ => resStatus s,
   numP oTxnCurrent fun s p => (currentSlot s p).getD 0,
   numP oTxnWrites fun s p => match currentSlot s p with | some i => (portTxn s p i).staged.length | none => 0,
   numP oTxnBytes fun s p => match currentSlot s p with | some i => stagedBytes (portTxn s p i).staged | none => 0,
   numP oTxnStatus fun s p => txnStatus (portTxn s p (rdP s oTxnSel p [])),
   numP oTxnPos fun s p => (portTxn s p (rdP s oTxnSel p [])).pos,
   numP oTxnRefused fun s p => (portTxn s p (rdP s oTxnSel p [])).refused,
   numP oTxnSummary fun s p => txnSummary s p,
   numP oHintLast fun s p => rdP s oHintLast p [],
   num oSupplyStatus fun s _ => supplyStatus s,
   num oVsysNow fun s _ => supplyNow s 0,
   num oAvpNow fun s _ => supplyNow s 1,
   num oAvnNow fun s _ => supplyNow s 2,
   num oVioNow fun s _ => supplyNow s 3,
   num oCtrlTemp fun s _ => supplyNow s 4,
   num oRefStatus fun s _ => refStatus s,
   num oRefTrimNow fun s _ => ofSigned 32 s.ref.trim,
   num oCmpStatus fun s _ => cmpStatus s,
   numP oCalStagedHash fun s p => match (currentSlot s p).bind fun i => calRecord (portTxn s p i) with
     | some (_, l) => Config.shake256 l
     | none => 0,
   numP oLedgerLead fun s p => match currentSlot s p with | some i => 1000 * stagedLeadMs (portTxn s p i) | none => 0,
   num oCalStatus fun s _ => calStatus s,
   numV oLedgerStatus ledgerStatus,
   numV oHeadSeq fun nv _ => headSeq nv,
   numV oHeadHash fun nv _ => headHash nv,
   numV oLedgerFree fun nv _ => ledgerFree nv,
   num oAgeNow fun s _ => ageNow s,
   num oPowerUps fun s _ => s.ledger.powerUps,
   ⟨oRecord, fun nv s p _ _ => (recordAt nv (rdP s oRecordSel p [])).getD []⟩,
   numV oPortStatus portStatus,
   num oIrqStatus fun s _ => irqStatus s,
   raw oDeviceCert fun _ _ _ => deviceCert,
   numV oFuses fun nv _ => fusesView nv,
   numP oAttestStatus attestStatus,
   num oFwSlotState fun s l => fwSlotState s ⟨l.getD 0 0 % 4, Nat.mod_lt _ (by decide)⟩,
   num oFwSlotVersion fun s l => (s.fw.slots[(⟨l.getD 0 0 % 4, Nat.mod_lt _ (by decide)⟩ : Fin 4)]).version,
   num oFwSlotHash fun s l => (s.fw.slots[(⟨l.getD 0 0 % 4, Nat.mod_lt _ (by decide)⟩ : Fin 4)]).hash,
   num oFwChStatus fun s _ => fwChStatus s,
   num oFwRollbackFloor fun s _ => s.fw.floor,
   num oPeerStatus fun s _ => flagAt s.sec.peer.isSome 0 + flagAt s.sec.peerReady 1,
   num oPromiseStatus fun s _ => flagAt s.supply.warning 0]

/-- Computed objects of a channel, C(n)+0x00 to C(n)+0x5F. -/
def viewsCh0 : List View :=
  [num oChStatus fun s l => chStatus s (chAt l),
   num oSrcStatus fun s l => srcStatus s (chAt l),
   num oQFill fun s l => (s.ch (chAt l)).src.queue.length,
   num oCodeNow fun s l => ofSigned 40 (s.ch (chAt l)).src.code,
   num oSinePhaseNow fun s l => sinePhaseNow s (chAt l),
   num oSineStatus fun s l => sineStatus (s.ch (chAt l)).src,
   num oDriverState fun s l => driverState (s.ch (chAt l)).src,
   num oArrStatus fun s l => arrStatus (overrangeNow s (chAt l) (arrIn l)) (arrOf s (chAt l) (arrIn l)),
   num oSliceMap fun s l => sliceMap (arrOf s (chAt l) (arrIn l)),
   num oInvalidRemain fun s l => invalidRemain (arrOf s (chAt l) (arrIn l)),
   num oSliceState fun s l => sliceCode (arrOf s (chAt l) (arrIn l)).slices[sliceIn l].st,
   num oGainTrim fun s l => ofSigned 40 (arrOf s (chAt l) (arrIn l)).slices[sliceIn l].gain,
   num oOffsetTrim fun s l => ofSigned 40 (arrOf s (chAt l) (arrIn l)).slices[sliceIn l].offset,
   num oCalPos fun s l => (arrOf s (chAt l) (arrIn l)).slices[sliceIn l].calPos,
   num oNbrDiff fun s l => ofSigned 40 (arrOf s (chAt l) (arrIn l)).slices[sliceIn l].nbrDiff,
   num oTapStatus fun s l => tapStatus (arrOf s (chAt l) (arrIn l)).tap,
   raw oQueueConfig fun s _ l => descBytes (s.ch (chAt l)).queues 1 511,
   raw oQueueStatus fun s _ l => statusBytes (s.ch (chAt l)).queues 1 511,
   num oPoolFree fun s l => poolFree s (chAt l).die,
   raw oCrrWindow crrWindow]

/-- Computed objects of a channel, C(n)+0x60 to C(n)+0xFF. -/
def viewsCh1 : List View :=
  [num oLoopStatus fun s l => loopStatus s (chAt l),
   num oConsecOverruns fun s l => (s.ch (chAt l)).loop.consec,
   num oSeqStatus fun s l => seqStatus s (chAt l),
   num oCurCourse fun s l => curCourse (s.ch (chAt l)).seq,
   num oCurSegment fun s l => curSegment s (chAt l),
   num oBankReady fun s l => bankReadyView (s.ch (chAt l)).seq (l.getD 1 0),
   raw oPatchData fun s _ l => leBytes 32 (tabGet s.objs 0 (keyOf oPatchData l 0)),
   num oVecLevels fun s l => vecLevels s (chAt l),
   num oMarkLevels fun s l => markLevels (s.ch (chAt l)).seq,
   num oMonStatus fun s l => monStatus s (chAt l) (monIn l),
   num oGuardLatch fun s l => guardLatch s (chAt l),
   num oVerifyStatus fun s l => verifyStatus s (chAt l),
   num oMonStates fun s l => monStates s (chAt l),
   num oSelfcalStatus fun s l => selfcalStatus s (chAt l),
   num oTrkNow fun s l => trkNow (s.ch (chAt l)).track,
   num oPeStatus fun s l => peStatus (s.ch (chAt l)).pes[peIn l],
   raw oPeLast fun s _ l => wordBytes (s.ch (chAt l)).pes[peIn l].last]

/-- Computed objects of the dies, tables and process data. -/
def viewsTab : List View :=
  [num oTelemStatus fun s l => telemStatus s (dieIn (l.getD 0 0)),
   raw oBankA fun s _ l => (List.range 8192).flatMap fun i => leBytes 32 (courseOf (s.ch (chAt l)).seq 0 i),
   raw oBankB fun s _ l => (List.range 8192).flatMap fun i => leBytes 32 (courseOf (s.ch (chAt l)).seq 1 i),
   raw oBankState fun s _ l => leBytes 8 (bankStateWord (s.ch (chAt l)).seq),
   raw oMcfgTable fun s _ l => (List.range 256).flatMap fun i => leBytes 16 (tabGet (s.ch (chAt l)).mcfg mcfgDefault i),
   raw oCourseResults fun s _ l => crrBytes (s.ch (chAt l)) s.now 0 16384,
   ⟨oHead, fun _ s _ l j => leBytes 8 ((headImage s (chAt l)).1.getD j 0).toNat⟩,
   num oHeadValid fun s l => (headImage s (chAt l)).2,
   num oRxCtrl fun s l => (rxImage s (chAt l)).ctrl.toNat,
   num oRxSrcCode fun s l => (rxImage s (chAt l)).srcCode.toNat,
   num oRxLoopSp fun s l => (rxImage s (chAt l)).loopSp.toNat,
   num oRxCutArg fun s l => (rxImage s (chAt l)).cutArg.toNat,
   num oQCount fun s l => (rxImage s (chAt l)).qCount.toNat,
   ⟨oQCode, fun _ s _ l j => leBytes 5 ((rxImage s (chAt l)).qCodes.getD j 0).toNat⟩]

/-- The computed objects that may hold an index. -/
def viewsNear (index : Nat) : List View :=
  if index < 0x2300 then viewsDev
  else if index < 0x3000 then viewsArb
  else if index < 0x4800 then (if index % 0x100 < 0x60 || index % 0x100 = 0xB0 then viewsCh0 else viewsCh1)
  else viewsTab

/-- The value of an object as the port reads it: computed, the port's own copy, or stored. A write-only object reads 0, a write-only
DOMAIN empty (Table 0.4). -/
def view (nv : Nv) (s : Dev) (p : Port) (r : Row) (index sub : Nat) : List Byte :=
  match (viewsNear index).find? fun v => rowIs v.row r with
  | some v => v.read nv s p (placesOf r index) (elementOf r sub)
  | none =>
    if r.acc = .wo then leBytes r.size 0
    else if r.perPort then leBytes r.size (rdP s r p (placesOf r index))
    else leBytes r.size (tabGet s.objs (dfltAt r index sub) (objKey index sub 0))

end Sys2Proof.Machine
end

