-- ==== Sys2Proof/Machine/Acts.lean ====
section
/-! DEFINITION. What direct writes start (R312, R333): one action per object, with the rules of its block chapter in their order. An action
gives its verdict and the device after it. -/

namespace Sys2Proof.Machine

/-- An action allowed under a verdict. -/
def actIf (v : Verdict) (s t : Dev) : Verdict × Dev :=
  match v with
  | .ok => (.ok, t)
  | v => (v, s)

/-- A work that needs a unit is refused with 0x0F10_0086 when the unit's hint is "none" (R320). -/
def actHint (s : Dev) (p : Port) (us : List (Nat × Nat)) (deadline : Nat) (t : Dev) : Verdict × Dev :=
  if us.any fun e => (hintTick s e.2 (wouldRequest s e.1 deadline)).isNone then
    (.abort 0x0F100086, hintRefusal p hintNone s)
  else (.ok, t)

/-! ### Links, the Reel, the chain -/

/-- 0x2012:00: counts of the selected links cleared (Table 1.9). -/
def clearFabric (v : Nat) (s : Dev) : Dev :=
  (List.finRange 6).foldl (fun s (k : Die) =>
    if bitOf v k then updDie k (fun d => { d with link := { d.link with retries := 0, retrains := 0 } }) s else s) s

/-- A position lies less than 1 ms after admission. -/
def within1ms (s : Dev) (pos : Nat) : Bool :=
  !posLater pos (ctlPos s) || tickNear s.cad.recs pos < s.now + msTicks

/-- SYNC_ISSUE (R70). -/
def syncIssue (num : Nat) (s : Dev) : Verdict × Dev :=
  let pos := rd s oSyncPos []
  let t : Target := ⟨pos, num⟩
  actIf (firstBad [refuseIf (hopOf s ≠ 0) 0x23, refuseIf (within1ms s pos || s.zh.sync.isSome) 0x22]) s
    (syncKnown t { s with zh := { s.zh with sync := some t } })

/-- CHAIN_CUT (R234): the lines go into the next frame; the device sees them at that frame's edge. -/
def chainCut (lines : Nat) (s : Dev) : Dev :=
  let v := BitVec.ofNat 12 lines
  { s with zh := { s.zh with cutChange := some (s.zh.cutChange.getD 0 ||| v), cutOwn := s.zh.cutOwn ||| v } }

/-! ### The source -/

/-- SRC_Q_DATA (R79): refused from a port that is not the queue's owner, or whole when it does not fit. -/
def srcQData (p : Port) (n : Ch) (data : List Byte) (s : Dev) : Verdict × Dev :=
  let owner := rd s oSrcQOwner [n]
  let mine := (p == Port.n && owner == 0) || (p == Port.s && owner == 1)
  let codes := (List.range (data.length / 5)).map fun i => toSigned 40 (ofBytes ((data.drop (5 * i)).take 5))
  actIf (firstBad [refuseIf (!mine) 0x35, refuseIf (srcQueueDepth < (s.ch n).src.queue.length + codes.length) 0x30]) s
    (srcQueueAppend n none codes s)

/-- SRC_SELFCAL (R281, R320). -/
def srcSelfcal (p : Port) (n : Ch) (v : Nat) (s : Dev) : Verdict × Dev :=
  match refuseIf (sequenced s n || noSpare (s.ch n).vm) 0x96 with
  | .ok => actHint s p [(selfcalId n, pathUnit n .vm)] (deadlineIn s (dlOffset s p.idx)) (selfcalStart n p v s)
  | v => (v, s)

/-! ### Arrays, queues -/

/-- URGENT_REQ (R139). -/
def urgentReq (n : Ch) (a : ArrId) (s : Dev) : Verdict × Dev :=
  let x := arrOf s n a
  actIf (refuseIf (x.st == .off || x.st == .fault) 0x43) s (urgentRaise n a .object s)

/-- MCFG_TABLE (R148): the entries replaced, or the write refused whole. -/
def mcfgWrite (n : Ch) (data : List Byte) (s : Dev) : Verdict × Dev :=
  let first := ofBytes (data.take 2)
  let l := mcfgEntries (data.drop 2)
  let halves := l.flatMap fun e => [e % 2 ^ 64, e / 2 ^ 64]
  actIf (firstBad [refuseIf (255 < first + l.length - 1) 3, if halves.any mcfgHalfReserved then .reserved else .ok,
      refuseIf (halves.any fun h => !mcfgHalfOk s h) 3]) s
    (mcfgStore n first l s)

/-! ### The loop -/

/-- LOOP_FAULT (R206): bits clear only while OPEN; refused during the safe state. -/
def loopFaultClear (n : Ch) (v : Nat) (s : Dev) : Verdict × Dev :=
  match (s.ch n).loop.st with
  | .openState => (.ok, wr s oLoopFault (clearMask 8 (rd s oLoopFault [n]) v) [n])
  | .safeHold | .safeRamp => (.abort 0x0F100065, s)
  | .primed | .primary | .limit | .rangeXover => (.ok, s)

/-! ### The Sequencer -/

/-- A bank may be written (R221): only while IDLE. -/
def bankIdle (s : Dev) (n : Ch) (b : Nat) : Verdict :=
  match bankState (s.ch n).seq b with
  | .idle => .ok
  | .ready => .abort 0x0F100071
  | .playing => .abort 0x0F100070

/-- Entries of a bank replaced from `e` on, each clearing its Course result register (R221). -/
def bankStore (n : Ch) (b : Nat) : Nat → List Nat → Dev → Dev
  | _, [], s => s
  | e, c :: t, s => bankStore n b (e + 1) t (clearCrr n (b * 8192 + e) (updSeq n (setCourse b e c) s))

/-- BANK_A, BANK_B (R221). -/
def bankWrite (n : Ch) (b : Nat) (data : List Byte) (s : Dev) : Verdict × Dev :=
  let l := (List.range ((data.length - 2) / 32)).map fun i => ofBytes ((data.drop (2 + 32 * i)).take 32)
  actIf (bankIdle s n b) s (bankStore n b (ofBytes (data.take 2)) l s)

/-- CUT_REQ (R228): bit 15 names the explicit target in [12:0]. -/
def cutReq (n : Ch) (v : Nat) (s : Dev) : Verdict × Dev :=
  actIf (refuseIf ((s.ch n).seq.st == .stopped || !bitOf (rd s oCutSrc [n]) 4) 0x77) s
    (cutSeen n 0 (if bitOf v 15 then some (v % 8192) else none) s)

/-! ### Guard monitors -/

/-- VERIFY_REQ (R259, R262, R320). -/
def verifyReq (p : Port) (n : Ch) (s : Dev) : Verdict × Dev :=
  let d := deadlineIn s (dlOffset s p.idx)
  match refuseIf (noSpare (s.ch n).vm || noSpare (s.ch n).im) 0x81 with
  | .ok =>
    let us := ((List.finRange 4).filter fun (m : Mon) => (monOf s n m).st != .off).map fun (m : Mon) => (verifyId n m, pathUnit n (verifyArr m))
    actHint s p us d (verifyAll n d s)
  | v => (v, s)

/-! ### Comparison, ledger -/

/-- CMP_START (R276, R279, R320): 1 schedules the procedure at S, 0 abandons the one that runs. -/
def cmpCommand (p : Port) (v : Nat) (s : Dev) : Verdict × Dev :=
  if v = 0 then (.ok, if s.ref.comparison.isSome then cmpEnd true (ctlPos s) s else s)
  else
    match refuseIf (cmpBarred s) 0x95 with
    | .ok =>
      let start := cmpStartPos s
      actHint s p [(cmpId, 0x20)] start (cmpSchedule p.idx start start s)
    | v => (v, s)

/-- One of the seven objects that a comparison copies (R276). -/
def cmpSetting (r : Row) : Bool :=
  [oCmpChannel, oCmpAperture, oCmpTakes, oCmpPairs, oStdValue, oStdU, oStdId].any (rowIs r)

/-- Index offsets of a row. -/
def dimsAll : List (Nat × Nat) → List Nat
  | [] => [0]
  | (st, c) :: t => (List.range c).flatMap fun i => (dimsAll t).map fun o => st * i + o

/-- Every row of the dictionary, in the order of Table 11.3. -/
def rowsEvery : List Row :=
  rowsComm ++ rowsDev ++ rowsArb ++ rowsRef ++ rowsSec ++ rowsCh0 ++ rowsCh1 ++ rowsCh2 ++ rowsCh3 ++ rowsCh4 ++ rowsDie ++ rowsPdo

/-- A row of channel objects: the first dimension of its index is the channel. -/
def channelRow (r : Row) : Bool := (0x3000 ≤ r.ix && r.ix < 0x4800) || isTable r.ix

/-- The bytes of a row's objects at index offsets, every port's where each port has its own value. -/
def rowBytes (nv : Nv) (s : Dev) (r : Row) (offs : List Nat) : List Byte :=
  offs.flatMap fun o => (List.range r.subs.2).flatMap fun j =>
    let i := r.ix + o
    let b := r.sub + r.subs.1 * j
    if isCalObject i b then []
    else (if r.perPort then [Port.n, .s, .c, .x, .d] else [Port.n]).flatMap fun p => view nv s p r i b

/-- A row whose values a CONFIG_BASELINE record hashes: RK and RW. -/
def baselineRow (r : Row) : Bool := r.acc == .rk || r.acc == .rw

/-- The payload of a CONFIG_BASELINE record (Table 9.12); the order of the objects is the dictionary's (log 35). -/
def baselinePayload (nv : Nv) (s : Dev) (label : List Byte) : List Byte :=
  let l := rowsEvery.filter baselineRow
  let dev := (l.filter fun r => !channelRow r).flatMap fun r => rowBytes nv s r (dimsAll r.dims)
  let ch (n : Nat) : List Byte := (l.filter channelRow).flatMap fun r =>
    rowBytes nv s r ((dimsAll (r.dims.drop 1)).map fun o => (r.dims.headD (0, 0)).1 * n + o)
  label ++ leBytes 64 (Config.shake256 dev) ++ (List.range 24).flatMap fun n => leBytes 64 (Config.shake256 (ch n))

/-- BASELINE_REQ (R290, R320). -/
def baselineReq (p : Port) (label : List Byte) (nv : Nv) (s : Dev) : Verdict × Dev :=
  let a := ownAppend 4 (baselinePayload nv s label) (ctlPos s) p.idx s
  actHint s p [(appendId a, 0xA0)] (appendDeadline s a) (causeRecord a s)

/-! ### Arbiters -/

/-- ARB_COMMIT (R308): 0 selects the first multiple of 2⁻¹⁶ cycle 61 440 ticks on or later; refused during a supply warning (R321). -/
def arbCommit (v : Nat) (s : Dev) : Verdict × Dev :=
  let pos := if v = 0 then nextMultiple s (s.now + 61440) 16 else v
  let late := v ≠ 0 && (!posLater v (ctlPos s) || tickNear s.cad.recs v < s.now + 61440)
  actIf (firstBad [refuseIf s.supply.warning 0x89, refuseIf (late || s.arb.commit.isSome) 0x87]) s
    (wr { s with arb := { s.arb with commit := some (pos, shadowCopy s) } } oArbCommitPos pos [])

/-- HOST_RELEASE (R304): the unit's grants that the port holds as host holds are dropped, and its bit of HOST_HOLD clears. -/
def hostRelease (p : Port) (u : Nat) (s : Dev) : Dev :=
  let ids := ((sharedOf s u).grants.filter fun g => clsOf g.id == p.idx.val && g.host).map Grant.id
  let s := ids.foldl (fun s id => unitRelease id u s) s
  let x := sharedOf s u
  let s := if ids ≠ [] && x.waiters ≠ [] then rehint u (updUnit { x with freeFrom := s.now + 1 } s) else s
  wrP s oHostHold p (clearBit (rdP s oHostHold p []) u) []

/-! ### The Slate, restart -/

/-- SLATE_AT (Table 13.18): 0 names none. -/
def slateAtWrite (v : Nat) (s : Dev) : Verdict × Dev :=
  actIf (refuseIf (v ≠ 0 && !posLater v (ctlPos s)) 3) s (wr s oSlateAt v [])

/-- SLATE_CHAIN (R390). -/
def slateChain (v : Nat) (s : Dev) : Verdict × Dev :=
  actIf (refuseIf (hopOf s ≠ 0 || within1ms s v || s.zh.slate.isSome) 3) s
    { s with zh := { s.zh with slate := some ⟨v, 0⟩ } }

/-! ### Faults -/

/-- The tick from which a bit cleared under a standing cause sets again (R347). -/
def chFaultClear (n : Ch) (v : Nat) (s : Dev) : Dev :=
  let s := wr s oChFault (clearMask 10 (rd s oChFault [n]) v) [n]
  if standing s n = 0 then s else { s with refault := s.refault ++ [(n.val, s.now + 1)] }

/-! ### Identity, firmware, peers -/

/-- FUSE_BLOW (R360). -/
def fuseBlow (v : Nat) (s : Dev) : Verdict × Dev :=
  let f := v % 16
  actIf (refuseIf (v / 65536 ≠ 0xC105 || getField v 4 12 ≠ 0 || (bitOf f 3 && s.fw.image.key ≠ 1)) 3) s
    { s with sec := { s.sec with blowing := some (match s.sec.blowing with | some (g, t) => (g ||| f, t) | none => (f, s.now)) } }

/-- Bytes 0 to 275 of an attestation report (Table 12.7). -/
def attestBody (nv : Nv) (s : Dev) (nonce : Nat) : List Byte :=
  let hash (k : Die) : List Byte := leBytes 64 ((bankForce s k).elim 0 Bank.hash)
  leBytes 2 1 ++ leBytes 2 390 ++ leBytes 4 (rd s oSerial []) ++ leBytes 4 (rd s oRevision []) ++ leBytes 4 (fuseWord nv) ++
    leBytes 1 (s.fw.running + flagAt s.fw.trial.isSome 1) ++ leBytes 1 s.fw.floor ++ leBytes 2 0 ++ leBytes 4 s.fw.image.version ++
    leBytes 64 s.fw.image.hash ++ leBytes 64 (Config.shake256 ((List.finRange 6).flatMap hash)) ++ leBytes 4 (rd s oFwChBank []) ++
    leBytes 4 (headSeq nv) ++ leBytes 64 (headHash nv) ++ leBytes 8 (ageNow s) ++ leBytes 4 s.ledger.powerUps ++ leBytes 8 (ctlPos s) ++
    leBytes 32 nonce

/-- ATTEST_NONCE (R362): a report build starts, or starts again. -/
def attestStart (p : Port) (nonce : Nat) (nv : Nv) (s : Dev) : Dev :=
  updPort p (fun x => { x with attest := some ⟨s.now, attestBody nv s nonce⟩ }) (wrP s oAttestNonce p nonce [])

/-- FW_UPLOAD in one transfer (R366). -/
def fwUploadWhole (p : Port) (data : List Byte) (s : Dev) : Verdict × Dev :=
  let t := rdP s oFwUploadTarget p []
  actIf (refuseIf (uploadBusy s t) 3) s (uploadWhole p t data s)

/-- PEER_CMD is refused (R357); a chain ends at hop 15. -/
def peerBarred (s : Dev) (v : Nat) : Bool :=
  let target := getField v 0 8
  s.sec.peer.isSome || hopOf s == 0xFF || target == hopOf s || 15 < target

/-- A field of PEER_CMD that its layout excludes (Table 12.8). -/
def peerMalformed (v : Nat) : Bool :=
  let op := getField v 8 8
  let len := getField v 16 8
  !(op == 1 || op == 2) || len == 0 || 8 < len || getField v 24 8 ≠ 0 || getField v 56 8 ≠ 0

/-- The request of a PEER_CMD as a PEER field (Table 12.4). -/
def peerRequest (s : Dev) (v : Nat) : Nat :=
  let len := getField v 16 8
  (0x20 + s.sec.tag % 16) + (getField v 0 8 % 16 * 16 + hopOf s) * 2 ^ 8 + getField v 8 8 * 2 ^ 16 + len * 2 ^ 24 + getField v 32 16 * 2 ^ 32 +
    getField v 48 8 * 2 ^ 48 + getField v 64 64 % 2 ^ (8 * len) * 2 ^ 64

/-- PEER_CMD (R357): the request waits for a frame toward its target. -/
def peerSend (v : Nat) (s : Dev) : Verdict × Dev :=
  let f := BitVec.ofNat 128 (peerRequest s v)
  let down := hopOf s < getField v 0 8
  let z := if down then { s.zh with downQ := s.zh.downQ ++ [f] } else { s.zh with upQ := s.zh.upQ ++ [f] }
  actIf (refuseIf (peerMalformed v || peerBarred s v) 3) s
    { s with zh := z, sec := { s.sec with peer := some ⟨s.sec.tag % 16, s.now⟩, tag := (s.sec.tag + 1) % 16, peerReady := false } }

/-! ### Counters of Port N, the supplies, the dies, the Slate -/

/-- Objects set to 0 by the bits of a clear write. -/
def clearRows (l : List (Nat × Row)) (places : List Nat) (v : Nat) (s : Dev) : Dev :=
  l.foldl (fun s e => if bitOf v e.1 then wr s e.2 0 places else s) s

/-- COUNTER_CLEAR of a die (Table 13.18): the counters of the die and what they last reported. -/
def dieClear (k : Die) (v : Nat) (s : Dev) : Dev :=
  updDie k (fun d => { d with corr := if bitOf v 0 then 0 else d.corr, uncorr := if bitOf v 1 then 0 else d.uncorr })
    (clearRows [(0, oEccCorr), (1, oEccUncorr), (2, oMcReloads)] [k.val] v s)

end Sys2Proof.Machine
end

