-- ==== Sys2Proof/Machine/Access.lean ====
section
/-! DEFINITION. Requests of the ports for objects (R331 to R336): the order of checks, direct writes, staged writes, reads, drains. Every port and
every service reaches the objects through the operations of this file. -/

namespace Sys2Proof.Machine

/-! ### Mapping objects (R336, R337) -/

/-- A mapping or assignment object. -/
def mappingRow (r : Row) : Bool := [oRxMap, oTxMap, oTxMapDev, oRxAssign, oTxAssign].any (rowIs r)

/-- The bit length of a mappable object, by index and subindex. -/
def pdoBits (index sub : Nat) : Option Nat := (rowOf index sub).map fun r => 8 * r.size

/-- The PDO object that a mapping object maps. -/
def pdoOf (map : Nat) : Nat :=
  if map < 0x1A00 then 0x7000 + 0x10 * (map - 0x1600) else if map = 0x1A18 then 0x6800 else 0x6000 + 0x10 * (map - 0x1A00)

/-- A mapping entry is padding. -/
def isPad (e : Nat) : Bool := e / 2 ^ 8 == 0 && e % 2 ^ 8 % 8 == 0

/-- Subindices of a mapping object. -/
def mapSubs (map : Nat) : Nat := if map = 0x1A18 then 32 else 13

/-- The entries of a mapping object. -/
def mapEntries (s : Dev) (map : Nat) : List Nat := (List.range (mapSubs map)).map fun j => getKey s (objKey map (j + 1) 0)

/-- A mapping entry obeys R337. -/
def entryOk (s : Dev) (map sub e : Nat) : Bool :=
  isPad e ||
    (e / 2 ^ 16 == pdoOf map && pdoBits (e / 2 ^ 16) (getField e 8 8) == some (e % 2 ^ 8) &&
      (map < 0x1A00 || (List.range (mapSubs map)).all fun j => j + 1 == sub || getKey s (objKey map (j + 1) 0) / 2 ^ 8 != e / 2 ^ 8))

/-- The mapping objects assigned to a direction: 0x1C12 outputs, 0x1C13 inputs. -/
def assigned (s : Dev) (out : Bool) : List Nat :=
  ((List.range (if out then 24 else 25)).map fun j => getKey s (objKey (if out then 0x1C12 else 0x1C13) (j + 1) 0)).filter fun m =>
    if out then 0x1600 ≤ m && m < 0x1618 else 0x1A00 ≤ m && m ≤ 0x1A18

/-- Bytes of the assigned mappings of a direction. -/
def mappedBytes (s : Dev) (out : Bool) : Nat := (((assigned s out).flatMap fun m => (mapEntries s m).map fun e => e % 256).sum + 7) / 8

/-- The rules of a write of a mapping or assignment object. -/
def mappingCheck (r : Row) (index sub v : Nat) (s : Dev) : Verdict :=
  let t := putKey (objKey index sub 0) v s
  let isRx := 0x1600 ≤ v && v < 0x1618
  let isTx := 0x1A00 ≤ v && v ≤ 0x1A18
  firstBad [refuseIf ((rowIs r oRxAssign || rowIs r oTxAssign) && v ≠ 0 && !isRx && !isTx) 3,
    if s.portN.al = .preop then .ok else .abort 0x08000022,
    if mappingRow r && !rowIs r oRxAssign && !rowIs r oTxAssign && !entryOk s index sub v then .abort 0x06040041 else .ok,
    if (rowIs r oRxAssign && isTx) || (rowIs r oTxAssign && isRx) then .abort 0x06040043 else .ok,
    if 2048 < mappedBytes t true || 6144 < mappedBytes t false then .abort 0x06040042 else .ok]

/-! ### Values beyond the dictionary's own limits -/

/-- Values of direct objects that their Meaning excludes, and reserved bits. -/
def directCheck (r : Row) (s : Dev) (data : List Byte) : Verdict :=
  let v := ofBytes data
  if rowIs r oLoopFault then (if 16 ≤ v then .reserved else .ok)
  else if rowIs r oIrqStatus then (if 64 ≤ v then .reserved else .ok)
  else if rowIs r oOutSyncType then refuseIf (2 < v) 3
  else if rowIs r oInShift then refuseIf (rd s oOutCycle [] ≤ v + 30000) 3
  else .ok

/-! ### Direct writes -/

/-- The key of an object as a port holds it. -/
def portObjKey (p : Port) (r : Row) (index sub : Nat) : Nat := objKey index sub (if r.perPort then p.idx.val + 1 else 0)

/-- A plain object stored. -/
def storeObj (p : Port) (r : Row) (index sub v : Nat) (s : Dev) : Dev := putKey (portObjKey p r index sub) v s

/-- Direct writes of device objects below 0x2300 (01, 02, 05, 11, 13). -/
def directDev (p : Port) (r : Row) (index sub v : Nat) (s : Dev) : Verdict × Dev :=
  if rowIs r oFabricClear then (.ok, clearFabric v s)
  else if rowIs r oReelCounterClear then (.ok, clearReelCounters v s)
  else if rowIs r oSyncIssue then syncIssue v s
  else if rowIs r oChainCut then (.ok, chainCut v s)
  else if rowIs r oFaultLatch then (.ok, faultLatchClear v s)
  else if rowIs r oPortnCounterClear then (.ok, clearRows [(0, oRxRepeats), (1, oRxRejects), (2, oWatchdogExpiries)] [] v s)
  else if rowIs r oSlateNow then (.ok, slateTrigger 1 0 s)
  else if rowIs r oSlateAt then slateAtWrite v s
  else if rowIs r oSlateLock then (.ok, slateAsk (storeObj p r index sub v s))
  else if rowIs r oSlateChain then slateChain v s
  else if rowIs r oSlateCounterClear then (.ok, clearRows [(0, oSlateDropped)] [] v s)
  else (.ok, storeObj p r index sub v s)

/-- Direct writes of arbiters, transactions and supplies, 0x2300 to 0x25FF (10, 13). -/
def directArb (p : Port) (r : Row) (index sub v : Nat) (nv : Nv) (s : Dev) : Verdict × Dev :=
  if rowIs r oArbClear then (.ok, clearArb v s)
  else if rowIs r oArbCommit then arbCommit v s
  else if rowIs r oTxnOpen then txnOpen p v s
  else if rowIs r oTxnCurrent then
    actIf (refuseIf (v ≠ 0 && (portTxn s p v).st ≠ .opened) 3) s (updPort p (fun x => { x with current := v }) s)
  else if rowIs r oKeystone then keystoneWrite p (v % 256) (bitOf v 8) (v / 2 ^ 16) nv s
  else if rowIs r oTxnAbort then txnAbort p v s
  else if rowIs r oHostRelease then (.ok, hostRelease p v s)
  else if rowIs r oSupplyCounterClear then (.ok, clearRows [(0, oEpisodes), (1, oSlipTotalMs)] [] v s)
  else if rowIs r oRestartReq then (.ok, restartDue 6 s.now s)
  else (.ok, storeObj p r index sub v s)

/-- Direct writes of the comparison, the ledger and drift, 0x2600 to 0x26FF (09). -/
def directRef (p : Port) (r : Row) (index sub v : Nat) (data : List Byte) (nv : Nv) (s : Dev) : Verdict × Dev :=
  if rowIs r oCmpStart then cmpCommand p v s
  else if cmpSetting r then actIf (refuseIf s.ref.comparison.isSome 0x95) s (storeObj p r index sub v s)
  else if rowIs r oBaselineReq then baselineReq p data nv s
  else if rowIs r oHostUtc then (.ok, updLedger (fun l => { l with utc := some (v, s.now) }) (storeObj p r index sub v s))
  else if rowIs r oDriftRun then
    (match driftRun p nv s with
    | some t => (.ok, t)
    | none => (.abort 0x0F100097, s))
  else (.ok, storeObj p r index sub v s)

/-- Direct writes of ports, identity, firmware and peers, 0x2700 to 0x2FFF (12). -/
def directSec (p : Port) (r : Row) (index sub v : Nat) (data : List Byte) (nv : Nv) (s : Dev) : Verdict × Dev :=
  if rowIs r oIrqStatus then (.ok, irqClear v s)
  else if rowIs r oFuseBlow then fuseBlow v s
  else if rowIs r oAttestNonce then (.ok, attestStart p v nv s)
  else if rowIs r oFwUpload then fwUploadWhole p data s
  else if rowIs r oFwConfirm then (.ok, confirmTrial s)
  else if rowIs r oFwChLoad then actIf (refuseIf (loadBarred s v) 3) s (loadStart v s)
  else if rowIs r oFwFloorRaise then actIf (refuseIf (floorBarred s) 3) s (floorRaise s)
  else if rowIs r oPeerCmd then peerSend v s
  else (.ok, storeObj p r index sub v s)

/-- Direct writes of a channel's objects (03 to 09, 11). -/
def directCh (p : Port) (r : Row) (index sub v : Nat) (data : List Byte) (s : Dev) : Verdict × Dev :=
  let n := chOf index
  let a := arrAt r index
  let k := (placesOf r index).getD 1 0
  if rowIs r oSrcCounterClear then (.ok, clearSrcCounters n v s)
  else if rowIs r oSrcQData then srcQData p n data s
  else if rowIs r oUrgentReq then urgentReq n a s
  else if rowIs r oArrCounterClear then (.ok, clearArrCounters n a v s)
  else if rowIs r oTakeCounterClear then (.ok, clearTakeCounters n v s)
  else if rowIs r oQueueFlush then (.ok, queueFlush n v s)
  else if rowIs r oPeRestart then (.ok, peRestart n (if k = 0 then 0 else 1) s)
  else if rowIs r oXoverRelease then (.ok, updLoop n (fun l => { l with released := true }) s)
  else if rowIs r oLoopFault then loopFaultClear n v s
  else if rowIs r oLoopCounterClear then (.ok, clearLoopCounters n v s)
  else if rowIs r oLoopSp then (.ok, loopSpWrite n v s)
  else if rowIs r oCutReq then cutReq n v s
  else if rowIs r oBankLate || rowIs r oVecFail then (.ok, storeObj p r index sub (clearMask 8 (rd s r [n]) v) s)
  else if rowIs r oSeqCounterClear then (.ok, clearSeqCounters n v s)
  else if rowIs r oBankEnd || rowIs r oLoopStart || rowIs r oBankFlags then actIf (bankIdle s n k) s (storeObj p r index sub v s)
  else if rowIs r oGuardLatch then (.ok, clearGuardLatch n v s)
  else if rowIs r oVerifyReq then verifyReq p n s
  else if rowIs r oGuardCounterClear then (.ok, clearGuardCounters n v s)
  else if rowIs r oSrcSelfcal then srcSelfcal p n v s
  else if rowIs r oChFault then (.ok, chFaultClear n v s)
  else (.ok, storeObj p r index sub v s)

/-- Direct writes of a channel's tables (04, 07). -/
def directTab (p : Port) (r : Row) (index sub v : Nat) (data : List Byte) (s : Dev) : Verdict × Dev :=
  let n := chOf index
  if rowIs r oBankA then bankWrite n 0 data s
  else if rowIs r oBankB then bankWrite n 1 data s
  else if rowIs r oMcfgTable then mcfgWrite n data s
  else (.ok, storeObj p r index sub v s)

/-- The effect of a direct write that has passed checks 1 to 6, with the rules of its block chapter (check 7 of R332). -/
def directWrite (p : Port) (r : Row) (index sub : Nat) (data : List Byte) (nv : Nv) (s : Dev) : Verdict × Dev :=
  let v := ofBytes data
  match ownedCheck s index with
  | .ok =>
    if index < 0x2000 then
      (if mappingRow r || rowIs r oOutSyncType then actIf (mappingCheck r index sub v s) s (storeObj p r index sub v s)
       else (.ok, storeObj p r index sub v s))
    else if index < 0x2300 then directDev p r index sub v s
    else if index < 0x2600 then directArb p r index sub v nv s
    else if index < 0x2700 then directRef p r index sub v data nv s
    else if index < 0x3000 then directSec p r index sub v data nv s
    else if index < 0x4800 then directCh p r index sub v data s
    else if index < 0x5000 then
      (if rowIs r oDieCounterClear then (.ok, dieClear (dieIn ((placesOf r index).getD 0 0)) v s)
       else (.ok, storeObj p r index sub v s))
    else directTab p r index sub v data s
  | v => (v, s)

/-! ### Requests -/

/-- The port serves requests (R328, R350). -/
def serves (s : Dev) (p : Port) : Bool := s.control.running && (p != Port.n || s.portN.al != .init)

/-- The port is closed (R349, R360): by PORTS_ENABLED, or Port D by fuse. -/
def portShut (nv : Nv) (s : Dev) (p : Port) : Bool :=
  match p with
  | .s => !bitOf (rd s oPortsEnabled []) 1
  | .x => !bitOf (rd s oPortsEnabled []) 3
  | .d => !portDOpen nv
  | .n | .c => false

/-- Check 4 of R332. -/
def reachCheck (s : Dev) (index : Nat) : Verdict := if dieReachable s (objDie index) then .ok else .abort 0x0F100002

/-- An RK write (R311, R312): staged in the port's current OPEN slot. -/
def rkWrite (p : Port) (r : Row) (index sub : Nat) (data : List Byte) (s : Dev) : Verdict × Dev :=
  let w : Staged := ⟨index, sub, data⟩
  match firstBad [stageState s p [w], valueCheck r index sub data, stageRules s r index sub data] with
  | .ok => (.ok, stageWrites p [w] s)
  | .abort c => (.abort c, noteStage p c index sub s)
  | .reserved => (.reserved, s)

/-- A write of an object by an open port (R332). -/
def writeOpen (nv : Nv) (p : Port) (index sub : Nat) (data : List Byte) (s : Dev) : Verdict × Dev :=
  match nameOf p index sub with
  | .missing c => (.abort c, s)
  | .count _ => (.abort 0x06010002, s)
  | .row r =>
    match firstBad [mayWrite r p, if lengthOk r data.length then .ok else .abort 0x06070010, reachCheck s index] with
    | .ok =>
      if r.acc = .rk then rkWrite p r index sub data s
      else
        match firstBad [valueCheck r index sub data, directCheck r s data] with
        | .ok => directWrite p r index sub data nv s
        | v => (v, s)
    | v => (v, s)

/-- A write of an object by a port: refused on a closed one (R349). -/
def writeObj (nv : Nv) (p : Port) (index sub : Nat) (data : List Byte) (s : Dev) : Verdict × Dev :=
  if portShut nv s p then (.abort 0x0F100001, s) else writeOpen nv p index sub data s

/-! ### Reads -/

/-- The consumer of Table 5.8 that a port is; none for Ports C and X. -/
def consumerOf : Port → Option Nat
  | .n => some 0 | .s => some 1 | .d => some 3 | .c => none | .x => none

/-- The rules of a drain of a queue (R166, R167). -/
def drainCheck (p : Port) (q : Queue) : Verdict :=
  firstBad [refuseIf (descDepth q.desc = 0) 0x50, refuseIf (consumerOf p != some (descConsumer q.desc)) 0x52]

/-- The words of whole records. -/
def recordBytes8 (l : List (List Word64)) : List Byte := l.flatMap wordBytes

/-- A read of QUEUE_DRAIN (R167): whole records up to 512 words leave the selected queue. -/
def drainCh (p : Port) (n : Ch) (s : Dev) : Answer × Dev :=
  let i := rdP s oQueueSel p [n]
  let q := qFind (s.ch n).queues i
  match drainCheck p q with
  | .ok =>
    let x := takeRecords 512 q.recs
    (.done (recordBytes8 x.1), closeRun n (updCh n (fun c => { c with queues := qPut c.queues i { q with recs := x.2 } }) s))
  | .abort c => (.refused c, s)
  | .reserved => (.none, s)

/-- A read of CTRL_QUEUE_DRAIN (R167, R168). -/
def drainCtrl (p : Port) (s : Dev) : Answer × Dev :=
  let i := rdP s oCtrlQueueSel p []
  let q := qFind s.ctrlQueues i
  match drainCheck p q with
  | .ok =>
    let x := takeRecords 512 q.recs
    (.done (recordBytes8 x.1), { s with ctrlQueues := qPut s.ctrlQueues i { q with recs := x.2 } })
  | .abort c => (.refused c, s)
  | .reserved => (.none, s)

/-- A record or Slate that a selector names and that does not exist (R292, Table 13.18). -/
def absent (nv : Nv) (s : Dev) (p : Port) (r : Row) : Bool :=
  (rowIs r oRecord && (recordAt nv (rdP s oRecordSel p [])).isNone) || (rowIs r oSlateRead && (slateAt s (rdP s oSlateSel p [])).isNone)

/-- A read of an object by an open port (R332): checks 1, 2 and 4. -/
def readOpen (nv : Nv) (p : Port) (index sub : Nat) (s : Dev) : Answer × Dev :=
  match nameOf p index sub with
  | .missing c => (.refused c, s)
  | .count n => (.done (leBytes 1 n), s)
  | .row r =>
    if !dieReachable s (objDie index) then (.refused 0x0F100002, s)
    else if rowIs r oQueueDrain then drainCh p (chOf index) s
    else if rowIs r oCtrlQueueDrain then drainCtrl p s
    else if absent nv s p r then (.refused 0x0F100003, s)
    else (.done (view nv s p r index sub), s)

/-- A read of an object by a port: refused on a closed one (R349). -/
def readObj (nv : Nv) (p : Port) (index sub : Nat) (s : Dev) : Answer × Dev :=
  if portShut nv s p then (.refused 0x0F100001, s) else readOpen nv p index sub s

/-! ### Answers -/

/-- The answer a write leaves at its port. -/
def answered (p : Port) (r : Verdict × Dev) : Host.Outcome Dev Fault Refusal :=
  match r.1 with
  | .ok => .next (setAnswer p (.done []) r.2)
  | .abort c => .next (setAnswer p (.refused c) r.2)
  | .reserved => .refused .reservedBit

/-- The object is written in transactions: its writes are staged on the Control die and go to no die before the prepare. -/
def stagedRow (p : Port) (index sub : Nat) : Bool :=
  match nameOf p index sub with
  | .row r => r.acc == .rk
  | .missing _ | .count _ => false

/-- Where a direct write of a port waits (Table 1.6, log 161). -/
def writeWaits (s : Dev) (p : Port) (index sub : Nat) : Option Die := if stagedRow p index sub then none else heldAt s p index

/-- A write request of a port, from outside. What its checks refuse is refused at once; a direct write over a retraining link is held by it.
An upload that fills the buffer of a supply warning has no answer yet (Table 12.12). -/
def request (p : Port) (index sub : Nat) (data : List Byte) (nv : Nv) (s : Dev) : Host.Outcome Dev Fault Refusal :=
  if serves s p then
    let r := writeObj nv p index sub data s
    match writeWaits s p index sub with
    | some k => if r.1 = .ok then .next (holdRequest k p (.write false false index sub data) s) else answered p r
    | none => if r.1 = .ok && r.2.fw.held != s.fw.held then .next (setAnswer p .none r.2) else answered p r
  else .next (setAnswer p .unanswered s)

/-- A write request of the object of a row at its places. -/
def rowRequest (p : Port) (r : Row) (places : List Nat) (data : List Byte) (s : State) : Host.Outcome State Fault Refusal :=
  onDevNv s (request p (r.ix + dimsOff r.dims places) r.sub data)

/-- A read request of a port, from outside; over a retraining link it is held. -/
def readRequest (p : Port) (index sub : Nat) (nv : Nv) (s : Dev) : Host.Outcome Dev Fault Refusal :=
  if serves s p then
    let x := readObj nv p index sub s
    match heldAt s p index, x.1 with
    | some k, .done _ => .next (holdRequest k p (.read false false index sub) s)
    | _, _ => .next (setAnswer p x.1 x.2)
  else .next (setAnswer p .unanswered s)

end Sys2Proof.Machine
end

