-- ==== Sys2Proof/Machine/Commands.lean ====
section
/-! DEFINITION. Object writes that have rows of their own in spec/opcode_table.json, and OBJECT_WRITE for every other: each is a request of its
port (R332, R333) and leaves its answer there. -/

namespace Sys2Proof.Machine

/-- FABRIC_COUNTER_CLEAR (R40). -/
def execFabricCounterClear (p : Port) (v : BitVec 8) (s : State) : Host.Outcome State Fault Refusal :=
  rowRequest p oFabricClear [] (leBytes 1 v.toNat) s

/-- REEL_COUNTER_CLEAR (R72). -/
def execReelCounterClear (p : Port) (v : BitVec 8) (s : State) : Host.Outcome State Fault Refusal :=
  rowRequest p oReelCounterClear [] (leBytes 1 v.toNat) s

/-- SYNC_ISSUE (R70). -/
def execSyncIssue (p : Port) (num : BitVec 16) (s : State) : Host.Outcome State Fault Refusal :=
  rowRequest p oSyncIssue [] (leBytes 2 num.toNat) s

/-- SRC_CODE_WRITE (R76). -/
def execSrcCodeWrite (p : Port) (n : Ch) (v : BitVec 40) (s : State) : Host.Outcome State Fault Refusal :=
  rowRequest p oSrcCode [n] (leBytes 5 v.toNat) s

/-- SRC_QUEUE_DATA_WRITE (R79). -/
def execSrcQueueDataWrite (p : Port) (n : Ch) (data : List Byte) (s : State) : Host.Outcome State Fault Refusal :=
  rowRequest p oSrcQData [n] data s

/-- SRC_COUNTER_CLEAR (R108). -/
def execSrcCounterClear (p : Port) (n : Ch) (v : BitVec 8) (s : State) : Host.Outcome State Fault Refusal :=
  rowRequest p oSrcCounterClear [n] (leBytes 1 v.toNat) s

/-- URGENT_REQ (R139). -/
def execUrgentReq (p : Port) (n : Ch) (a : ArrId) (v : BitVec 8) (s : State) : Host.Outcome State Fault Refusal :=
  rowRequest p oUrgentReq [n, a.idx] (leBytes 1 v.toNat) s

/-- ARRAY_COUNTER_CLEAR (R147). -/
def execArrayCounterClear (p : Port) (n : Ch) (a : ArrId) (v : BitVec 8) (s : State) : Host.Outcome State Fault Refusal :=
  rowRequest p oArrCounterClear [n, a.idx] (leBytes 1 v.toNat) s

/-- MCFG_TABLE_WRITE (R148). -/
def execMcfgTableWrite (p : Port) (n : Ch) (data : List Byte) (s : State) : Host.Outcome State Fault Refusal :=
  rowRequest p oMcfgTable [n] data s

/-- QUEUE_CONFIG_WRITE (R163). -/
def execQueueConfigWrite (p : Port) (n : Ch) (data : List Byte) (s : State) : Host.Outcome State Fault Refusal :=
  rowRequest p oQueueConfig [n] data s

/-- CTRL_QUEUE_CONFIG_WRITE (R168). -/
def execCtrlQueueConfigWrite (p : Port) (data : List Byte) (s : State) : Host.Outcome State Fault Refusal :=
  rowRequest p oCtrlQueueConfig [] data s

/-- QUEUE_DRAIN (R167): a read of QUEUE_DRAIN of a channel, or of CTRL_QUEUE_DRAIN. -/
def execQueueDrain (p : Port) (n : Option Ch) (s : State) : Host.Outcome State Fault Refusal :=
  match n with
  | some n => onDevNv s (readRequest p (oQueueDrain.ix + 0x100 * n.val) oQueueDrain.sub)
  | none => onDevNv s (readRequest p oCtrlQueueDrain.ix oCtrlQueueDrain.sub)

/-- QUEUE_FLUSH (R166). -/
def execQueueFlush (p : Port) (n : Ch) (q : BitVec 16) (s : State) : Host.Outcome State Fault Refusal :=
  rowRequest p oQueueFlush [n] (leBytes 2 q.toNat) s

/-- TAKE_COUNTER_CLEAR (R177). -/
def execTakeCounterClear (p : Port) (n : Ch) (v : BitVec 8) (s : State) : Host.Outcome State Fault Refusal :=
  rowRequest p oTakeCounterClear [n] (leBytes 1 v.toNat) s

/-- PE_RESTART (R176). -/
def execPeRestart (p : Port) (n : Ch) (pe : Fin 2) (v : BitVec 8) (s : State) : Host.Outcome State Fault Refusal :=
  rowRequest p oPeRestart [n, pe] (leBytes 1 v.toNat) s

/-- XOVER_RELEASE (R195). -/
def execXoverRelease (p : Port) (n : Ch) (v : BitVec 8) (s : State) : Host.Outcome State Fault Refusal :=
  rowRequest p oXoverRelease [n] (leBytes 1 v.toNat) s

/-- LOOP_SP_WRITE (R183). -/
def execLoopSpWrite (p : Port) (n : Ch) (v : BitVec 40) (s : State) : Host.Outcome State Fault Refusal :=
  rowRequest p oLoopSp [n] (leBytes 5 v.toNat) s

/-- LOOP_FAULT_CLEAR (R206). -/
def execLoopFaultClear (p : Port) (n : Ch) (v : BitVec 8) (s : State) : Host.Outcome State Fault Refusal :=
  rowRequest p oLoopFault [n] (leBytes 1 v.toNat) s

/-- LOOP_COUNTER_CLEAR (R211). -/
def execLoopCounterClear (p : Port) (n : Ch) (v : BitVec 8) (s : State) : Host.Outcome State Fault Refusal :=
  rowRequest p oLoopCounterClear [n] (leBytes 1 v.toNat) s

/-- SEQ_CMD values 1 to 4 (R241): what each needs, with the code of its rule. -/
def seqNeeds (s : Dev) (n : Ch) (v : Nat) : Verdict :=
  match v with
  | 1 => if startAllowed s n then .ok else .abort 0x0F100073
  | 4 => if resumeAllowed s n then .ok else .abort 0x0F100076
  | _ => .ok

/-- A SEQ_CMD as it takes force (R241), its value stored: a request of its port, with the rights of SEQ_CMD (Table 7.12), refused where the die
cannot be reached (R37) and, with the code of its rule, where that does not allow it. -/
def seqWrite (p : Port) (n : Ch) (v : Nat) (nv : Nv) (s : Dev) : Verdict × Dev :=
  match firstBad [if portShut nv s p then .abort 0x0F100001 else .ok, mayWrite oSeqCmd p, reachCheck s (0x3080 + 0x100 * n.val), seqNeeds s n v] with
  | .ok => (.ok, wr (applySeqCmd n v s) oSeqCmd v [n])
  | w => (w, s)

/-- A SEQ_CMD as a request of its port, held by a retraining link. -/
def seqCommand (p : Port) (n : Ch) (v : Nat) (nv : Nv) (s : Dev) : Host.Outcome Dev Fault Refusal :=
  if serves s p then
    let r := seqWrite p n v nv s
    match heldAt s p (0x3080 + 0x100 * n.val) with
    | some k => if r.1 = .ok then .next (holdRequest k p (.seq n v) s) else answered p r
    | none => answered p r
  else .next (setAnswer p .unanswered s)

/-- SEQ_START (R241). -/
def execSeqStart (p : Port) (n : Ch) (s : State) : Host.Outcome State Fault Refusal := onDevNv s fun nv s =>
  seqCommand p n 1 nv s

/-- SEQ_STOP (R240). -/
def execSeqStop (p : Port) (n : Ch) (s : State) : Host.Outcome State Fault Refusal := onDevNv s fun nv s =>
  seqCommand p n 2 nv s

/-- SEQ_HOLD (R241). -/
def execSeqHold (p : Port) (n : Ch) (s : State) : Host.Outcome State Fault Refusal := onDevNv s fun nv s =>
  seqCommand p n 3 nv s

/-- SEQ_RESUME (R241). -/
def execSeqResume (p : Port) (n : Ch) (s : State) : Host.Outcome State Fault Refusal := onDevNv s fun nv s =>
  seqCommand p n 4 nv s

/-- BANK_WRITE (R221). -/
def execBankWrite (p : Port) (n : Ch) (b : Fin 2) (data : List Byte) (s : State) : Host.Outcome State Fault Refusal :=
  rowRequest p (if b = 0 then oBankA else oBankB) [n] data s

/-- BANK_HEADER_WRITE (R221): BANK_END, LOOP_START or BANK_FLAGS. -/
def execBankHeaderWrite (p : Port) (n : Ch) (b : Fin 2) (sub : Fin 3) (v : BitVec 16) (s : State) : Host.Outcome State Fault Refusal :=
  if sub = 0 then rowRequest p oBankEnd [n, b] (leBytes 2 v.toNat) s
  else if sub = 1 then rowRequest p oLoopStart [n, b] (leBytes 2 v.toNat) s
  else rowRequest p oBankFlags [n, b] (leBytes 1 v.toNat) s

/-- CUT_REQ (R228). -/
def execCutReq (p : Port) (n : Ch) (v : BitVec 16) (s : State) : Host.Outcome State Fault Refusal :=
  rowRequest p oCutReq [n] (leBytes 2 v.toNat) s

/-- CHAIN_CUT (R234). -/
def execChainCut (p : Port) (v : BitVec 16) (s : State) : Host.Outcome State Fault Refusal :=
  rowRequest p oChainCut [] (leBytes 2 v.toNat) s

/-- SEQ_COUNTER_CLEAR (R245). -/
def execSeqCounterClear (p : Port) (n : Ch) (v : BitVec 8) (s : State) : Host.Outcome State Fault Refusal :=
  rowRequest p oSeqCounterClear [n] (leBytes 1 v.toNat) s

/-- GUARD_LATCH_CLEAR (R258). -/
def execGuardLatchClear (p : Port) (n : Ch) (v : BitVec 8) (s : State) : Host.Outcome State Fault Refusal :=
  rowRequest p oGuardLatch [n] (leBytes 1 v.toNat) s

/-- VERIFY_REQ (R259). -/
def execVerifyReq (p : Port) (n : Ch) (v : BitVec 8) (s : State) : Host.Outcome State Fault Refusal :=
  rowRequest p oVerifyReq [n] (leBytes 1 v.toNat) s

/-- GUARD_COUNTER_CLEAR (R266). -/
def execGuardCounterClear (p : Port) (n : Ch) (v : BitVec 8) (s : State) : Host.Outcome State Fault Refusal :=
  rowRequest p oGuardCounterClear [n] (leBytes 1 v.toNat) s

/-- CMP_START (R276): a write of 1. -/
def execCmpStart (p : Port) (s : State) : Host.Outcome State Fault Refusal := rowRequest p oCmpStart [] (leBytes 1 1) s

/-- CMP_ABANDON (R279): a write of 0. -/
def execCmpAbandon (p : Port) (s : State) : Host.Outcome State Fault Refusal := rowRequest p oCmpStart [] (leBytes 1 0) s

/-- SRC_SELFCAL (R281). -/
def execSrcSelfcal (p : Port) (n : Ch) (v : BitVec 8) (s : State) : Host.Outcome State Fault Refusal :=
  rowRequest p oSrcSelfcal [n] (leBytes 1 v.toNat) s

/-- BASELINE_REQ (R290). -/
def execBaselineReq (p : Port) (label : BitVec 128) (s : State) : Host.Outcome State Fault Refusal :=
  rowRequest p oBaselineReq [] (leBytes 16 label.toNat) s

/-- DRIFT_RUN (R293). -/
def execDriftRun (p : Port) (v : BitVec 8) (s : State) : Host.Outcome State Fault Refusal :=
  rowRequest p oDriftRun [] (leBytes 1 v.toNat) s

/-- HOST_RELEASE (R304). -/
def execHostRelease (p : Port) (v : BitVec 8) (s : State) : Host.Outcome State Fault Refusal :=
  rowRequest p oHostRelease [] (leBytes 1 v.toNat) s

/-- ARB_COMMIT (R308). -/
def execArbCommit (p : Port) (pos : Pos) (s : State) : Host.Outcome State Fault Refusal :=
  rowRequest p oArbCommit [] (leBytes 8 pos.toNat) s

/-- ARB_CLEAR (R324). -/
def execArbClear (p : Port) (v : BitVec 8) (s : State) : Host.Outcome State Fault Refusal :=
  rowRequest p oArbClear [] (leBytes 1 v.toNat) s

/-- TXN_OPEN (R311). -/
def execTxnOpen (p : Port) (v : BitVec 8) (s : State) : Host.Outcome State Fault Refusal :=
  rowRequest p oTxnOpen [] (leBytes 1 v.toNat) s

/-- RK_WRITE_STAGE (R311): a write of any RK object. -/
def execRkWriteStage (p : Port) (index : BitVec 16) (sub : Byte) (data : List Byte) (s : State) : Host.Outcome State Fault Refusal :=
  onDevNv s (request p index.toNat sub.toNat data)

/-- KEYSTONE (R317): slot, flags, position (Table 10.7). -/
def execKeystone (p : Port) (slot flags : BitVec 8) (pos : Pos) (s : State) : Host.Outcome State Fault Refusal :=
  rowRequest p oKeystone [] (leBytes 1 slot.toNat ++ leBytes 1 flags.toNat ++ leBytes 8 pos.toNat) s

/-- TXN_ABORT (R319). -/
def execTxnAbort (p : Port) (v : BitVec 8) (s : State) : Host.Outcome State Fault Refusal :=
  rowRequest p oTxnAbort [] (leBytes 1 v.toNat) s

/-- CH_FAULT_CLEAR (R347). -/
def execChFaultClear (p : Port) (n : Ch) (v : BitVec 16) (s : State) : Host.Outcome State Fault Refusal :=
  rowRequest p oChFault [n] (leBytes 2 v.toNat) s

/-- PORTN_COUNTER_CLEAR (R346). -/
def execPortnCounterClear (p : Port) (v : BitVec 8) (s : State) : Host.Outcome State Fault Refusal :=
  rowRequest p oPortnCounterClear [] (leBytes 1 v.toNat) s

/-- PDO_MAPPING_WRITE (R336): a write of a mapping or assignment object, at its type's size. -/
def execPdoMappingWrite (index : BitVec 16) (sub : Byte) (v : BitVec 32) (s : State) : Host.Outcome State Fault Refusal :=
  onDevNv s (request .n index.toNat sub.toNat (leBytes (if index = 0x1C12 || index = 0x1C13 then 2 else 4) v.toNat))

/-- PEER_CMD (R357). -/
def execPeerCmd (p : Port) (v : BitVec 128) (s : State) : Host.Outcome State Fault Refusal :=
  rowRequest p oPeerCmd [] (leBytes 16 v.toNat) s

/-- FUSE_BLOW (R360). -/
def execFuseBlow (p : Port) (v : BitVec 32) (s : State) : Host.Outcome State Fault Refusal :=
  rowRequest p oFuseBlow [] (leBytes 4 v.toNat) s

/-- ATTEST_NONCE (R362). -/
def execAttestNonce (p : Port) (nonce : BitVec 256) (s : State) : Host.Outcome State Fault Refusal :=
  rowRequest p oAttestNonce [] (leBytes 32 nonce.toNat) s

/-- FW_UPLOAD (R366): a whole DOMAIN transfer. -/
def execFwUpload (p : Port) (data : List Byte) (s : State) : Host.Outcome State Fault Refusal := rowRequest p oFwUpload [] data s

/-- FW_CONFIRM (R367). -/
def execFwConfirm (p : Port) (v : BitVec 8) (s : State) : Host.Outcome State Fault Refusal :=
  rowRequest p oFwConfirm [] (leBytes 1 v.toNat) s

/-- FW_CH_LOAD (R368). -/
def execFwChLoad (p : Port) (v : BitVec 8) (s : State) : Host.Outcome State Fault Refusal :=
  rowRequest p oFwChLoad [] (leBytes 1 v.toNat) s

/-- FW_FLOOR_RAISE (R370). -/
def execFwFloorRaise (p : Port) (v : BitVec 8) (s : State) : Host.Outcome State Fault Refusal :=
  rowRequest p oFwFloorRaise [] (leBytes 1 v.toNat) s

/-- SLATE_NOW (R386). -/
def execSlateNow (p : Port) (v : BitVec 8) (s : State) : Host.Outcome State Fault Refusal :=
  rowRequest p oSlateNow [] (leBytes 1 v.toNat) s

/-- SLATE_AT (R386). -/
def execSlateAt (p : Port) (pos : Pos) (s : State) : Host.Outcome State Fault Refusal :=
  rowRequest p oSlateAt [] (leBytes 8 pos.toNat) s

/-- SLATE_CHAIN (R390). -/
def execSlateChain (p : Port) (pos : Pos) (s : State) : Host.Outcome State Fault Refusal :=
  rowRequest p oSlateChain [] (leBytes 8 pos.toNat) s

/-- SLATE_COUNTER_CLEAR (R402). -/
def execSlateCounterClear (p : Port) (v : BitVec 8) (s : State) : Host.Outcome State Fault Refusal :=
  rowRequest p oSlateCounterClear [] (leBytes 1 v.toNat) s

/-- DIE_COUNTER_CLEAR (R402). -/
def execDieCounterClear (p : Port) (k : Die) (v : BitVec 8) (s : State) : Host.Outcome State Fault Refusal :=
  rowRequest p oDieCounterClear [k] (leBytes 1 v.toNat) s

/-- SUPPLY_COUNTER_CLEAR (R402). -/
def execSupplyCounterClear (p : Port) (v : BitVec 8) (s : State) : Host.Outcome State Fault Refusal :=
  rowRequest p oSupplyCounterClear [] (leBytes 1 v.toNat) s

/-- RESTART_REQ (R396). -/
def execRestartReq (p : Port) (v : BitVec 16) (s : State) : Host.Outcome State Fault Refusal :=
  rowRequest p oRestartReq [] (leBytes 2 v.toNat) s

/-- OBJECT_WRITE (R333): a write of any object that has no row of its own. -/
def execObjectWrite (p : Port) (index : BitVec 16) (sub : Byte) (data : List Byte) (s : State) : Host.Outcome State Fault Refusal :=
  onDevNv s (request p index.toNat sub.toNat data)

end Sys2Proof.Machine
end

