-- ==== Sys2Proof/Machine/Grants.lean ====
section
/-! DEFINITION. UNIT_GRANT (R299) and what a grant lets its requester do: transactions go on to the next unit, calibrations, verifies and
self-calibrations begin. -/

namespace Sys2Proof.Machine

/-- A port by its class (Table 10.2). -/
def portAt (c : Nat) : Port :=
  match c with
  | 0 => .n | 1 => .s | 2 => .c | 3 => .x | _ => .d

/-- The record of a calibration transaction, caused as its unit 0xA0 is granted (R286). -/
def txnRecord (p : Port) (i : Nat) (s : Dev) : Dev :=
  let t := portTxn s p i
  match calRecord t with
  | none => s
  | some (type, payload) =>
    let f := match statementOf t with
      | some l => statementFields l
      | none => (0, 0, 0)
    ledgerCause ⟨type, payload, t.pos, p.idx, f.1, f.2.1, if (statementOf t).isSome then some f.2.2 else none, s.now,
      some (p.idx.val, i), none⟩ s

/-- A unit granted to a transaction: one that comes after its deadline aborts it (R318), as does CAL_SEAL closed at the append, before which no
record is written (R286, R295); else the next unit is asked for. -/
def txnGranted (p : Port) (i u : Nat) (s : Dev) : Dev :=
  let t := portTxn s p i
  if unitTick s t u < s.now then txnAbortWith p i 4 (refusedWord ⟨0x0F100086, 0, u, arbiterDie u⟩) s
  else if u = 0xA0 then
    (if s.sec.sealOpen then nextUnit p i (txnRecord p i s)
     else txnAbortWith p i 4 (refusedWord ⟨0x0F100090, 0x2610, 1, 0⟩) s)
  else nextUnit p i s

/-- A scrub pass whose slot is granted is complete (R393). -/
def scrubDone (k : Nat) (s : Dev) : Dev :=
  let s := lateOver (reqId 11 k) s
  if k < 6 then wr (updDie ⟨k % 6, Nat.mod_lt _ (by decide)⟩ (fun d => { d with scrubAt := s.now }) s) oScrubPos (ctlPos s) [k]
  else wr { s with control := { s.control with scrubAt := s.now } } oCtrlScrubPos (ctlPos s) []

/-- A telemetry report enters the Control die's objects (R395); whether a Channel die reads above 150 °C. -/
def telemetryArrives (k : Die) (temp : Int) (vCore vAnaP vAnaN : Nat) (s : Dev) : Dev :=
  let d := s.dies[k]
  let s := wr (wr s oDieTemp (ofSigned 16 temp) [k]) oVCore vCore [k]
  let s := wr (wr s oVAnaP vAnaP [k]) oVAnaN vAnaN [k]
  let s := wr (wr (wr s oEccCorr d.corr [k]) oEccUncorr d.uncorr [k]) oEccLast d.eccLast [k]
  let hot := (List.range 6).any fun i => decide (15000 < rdI s oDieTemp [i])
  { s with supply := { s.supply with overtemp := hot } }

/-- A telemetry report whose slot is granted goes over the link (R395). -/
def reportSent (k : Die) (s : Dev) : Dev :=
  match s.dies[k].report with
  | some (t, a, b, c) =>
    let s := updDie k (fun d => { d with report := none, reportAt := s.now }) (lateOver (reqId 12 k) s)
    overLink k (.telemetry t a b c) (telemetryArrives k t a b c) s
  | none => s

/-- A fabric slot granted to a scrub pass or a report: it is used for its class hold bound (Table 10.2). -/
def fabricGranted (id u : Nat) (s : Dev) : Dev :=
  let s := grantUntil id u (s.now + usTicks 30) s
  if clsOf id = 11 then scrubDone (instOf id) s
  else if clsOf id = 12 then reportSent ⟨instOf id % 6, Nat.mod_lt _ (by decide)⟩ s
  else s

/-- A scrub pass or report asks for a fabric slot of its die, and takes one that is free at once. -/
def fabricAsk (id deadline : Nat) (k : Die) (s : Dev) : Dev :=
  let u := 0xB0 + k.val
  let r := enterGranted id u deadline s
  if r.2 then fabricGranted id u r.1 else r.1

/-- What a granted requester does at once. -/
def granted (u : Nat) (r : Request) (s : Dev) : Dev :=
  let c := clsOf r.id
  let i := instOf r.id
  if c ≤ 4 then txnGranted (portAt c) i u s
  else if c = 5 then
    let a : ArrId := if i % 2 = 0 then .vm else .im
    if 0x80 ≤ u then calGranted (chanAt (i / 2)) a s else rotationGranted (chanAt (i / 2)) a s
  else if c = 6 then (if u < 0x80 then selfcalPath (chanAt i) r.deadline s else s)
  else if c = 7 then verifyGranted (chanAt (i / 4)) ⟨i % 4, Nat.mod_lt _ (by decide)⟩ s
  else if c = 11 || c = 12 then fabricGranted r.id u s
  else s

/-- UNIT_RELEASE (R300): a holder drops its grant; an upload goes on to its next pages. -/
def execUnitRelease (cls : Fin 15) (inst : BitVec 12) (unit : BitVec 8) (s : State) :
    Host.Outcome State Fault Refusal := onDev s fun s =>
  let id := reqId cls inst.toNat
  let upload := id == uploadId && unit.toNat == 0xA0 && holds s id 0xA0
  let s := unitRelease id unit.toNat s
  .next (if upload then uploadGoes s else s)

/-- UNIT_GRANT (R299). -/
def execUnitGrant (unit : BitVec 8) (s : State) : Host.Outcome State Fault Refusal := onDev s fun s =>
  .next (match grantNext unit.toNat (commitDue (advance (grantTick s unit.toNat) s)) with
    | some (r, s) => granted unit.toNat r s
    | none => s)

end Sys2Proof.Machine
end

