-- ==== Sys2Proof/Machine/Links.lean ====
section
/-! DEFINITION. Links, services and engine failures (01, R31, R36, R37; 02, R63, R64): training, retries, loss and return of a link, what the
fabric delivers. -/

namespace Sys2Proof.Machine

/-- A link enters a state, with event 0x04 (Table 11.9). -/
def linkEnter (k : Die) (st : LinkState) (s : Dev) : Dev :=
  if s.dies[k].link.st = st then s
  else
    let s := updLink k (fun l => { l with st := st }) s
    logEvent 0x04 k (linkCode st) s

/-- The die begins to extend its records (R63). -/
def beginExtend (k : Die) (s : Dev) : Dev :=
  if s.dies[k].extending then s else updDie k (fun d => { d with extending := true, extended := spanOpen d.extended s.now }) s

/-- A request that a lost link held is refused: its die cannot be reached (R332, R37). A peer request is answered by nothing (R357). -/
def requestLost (m : LinkMsg) (s : Dev) : Dev :=
  match m with
  | .request _ (.peer _) => s
  | .request p (.write sdo _ i j _) | .request p (.read sdo _ i j) =>
    let s := setAnswer p (.refused 0x0F100002) s
    if sdo then mailPut (.abort i j 0x0F100002) s else s
  | .request p (.seq _ _) => setAnswer p (.refused 0x0F100002) s
  | .fabric _ | .record | .sync _ _ | .cut _ | .telemetry _ _ _ _ | .rx _ _ | .prepare _ _ => s

/-- A link is LOST (R37): the die extends its records, its Sequencers hold with cause LINK (R243). Messages that a retrain held are discarded with
it: the manual keeps them through a retrain and does not say what becomes of them at its third failure (DESIGN CHOICE, log 116). -/
def linkLost (k : Die) (s : Dev) : Dev :=
  let held := s.dies[k].link.held
  let s := linkEnter k .lost (updLink k (fun l => { l with fails := 0, retrying := false, held := [], announced := false, tryAt := s.now }) s)
  linkHold k (beginExtend k (held.foldl (fun s m => requestLost m s) s))

/-! ### What the link carries -/

/-- The bytes of an entry with a channel's records written from `at_` on. -/
def spliceBytes (body : List Byte) (at_ : Nat) (l : List Byte) : List Byte := body.take at_ ++ l ++ body.drop (at_ + l.length)

/-- The die's part of a Slate enters its entry (R391): PARTIAL clears with the last part missing. -/
def slatePart (k : Die) (seq : Nat) (l : List Byte) (s : Dev) : Dev :=
  let rest := s.slate.parts.filter fun e => !(e.1 == seq && e.2.1 == k.val)
  let more := rest.any fun e => e.1 == seq
  let f (e : SlateEntry) : SlateEntry := if e.seq = seq then { e with
      body := spliceBytes e.body (64 + 384 * k.val) l, mask := setBit e.mask (k.val + 1)
      flags := if more then e.flags else clearBit e.flags 1 } else e
  { s with slate := { s.slate with parts := rest, ring := s.slate.ring.map fun e => (e.1, f e.2) } }

/-- A die's staging of the transactions that ended SPLIT without it is read and reported (R316). -/
def splitsRead (k : Die) (s : Dev) : Dev :=
  (allTxns s).foldl (fun s e =>
    if e.2.2.st = .split && bitOf e.2.2.mask (k.val + 1) && !bitOf e.2.2.applied (k.val + 1) then
      updTxn e.1.idx e.2.1 (fun t => { t with reported := setBit t.reported (k.val + 1) }) s
    else s) s

/-- What a die sends when its link returns (R37, R316, R344, R391): its held events with their own positions, its parts of Slates, its staging. A SYNC
still to come reaches it now (log 138). -/
def linkCatchUp (k : Die) (s : Dev) : Dev :=
  let held := s.dies[k].events
  let s := held.foldl (fun s e => logEventAt e.code e.arg0 e.arg1 e.pos s) (updDie k (fun d => { d with events := [] }) s)
  let s := match s.zh.sync with
    | some t => if s.dies[k].sync = some (t.num, t.pos) then s else dieSync k t.num t.pos s
    | none => s
  splitsRead k ((s.slate.parts.filter fun e => e.2.1 == k.val).foldl (fun s e => slatePart k e.1 e.2.2 s) s)

/-- The Control die's copy of the latest take of an array (Table 1.10). -/
def takeKept (n : Ch) (a : ArrId) (w pos : Nat) (s : Dev) : Dev :=
  let i := 2 * n.val + a.idx
  { s with portN := { s.portN with takes := (i, w, pos) :: s.portN.takes.filter fun e => e.1 != i } }

/-- A message at its end of the link (R36, R41, R42). -/
def fabricArrives (k : Die) (m : FabMsg) (s : Dev) : Dev :=
  match m with
  | .take n a w pos => if n.die = k then takeKept n a w.toNat pos.toNat s else s
  | .code n v => if n.die = k then wr s oSrcCode v.toNat [n] else s
  | .setpoint n v => if n.die = k then loopSpWrite n v.toNat s else s
  | .record n q => if n.die = k then queueForward n q s else s
  | .vote p slot => voteArrives p slot (k.val + 1) s
  | .decision p slot => decisionArrives p slot (k.val + 1) s

/-- The oldest published record that the die does not hold arrives (R48); a die that extends records takes none until it adopts (R64). -/
def recordArrives (k : Die) (s : Dev) : Dev :=
  let d := s.dies[k]
  if d.extending then s
  else match (s.cad.recs.filter fun r => (d.recs.all fun q => q.base < r.base)).getLast? with
    | some r => updDie k (fun d => { d with recs := r :: d.recs }) s
    | none => s

/-- CADENCE_RECORD_ARRIVAL (R48), over an ACTIVE link; a link that retrains holds the record. -/
def execCadenceRecordArrival (k : Die) (s : State) : Host.Outcome State Fault Refusal := onDev s fun s =>
  .next (overLink k .record (recordArrives k) s)

/-- TELEMETRY_REPORT (R395): DS5 of the die has a report to send under the TELEMETRY class (Table 10.2); one that still waits for a fabric slot is
replaced by it. -/
def execTelemetryReport (k : Die) (temp : Int) (vCore vAnaP vAnaN : BitVec 16) (s : State) : Host.Outcome State Fault Refusal :=
  onDev s fun s =>
  .next (
    if serviceRuns s k 5 then
      fabricAsk (reqId 12 k) (posOf s.cad.recs (reportDue s k * 256)) k
        (updDie k (fun d => { d with report := some (temp, vCore.toNat, vAnaP.toNat, vAnaN.toNat) }) s)
    else s)

/-- FABRIC_MESSAGE_DELIVERED (R36): a link that retrains holds the message, in order. -/
def execFabricMessageDelivered (k : Die) (m : FabMsg) (s : State) : Host.Outcome State Fault Refusal := onDev s fun s =>
  .next (overLink k (.fabric m) (fun s => fabricArrives k m (updLink k (fun l => { l with msgRetry := 0 }) s)) s)

/-- MESSAGE_RETRY (Table 1.6): three retries, then the link retrains. -/
def execMessageRetry (k : Die) (s : State) : Host.Outcome State Fault Refusal := onDev s fun s =>
  .next (
    let l := s.dies[k].link
    if l.st = .active then
      if l.msgRetry < 3 then updLink k (fun l => { l with msgRetry := l.msgRetry + 1, retries := countUp 65535 l.retries 1 }) s
      else linkEnter k .retraining (updLink k (fun l => { l with msgRetry := 0, fails := 0, retrains := countUp 255 l.retrains 1 }) s)
    else s)

/-! ### Training -/

/-- The rate after a training (Table 1.5): 4 GT/s once two attempts of it at 8 GT/s have failed, 8 GT/s where none has made it fall back; from a
link that fell back earlier, the rate this training reached (log 117). -/
def rateAfter (l : Link) (rate8 : Bool) : Bool := l.fails < 2 && (l.rate8 || rate8)

/-- An attempt fails: after two the rate falls to 4 GT/s (Table 1.5), after three the link is LOST (Table 1.6). -/
def trainingFails (k : Die) (s : Dev) : Dev :=
  let n := s.dies[k].link.fails + 1
  let s := updLink k (fun l => { l with fails := n, rate8 := l.rate8 && n < 2 }) s
  match s.dies[k].link.st with
  | .retraining | .training => if 3 ≤ n then linkLost k s else s
  | .lost => updLink k (fun l => { l with retrying := false }) s
  | .active | .reset => s

/-- LINK_TRAINING_RETRY (Table 1.6): every 10 ms while the link is LOST, from the loss or the attempt before. -/
def execLinkTrainingRetry (k : Die) (s : State) : Host.Outcome State Fault Refusal := onDev s fun s =>
  .next (
    let l := s.dies[k].link
    if l.st = .lost && !l.announced then
      let s := advance (l.tryAt + 10 * msTicks) s
      updLink k (fun l => { l with retrying := true, tryAt := s.now }) s
    else s)

/-! ### Records of a die without its link -/

/-- What a Reel cycle boundary does on a channel: its sine (R84, R85) and the latches of LATCH_MODE 1 (R258), with the number of the cycle that begins. -/
def channelBoundary (c : Nat) (n : Ch) (s : Dev) : Dev := guardBoundary n (sineBoundary n c s)

/-- DIE_RECORD_EXTEND (R63): at the boundary at which its newest record begins the die sets B(c + 1) = B(c) + L(c) with the last L received. -/
def execDieRecordExtend (k : Die) (s : State) : Host.Outcome State Fault Refusal := onDev s fun s =>
  .next (
    if s.dies[k].extending then
      match s.dies[k].recs with
      | r :: t =>
        let s := updDie k (fun d => { d with recs := ⟨(r.c + 1) % 2 ^ 32, r.base + r.len, r.len⟩ :: r :: t }) s
        forDie k (channelBoundary r.c) (advance ((r.base + 255) / 256) s)
      | [] => s
    else s)

/-- The record at whose beginning the die adopts (R64): the first of the Control die's that began after the link became ACTIVE. -/
def adoptionRec (s : Dev) (k : Die) : Option Rec :=
  (s.cad.recs.drop 1).filter (fun r => decide (s.dies[k].link.activeAt * 256 < r.base)) |>.getLast?

/-- RECORD_ADOPTION (R64): at the first Reel cycle boundary after the link is ACTIVE the die holds the Control die's records from that boundary on;
earlier stamps keep the positions of the die's own timeline. A cycle that the die's timeline had begun does not begin twice. Events of the die
whose tick is past act from the next tick on. -/
def execRecordAdoption (k : Die) (s : State) : Host.Outcome State Fault Refusal := onDev s fun s =>
  .next (
    let d := s.dies[k]
    match d.extending && d.link.st = .active, adoptionRec s k with
    | true, some r =>
      let begun := d.recs.head?.any fun x => posLater (x.c * 2 ^ 32) (r.c * 2 ^ 32)
      let recs := (s.cad.recs.filter fun x => decide (r.base ≤ x.base)) ++ d.recs.filter fun x => decide (x.base < r.base)
      let s := advance ((r.base + 255) / 256) s
      let s := updDie k (fun d => { d with
        recs := recs, extending := false, adopted := r.base, shiftDue := 0, extended := spanClose d.extended s.now }) s
      let s := shiftDie d.shiftDue k s
      let s := if begun then s else forDie k (channelBoundary r.c) s
      advance (s.now + 1) s
    | _, _ => s)

/-! ### Engine failures -/

/-- The services of a die rewritten. -/
def updServices (k : Die) (f : Services → Services) (s : Dev) : Dev := updDie k (fun d => { d with services := f d.services }) s

/-- The requesters of a die that a service stands for (R300, Table 1.2): DS1's scrub, DS2's calibrations, DS5's reports. -/
def serviceRequesters (k : Die) (i : Nat) : List Nat :=
  let chans := (List.range 4).map fun c => 4 * k.val + c
  match i with
  | 1 => [reqId 11 k]
  | 2 => chans.flatMap fun n => [reqId 5 (2 * n), reqId 5 (2 * n + 1), reqId 6 n]
  | 5 => [reqId 12 k]
  | _ => []

/-- A service of a die stops with no spare left (Table 1.3): SERVICE_LOST; what it held is lost with it (R300); DS0's takes the link with it. -/
def serviceStops (k : Die) (i : Nat) (s : Dev) : Dev :=
  let s := updServices k (fun x => { x with stopped := x.stopped ||| BitVec.ofNat 8 (2 ^ i) }) s
  let s := (serviceRequesters k i).foldl (fun s id => dropRequester id s) s
  if i = 0 then linkLost k s else s

/-- The failed engine's bit of SERVICE_MAP clears. -/
def unmapService (k : Die) (i : Nat) (s : Dev) : Dev :=
  updServices k (fun x => { x with map := BitVec.ofNat 8 (clearBit x.map.toNat i) }) s

/-- DSi of a die fails (Table 1.3); the engine's own grants are lost (R300). A scrub pass of DS1 that waits for its slot is to run again. -/
def serviceFails (k : Die) (i : Fin 8) (s : Dev) : Dev :=
  let x := s.dies[k].services
  let s := dropRequester (reqId 14 (8 * k.val + i.val)) (dieEvent k 0x09 (k.val + 1) (8 + i.val) (unmapService k i s))
  let s := if i = 1 || x.spare = some 1 && i = 7 then dropRequester (reqId 11 k) s else s
  if i.val < 7 then
    if x.spare.isNone && x.loading.isNone && !x.spareDead then updServices k (fun x => { x with loading := some i }) s
    else serviceStops k i s
  else
    let s := updServices k (fun x => { x with spareDead := true, loading := none }) s
    match x.spare, x.loading with
    | some j, _ => serviceStops k j s
    | none, some j => serviceStops k j s
    | none, none => s

/-- SPARE_TAKEOVER_COMPLETE (Table 1.3): a calibration step in progress, or a threshold verify, restarts when its scheduler is taken over. -/
def execSpareTakeoverComplete (k : Die) (s : State) : Host.Outcome State Fault Refusal := onDev s fun s =>
  .next (
    match s.dies[k].services.loading with
    | some j =>
      let s := updServices k (fun x => { x with spare := some j, loading := none, map := BitVec.ofNat 8 (setBit x.map.toNat 7) }) s
      if j = 2 then
        let f (x : Arr) : Arr := { x with cal := x.cal.map fun c => { c with since := s.now } }
        forDie k (fun n s =>
          let s := updArr n .im f (updArr n .vm f s)
          forMons (fun m s => updMon n m (fun y => { y with verifyAt := y.verifyAt.map fun _ => s.now }) s) s) s
      else s
    | none => s)

/-- A restart in progress does not reach RUNNING (R399): an image on trial falls back, a confirmed one restarts once more with cause 7,
and after that the Control die stays in its boot stage. -/
def restartFails (s : Dev) : Dev :=
  match s.control.restart with
  | none => s
  | some r =>
    let s := { s with control := { s.control with restart := none } }
    if s.fw.running ≠ s.fw.confirmed then restartDue 3 s.now (fallBack s)
    else if r.cause = 7 then { s with control := { s.control with stuck := true } }
    else restartDue 7 s.now s

/-- A cause that stops the Control die itself (R396): it starts a restart, or makes the one in progress fail. -/
def controlFails (cause : Nat) (s : Dev) : Dev :=
  if s.control.restart.isSome then restartFails s
  else if s.control.running || !s.control.booted then restartDue cause s.now s
  else s

/-- ENGINE_SELF_CHECK_FAIL (R31, Table 1.3). -/
def execEngineSelfCheckFail (e : Engine) (s : State) : Host.Outcome State Fault Refusal := onDev s fun s =>
  .next (
    match e with
    | .chan n e => channelEngineFails n e s
    | .ds k i => serviceFails k i s
    | .core i => controlFails 4 (logEvent 0x09 0 (64 + i.val) s))

end Sys2Proof.Machine
end

