-- ==== Sys2Proof/Machine/Power.lean ====
section
/-! DEFINITION. The supplies (13, R373 to R385): power-up, warnings and recoveries, resets, the tracking outputs. -/

namespace Sys2Proof.Machine

/-- The power manager rewritten. -/
def updPower (f : Power → Power) (s : Dev) : Dev := { s with supply := f s.supply }

/-- The acknowledgement of FoE data that a supply warning held back (Table 12.12). -/
def foeResumes (s : Dev) : Dev :=
  if s.portN.foeWait then mailPut .foeAck (updPortN (fun x => { x with foeWait := false }) s) else s

/-! ### Power-up -/

/-- The device as its dies are released (Table 13.2): everything at reset, the tick epoch begins, the confirmed Control slot boots, every
code RAM holds the boot slot in bank 0 (R368), FW_CTRL_SELECT reads the slot that boots (DEDUCED, log 82), AGE and POWER_UPS go on from the last record (R291). -/
def releasedDev (nv : Nv) (s : Dev) : Dev :=
  let fw := s.fw
  let b := fw.slots[mcSlot fw.boot]
  let bank : Option Bank := if b.st = .valid then some ⟨fw.boot, b.version, b.rollback, b.hash, b.costs⟩ else none
  let d := Dev.heldInReset { fw with
    running := fw.confirmed, trial := none, image := fw.slots[ctrlSlot fw.confirmed]
    rams := Vector.replicate 6 ⟨bank, none, none, false, [], []⟩ }
  let last := nv.recs.getLast?
  let settle (x : Arr) : Arr := { x with refSettleAt := some (usTicks 500) }
  wr { d with
    portN := { d.portN with alias_ := s.portN.alias_ }
    supply := { d.supply with st := .starting, released := true }
    chans := d.chans.map fun c => { c with vm := settle c.vm, im := settle c.im }
    ledger := { d.ledger with
      program := s.ledger.program
      ageBase := match last with | some r => r.age | none => Config.shippedAge
      powerUps := 1 + match last with | some r => r.powerUps | none => Config.shippedPowerUps } } oFwCtrlSelect fw.confirmed []

/-- DS2 of a die takes the calibration multiplexer for the whole power-up calibration (R126). -/
def takeMux (k : Die) (s : Dev) : Dev :=
  let u := 0x80 + k.val
  match grantNext u (unitRequest (powerupId k) u (deadlineIn s (1500 * msTicks)) s) with
  | some (_, s) => s
  | none => s

/-- POWER_UP_RELEASE (R375): every die is released on one tick, the links train. -/
def powerUp (nv : Nv) (s : Dev) : Dev :=
  if s.supply.released || s.supply.resetAt.isSome then s
  else (List.finRange 6).foldl (fun s (k : Die) => takeMux k (linkEnter k .training s)) (releasedDev nv s)

/-- POWER_UP_RELEASE. -/
def execPowerUpRelease (s : State) : Host.Outcome State Fault Refusal := onDies s fun d => .next (powerUp s.nv d)

/-- TIMING_TREE_CAL_COMPLETE (R28, Table 13.2): the Cadence Unit runs FREERUN, Zhewick frames are sent from here on. -/
def execTimingTreeCalComplete (s : State) : Host.Outcome State Fault Refusal := onDev s fun s =>
  .next (updPower (fun x => { x with tree := true }) s)

/-- PHY_RST_RELEASE (R413): 10 ms after release PHY_RST_n is driven high, for as long as the device runs. -/
def execPhyRstRelease (s : State) : Host.Outcome State Fault Refusal := onDev s fun s =>
  .next (if s.supply.phy then s else updPower (fun x => { x with phy := true }) (advance (10 * msTicks) s))

/-! ### Warnings and recoveries -/

/-- Inputs beyond their warning level (Table 13.1): [0] VSYS, [1] AVP, [2] AVN, [3] VIO. -/
def beyondWarning (l : Levels) : BitVec 4 :=
  BitVec.ofNat 4 (flagAt (l.vsys < 10000) 0 + flagAt (l.avp < 13800) 1 + flagAt (-13800 < l.avn) 2 + flagAt (l.vio < 3000) 3)

/-- BELOW_WARNING and MIN_VSYS of an episode take in a reading. -/
def takeLevels (l : Levels) (s : Dev) : Dev :=
  wr (updPower (fun x => { x with below := beyondWarning l }) s) oMinVsys (min (rd s oMinVsys []) (ofSigned 16 l.vsys)) []

/-- Every action of Table 13.5, on the tick of the detection (R379). -/
def warningActs (inputs : BitVec 4) (l : Levels) (s : Dev) : Dev :=
  let s := slateTrigger 6 0 s
  let s := updPower (fun x => { x with
    st := .warning, cause := inputs, below := inputs ||| beyondWarning l, warnAt := s.now, recoverFrom := none, warning := true
    spans := spanOpen x.spans s.now }) s
  let s := supplyHold true (abortPreparing 5 s)
  let s := bump oEpisodes [] (wr (wr s oWarnPos (ctlPos s) []) oMinVsys (ofSigned 16 l.vsys) [])
  forChans (fun n s => chEvent n 0x0D 1 s) (logEvent 0x08 1 0 s)

/-- SUPPLY_WARNING (R377 to R379): inside an episode a further input only shows in BELOW_WARNING and MIN_VSYS, and ends a recovery. -/
def execSupplyWarning (inputs : BitVec 4) (l : Levels) (s : State) : Host.Outcome State Fault Refusal := onDev s fun s =>
  .next (
    match s.supply.st with
    | .starting | .running => warningActs inputs l s
    | .warning | .recovering =>
      let s := takeLevels l s
      updPower (fun x => { x with st := .warning, recoverFrom := none, below := inputs ||| x.below }) s
    | .reset => s)

/-- SUPPLY_RECOVERING (Table 13.4): the recovery timer starts, or is cancelled by a relapse. -/
def execSupplyRecovering (recovering : Bool) (l : Levels) (s : State) : Host.Outcome State Fault Refusal := onDev s fun s =>
  .next (
    match s.supply.st, recovering with
    | .warning, true =>
      let s := takeLevels l s
      updPower (fun x => { x with st := .recovering, recoverFrom := some s.now }) s
    | .recovering, false => updPower (fun x => { x with st := .warning, recoverFrom := none }) (takeLevels l s)
    | .recovering, true | .warning, false => takeLevels l s
    | .starting, _ | .running, _ | .reset, _ => s)

/-- A restart that fell due during the episode begins 10 ms after it (R396). -/
def restartsAfterEpisode (s : Dev) : Dev :=
  { s with control := { s.control with due := s.control.due.map fun e => if e.2 ≤ s.now then (e.1, s.now + 10 * msTicks) else e } }

/-- What happens on the tick at which recovery completes (R380). -/
def recoveryActs (s : Dev) : Dev :=
  let slip := (s.now - s.supply.warnAt) / msTicks
  let s := updPower (fun x => { x with
    st := if s.control.booted then .running else .starting
    warning := false, below := 0, recoverFrom := none, spans := spanClose x.spans s.now }) s
  let s := foeResumes <| uploadsResume <| uploadAsk (ledgerAsk (calRecover (supplyHold false s)))
  let s := forChans (fun n s => (List.finRange 4).foldl (fun s (m : Mon) => verifyResume n m s) s) s
  let s := bumpBy oSlipTotalMs slip [] (wr s oRecoverPos (ctlPos s) [])
  restartsAfterEpisode (forChans (fun n s => chEvent n 0x0D 0 s) (logEvent 0x08 0 0 s))

/-- The tick at which recovery completes (R378): 1 ms after the recovery timer started. -/
def recoveryTick (s : Dev) : Option Nat :=
  match s.supply.st, s.supply.recoverFrom with
  | .recovering, some t => some (t + msTicks)
  | _, _ => none

/-! ### Resets -/

/-- A channel at a reset: the clamps of Table 3.3, every driver in its released state. -/
def resetChan (s : Dev) (n : Ch) : Chan :=
  { Chan.atReset with src := if rd s oSrcMode [n] ≠ 0 then
      { Src.atReset with gndClamp := false, hizClamp := true, resetGndAt := some (s.now + 492) } else Src.atReset }

/-- The tick of a reset (R381): every object goes to its default, the outputs stay driven until the rails are removed; an upload in
progress is abandoned (R364), a page program in progress may still complete. -/
def resetActs (nv : Nv) (s : Dev) : Dev :=
  let d := Dev.heldInReset (uploadsLost s).fw
  { d with
    now := s.now
    ledger := { d.ledger with program := programCut nv s }
    chans := Vector.ofFn (resetChan s)
    portN := { d.portN with alias_ := s.portN.alias_ }
    supply := { d.supply with resetAt := some s.now } }

/-- SUPPLY_RESET (R377, R381). -/
def execSupplyReset (s : State) : Host.Outcome State Fault Refusal := onDevNv s fun nv s => .next (resetActs nv s)

/-- DIE_RAIL_FAULT (R374): treated as a supply input at its reset level. -/
def execDieRailFault (s : State) : Host.Outcome State Fault Refusal := onDevNv s fun nv s => .next (resetActs nv s)

/-- DIE_RAIL_REMOVAL (R381): 10 µs after the reset tick the rails are removed, and with them what still drove the outputs. -/
def execDieRailRemoval (s : State) : Host.Outcome State Fault Refusal := onDies s fun s =>
  .next (
    match s.supply.resetAt with
    | some t =>
      let s := advance (t + 2458) s
      { updPower (fun x => { x with resetAt := none }) s with chans := Vector.replicate 24 Chan.atReset }
    | none => s)

/-- The outputs of the dies are driven (R376, R381). -/
def outputsDriven (s : Dev) : Bool := s.supply.released || s.supply.resetAt.isSome

/-! ### Tracking outputs -/

/-- A target duty (R384): `c` the demand of the side. -/
def trackTarget (s : Dev) (n : Ch) (c : Int) : Nat :=
  min 2047 (rd s oTrkFloor [n] + (rd s oTrkSpan [n] * (max 0 c).toNat + 2 ^ 38 - 1) / 2 ^ 38)

/-- A duty moves to its target, falling by at most TRK_DECAY. -/
def trackMove (s : Dev) (n : Ch) (target duty : Nat) : Nat := if duty ≤ target then target else max target (duty - rd s oTrkDecay [n])

/-- Codes that have left the queue and not reached composition (R384). -/
def trackAhead (x : Src) (now : Nat) : List Int := (x.segs.filter fun g => decide ((now - 860) * 256 < g.t0)).map Seg.c0

/-- The duties of TRK_P and TRK_N at the start of a period (R384, R385). -/
def trackDuties (s : Dev) (n : Ch) : Nat × Nat :=
  let t := (s.ch n).track
  let x := (s.ch n).src
  let mode := rd s oTrkMode [n]
  if mode = 0 then (0, 0)
  else if mode = 1 then (rd s oTrkFloor [n] + rd s oTrkSpan [n], rd s oTrkFloor [n] + rd s oTrkSpan [n])
  else
    let l := x.code :: trackAhead x s.now
    let off := x.st == .off || x.st == .tripped
    let hi := if off then 0 else l.foldl max t.hi
    let lo := if off then 0 else l.foldl min t.lo
    (trackMove s n (trackTarget s n hi) t.dutyP, trackMove s n (trackTarget s n (-lo)) t.dutyN)

/-- TRK_PWM_PERIOD (R383 to R385): the next multiple of 2048 ticks of the epoch. -/
def execTrkPwmPeriod (n : Ch) (s : State) : Host.Outcome State Fault Refusal := onDev s fun s =>
  .next (
    let t := max (((s.ch n).track.period + 1) * 2048) ((s.now + 2047) / 2048 * 2048)
    let s := advance t s
    let d := trackDuties s n
    let c := (s.ch n).src.code
    updCh n (fun x => { x with track := ⟨d.1, d.2, c, c, t / 2048⟩ }) s)

end Sys2Proof.Machine
end

