-- ==== Sys2Proof/Machine/Slate.lean ====
section
/-! DEFINITION. The Slate (13, R386 to R392), ECC, scrub passes and telemetry (R393 to R395). -/

namespace Sys2Proof.Machine

/-- The Slate rewritten. -/
def updSlate (f : Slate → Slate) (s : Dev) : Dev := { s with slate := f s.slate }

/-! ### Triggers -/

/-- SLATE_IN_EDGE (R386): the edge that SLATE_IN_EDGE selects captures at most 4 ticks later. -/
def execSlateInEdge (falling : Bool) (s : State) : Host.Outcome State Fault Refusal := onDev s fun s =>
  .next (
    if bitOf (rd s oSlateInEdge []) 0 == falling then
      slateTriggerAt 0 0 (s.now + min 4 (Config.slateInDelay s.free)) (nextFree s)
    else s)

/-- SLATE_AT comes to its position (R386, R48): the position is used up. -/
def slateAtReached (v : Nat) (s : Dev) : Dev :=
  atPosition s.cad.recs v (fun s => slateTriggerAt 2 0 s.now (wr s oSlateAt 0 [])) s

/-- The chain Slate comes to the position that travelled in SLATE_POS (R390, R48). -/
def chainSlateReached (t : Target) (s : Dev) : Dev :=
  atPosition s.cad.recs t.pos (fun s => slateTriggerAt 7 0 s.now { s with zh := { s.zh with slate := none } }) s

/-- SLATE_AT_REACHED (R386). -/
def execSlateAtReached (s : State) : Host.Outcome State Fault Refusal := onDev s fun s =>
  .next (
    let v := rd s oSlateAt []
    if v = 0 then s
    else
      slateAtReached v s)

/-- CHAIN_SLATE_REACHED (R390). -/
def execChainSlateReached (s : State) : Host.Outcome State Fault Refusal := onDev s fun s =>
  .next (
    match s.zh.slate with
    | none => s
    | some t => chainSlateReached t s)

/-! ### The entry -/

/-- A field of so many bytes. -/
def fitBytes (n : Nat) (l : List Byte) : List Byte := (l ++ leBytes n 0).take n

/-- An object's value as a field of the entry. -/
def slateField (nv : Nv) (s : Dev) (r : Row) (places : List Nat) (n : Nat) : List Byte :=
  let k := keyOf r places 0
  fitBytes n (view nv s .n r (k / 256 % 65536) (k % 256))

/-- The device part (Table 13.9). -/
def slateDevice (nv : Nv) (s : Dev) : List Byte :=
  let f (r : Row) (places : List Nat) (n : Nat) : List Byte := slateField nv s r places n
  f oFaultSummary [] 8 ++ f oDeviceStatus [] 4 ++ f oReelStatus [] 4 ++ f oVsysNow [] 2 ++ f oAvpNow [] 2 ++ f oAvnNow [] 2 ++ f oVioNow [] 2 ++
    f oCtrlTemp [] 2 ++ (List.range 6).flatMap (fun k => f oDieTemp [k] 2) ++ f oRefDieTemp [] 2 ++ f oSupplyStatus [] 4 ++
    f oArbStatus [] 4 ++ leBytes 16 0

/-- A channel record (Table 13.10). -/
def slateChannel (nv : Nv) (s : Dev) (n : Ch) : List Byte :=
  let f (r : Row) (places : List Nat) (k : Nat) : List Byte := slateField nv s r (n.val :: places) k
  let c := s.ch n
  f oSeqStatus [] 4 ++ f oCurCourse [] 2 ++ f oCurSegment [] 4 ++ leBytes 4 c.seq.i ++ f oLoopStatus [] 4 ++ f oLoopOut [] 5 ++ f oLoopErr [] 5 ++
    leBytes 5 (ofSigned 96 c.loop.integ / 2 ^ 56) ++ f oCodeNow [] 5 ++ f oSrcStatus [] 4 ++ f oVmLatest [] 8 ++ f oImLatest [] 8 ++
    f oTapNow [0] 5 ++ f oTapNow [1] 5 ++ f oMonStates [] 1 ++ f oGuardLatch [] 1 ++ (List.range 4).flatMap (fun m => f oMonStatus [m] 2) ++
    f oArrStatus [0] 4 ++ f oArrStatus [1] 4 ++ f oChFault [] 2 ++ leBytes 2 c.track.dutyP ++ leBytes 2 c.track.dutyN ++ leBytes 4 0

/-- The transaction status words (R392): slots 1 to 16 of Ports N, S, C, X and D. -/
def slateTxns (s : Dev) : List Byte :=
  [Port.n, .s, .c, .x, .d].flatMap fun p => (List.range 16).flatMap fun i => leBytes 4 (txnStatus (portTxn s p (i + 1)))

/-- Bytes 64 to 4407 of an entry (Table 13.7). -/
def slateBody (nv : Nv) (s : Dev) : List Byte :=
  slateDevice nv s ++ (List.finRange 24).flatMap (slateChannel nv s) ++ resStatus s ++ slateTxns s

/-- Bytes of a die's channel records in the body. -/
def slateDiePart (body : List Byte) (k : Die) : List Byte := (body.drop (64 + 384 * k.val)).take 384

/-! ### Captures -/

/-- No die has a free set of snapshot registers, or no ring index is free (R388, R389, R391): sets are held by captures not yet transferred
and by parts that wait for a link. -/
def noSet (s : Dev) : Bool :=
  let held := s.slate.held.length
  2 ≤ held || (ringOrder s).isEmpty ||
    (List.finRange 6).any fun (k : Die) => 2 ≤ held + (s.slate.parts.filter fun e => e.2.1 == k.val).length

/-- The first Slate after the restart that a retained error causes shows it (R398). -/
def eccShows (s : Dev) : Bool := s.slate.ecc && s.control.running && s.control.due.all fun e => e.1 != 5

/-- FLAGS of a capture (Table 13.8): MISSED, ECC of a restart's retained state, RESTART. -/
def captureFlags (s : Dev) : Nat :=
  flagAt s.slate.missed 0 + flagAt (eccShows s) 2 + flagAt s.control.restart.isSome 3

/-- SOURCE_ARG: that of the lowest trigger of bits 3 to 5. -/
def captureArg (l : List Trigger) : Nat :=
  match [3, 4, 5].findSome? fun b => l.find? fun t => t.bit == b with
  | some t => t.arg
  | none => 0

/-- The earliest capture tick that lies ahead. -/
def nextCapture (l : List Trigger) : Option Nat := (l.map Trigger.tick).min?

/-- Channel dies whose Slate agent DS4 runs and captures (Table 1.2), as bits of Table 10.12. -/
def captureMask (s : Dev) : Nat := (List.finRange 6).foldl (fun (v : Nat) (k : Die) => v + flagAt (serviceRuns s k 4) (k.val + 1)) 0

/-- One capture (R387, R388): the triggers of the earliest capture tick make one Slate, or it is dropped. -/
def slateCapture (nv : Nv) (s : Dev) : Dev :=
  match nextCapture s.slate.triggers with
  | none => s
  | some t =>
    let s := advance t s
    let mine := s.slate.triggers.filter fun x => x.tick == t
    let seq := s.slate.seq
    let s := updSlate (fun x => { x with triggers := x.triggers.filter fun x => x.tick != t, seq := (seq + 1) % 2 ^ 32 }) s
    if noSet s then bump oSlateDropped [] (updSlate (fun x => { x with missed := true }) s)
    else
      let e : SlateEntry := {
        seq := seq, triggers := mine.foldl (fun v x => setBit v x.bit) 0, pos := ctlPos s, tick := t, mask := captureMask s
        flags := captureFlags s, arg := captureArg mine, body := slateBody nv s }
      slateAsk (updSlate (fun x => { x with
        held := x.held ++ [e], missed := false, ecc := x.ecc && !eccShows s }) s)

/-- The die captured its part of an entry that is not yet in the ring, and its link is not ACTIVE. -/
def partHeld (s : Dev) (e : SlateEntry) (k : Die) : Bool := bitOf e.mask (k.val + 1) && s.dies[k].link.st != .active

/-- Dies whose parts an entry holds as it enters the ring (Table 10.12). -/
def slateMask (s : Dev) (e : SlateEntry) : Nat :=
  1 + (List.finRange 6).foldl (fun (v : Nat) (k : Die) =>
    v + flagAt (bitOf e.mask (k.val + 1) && s.dies[k].link.st == .active) (k.val + 1)) 0 + flagAt (!s.ref.linkFault) 7

/-- An entry as it enters the ring: the channel records of dies that hold their part, or have none, read 0 (R391, Table 1.3). -/
def slateEnters (s : Dev) (e : SlateEntry) : SlateEntry :=
  let away : List Die := (List.finRange 6).filter fun (k : Die) => !bitOf e.mask (k.val + 1) || partHeld s e k
  { e with
    mask := slateMask s e
    flags := if (List.finRange 6).any (partHeld s e) then setBit e.flags 1 else e.flags
    body := away.foldl (fun b k => spliceBytes b (64 + 384 * k.val) (leBytes 384 0)) e.body }

/-- SLATE_RING_TRANSFER (R389): the oldest capture enters the ring under unit 0x90; dies that are away keep their parts. The
captures that still wait ask again. -/
def execSlateRingTransfer (s : State) : Host.Outcome State Fault Refusal := onDev s fun s =>
  .next (
    match s.slate.held, (sharedOf s 0x90).grants.find? fun g => clsOf g.id == 10 with
    | e :: rest, some g =>
      if s.control.running then
        let s := unitRelease g.id 0x90 s
        match ringOrder s with
        | [] => slateAsk (bump oSlateDropped [] (updSlate (fun x => { x with held := rest, missed := true }) s))
        | i :: _ =>
          let parts := (List.finRange 6).filterMap fun (k : Die) =>
            if partHeld s e k then some (e.seq, k.val, slateDiePart e.body k) else none
          let s := updSlate (fun x => { x with
            held := rest, entered := some s.now, parts := x.parts ++ parts, ring := (x.ring.filter fun y => y.1 != i) ++ [(i, slateEnters s e)] }) s
          slateAsk (wr s oIrqStatus (setBit (rd s oIrqStatus []) 5) [])
      else s
    | _, _ => s)

/-! ### ECC and scrub -/

/-- SCRUB_PASS (R393): corrections found in the pass, those in the queues of each channel among them. DS1 of the die asks for a fabric slot at the
end of a pass (Table 10.2); the Control die's pass needs none (log 123). -/
def execScrubPass (k : Option Die) (corrected : BitVec 32) (pool : List (Fin 4 × BitVec 32)) (s : State) :
    Host.Outcome State Fault Refusal := onDev s fun s =>
  .next (
    match k with
    | some k =>
      if serviceRuns s k 1 then
        let s := updDie k (fun d => { d with corr := countUp (2 ^ 32 - 1) d.corr corrected.toNat }) s
        let s := pool.foldl (fun s e => bumpBy oEccCorrected e.2.toNat [4 * k.val + e.1.val] s) s
        fabricAsk (reqId 11 k) (posOf s.cad.recs (scrubDue s k * 256)) k s
      else s
    | none => scrubDone 6 (bumpBy oCtrlEccCorr corrected.toNat [] s))

/-- A list without the element at a place. -/
def dropAt {α : Type} (l : List α) (i : Nat) : List α := l.take i ++ l.drop (i + 1)

/-- A record of a channel queue removed whole (Takes, errors in the pool): queue 0 is the source queue. -/
def poolError (n : Ch) (q place : Nat) (s : Dev) : Dev :=
  let gone (s : Dev) : Dev := chFault n 9 (bump oEccDrops [n] s)
  if q = 0 then
    if place < (s.ch n).src.queue.length then gone (updSrc n (fun x => { x with queue := dropAt x.queue place }) s) else s
  else
    let x := qFind (s.ch n).queues q
    if place < x.recs.length then gone (updCh n (fun c => { c with queues := qPut c.queues q { x with recs := dropAt x.recs place } }) s) else s

/-- A record of a Control-die queue removed whole. -/
def ctrlPoolError (q place : Nat) (s : Dev) : Dev :=
  let x := qFind s.ctrlQueues q
  { s with ctrlQueues := qPut s.ctrlQueues q { x with recs := dropAt x.recs place } }

/-- The engine of a number: 0 to 31 the engines of the die's channels, 32 to 39 its services. -/
def engineAt (k : Die) (i : Nat) : Engine :=
  if i < 32 then
    .chan ⟨4 * k.val + i / 8 % 4, by omega⟩ (match i % 8 with
      | 0 => .le | 1 => .sq | 2 => .mpv | 3 => .mpi | 4 => .se | 5 => .ge | 6 => .pe0 | _ => .pe1)
  else .ds k ⟨i % 8, by omega⟩

/-- An engine of a Channel die fails (Table 1.3). -/
def engineFails (e : Engine) (s : Dev) : Dev :=
  match e with
  | .chan n e => channelEngineFails n e s
  | .ds k i => serviceFails k i s
  | .core _ => s

/-- An error in a Course bank (Table 13.11): the entry of a bank that is not PLAYING is set to zeros and a READY bank is IDLE; in a PLAYING
bank the SQ fails. -/
def bankError (n : Ch) (b e : Nat) (s : Dev) : Dev :=
  match bankState (s.ch n).seq b with
  | .playing => channelEngineFails n .sq s
  | .ready => updSeq n (fun q => setBankState b .idle (setCourse b e 0 q)) s
  | .idle => updSeq n (setCourse b e 0) s

/-- Starts of the fields of a channel record (Table 13.10), and its end. -/
def channelFields : List Nat :=
  [0, 4, 6, 10, 14, 18, 23, 28, 33, 38, 42, 50, 58, 63, 68, 69, 70, 72, 74, 76, 78, 82, 86, 88, 90, 92, 96]

/-- Starts of the fields of the device part (Table 13.9), and its end. -/
def deviceFields : List Nat := [0, 8, 12, 16, 18, 20, 22, 24, 26, 28, 30, 32, 34, 36, 38, 40, 44, 48, 64]

/-- Starts of the fields of a resource record (Table 10.10), and its end. -/
def resourceFields : List Nat := [0, 1, 2, 4, 6, 8, 16, 24]

/-- The field that holds a byte, of a layout at `base`: its start and length. -/
def fieldOf (base at_ : Nat) : List Nat → Nat × Nat
  | a :: b :: t => if at_ < base + b then (base + a, b - a) else fieldOf base at_ (b :: t)
  | _ => (at_, 0)

/-- The value that a byte of the body belongs to. -/
def bodyField (at_ : Nat) : Nat × Nat :=
  if at_ < 64 then fieldOf 0 at_ deviceFields
  else if at_ < 2368 then let b := (at_ - 64) / 96 * 96 + 64; fieldOf b at_ channelFields
  else if at_ < 4024 then let b := (at_ - 2368) / 24 * 24 + 2368; fieldOf b at_ resourceFields
  else ((at_ / 4) * 4, 4)

/-- A value of a capture not yet transferred reads 0. -/
def captureError (j : Nat) (f : Nat × Nat) (x : Slate) : Slate :=
  { x with held := x.held.mapIdx fun i e =>
      if i = j then { e with body := spliceBytes e.body f.1 (leBytes f.2 0), flags := setBit e.flags 2 } else e }

/-- A value of a die's part that waits for its link reads 0; its entry is already in the ring. -/
def partError (j : Nat) (f : Nat × Nat) (x : Slate) : Slate :=
  match x.parts[j]? with
  | some (seq, k, l) =>
    let base := 64 + 384 * k
    if base ≤ f.1 && f.1 < base + 384 then
      { x with
        parts := x.parts.set j (seq, k, spliceBytes l (f.1 - base) (leBytes f.2 0))
        ring := x.ring.map fun y => if y.2.seq = seq then (y.1, { y.2 with flags := setBit y.2.flags 2 }) else y }
    else x
  | none => x

/-- A snapshot register could not be read (R392): its value reads 0 and FLAGS [2] sets. `j` counts the captures not yet transferred, then the parts
that wait for a link. -/
def snapshotError (j at_ : Nat) (s : Dev) : Dev :=
  let f := bodyField at_
  updSlate (fun x => if j < x.held.length then captureError j f x else partError (j - x.held.length) f x) s

/-- A Control-die object of the retained region returns to its default; calibration objects are rebuilt from the ledger (R398). -/
def retainedError (key : Nat) (s : Dev) : Dev :=
  let index := key / 256 % 65536
  let s := updSlate (fun x => { x with ecc := true }) s
  if isAuthority index (key % 256) || objDie index ≠ 0 then s
  else { s with objs := tabDrop s.objs key }

/-- ECC_UNCORRECTABLE (R393, R394): `where_` names what the word held, by class: 0 the device queue × 2^16 + place of the record; 1 the bank;
2 the engine, or from 2^16 on channel × 2^14 + bank × 2^13 + entry of a Course; 3 the capture or part × 2^16 + byte of the body; 4 the object key of
the retained region, 0 for any other word. -/
def execEccUncorrectable (k : Option Die) (cls : Fin 5) (addr : BitVec 24) (where_ : Nat) (s : State) :
    Host.Outcome State Fault Refusal := onDev s fun s =>
  .next (
    let last := cls.val * 2 ^ 24 + addr.toNat
    match k with
    | some k =>
      let s := updDie k (fun d => { d with uncorr := countUp (2 ^ 32 - 1) d.uncorr 1, eccLast := last }) s
      let n : Ch := ⟨4 * k.val + where_ / 2 ^ 14 % 4, by omega⟩
      match cls with
      | 0 =>
        let m : Ch := ⟨4 * k.val + where_ / 2 ^ 16 / 512 % 4, by omega⟩
        poolError m (where_ / 2 ^ 16 % 512) (where_ % 2 ^ 16) s
      | 1 => markWord k (where_ == 1) addr.toNat s
      | 2 => if where_ < 2 ^ 16 then engineFails (engineAt k where_) s else bankError n (where_ / 2 ^ 13 % 2) (where_ % 2 ^ 13) s
      | 3 => snapshotError (where_ / 2 ^ 16) (where_ % 2 ^ 16) s
      | 4 => s
    | none =>
      let s := wr (bump oCtrlEccUncorr [] s) oCtrlEccLast last []
      match cls with
      | 0 => ctrlPoolError (where_ / 2 ^ 16 - 12288) (where_ % 2 ^ 16) s
      | 3 => snapshotError (where_ / 2 ^ 16) (where_ % 2 ^ 16) s
      | 4 => controlFails 5 (if where_ = 0 then s else retainedError where_ s)
      | 1 | 2 => s)

end Sys2Proof.Machine
end

