-- ==== Sys2Proof/Machine/Restart.lean ====
section
/-! DEFINITION. The Control image: power-up, restarts, retained state (13, R396 to R399; 11, R328). -/

namespace Sys2Proof.Machine

/-- The Control image rewritten. -/
def updControl (f : Control → Control) (s : Dev) : Dev := { s with control := f s.control }

/-- Code of a cause (Table 13.12). -/
def causeCode : RestartCause → Nat
  | .activation => 2 | .fallback => 3 | .core => 4 | .ecc => 5 | .host => 6 | .retry => 7

/-! ### What a restart loses -/

/-- A transaction that was OPEN or PREPARING is lost: its grants drop, a record it has appended is followed by its ABORT (R286, R319). -/
def txnLost (p : Port) (i : Nat) (s : Dev) : Dev :=
  match (portTxn s p i).st with
  | .opened => updTxn p.idx i (fun _ => txnFree) s
  | .preparing =>
    let s := abortRecord p i 0 s
    let runs := recordRuns s p i
    updTxn p.idx i (fun _ => txnFree) (txnRelease p i (fun u => u == 0xA0 && runs) s)
  | .free | .committed | .applied | .aborted | .split => s

/-- A requester is an engine of the Control die (Table 10.2): a restart loses it with what it holds and waits for (R300). -/
def onControlDie (id : Nat) : Bool :=
  let c := clsOf id
  c == 8 || c == 9 || c == 10 || (c == 11 && instOf id == 6) || (c == 14 && 64 ≤ instOf id)

/-- Every requester that holds or waits for a unit. -/
def requesters (s : Dev) : List Nat := (s.arb.units.flatMap fun x => x.grants.map Grant.id ++ x.waiters.map Request.id).eraseDups

/-- Host holds stay (R305); grants and requests of the Control die's own engines do not. -/
def controlGrantsLost (s : Dev) : Dev := ((requesters s).filter onControlDie).foldl (fun s id => dropRequester id s) s

/-- What a port loses (R398): its slots, the frame in service, its response, transfers in progress. -/
def portLost (p : Port) (s : Dev) : Dev :=
  let s := (List.range 16).foldl (fun s i => txnLost p (i + 1) s) s
  updPort p (fun x => { x with
    current := 0, busy := none, response := none, transfer := none, copy := none, attest := none }) s

/-- An emergency waits in the mailbox queue. -/
def isEmergency : Mail → Bool
  | .emergency _ => true
  | .sdo _ | .abort _ _ _ | .info _ _ | .foeAck | .foeError _ | .mailboxError => false

/-- Links that carried traffic are lost, announced (R37, R397), each with its event (Table 11.9): the dies extend their records and their Sequencers
keep playing. -/
def announceLoss (s : Dev) : Dev :=
  (List.finRange 6).foldl (fun s (k : Die) =>
    match s.dies[k].link.st with
    | .active | .retraining =>
      beginExtend k (updLink k (fun l => { l with fails := 0, retrying := false, held := [], announced := true }) (linkEnter k .lost s))
    | .reset | .training | .lost => s) s

/-- The slot that a restart boots (R367, R399). -/
def restartSlot (cause : Nat) (s : Dev) : Nat :=
  if cause = 2 then rd s oFwCtrlSelect [] else if cause = 3 then s.fw.confirmed else s.fw.running

/-- A restart begins (R397). -/
def restartBegin (cause : Nat) (s : Dev) : Dev :=
  let s := cmpEnd true 0 (announceLoss s)
  let s := [Port.n, .s, .c, .x, .d].foldl (fun s p => portLost p s) s
  let s := controlGrantsLost (uploadsLost s)
  let s := { s with
    ctrlQueues := s.ctrlQueues.filterMap fun e =>
      let q : Queue := { e.2 with recs := [] }
      if q = emptyQueue then none else some (e.1, q)
    portN := { s.portN with sdo := none, foe := none, foeWait := false, mails := s.portN.mails.filter isEmergency } }
  let s := wr (bump oRestarts [] s) oRestartPos (ctlPos s) []
  let s := updFw (fun w => { w with running := restartSlot cause s }) s
  updControl (fun x => { x with running := false, restart := some ⟨cause, s.now⟩ }) s

/-- The first restart that waits with a cause, and the others. -/
def takeDue (cause : Nat) : List (Nat × Nat) → Option (Nat × List (Nat × Nat))
  | [] => none
  | e :: t => if e.1 = cause then some (e.2, t) else (takeDue cause t).map fun r => (r.1, e :: r.2)

/-- CONTROL_DIE_RESTART (R396, R397): a restart that is due begins; not inside a supply episode, nor while one is in progress,
nor in a Control die that stays in its boot stage (R399). -/
def execControlDieRestart (cause : RestartCause) (s : State) : Host.Outcome State Fault Refusal := onDev s fun s =>
  .next (
    match takeDue (causeCode cause) s.control.due with
    | none => s
    | some (t, rest) =>
      if s.supply.warning || s.control.stuck || s.control.restart.isSome then s
      else restartBegin (causeCode cause) (updControl (fun x => { x with due := rest }) (advance t s)))

/-- RESTART_TIMEOUT (R399): 1.5 s after it began. -/
def execRestartTimeout (s : State) : Host.Outcome State Fault Refusal := onDev s fun s =>
  .next (
    match s.control.restart with
    | some r => restartFails (advance (r.since + 1500 * msTicks) s)
    | none => s)

/-! ### RUNNING -/

/-- The cause with which the verification of R364 fails the image that a power-up boots, 0 if it passes: its key, and its ROLLBACK against the
floor (log 89). -/
def bootCause (nv : Nv) (s : Dev) : Nat :=
  let x := s.fw.slots[ctrlSlot s.fw.running]
  if !keyUsable nv x.key then 3 else if x.rollback < s.fw.floor then 5 else 0

/-- The image a power-up boots is verified (R364), with a FIRMWARE record (R369). -/
def bootVerified (c : Nat) (s : Dev) : Dev :=
  let i := ctrlSlot s.fw.running
  firmRecord i (if c = 0 then 1 else 2) c (if c = 0 then s else updImage i (fun x => { x with st := .invalid, cause := c }) s)

/-- The first image of a power-up runs: STATE leaves STARTING (Table 13.2). -/
def bootDone (s : Dev) : Dev :=
  updPower (fun x => { x with st := if x.st = .starting then .running else x.st }) (updControl (fun x => { x with booted := true }) s)

/-- What a Control image does first: it asks for what waits (R270, R366, R389). -/
def imageAsks (s : Dev) : Dev := uploadAsk (slateAsk (ovenHeld s))

/-- The image reaches RUNNING in the power-up sequence (Table 13.2). -/
def firstRun (s : Dev) : Dev :=
  imageAsks (startRecord 1 (wr (bootDone (updControl (fun x => { x with running := true }) s)) oRestartCause 1 []))

/-- The dies of an announced restart are reached again, with what they held (R37, R344, R391). -/
def linksReturn (s : Dev) : Dev :=
  (List.finRange 6).foldl (fun s (k : Die) =>
    if s.dies[k].link.announced then
      linkCatchUp k (updLink k (fun l => { l with announced := false, activeAt := s.now }) (linkEnter k .active s))
    else s) s

/-- The new image of an activation runs on trial, unless its slot is the confirmed one (R367); a FIRMWARE record follows (R369). -/
def activated (s : Dev) : Dev :=
  let s := updFw (fun w => { w with trial := if w.running = w.confirmed then none else some s.now }) s
  firmRecord (ctrlSlot s.fw.running) 3 0 s

/-- A restart reaches RUNNING (Table 13.13): START record, event 0x03, FAULT_LATCH [2]; restarts that wait begin 10 ms later (R396). -/
def restarted (r : Restart) (s : Dev) : Dev :=
  let s := updFw (fun w => { w with image := w.slots[ctrlSlot w.running] }) s
  let s := linksReturn (bootDone <| updControl (fun x => { x with
    running := true, restarted := true, restart := none, due := x.due.map fun e => (e.1, max e.2 (s.now + 10 * msTicks)) }) s)
  let s := startRecord r.cause (wr s oRestartCause r.cause [])
  let s := faultLatch 2 (logEvent 0x03 r.cause 0 s)
  imageAsks (if r.cause = 2 then activated s else s)

/-- A VALID image boots: in a restart, or in the power-up sequence unless a restart is to begin (R394, R396). A Control die in its boot stage boots
none (R399). -/
def imageBoots (s : Dev) : Bool :=
  let c := s.control
  !c.stuck && (c.restart.isSome || !c.booted && c.due.isEmpty) && s.fw.slots[ctrlSlot s.fw.running].st == .valid

/-- CONTROL_IMAGE_RUNNING (R364, R375, R397): the first image since the power-up is verified as it boots, and does not boot where it fails. -/
def execControlImageRunning (s : State) : Host.Outcome State Fault Refusal := onDevNv s fun nv s =>
  .next (
    if imageBoots s then
      let runs (s : Dev) : Dev :=
        match s.control.restart with
        | some r => restarted r s
        | none => firstRun s
      if s.control.booted then runs s
      else if bootCause nv s = 0 then runs (bootVerified 0 s)
      else bootVerified (bootCause nv s) s
    else s)

end Sys2Proof.Machine
end

