-- ==== Sys2Proof/Machine/PortN.lean ====
section
/-! DEFINITION. Port N (11, R325 to R346): AL states, the mailbox with SDO and FoE, process data, the watchdog, emergencies. -/

namespace Sys2Proof.Machine

/-! ### The mailbox -/

/-- MAILBOX_SM1_READ (R345): SM1 is free for the next message. -/
def execMailboxSm1Read (s : State) : Host.Outcome State Fault Refusal := onDev s fun s =>
  .next (updPortN (fun x => { x with sm1 := x.mails.head?, mails := x.mails.tail }) s)

/-- A request that the mailbox serves; in INIT and while the Control die does not run it is not answered (R327, R328). -/
def mailServed (f : Nv → Dev → Host.Outcome Dev Fault Refusal) (s : State) : Host.Outcome State Fault Refusal :=
  onDevNv s fun nv s => if serves s .n then f nv s else .next (setAnswer .n .unanswered s)

/-- An SDO abort, with the object of the refused request (R343): the transfer ends. -/
def sdoAborts (index sub code : Nat) (s : Dev) : Dev := mailPut (.abort index sub code) (updPortN (fun x => { x with sdo := none }) (setAnswer .n (.refused code) s))

/-- An SDO response with data. -/
def sdoAnswers (l : List Byte) (s : Dev) : Dev := mailPut (.sdo l) (setAnswer .n (.done l) s)

/-! ### Complete access (R334) -/

/-- The subindices of an object from 1 up with their rows, ascending. -/
def subsOf (index : Nat) : List (Nat × Row) :=
  let l := rowsAt index
  (List.range 256).filterMap fun i => if i = 0 then none else (l.find? fun r => rowHasSub r i).map fun r => (i, r)

/-- The object allows no complete access at all: a DOMAIN. -/
def hasDomain (index : Nat) : Bool := (rowsAt index).any fun r => r.size == 0

/-- The object allows no complete-access write: it has an OCTET_STRING or a DOMAIN. -/
def noWholeWrite (index : Nat) : Bool := hasDomain index || (rowsAt index).any fun r => r.code == 0x0A

/-- A value at its type size: a shorter string is filled with 0. -/
def atSize (r : Row) (l : List Byte) : List Byte := (l ++ List.replicate r.size 0).take r.size

/-- The subindex-0 byte (R329, R334). -/
def countByte (nv : Nv) (s : Dev) (p : Port) (index : Nat) : List Byte :=
  match (rowsAt index).find? fun r => rowHasSub r 0 with
  | some r => (view nv s p r index 0).take 1
  | none => leBytes 1 (highestSub (rowsAt index))

/-- A complete-access read: its data, or the code of its refusal. -/
def readWhole (nv : Nv) (p : Port) (index sub : Nat) (s : Dev) : Answer × Dev :=
  match rowsAt index with
  | [] => (.refused 0x06020000, s)
  | l =>
    if 1 < sub || hasDomain index then (.refused 0x06010000, s)
    else if l.any fun r => rightOf r p == .none then (.refused 0x0F100001, s)
    else if !dieReachable s (objDie index) then (.refused 0x0F100002, s)
    else (.done ((if sub = 0 then countByte nv s p index else []) ++ (subsOf index).flatMap fun e => atSize e.2 (view nv s p e.2 index e.1)), s)

/-- The subindices that data of a complete-access write covers, with their bytes; none where it does not end between two of them. -/
def coverOf : List (Nat × Row) → List Byte → Option (List (Nat × Row × List Byte))
  | _, [] => some []
  | [], _ => none
  | (i, r) :: t, l => if l.length < r.size then none else (coverOf t (l.drop r.size)).map fun m => (i, r, l.take r.size) :: m

/-- The rows of the subindices that so many bytes of a complete-access write reach. -/
def touched : List (Nat × Row) → Nat → List Row
  | [], _ => []
  | (_, r) :: t, n => if n = 0 then [] else r :: touched t (n - r.size)

/-- Writes of a complete access in turn: the first that fails refuses the whole. The subindex it fails at, if any. -/
def writeEach (nv : Nv) (p : Port) (index : Nat) : List (Nat × Row × List Byte) → Dev → (Verdict × Option Nat) × Dev
  | [], s => ((.ok, none), s)
  | (i, _, d) :: t, s =>
    match writeOpen nv p index i d s with
    | (.ok, s) => writeEach nv p index t s
    | (v, s) => ((v, some i), s)

/-- What a refused complete-access write leaves: nothing applied; a staged one is noted with its object (R318, R343). -/
def wholeRefused (p : Port) (staged : Bool) (index : Nat) (i : Option Nat) (v : Verdict) (s : Dev) : Dev :=
  match staged, v, i with
  | true, .abort c, some i => noteStage p c index i s
  | _, _, _ => s

/-- A complete-access write (R334). -/
def writeWhole (nv : Nv) (p : Port) (index sub : Nat) (data : List Byte) (s : Dev) : Verdict × Dev :=
  match rowsAt index with
  | [] => (.abort 0x06020000, s)
  | r :: l =>
    let badStart := 1 < sub || (sub = 0 && data.take 1 != countByte nv s p index)
    let body := if sub = 0 then data.drop 1 else data
    let c := coverOf (subsOf index) body
    let t := touched (subsOf index) body.length
    let acc := ((t.map Row.acc).headD r.acc)
    if badStart || noWholeWrite index || (r :: l).any (fun x => x.sub ≠ 0 && x.acc != acc) || t.any (fun x => mayWrite x p != .ok) then
      (.abort 0x06010000, s)
    else match c with
      | none => (.abort 0x06070010, s)
      | some c => match writeEach nv p index c s with
        | ((.ok, _), t) => (.ok, t)
        | ((v, i), _) => (v, wholeRefused p (acc == .rk) index i v s)

/-! ### SDO transfers -/

/-- Data bytes of an initiate, and of a segment (R326). -/
def initiateMax : Nat := 1008
/-- Data bytes of a segment. -/
def segmentMax : Nat := 1015

/-- A write by SDO, of a whole object under complete access. -/
def sdoWrite (nv : Nv) (index sub : Nat) (complete : Bool) (data : List Byte) (s : Dev) : Verdict × Dev :=
  if complete then writeWhole nv .n index sub data s else writeObj nv .n index sub data s

/-- A read by SDO. -/
def sdoRead (nv : Nv) (index sub : Nat) (complete : Bool) (s : Dev) : Answer × Dev :=
  if complete then readWhole nv .n index sub s else readObj nv .n index sub s

/-- A write that a link held is applied or refused. -/
def sdoApplies (nv : Nv) (index sub : Nat) (complete : Bool) (data : List Byte) (s : Dev) : Dev :=
  match sdoWrite nv index sub complete data s with
  | (.ok, s) => sdoAnswers [] s
  | (.abort c, s) => sdoAborts index sub c s
  | (.reserved, _) => setAnswer .n .unanswered s

/-- Where a write by SDO waits for a retraining link (Table 1.6). -/
def sdoWaits (s : Dev) (index sub : Nat) (complete : Bool) : Option Die := writeWaits s .n index (if complete && sub = 0 then 1 else sub)

/-- A write that has arrived whole is applied or refused; one over a retraining link is held, and answered when it is applied. -/
def sdoWrites (nv : Nv) (index sub : Nat) (complete : Bool) (data : List Byte) (s : Dev) : Host.Outcome Dev Fault Refusal :=
  let s := updPortN (fun x => { x with sdo := none }) s
  match sdoWrite nv index sub complete data s, sdoWaits s index sub complete with
  | (.ok, _), some k => .next (holdRequest k .n (.write true complete index sub data) s)
  | (.ok, s), none => .next (sdoAnswers [] s)
  | (.abort c, s), _ => .next (sdoAborts index sub c s)
  | (.reserved, _), _ => .refused .reservedBit

/-- Bytes of an upload by SDO beyond the 64 KiB that a supply warning lets in: the response waits (Table 12.12). -/
def sdoFull (s : Dev) (index sub : Nat) (l : List Byte) : Bool :=
  s.supply.warning && decide (65536 < l.length) && (match nameOf .n index sub with
    | .row r => rowIs r oFwUpload
    | .missing _ | .count _ => false)

/-- A segment of a download has arrived: the last one applies the whole. -/
def sdoArrived (nv : Nv) (x : Sdo) (last : Bool) (s : Dev) : Host.Outcome Dev Fault Refusal :=
  if sdoFull s x.index x.sub x.data then .next (updPortN (fun y => { y with sdo := some { x with waits := some last, at_ := s.now } }) s)
  else if last then
    (if x.data.length = x.total then sdoWrites nv x.index x.sub x.complete x.data s else .next (sdoAborts x.index x.sub 0x06070010 s))
  else .next (sdoAnswers [] (updPortN (fun y => { y with sdo := some { x with waits := none, at_ := s.now } }) s))

/-- SDO_DOWNLOAD (R326): an initiate with all its bytes is applied; one with more to come begins a segmented transfer, in place of one in
progress. -/
def execSdoDownload (index : BitVec 16) (sub : Byte) (complete : Bool) (total : Nat) (data : List Byte) (s : State) :
    Host.Outcome State Fault Refusal := mailServed (fun nv s =>
    if data.length < total then
      .next (sdoAnswers [] (updPortN (fun x => { x with sdo := some ⟨index.toNat, sub.toNat, complete, false, data, total, false, s.now, none⟩ }) s))
    else if total < data.length then .next (sdoAborts index.toNat sub.toNat 0x06070010 s)
    else sdoWrites nv index.toNat sub.toNat complete data s) s

/-- A read by SDO is served: the value at the initiate; what does not fit follows in segments (R326, R335). -/
def sdoReads (nv : Nv) (i sub : Nat) (complete : Bool) (s : Dev) : Dev :=
  let r := sdoRead nv i sub complete s
  let s := updPortN (fun x => { x with sdo := none }) r.2
  match r.1 with
  | .done l =>
    let s := if initiateMax < l.length then
      updPortN (fun x => { x with sdo := some ⟨i, sub, complete, true, l.drop initiateMax, l.length, false, s.now, none⟩ }) s else s
    sdoAnswers (l.take initiateMax) s
  | .refused c => sdoAborts i sub c s
  | .none | .unanswered => s

/-- SDO_UPLOAD (R326, R335): a read of an object of a die whose link retrains is held (Table 1.6). -/
def execSdoUpload (index : BitVec 16) (sub : Byte) (complete : Bool) (s : State) : Host.Outcome State Fault Refusal := mailServed (fun nv s =>
    let i := index.toNat
    .next (match heldAt s .n i, (sdoRead nv i sub.toNat complete s).1 with
      | some k, .done _ => holdRequest k .n (.read true complete i sub.toNat) (updPortN (fun x => { x with sdo := none }) s)
      | _, _ => sdoReads nv i sub.toNat complete s)) s

/-- SDO_SEGMENT (R326, R335). -/
def execSdoSegment (toggle last : Bool) (data : List Byte) (s : State) : Host.Outcome State Fault Refusal := mailServed (fun nv s =>
    match s.portN.sdo with
    | none => .next (sdoAborts 0 0 0x05040001 s)
    | some x =>
      if toggle != x.toggle then .next (sdoAborts x.index x.sub 0x05030000 s)
      else if x.upload then
        let rest := x.data.drop segmentMax
        let next := if rest = [] then none else some { x with data := rest, toggle := !toggle, at_ := s.now }
        .next (sdoAnswers (x.data.take segmentMax) (updPortN (fun y => { y with sdo := next }) s))
      else
        sdoArrived nv { x with data := x.data ++ data, toggle := !toggle } last s) s

/-- SDO_SEGMENT_TIMEOUT (R325): 1 s without a segment; none is due while a response waits (Table 12.12). -/
def execSdoSegmentTimeout (s : State) : Host.Outcome State Fault Refusal := onDev s fun s =>
  .next (
    match s.portN.sdo with
    | some x => if x.waits.isSome then s else sdoAborts x.index x.sub 0x05040000 (advance (x.at_ + secTicks) s)
    | none => s)

/-- SDO_ABORT_BY_MASTER (R335): nothing of the transfer applies. -/
def execSdoAbortByMaster (s : State) : Host.Outcome State Fault Refusal := onDev s fun s =>
  .next (updPortN (fun x => { x with sdo := none }) s)

/-! ### SDO Information (R325, R331) -/

/-- The indices a list of rows names. -/
def indicesOf (l : List Row) : List Nat := (l.flatMap fun r => (dimsAll r.dims).map fun o => r.ix + o).eraseDups

/-- The objects whose N column is not "-". -/
def odList : List Nat := indicesOf (rowsEvery.filter fun r => rightOf r .n != .none)

/-- The access of an entry as Port N sees it: [2:0] readable and [5:3] writable in PREOP, SAFEOP and OP (R331). -/
def entryAccess (r : Row) : Nat :=
  match rightOf r .n with
  | .none => 0
  | .read => 7
  | .full => match r.acc with
    | .ro => 7
    | .wo => 56
    | .rw | .rk | .w1c => 63

/-- A description as the device answers it: for an object its highest subindex and the type of its last row, for an entry type, bit length,
access. -/
def infoBytes (q : SdoInfo) : Answer :=
  match q with
  | .odList => .done (odList.flatMap (leBytes 2))
  | .object i =>
    match (rowsAt i.toNat).filter fun r => rightOf r .n != .none with
    | [] => .refused 0x06020000
    | r :: l => .done (leBytes 2 i.toNat ++ leBytes 2 ((r :: l).getLastD r).code ++ leBytes 1 (highestSub (rowsAt i.toNat)))
  | .entry i sub =>
    match nameOf .n i.toNat sub.toNat with
    | .missing c => .refused c
    | .count _ => .done (leBytes 2 i.toNat ++ leBytes 1 sub.toNat ++ leBytes 2 0x0005 ++ leBytes 2 8 ++ leBytes 2 7)
    | .row r => .done (leBytes 2 i.toNat ++ leBytes 1 sub.toNat ++ leBytes 2 r.code ++ leBytes 2 (8 * r.size) ++ leBytes 2 (entryAccess r))

/-- The data bytes of one fragment of an SDO Information response: a mailbox of 1024 bytes less its headers (log 163). -/
def infoMax : Nat := 1012

/-- An SDO Information response in fragments, each with the number of those that follow; the last holds what is left. -/
def infoMails : Nat → List Byte → List Mail
  | 0, l => [.info 0 l]
  | k + 1, l => .info (k + 1) (l.take infoMax) :: infoMails k (l.drop infoMax)

/-- The object that a request for a description names; the list of objects names none. -/
def infoObject (q : SdoInfo) : Nat × Nat :=
  match q with
  | .odList => (0, 0)
  | .object i => (i.toNat, 0)
  | .entry i sub => (i.toNat, sub.toNat)

/-- SDO_INFORMATION (R325): a response that exceeds the mailbox comes in fragments. -/
def execSdoInformation (q : SdoInfo) (s : State) : Host.Outcome State Fault Refusal := mailServed (fun _ s =>
    .next (match infoBytes q with
      | .done l => (infoMails ((l.length - 1) / infoMax) l).foldl (fun s m => mailPut m s) (setAnswer .n (.done l) s)
      | .refused c => mailPut (.abort (infoObject q).1 (infoObject q).2 c) (setAnswer .n (.refused c) s)
      | .none | .unanswered => s)) s

/-! ### FoE and other types (R325, R366) -/

/-- The target of an FoE file name: "CTRL" 1, "MC" 2. -/
def foeTarget (mc : Bool) : Nat := if mc then 2 else 1

/-- Data of an FoE write enters the slot; the last bytes end it. Its acknowledgement waits while the buffer is full (Table 12.12). -/
def foeData (last : Bool) (data : List Byte) (s : Dev) : Dev :=
  let s := uploadBytes .n data s
  let s := if uploadFull .n s then updPortN (fun x => { x with foeWait := true }) s else mailPut .foeAck s
  if last then uploadEnd .n (updPortN (fun x => { x with foe := none }) s) else s

/-- FOE_WRITE (R366): the first data names the file; a name other than that of the write in progress abandons it. -/
def execFoeWrite (target : Option Bool) (last : Bool) (data : List Byte) (s : State) : Host.Outcome State Fault Refusal := mailServed (fun _ s =>
    .next (match target with
      | none => mailPut (.foeError 0x8001) s
      | some mc =>
        let t := foeTarget mc
        if s.portN.foe = some t then foeData last data s
        else
          let s := updPortN (fun x => { x with foe := none, foeWait := false }) (if s.portN.foe.isSome then uploadAbandon .n s else s)
          if uploadBusy s t then mailPut (.foeError 0x8002) s
          else foeData last data (updPortN (fun x => { x with foe := some t }) (uploadStart .n t s)))) s

/-- FOE_READ (R366). -/
def execFoeRead (s : State) : Host.Outcome State Fault Refusal := mailServed (fun _ s => .next (mailPut (.foeError 0x8004) s)) s

/-- UNSUPPORTED_MAILBOX (R325): answered with a mailbox error whatever the type. -/
def execUnsupportedMailbox (_t : MailboxType) (s : State) : Host.Outcome State Fault Refusal :=
  mailServed (fun _ s => .next (mailPut .mailboxError s)) s

/-! ### AL states -/

/-- A state entered with an AL status code: event 0x07 (Table 11.9); INIT ends the mailbox and what it transfers, OP takes the next image of
every channel as its first (R327, R339). Images not yet acted on are acted on after a watchdog expiry (Table 11.15), not after another way out of
OP (log 141). An image latched after the expiry takes no part in that. -/
def alEnter (st : AlState) (code : Nat) (s : Dev) : Dev :=
  let old := s.portN.al
  let s := if st = .init then
      updPortN (fun x => { x with sdo := none, foe := none, foeWait := false, sm1 := none, mails := [], raised := [] })
        (if s.portN.foe.isSome then uploadAbandon .n s else s)
    else s
  let s := updPortN (fun x => { x with
    al := st, alCode := code, alError := code ≠ 0
    seqs := if st = .op && old ≠ .op then [] else x.seqs
    fresh := if st = .op && old = .op then x.fresh else []
    owed := if code = 0x001B then x.owed ++ x.fresh.map fun n => (n, rxImage s n) else x.owed
    watchdog := if st = .op then false else x.watchdog }) s
  if old = st then s else logEvent 0x07 (alCode st) code s

/-- A request refused: the state stays. -/
def alRefuse (code : Nat) (s : Dev) : Dev := updPortN (fun x => { x with alCode := code, alError := true }) s

/-- The assigned mappings of a direction obey R337. -/
def mappingsOk (s : Dev) (out : Bool) : Bool :=
  (assigned s out).all (fun m => (List.range (mapSubs m)).all fun j => let e := getKey s (objKey m (j + 1) 0); entryOk s m (j + 1) e) &&
    mappedBytes s out ≤ (if out then 2048 else 6144)

/-- A cycle time of Table 11.6. -/
def cycleOk (v : Nat) : Bool := 125000 ≤ v && v ≤ 100000000

/-- The AL status code that refuses PREOP to SAFEOP (R327), 0 if none does. -/
def safeopCode (s : Dev) : Nat :=
  let sync := rd s oOutSyncType []
  let c := rd s oOutCycle []
  if !mappingsOk s true then 0x001D
  else if !mappingsOk s false then 0x001E
  else if 2 < sync || (sync = 2 && c ≤ rd s oInShift [] + 30000) then 0x0030
  else if (sync = 0 && !cycleOk (rd s oInCycle [])) || (sync = 2 && (!cycleOk c || c % 1000 ≠ 0)) then 0x0035
  else 0

/-- AL_STATE_REQUEST (R325, R327): one step up, or any state down. -/
def alRequest (r : AlReq) (s : Dev) : Dev :=
  match r, s.portN.al with
  | .boot, _ => alRefuse 0x0013 s
  | .init, _ => alEnter .init 0 s
  | .preop, _ => alEnter .preop 0 s
  | .safeop, .init | .op, .init | .op, .preop => alRefuse 0x0011 s
  | .safeop, .preop => if safeopCode s = 0 then alEnter .safeop 0 s else alRefuse (safeopCode s) s
  | .safeop, .safeop | .safeop, .op => alEnter .safeop 0 s
  | .op, .safeop | .op, .op => alEnter .op 0 s

/-- AL_STATE_REQUEST: the state stays as it is while the Control die does not run (R328). -/
def execAlStateRequest (r : AlReq) (s : State) : Host.Outcome State Fault Refusal := onDev s fun s =>
  .next (if s.control.running then alRequest r s else s)

/-- ETHERCAT_LINK_LOSS (R327): only the link bit of PORTN_STATUS changes. -/
def execEthercatLinkLoss (port : Fin 2) (s : State) : Host.Outcome State Fault Refusal := onDev s fun s =>
  .next (updPortN (fun x => if port = 0 then { x with link0 := false } else { x with link1 := false }) s)

/-- MII_PORT_LINK_UP (R346). -/
def execMiiPortLinkUp (port : Fin 2) (s : State) : Host.Outcome State Fault Refusal := onDev s fun s =>
  .next (updPortN (fun x => if port = 0 then { x with link0 := true } else { x with link1 := true }) s)

/-- A word of the emulated SII (R325): the provisioned content, but for the configured station alias at word 4 (log 75). -/
def siiWord (s : Dev) (w : Nat) : Nat := if w = 4 then s.portN.alias_ else (Config.siiContent w).toNat

/-- SII_STATION_ALIAS_WRITE (R325): only the configured station alias, word 4, takes a value. -/
def execSiiStationAliasWrite (word : Nat) (v : BitVec 16) (s : State) : Host.Outcome State Fault Refusal := onDev s fun s =>
  .next (if word = 4 then updPortN (fun x => { x with alias_ := v.toNat }) s else s)

/-- SM2_WATCHDOG_EXPIRY (R342): an image latched before it is still acted on (Table 11.15). -/
def execSm2WatchdogExpiry (s : State) : Host.Outcome State Fault Refusal := onDev s fun s =>
  .next (
    if s.portN.al = .op && s.control.running then
      let s := faultLatch 3 (logEvent 0x06 0 0 (bump oWatchdogExpiries [] s))
      updPortN (fun x => { x with watchdog := true }) (alEnter .safeop 0x001B s)
    else s)

/-! ### Outputs -/

/-- Subindex `j` of a channel's RxPDO is process data (R336, R337): its mapping object is assigned to SM2 and maps it. -/
def rxMapped (s : Dev) (n : Ch) (j : Nat) : Bool :=
  (assigned s true).contains (0x1600 + n.val) && (mapEntries s (0x1600 + n.val)).any fun e => e / 2 ^ 8 == (0x7000 + 0x10 * n.val) * 2 ^ 8 + j

/-- An image as it is latched: a subindex that is not mapped keeps its value (log 148). -/
def rxMerge (mapped : Nat → Bool) (old x : RxImage) : RxImage :=
  { ctrl := if mapped 1 then x.ctrl else old.ctrl
    srcCode := if mapped 2 then x.srcCode else old.srcCode
    loopSp := if mapped 3 then x.loopSp else old.loopSp
    cutArg := if mapped 4 then x.cutArg else old.cutArg
    qCount := if mapped 5 then x.qCount else old.qCount
    qCodes := if (List.range 8).all fun k => mapped (6 + k) then x.qCodes
      else (List.range 8).map fun k => if mapped (6 + k) then x.qCodes.getD k 0 else old.qCodes.getD k 0 }

/-- The images latched: each replaces that of its channel; in OP it waits to be acted on (R328, R338). Channels that SM2 does not carry take none
(R336). -/
def latchImages (l : List (Ch × RxImage)) (s : Dev) : Dev :=
  let l := (l.filter fun e => (assigned s true).contains (0x1600 + e.1.val)).map fun e => (e.1, rxMerge (rxMapped s e.1) (rxImage s e.1) e.2)
  updPortN (fun x => { x with
    rx := l ++ x.rx.filter fun e => !l.any fun f => f.1 == e.1
    fresh := if x.al = .op then (x.fresh ++ l.map Prod.fst).eraseDups else x.fresh }) s

/-- RXPDO_LATCH (R340): a SYNC0 with no new buffer is counted and acts on nothing. -/
def execRxpdoLatch (images : List (Ch × RxImage)) (newBuffer : Bool) (s : State) : Host.Outcome State Fault Refusal := onDev s fun s =>
  .next (
    if s.portN.al = .safeop || s.portN.al = .op then
      (if newBuffer then latchImages images s else if rd s oOutSyncType [] = 2 then bump oSmEventMissed [] s else s)
    else s)

/-- The queue codes of an image (R339): a Q_COUNT above 8 is taken as 0 and counted. -/
def rxCodes (n : Ch) (x : RxImage) (s : Dev) : Dev :=
  let c := x.qCount.toNat
  if 8 < c then bump oRxRejects [] s
  else if rd s oSrcQOwner [n] ≠ 0 then bumpBy oRxRejects c [] s
  else srcQueueAppend n none ((x.qCodes.take c).map BitVec.toInt) s

/-- The Cut of an image (R228, R339). -/
def rxCut (n : Ch) (x : RxImage) (s : Dev) : Dev :=
  match cutReq n x.cutArg.toNat s with
  | (.ok, s) => s
  | (_, s) => bump oCutsDropped [n] s

/-- An image acted on (R339): code, setpoint, queue codes, Cut. -/
def rxActs (n : Ch) (x : RxImage) (s : Dev) : Dev :=
  let c := x.ctrl.toNat
  let s := if bitOf c 0 then wr s oSrcCode x.srcCode.toNat [n] else s
  let s := if bitOf c 1 then loopSpWrite n x.loopSp.toNat s else s
  let s := rxCodes n x s
  if bitOf c 2 then rxCut n x s else s

/-- The image of a channel to act on (R339, Table 11.15): one latched before a watchdog expiry, else in OP the one latched last. -/
def rxWaiting (s : Dev) (n : Ch) : Option RxImage :=
  match s.portN.owed.find? fun e => e.1 == n with
  | some e => some e.2
  | none => if s.portN.al = .op && s.portN.fresh.contains n then some (rxImage s n) else none

/-- The image of a channel is taken. -/
def rxTaken (n : Ch) (s : Dev) : Dev :=
  if s.portN.owed.any fun e => e.1 == n then updPortN (fun p => { p with owed := p.owed.eraseP fun e => e.1 == n }) s
  else updPortN (fun p => { p with fresh := p.fresh.filter fun m => m != n }) s

/-- RXPDO_ACT (R339): over a retraining link what the image asks for is held (Table 1.6). -/
def execRxpdoAct (n : Ch) (s : State) : Host.Outcome State Fault Refusal := onDev s fun s =>
  .next (
    match if s.control.running then rxWaiting s n else none with
    | none => s
    | some x =>
      let seq : BitVec 4 := BitVec.ofNat 4 (x.ctrl.toNat / 16)
      let s := rxTaken n s
      if s.portN.seqs.any fun e => e.1 == n && e.2 == seq then bump oRxRepeats [] s
      else if !dieReachable s (n.die.val + 1) then bump oRxRejects [] s
      else
        let s := updPortN (fun p => { p with seqs := (n, seq) :: p.seqs.filter fun e => e.1 != n }) s
        if s.dies[n.die].link.st = .retraining then linkHolds n.die (.rx n x) s else rxActs n x s)

/-! ### Inputs -/

/-- The latest take of an array as an input load finds it: from the die over an ACTIVE link, else the one that arrived last. -/
def latestTake (s : Dev) (n : Ch) (a : ArrId) : Nat × Nat :=
  let copy := match s.portN.takes.find? fun e => e.1 == 2 * n.val + a.idx with
    | some e => e.2
    | none => (0, 0)
  if s.dies[n.die].link.st = .active then
    (match a with
    | .vm => (rd s oVmLatest [n], rd s oVmLatestPos [n])
    | .im => (rd s oImLatest [n], rd s oImLatestPos [n]))
  else copy

/-- The oldest record of a device queue, removed (R169); of a channel's queue over an ACTIVE link. -/
def headTake (n : Ch) (q : Nat) (s : Dev) : Option (List Word64) × Dev :=
  if q < 12288 then
    match s.dies[n.die].link.st == .active, (qFind (s.ch n).queues (q % 512)).recs with
    | true, r :: t => (some r, closeRun n (updCh n (fun c => { c with queues := qPut c.queues (q % 512) { qFind c.queues (q % 512) with recs := t } }) s))
    | _, _ => (none, s)
  else
    match (qFind s.ctrlQueues (q - 12288)).recs with
    | r :: t => (some r, { s with ctrlQueues := qPut s.ctrlQueues (q - 12288) { qFind s.ctrlQueues (q - 12288) with recs := t } })
    | [] => (none, s)

/-- Words placed from a slot on. -/
def placeWords (slots : List Word64) (k : Nat) (r : List Word64) : List Word64 := (slots.take k ++ r ++ slots.drop (k + r.length)).take 8

/-- The head slots of a channel at a load (R169), one mapping after the other; HEAD_VALID holds the slots that received a word at this exchange
(Table 5.14). -/
def headLoad (n : Ch) (s : Dev) : Dev :=
  let start := headImage s n
  let words := (start.1 ++ List.replicate 8 0).take 8
  let r := (List.range 8).foldl (fun (x : (List Word64 × Nat) × Dev) k =>
    let q := rdJ x.2 oHeadMap [n] k
    if q = 0xFFFF then x
    else
      match headTake n q x.2 with
      | (some r, s) => ((placeWords x.1.1 k r, (List.range r.length).foldl (fun v i => setBit v (k + i)) x.1.2), s)
      | (none, s) => (x.1, s)) ((words, 0), s)
  updPortN (fun p => { p with heads := (n.val, r.1) :: p.heads.filter fun e => e.1 != n.val }) r.2

/-- The TxPDO image of a channel loaded (R169). -/
def channelLoad (n : Ch) (s : Dev) : Dev :=
  let v := latestTake s n .vm
  let i := latestTake s n .im
  let s := takeKept n .im i.1 i.2 (takeKept n .vm v.1 v.2 s)
  let s := wr (wr s oVmTake v.1 [n]) oImTake i.1 [n]
  headLoad n (wr (wr s oVmPos v.2 [n]) oImPos i.2 [n])

/-- The device TxPDO loaded (Table 11.13). -/
def deviceLoad (s : Dev) : Dev :=
  let faults := faultSummary s
  let s := wr (wr s oPdoReelNow (ctlPos s) []) oPdoReelStatus (reelStatus s) []
  let s := wr (wr s oPdoFaults faults []) oPdoPromises (flagAt s.supply.warning 0) []
  (List.finRange 24).foldl (fun (s : Dev) (n : Ch) => wrJ s oPdoQFill (s.ch n).src.queue.length [] n) s

/-- TXPDO_INPUT_LOAD (R169, R327): in SAFEOP and OP, over the assigned TxPDOs; while the Control die does not run the images hold (R328). -/
def execTxpdoInputLoad (s : State) : Host.Outcome State Fault Refusal := onDev s fun s =>
  .next (
    if (s.portN.al = .safeop || s.portN.al = .op) && s.control.running then
      let l := assigned s false
      let s := forChans (fun n s => if l.contains (0x1A00 + n.val) then channelLoad n s else s) s
      if l.contains 0x1A18 then deviceLoad s else s
    else s)

/-! ### Emergencies -/

/-- The emergency message of a summary bit (R345). -/
def emergencyBytes (s : Dev) (bit arg : Nat) : List Byte :=
  leBytes 2 0xFF00 ++ leBytes 1 0x80 ++ leBytes 1 bit ++ leBytes 1 arg ++ leBytes 3 (s.events.headD ⟨0, 0, 0, 0, 0⟩).seq

/-- An emergency of the bit was sent less than 10 ms ago. -/
def emergencyRecent (s : Dev) (bit : Nat) : Bool := s.portN.emcyAt.any fun e => e.1 == bit && decide (s.now < e.2 + 10 * msTicks)

/-- EMERGENCY_SEND (R345): the first bit that waits; 8 messages may wait for SM1. In INIT nothing is sent. -/
def execEmergencySend (s : State) : Host.Outcome State Fault Refusal := onDev s fun s =>
  .next (
    match s.portN.raised with
    | [] => s
    | (bit, arg, _) :: rest =>
      if !s.control.running then s
      else
        let s := updPortN (fun x => { x with raised := rest }) s
        if s.portN.al = .init || emergencyRecent s bit then s
        else if 8 ≤ (s.portN.mails.filter isEmergency).length then faultLatch 4 (bump oEmcyLost [] s)
        else
          mailPut (.emergency (emergencyBytes s bit arg))
            (updPortN (fun x => { x with emcyAt := (bit, s.now) :: x.emcyAt.filter fun e => e.1 != bit }) s))

end Sys2Proof.Machine
end

