-- ==== Sys2Proof/Machine/Peer.lean ====
section
/-! DEFINITION. Port X, the peer channel (12, R356, R357): PEER fields relayed, served and answered. -/

namespace Sys2Proof.Machine

/-- The Zhewick link rewritten. -/
def updZh (f : Zhewick → Zhewick) (s : Dev) : Dev := { s with zh := f s.zh }

/-- Ports C, X, D and the identity rewritten. -/
def updSec (f : Security → Security) (s : Dev) : Dev := { s with sec := f s.sec }

/-- A PEER field queued for a forward frame (down) or a return frame. -/
def peerQueue (down : Bool) (f : BitVec 128) (s : Dev) : Dev :=
  updZh (fun z => if down then { z with downQ := z.downQ ++ [f] } else { z with upQ := z.upQ ++ [f] }) s

/-- PEER_RESP (Table 12.8): STATUS, LEN, abort code, VALUE; a response is ready and no request is outstanding. -/
def peerAnswer (status len code value : Nat) (s : Dev) : Dev :=
  updSec (fun x => { x with peer := none, peerReady := true })
    (wr s oPeerResp (status + len * 2 ^ 16 + code * 2 ^ 32 + value * 2 ^ 64) [])

/-! ### The follower's delay -/

/-- A delay report (R67, Table 12.4): a follower takes the round trip and applies half of it with the two asymmetry trims. -/
def delayReport (x : Nat) (s : Dev) : Dev :=
  if s.cad.src ≠ 3 then s
  else
    let trip := getField x 16 32
    let one : Int := roundOpen trip 2 + Config.receiverAsymmetry + toSigned 16 (rd s oAsymTrim [])
    let s := { s with zh := { s.zh with oneWay := one } }
    wr (wr s oRoundTrip trip []) oOneWay (ofSigned 32 one) []

/-! ### Requests and responses -/

/-- What Port X answers to a request: STATUS, LEN, VALUE or the abort code. A read gives at most LEN bytes of the value. -/
def peerServes (nv : Nv) (x : Nat) (s : Dev) : Option (Nat × Nat × Nat) × Dev :=
  let op := getField x 16 8
  let len := getField x 24 8
  let index := getField x 32 16
  let sub := getField x 48 8
  if len = 0 || 8 < len || (op ≠ 1 && op ≠ 2) then (some (1, 4, 0x0F100003), s)
  else if op = 1 then
    match readObj nv .x index sub s with
    | (.done l, s) => (some (0, (l.take len).length, ofBytes ((l.take len).take 8)), s)
    | (.refused c, s) => (some (1, 4, c), s)
    | (.none, s) | (.unanswered, s) => (none, s)
  else
    match writeObj nv .x index sub (leBytes len (x / 2 ^ 64)) s with
    | (.ok, s) => (some (0, 0, 0), s)
    | (.abort c, s) => (some (1, 4, c), s)
    | (.reserved, s) => (none, s)

/-- A response as a PEER field (Table 12.4), from this device to the source of a request. -/
def peerResponse (s : Dev) (x status len value : Nat) : BitVec 128 :=
  BitVec.ofNat 128 (0x30 + x % 16 + (getField x 8 4 * 16 + hopOf s % 16) * 2 ^ 8 + status * 2 ^ 16 + len * 2 ^ 24 + getField x 32 24 * 2 ^ 32 +
    value * 2 ^ 64)

/-- A request of Port X is served (R357): the answer goes toward its source. -/
def peerServed (nv : Nv) (x : Nat) (s : Dev) : Dev :=
  match peerServes nv x s with
  | (some (status, len, value), s) => peerQueue (hopOf s < getField x 8 4) (peerResponse s x status len value) s
  | (none, s) => s

/-- Where a request of Port X waits for a retraining link (Table 1.6): a read, or a direct write, that its checks let through. -/
def peerWaits (nv : Nv) (x : Nat) (s : Dev) : Option Die :=
  match (peerServes nv x s).1 with
  | some (0, _) => if getField x 16 8 = 1 then heldAt s .x (getField x 32 16) else writeWaits s .x (getField x 32 16) (getField x 48 8)
  | _ => none

/-- A request addressed to this device (R357): served as a request of Port X while the Control die runs, held by a retraining link. -/
def peerRequested (nv : Nv) (x : Nat) (s : Dev) : Dev :=
  if serves s .x then
    match peerWaits nv x s with
    | some k => linkHolds k (.request .x (.peer (BitVec.ofNat 128 x))) s
    | none => peerServed nv x s
  else s

/-- A response addressed to this device: the answer of the outstanding request, else a late one (R357). -/
def peerResponded (x : Nat) (s : Dev) : Dev :=
  let status := getField x 16 8
  if s.sec.peer.any fun q => q.tag == x % 16 then
    if status = 1 then peerAnswer 1 (getField x 24 8) (getField x 64 32) 0 s else peerAnswer status (getField x 24 8) 0 (getField x 64 64) s
  else bump oPeerErrors [] s

/-- The request of a PEER field writes a reserved bit (R8) of an object this device holds. -/
def peerReserved (nv : Nv) (field : BitVec 128) (s : Dev) : Bool :=
  let x := field.toNat
  getField x 4 4 == 2 && getField x 12 4 == hopOf s && serves s .x && getField x 16 8 == 2 && 0 < getField x 24 8 && getField x 24 8 ≤ 8 &&
    (writeObj nv .x (getField x 32 16) (getField x 48 8) (leBytes (getField x 24 8) (x / 2 ^ 64)) s).1 == .reserved

/-- A PEER field arrives from a neighbour (R356, R357): a delay report is the follower's, a message addressed to another device is relayed in
the direction it travels. -/
def peerTake (fromUpstream : Bool) (field : BitVec 128) (nv : Nv) (s : Dev) : Dev :=
  let x := field.toNat
  let kind := getField x 4 4
  let mine := getField x 12 4 == hopOf s
  if kind = 1 then (if fromUpstream then delayReport x s else s)
  else if kind = 2 then (if mine then peerRequested nv x s else peerQueue fromUpstream field s)
  else if kind = 3 then (if mine then peerResponded x s else peerQueue fromUpstream field s)
  else s

/-- PEER_MESSAGE_RX (R357): a PEER field given on its own. -/
def execPeerMessageRx (fromUpstream : Bool) (field : BitVec 128) (s : State) : Host.Outcome State Fault Refusal := onDevNv s fun nv s =>
  if peerReserved nv field s then .refused .reservedBit else .next (peerTake fromUpstream field nv s)

/-- PEER_TIMEOUT (R357): no answer 2 ms after the write. -/
def execPeerTimeout (s : State) : Host.Outcome State Fault Refusal := onDev s fun s =>
  .next (
    match s.sec.peer with
    | some q => peerAnswer 2 0 0 0 (advance (q.since + 2 * msTicks) s)
    | none => s)

end Sys2Proof.Machine
end

