-- ==== Sys2Proof/Machine/Retrain.lean ====
section
/-! DEFINITION. The end of a training or retrain of a link (01, R36, R37): what the link held is delivered. -/

namespace Sys2Proof.Machine

/-- The answer of a request that was held, for its port. -/
def heldAnswer (p : Port) (r : Answer × Dev) : Dev := setAnswer p r.1 r.2

/-- The verdict on a write as an answer. -/
def verdictAnswer (v : Verdict) : Answer :=
  match v with
  | .ok => .done []
  | .abort c => .refused c
  | .reserved => .unanswered

/-- A request that a link held is served (Table 1.6, R333): its checks run again, in the state in which it now acts. -/
def requestArrives (nv : Nv) (p : Port) (r : HeldReq) (s : Dev) : Dev :=
  match r with
  | .write false _ i j d => let x := writeObj nv p i j d s; heldAnswer p (verdictAnswer x.1, x.2)
  | .write true whole i j d => sdoApplies nv i j whole d s
  | .read false _ i j => heldAnswer p (readObj nv p i j s)
  | .read true whole i j => sdoReads nv i j whole s
  | .seq n v => let x := seqWrite p n v nv s; heldAnswer p (verdictAnswer x.1, x.2)
  | .peer f => peerServed nv f.toNat s

/-- What a retraining link held, at its end of the link (Table 1.6). -/
def heldArrives (nv : Nv) (k : Die) (m : LinkMsg) (s : Dev) : Dev :=
  match m with
  | .fabric m => fabricArrives k m s
  | .record => recordArrives k s
  | .sync num pos => dieSync k num pos s
  | .cut lines => dieCut k lines s
  | .telemetry t a b c => telemetryArrives k t a b c s
  | .request p r => requestArrives nv p r s
  | .rx n x => rxActs n x s
  | .prepare p i => prepareArrives p i (k.val + 1) s

/-- A training or retrain succeeds: width and rate, degraded for good once half is lost; what was held is delivered (Table 1.6). -/
def trainingDone (nv : Nv) (k : Die) (w : BitVec 2) (rate8 : Bool) (s : Dev) : Dev :=
  let held := s.dies[k].link.held
  let s := updLink k (fun l => { l with
    width := if l.degraded && w = 3 then l.width else w, rate8 := rateAfter l rate8, degraded := l.degraded || w != 3
    fails := 0, retrying := false, announced := false, held := [], activeAt := s.now }) s
  let s := linkCatchUp k (linkEnter k .active s)
  held.foldl (fun s m => heldArrives nv k m s) s

/-- LINK_TRAINING_ATTEMPT_END (Table 1.6). A die whose fabric service has stopped answers no training (Table 1.3). -/
def execLinkTrainingAttemptEnd (k : Die) (width : Option (BitVec 2)) (rate8 : Bool) (s : State) : Host.Outcome State Fault Refusal :=
  onDevNv s fun nv s => .next (
    let l := s.dies[k].link
    if l.st = .training || l.st = .retraining || (l.st = .lost && l.retrying) then
      match width with
      | some w => if w = 0 || serviceGone s k 0 then trainingFails k s else trainingDone nv k w rate8 s
      | none => trainingFails k s
    else s)

/-! ### The end of a supply episode -/

/-- The response of an SDO segment that waited for the recovery (Table 12.12). -/
def sdoResumes (nv : Nv) (s : Dev) : Dev :=
  match s.portN.sdo with
  | some x =>
    match x.waits with
    | some true =>
      if x.data.length = x.total then sdoApplies nv x.index x.sub x.complete x.data (updPortN (fun y => { y with sdo := none }) s)
      else sdoAborts x.index x.sub 0x06070010 s
    | some false => sdoAnswers [] (updPortN (fun y => { y with sdo := some { x with waits := none, at_ := s.now } }) s)
    | none => s
  | none => s

/-- Recovery completes on its tick (R380). -/
def recoveryDone (nv : Nv) (s : Dev) : Dev :=
  match recoveryTick s with
  | some t => sdoResumes nv (recoveryActs (advance t s))
  | none => s

/-- SUPPLY_RECOVERY_COMPLETE (R380). -/
def execSupplyRecoveryComplete (s : State) : Host.Outcome State Fault Refusal := onDevNv s fun nv s => .next (recoveryDone nv s)

end Sys2Proof.Machine
end

