-- ==== Sys2Proof/Machine/Zhewick.lean ====
section
/-! DEFINITION. The Zhewick link (02, R66 to R70; 07, R234; 13, R390): frames downstream and upstream, the return frames, the delay
measurement, the follower's qualification, SYNC, chain Slate and chain Cuts; and what a Reel cycle boundary does. -/

namespace Sys2Proof.Machine

/-- Ticks of a frame period (R66). -/
def framePeriod : Nat := 3840

/-- Ticks from a forward edge to its return frame (R67). -/
def returnTicks : Nat := 1024

/-- Ticks of a return frame: 19 bytes at 24.576 Mb/s. -/
def returnFrameTicks : Nat := 1520

/-! ### Frames sent -/

/-- The hop count that goes downstream: 0 from a chain master, one more than that received from a follower, none where none was received. -/
def hopSent (s : Dev) : Option Nat := if s.cad.src ≠ 3 then some 0 else s.zh.upHop.map (· + 1)

/-- The device transmits frames downstream (R66, DOWNSTREAM_EN). -/
def sendsFrames (s : Dev) : Bool := s.supply.tree && rd s oDownstreamEn [] = 1 && (hopSent s).all fun h => decide (h < 15)

/-- MASTER_HOLDOVER of a frame sent (R69). -/
def sendsHoldover (s : Dev) : Bool := s.zh.masterHold || s.cad.st == .holdover

/-- A delay report (Table 12.4). -/
def delayField (s : Dev) (trip : Nat) : BitVec 128 :=
  let h := (hopSent s).getD (Config.idleField 3)
  BitVec.ofNat 128 (0x10 + ((h + 1) % 16 * 16 + h % 16) * 2 ^ 8 + trip % 2 ^ 32 * 2 ^ 16)

/-- The PEER field of the next forward frame: the report of a new measurement first, else the oldest message, else idle. -/
def forwardPeer (s : Dev) : BitVec 128 :=
  match s.zh.trip with
  | some t => delayField s t
  | none => s.zh.downQ.headD 0

/-- A target that frames carry: until its position has passed. -/
def liveTarget (s : Dev) (t : Option Target) : Option Target := t.filter fun x => posLater x.pos (ctlPos s)

/-- The bytes of a frame whose edge is the present tick (Table 2.4). -/
def frameBytes (s : Dev) : List Byte :=
  let sync := liveTarget s s.zh.sync
  let slate := liveTarget s s.zh.slate
  let body := leBytes 1 ((hopSent s).getD (Config.idleField 3) % 16 * 16 + flagAt (sendsHoldover s) 3 + flagAt sync.isSome 2 + flagAt slate.isSome 1) ++
    leBytes 8 (ctlPos s) ++ leBytes 8 (sync.elim (Config.idleField 0) Target.pos) ++ leBytes 8 (slate.elim (Config.idleField 1) Target.pos) ++
    leBytes 2 (sync.elim (Config.idleField 2) Target.num) ++ leBytes 2 (s.zh.cutLines.toNat + s.zh.cutSeq.toNat * 2 ^ 12) ++
    leBytes 16 (forwardPeer s).toNat
  leBytes 1 0xA7 ++ body ++ leBytes 2 (crc16 body)

/-- The next frame takes the lines of the changes since the last one, with CUT_SEQ increased by 1 (R234). -/
def cutSend (z : Zhewick) : Zhewick :=
  match z.cutChange with
  | some l => { z with cutLines := l, cutSeq := z.cutSeq + 1, cutChange := none, cutOwn := 0 }
  | none => z

/-- The tick of the next frame edge: every 3840 ticks of the tick epoch (log 43). -/
def frameDue (s : Dev) : Nat :=
  let grid := (s.now + framePeriod - 1) / framePeriod * framePeriod
  match s.zh.txEdge with
  | some e => max (e + framePeriod) grid
  | none => grid

/-- ZHEWICK_FRAME_TX (R66, R69, R70, R234, R356): the device sends a frame; chain Cut lines it raised itself are seen at the edge. -/
def execZhewickFrameTx (s : State) : Host.Outcome State Fault Refusal := onDev s fun s =>
  .next (
    if sendsFrames s then
      let s := advance (frameDue s) s
      let own := s.zh.cutOwn.toNat
      let s := updZh cutSend s
      let bytes := frameBytes s
      let s := updZh (fun z => { z with
        txEdge := some s.now
        txFrame := bytes
        downQ := if z.trip.isSome then z.downQ else z.downQ.tail
        trip := none }) s
      chainCutSeen own s
    else s)

/-! ### Frames received -/

/-- A field of a frame's bytes. -/
def frameField (l : List Byte) (at_ n : Nat) : Nat := ofBytes ((l.drop at_).take n)

/-- A frame is valid: START and CRC (Table 2.4). -/
def frameValid (l : List Byte) : Bool := frameField l 0 1 == 0xA7 && crc16 ((l.drop 1).take 45) == frameField l 46 2

/-- MASTER_HOLDOVER as received, and the interval it makes (R60). -/
def takeHoldover (h : Bool) (s : Dev) : Dev :=
  updZh (fun z => { z with
    masterHold := h
    masterSpans := if h && !z.masterHold then spanOpen z.masterSpans s.now else if !h && z.masterHold then spanClose z.masterSpans s.now
      else z.masterSpans }) s

/-- L_src of a run of frames: ticks per cycle between its first and its last; none where the position did not advance. R61 gives L_src for the
other sources only (DESIGN CHOICE, log 122). -/
def runLength (run : List (Nat × Nat)) : Option Nat :=
  match run, run.getLast? with
  | (s1, p1) :: _, some (s0, p0) =>
    let d := (p1 + posMod - p0 % posMod) % posMod
    if d = 0 || s1 ≤ s0 then none else some (roundOpen (((s1 - s0) * 2 ^ 32 : Nat) : Int) ((d : Nat) : Int)).toNat
  | _, _ => none

/-- The master's Reel position at a stamp, from the newest frame of a run and L_src. -/
def masterPos (run : List (Nat × Nat)) (lSrc at_ : Nat) : Int :=
  match run with
  | (s1, p1) :: _ => (p1 : Int) + roundOpen (((at_ : Int) - (s1 : Int)) * 2 ^ 32) ((lSrc : Nat) : Int)
  | [] => 0

/-- The phase error of a frame: master position minus Reel position at its corrected stamp (R61). -/
def framePhase (s : Dev) (e : Nat × Nat) : Int := wrapPhase ((e.2 : Int) - (posOf s.cad.recs e.1 : Nat))

/-- The end of qualification on 64 frames (Table 2.3, R61): L_src, e, RELOCK; after a switch to the link the boundary to come takes the
master's cycle count (R54). A Reel outside 1 Hz to 10 kHz does not qualify (R46). -/
def frameQualify (s : Dev) : Dev :=
  let run := s.zh.run
  match runLength run with
  | none => s
  | some l =>
    if unitsPerSecond < l || 10000 * l < unitsPerSecond then { s with cad := { s.cad with rangeErr := true } }
    else
      let e := fitError (run.map (·.1)) (run.map (framePhase s)) (nextBoundary s.cad)
      let next := match s.cad.recs with
        | r :: _ => some (((masterPos run l r.base + 2 ^ 31) / 2 ^ 32) % 2 ^ 32).toNat
        | [] => none
      let s := { s with cad := { s.cad with rangeErr := false, preset := if s.cad.st = CadState.acquire then next.map (·, 0) else s.cad.preset } }
      qualify l e { s with zh := { s.zh with run := [] } }

/-- A valid frame disciplines a follower (R67): its edge, less the one-way delay, against EDGE_POS. -/
def frameTiming (stamp : Nat) (l : List Byte) (s : Dev) : Dev :=
  let hop := frameField l 1 1 / 16
  let e := (((stamp : Int) - s.zh.oneWay).toNat, frameField l 2 8)
  let run := if s.zh.upHop = some hop then (e :: s.zh.run).take 64 else [e]
  let s := wr s oPhaseErr (ofSigned 32 (framePhase s e)) []
  let s := takeHoldover (bitOf (frameField l 1 1) 3) { s with cad := { s.cad with present := true } }
  let s := updZh (fun z => { z with run := run, upHop := some hop }) s
  match s.cad.st with
  | .acquire | .holdover => if 64 ≤ run.length then frameQualify s else s
  | .freerun | .locked | .relock => s

/-- A SYNC in a frame (R70): new ones are taken in, or discarded where their position has passed. -/
def frameSync (l : List Byte) (s : Dev) : Dev :=
  let t : Target := ⟨frameField l 10 8, frameField l 26 2⟩
  if !bitOf (frameField l 1 1) 2 || s.zh.syncSeen = some t || s.zh.sync.isSome then s
  else
    let s := updZh (fun z => { z with syncSeen := some t }) s
    if posLater t.pos (ctlPos s) then syncKnown t (updZh (fun z => { z with sync := some t }) s) else bump oSyncLate [] s

/-- A chain Slate in a frame (R390). -/
def frameSlate (l : List Byte) (s : Dev) : Dev :=
  let t : Target := ⟨frameField l 18 8, 0⟩
  if !bitOf (frameField l 1 1) 1 || s.zh.slateSeen = some t || s.zh.slate.isSome then s
  else
    let s := updZh (fun z => { z with slateSeen := some t }) s
    if posLater t.pos (ctlPos s) then updZh (fun z => { z with slate := some t }) s else bump oSlateDropped [] s

/-- CUT_REQ in a frame (R234): a CUT_SEQ that differs from the last received is a change, seen here and passed on. -/
def frameCut (l : List Byte) (s : Dev) : Dev :=
  let v := frameField l 28 2
  let lines := BitVec.ofNat 12 v
  let seq := BitVec.ofNat 4 (v / 2 ^ 12)
  let new := s.zh.cutSeqIn.any fun q => q != seq
  let s := updZh (fun z => { z with cutSeqIn := some seq }) (wr s oChainCutRx v [])
  if new then chainCutSeen lines.toNat (updZh (fun z => { z with cutChange := some (z.cutChange.getD 0 ||| lines) }) s) else s

/-- The PEER field of a frame. -/
def framePeer (l : List Byte) : BitVec 128 := BitVec.ofNat 128 (frameField l 30 16)

/-- The content of a valid frame. A device whose source is not 3 ignores what concerns the master's timing (R66). -/
def frameTake (stamp : Nat) (l : List Byte) (nv : Nv) (s : Dev) : Dev :=
  let s := updZh (fun z => { z with upValid := true, validEdge := some stamp }) s
  let s := if s.cad.src = 3 then frameSlate l (frameSync l (frameTiming stamp l s)) else s
  peerTake true (framePeer l) nv (frameCut l s)

/-- A frame edge received (R67): a follower's return frame is due, with the marker after each 64th. -/
def frameEdge (stamp : Nat) (s : Dev) : Dev :=
  updZh (fun z => { z with
    rxCount := z.rxCount + 1
    retDue := if s.cad.src = 3 then some (stamp, (z.rxCount + 1) % 64 == 0) else none }) s

/-- A discarded frame (R67) breaks the run of valid ones. -/
def frameDiscard (s : Dev) : Dev := bump oCrcErrors [] (updZh (fun z => { z with run := [] }) s)

/-- ZHEWICK_FRAME_RX (R67): a frame whose edge bears the stamp; it is taken in at its last byte. -/
def execZhewickFrameRx (stamp : Nat) (bytes : List Byte) (s : State) : Host.Outcome State Fault Refusal := onDevNv s fun nv s =>
  let s := frameEdge stamp (advance ((stamp + 255) / 256 + framePeriod) s)
  if frameValid bytes then
    (if peerReserved nv (framePeer bytes) s then .refused .reservedBit else .next (frameTake stamp bytes nv s))
  else .next (frameDiscard s)

/-- ZHEWICK_FRAME_LOSS (R58, Table 2.3): 8 frame periods without a valid frame. -/
def execZhewickFrameLoss (s : State) : Host.Outcome State Fault Refusal := onDev s fun s =>
  .next (
    match s.zh.validEdge with
    | some e =>
      let s := takeHoldover false (advance ((e + 255) / 256 + 8 * framePeriod) s)
      let s := updZh (fun z => { z with upValid := false, validEdge := none, run := [] }) s
      if s.cad.src = 3 then cadLose { s with cad := { s.cad with present := false } } else s
    | none => s)

/-! ### Return frames -/

/-- A return frame (R356). -/
def returnBytes (marker : Bool) (peer : BitVec 128) : List Byte :=
  let body := leBytes 16 peer.toNat
  leBytes 1 (if marker then 0x5D else 0x5C) ++ body ++ leBytes 2 (crc16 body)

/-- RETURN_MARKER_TX (R67, R356): the return frame of the last forward edge, 1024 ticks after it. -/
def execReturnMarkerTx (s : State) : Host.Outcome State Fault Refusal := onDev s fun s =>
  .next (
    match s.zh.retDue with
    | some (e, marker) =>
      updZh (fun z => { z with
        retDue := none
        retEdge := some (e + returnTicks * 256)
        retFrame := returnBytes marker (z.upQ.headD 0)
        upQ := z.upQ.tail }) (advance ((e + 255) / 256 + returnTicks) s)
    | none => s)

/-- A return frame is valid: START and CRC. -/
def returnValid (l : List Byte) : Bool :=
  (frameField l 0 1 == 0x5C || frameField l 0 1 == 0x5D) && crc16 ((l.drop 1).take 16) == frameField l 17 2

/-- The round trip of a marker less the fixed delays (R67): the 1024 ticks and this device's calibrated turnaround. -/
def roundTrip (edge stamp : Nat) : Nat := stamp - edge * 256 - returnTicks * 256 - Config.turnaround

/-- RETURN_FRAME_RX (R67, R356): the marker gives the round trip from the edge of the last frame sent; the PEER field is taken in. -/
def execReturnFrameRx (stamp : Nat) (bytes : List Byte) (s : State) : Host.Outcome State Fault Refusal := onDevNv s fun nv s =>
  let s := advance ((stamp + 255) / 256 + returnFrameTicks) s
  let peer := BitVec.ofNat 128 (frameField bytes 1 16)
  if returnValid bytes then
    if peerReserved nv peer s then .refused .reservedBit
    else
      let marker := frameField bytes 0 1 == 0x5D
      let s := updZh (fun z => if marker then
        { z with downSeen := true, trip := match z.txEdge with | some e => some (roundTrip e stamp) | none => z.trip } else z) s
      .next (peerTake false peer nv s)
  else .next (bump oCrcErrors [] s)

/-! ### SYNC and the Reel cycle boundary -/

/-- SYNC_EVENT (R70): the tick of the SYNC's position; waits that matched it were given that position. It is
held while the record of its cycle is not fixed (R48). -/
def syncEvent (s : Dev) : Dev :=
  match s.zh.sync with
  | some t =>
    atPosition s.cad.recs t.pos (fun s =>
      updZh (fun z => { z with sync := none }) (wr (wr s oSyncLastNum t.num []) oSyncLastPos t.pos [])) s
  | none => s

/-- The number of the cycle that a boundary has begun: that of the record before the newest. -/
def cycleBegun (s : Dev) : Nat :=
  match s.cad.recs with
  | _ :: r :: _ => r.c
  | [r] => r.c
  | [] => 0

/-- The tick of the next Reel cycle boundary: that at which the newest record's cycle begins. -/
def cycleTick (s : Dev) : Nat :=
  match s.cad.recs with
  | r :: _ => (r.base + 255) / 256
  | [] => s.now

/-- The next Reel cycle boundary (R48, R54, R62, R426): the Cadence Unit's work, and that of the channels whose dies follow its records. -/
def cycleBoundary (s : Dev) : Dev :=
  let s := cadenceBoundary s
  forChans (fun n s => if s.dies[n.die].extending then s else channelBoundary (cycleBegun s) n s) s

end Sys2Proof.Machine
end

