-- ==== Sys2Proof/Machine/Order.lean ====
section
/-! DEFINITION. The order of events on one tick (R51, R315, R323): before an event acts, the Slate captures, Keystone applies and Course starts
that R51 puts before it act, whatever command was given first. -/

namespace Sys2Proof.Machine

/-- When an event acts: its tick, its rank on that tick (R51: 0 Slate capture, 1 Keystone apply, 2 Course start and wait release, 3 source update),
and within a rank among Keystones the number of the admission (R315), with decision points after the other events of theirs (R212). -/
structure When where
  tick : Nat
  rank : Nat
  order : Nat
  deriving DecidableEq, Repr

/-- `a` acts before `b`. -/
def When.before (a b : When) : Bool :=
  decide (a.tick < b.tick) || (a.tick == b.tick && (decide (a.rank < b.rank) || (a.rank == b.rank && decide (a.order < b.order))))

/-- An event that is due: a Slate trigger to be made at its position, a capture, an apply of a slot, the completion of a supply recovery, which
comes before a decision point of its tick (R380), a Course start of a channel, an edge of the marker that makes its Cuts, a decision point. -/
inductive Due where
  | slateAt (v : Nat)
  | chainSlate (t : Target)
  | capture
  | apply (p : Port) (i : Nat)
  | recovery
  | course (n : Ch)
  | marker (n : Ch) (m : Nat)
  | decision (n : Ch)
  deriving DecidableEq, Repr

/-- The Slates, Keystones and recovery that wait for a tick which is known, and of the channels named the Course starts, the marker edges that are
Cuts, which a decision of their tick takes in (R212, R228), and the decision points. -/
def dueEvents (s : Dev) (chans : List Ch) : List (When × Due) :=
  let slateAt := if rd s oSlateAt [] = 0 then [] else
    (reachTick s.cad.recs (rd s oSlateAt [])).toList.map fun t => (⟨t, 0, 0⟩, Due.slateAt (rd s oSlateAt []))
  let chain := s.zh.slate.toList.flatMap fun x => (reachTick s.cad.recs x.pos).toList.map fun t => (⟨t, 0, 0⟩, Due.chainSlate x)
  let captures := (nextCapture s.slate.triggers).toList.map fun t => (⟨t, 0, 1⟩, Due.capture)
  let applies := (allTxns s).filterMap fun e =>
    if e.2.2.st = .committed then (applyTick s e.2.2).map fun t => (⟨t, 1, e.2.2.order⟩, Due.apply e.1 e.2.1) else none
  let courses := chans.flatMap fun n => (courseTick s n).toList.map fun t => (⟨t, 2, 0⟩, Due.course n)
  let recovery := (recoveryTick s).toList.map fun t => (⟨t, 1, 0⟩, Due.recovery)
  let markers := chans.flatMap fun n => (cutMarker s n).toList.flatMap fun x => (markerTick s x.1 x.2).toList.map fun t =>
    (⟨t, 2, 0⟩, Due.marker x.1 x.2)
  let decisions := chans.flatMap fun n =>
    if (s.ch n).seq.st = .stopped then [] else (decisionTick s n).toList.map fun t => (⟨t, 2, 1⟩, Due.decision n)
  slateAt ++ chain ++ captures ++ recovery ++ applies ++ courses ++ markers ++ decisions

/-- The first of the events that act before `w`. -/
def firstDue (w : When) : List (When × Due) → Option (When × Due)
  | [] => none
  | e :: t =>
    match firstDue w t with
    | none => if e.1.before w then some e else none
    | some x => if e.1.before w && !x.1.before e.1 then some e else some x

/-- A due event acts. -/
def dueActs (nv : Nv) (e : Due) (s : Dev) : Dev :=
  match e with
  | .slateAt v => slateAtReached v s
  | .chainSlate t => chainSlateReached t s
  | .capture => slateCapture nv s
  | .apply p i => keystoneApply p i s
  | .recovery => recoveryDone nv s
  | .course n => courseStart n s
  | .marker n m => markerEdge n m s
  | .decision n => decisionPoint n s

/-- The due events before `w` act in their order, at most `fuel` of them. -/
def settleBy (nv : Nv) (w : When) (chans : List Ch) : Nat → Dev → Dev
  | 0, s => s
  | k + 1, s => match firstDue w (dueEvents s chans) with
    | none => s
    | some e => settleBy nv w chans k (dueActs nv e.2 s)

/-- The due events before `w` act in their order. -/
def settleDue (nv : Nv) (w : When) (chans : List Ch) (s : Dev) : Dev :=
  settleBy nv w chans (8 * (dueEvents s chans).length + s.slate.triggers.length) s

/-- A command that acts at a tick with a rank of R51, after what R51 puts before it. -/
def inOrder (tick rank : Nat) (chans : List Ch) (f : Dev → Dev) (s : State) : Host.Outcome State Fault Refusal := onDevNv s fun nv s =>
  .next (f (settleDue nv ⟨max s.now tick, rank, 0⟩ chans s))

/-- The tick of an event of which none is known is the present one: its command then does nothing. -/
def knownTick (s : State) (t : Option Nat) : Nat := t.getD s.dev.now

/-- A record formed at a tick, after the Keystones, Course starts and decisions that R51 puts before it (R157, R165, R176); nothing where there is none
to form. -/
def formedAt (tick : Dev → Option Nat) (n : Ch) (f : Dev → Dev) (s : State) : Host.Outcome State Fault Refusal := onDevNv s fun nv s =>
  .next (match tick s with
    | none => s
    | some t => f (settleDue nv ⟨max s.now t, 3, 0⟩ [n] s))

/-! ### The commands -/

/-- TAKE_FORMATION (R149): the correction entries, queues and blocks are those in force at the tick of the formation (R157, R165, R176). -/
def execTakeFormation (n : Ch) (a : ArrId) (s : State) : Host.Outcome State Fault Refusal :=
  formedAt (fun s => takeTick s n a) n (formTake n a) s

/-- URGENT_APERTURE_END (R141, R154, R157). -/
def execUrgentApertureEnd (n : Ch) (a : ArrId) (c : Conv) (s : State) : Host.Outcome State Fault Refusal :=
  formedAt (fun s => urgentTick s n a) n (formUrgent n a c) s

/-- PE_RESULT_WRITE (R175): the queues are those in force at its tick (R165). -/
def execPeResultWrite (n : Ch) (p : Fin 2) (s : State) : Host.Outcome State Fault Refusal :=
  formedAt (fun s => peResultTick s n p) n (peResult n p) s

/-- SLATE_CAPTURE (R387, R388): the triggers of one capture tick make one Slate, those of a position that is reached on it among them. -/
def execSlateCapture (s : State) : Host.Outcome State Fault Refusal := onDevNv s fun nv s =>
  .next (
    match nextCapture s.slate.triggers with
    | none => s
    | some t => slateCapture nv (settleDue nv ⟨t, 0, 1⟩ [] s))

/-- KEYSTONE_APPLY (R315, R316): at the tick of P, after the Slates of that tick and the Keystones admitted before. -/
def execKeystoneApply (p : Port) (slot : Fin 16) (s : State) : Host.Outcome State Fault Refusal := onDevNv s fun nv s =>
  .next (
    let t := portTxn s p (slotNo slot)
    match t.st, applyTick s t with
    | .committed, some at_ => keystoneApply p (slotNo slot) (settleDue nv ⟨at_, 1, t.order⟩ [] s)
    | _, _ => s)

/-- REEL_CYCLE_BOUNDARY (R48, R54, R62, R426). -/
def execReelCycleBoundary (s : State) : Host.Outcome State Fault Refusal := inOrder (cycleTick s.dev) 2 [] cycleBoundary s

/-- SYNC_EVENT (R70): the tick of the SYNC's position; waits that matched it were given that position. It is held while the record of its cycle
is not fixed (R48). -/
def execSyncEvent (s : State) : Host.Outcome State Fault Refusal :=
  inOrder (knownTick s (s.dev.zh.sync.bind fun t => reachTick s.dev.cad.recs t.pos)) 2 [] syncEvent s

/-- COURSE_START (R218). -/
def execCourseStart (n : Ch) (s : State) : Host.Outcome State Fault Refusal := inOrder (knownTick s (courseTick s.dev n)) 2 [] (courseStart n) s

/-- DECISION_POINT (R212, R220): D(j) is the tick of slot j − 2, after the Course start and the marker edges of that tick; it is held while the
cadence record of that slot has not arrived. -/
def execDecisionPoint (n : Ch) (s : State) : Host.Outcome State Fault Refusal := onDevNv s fun nv s =>
  .next (decisionPoint n (settleDue nv ⟨max s.now ((decisionTick s n).getD s.now), 2, 1⟩ [n] s))

/-- TRIG_IN_EDGE (R216, R228): an edge on a trigger pin as the filters of a length see it. -/
def execTrigInEdge (k : Die) (pin : Fin 4) (edge : TrigEdge) (s : State) : Host.Outcome State Fault Refusal :=
  inOrder 0 2 [] (trigEdge k pin.val edge.falling edge.samples.toNat) s

/-- SOURCE_SAMPLE_SLOT (R77): the next slot, after a Course start on its tick. -/
def execSourceSampleSlot (n : Ch) (s : State) : Host.Outcome State Fault Refusal := inOrder (knownTick s (sampleTick s.dev n)) 3 [n] (sampleSlot n) s

/-- MODULATOR_CLOCK (R75). -/
def execModulatorClock (n : Ch) (outLimit compliance : Bool) (s : State) : Host.Outcome State Fault Refusal :=
  inOrder (modulatorTick s.dev n) 3 [n] (modulatorClock n outLimit compliance) s

/-- LOOP_PERIOD_BOUNDARY (R179, R180). -/
def execLoopPeriodBoundary (n : Ch) (s : State) : Host.Outcome State Fault Refusal := inOrder (boundaryTick s.dev n) 3 [n] (loopBoundary n) s

/-- MONITOR_FIRST_DECISION (R250): 2458 ticks after the Keystone, or at the end of a blanking hold that lasts longer (log 32). -/
def execMonitorFirstDecision (n : Ch) (m : Mon) (x : Int) (s : State) : Host.Outcome State Fault Refusal :=
  inOrder (knownTick s (firstTick s.dev n m)) 2 [] (firstDecision n m x) s

/-- MONITOR_STATE_CHANGE (R248). -/
def execMonitorStateChange (n : Ch) (m : Mon) (x : Int) (s : State) : Host.Outcome State Fault Refusal := inOrder 0 2 [] (stateChange n m x) s

/-- TRIP_QUALIFY (R249): a Keystone on its tick acts first (R263). -/
def execTripQualify (n : Ch) (m : Mon) (s : State) : Host.Outcome State Fault Refusal :=
  inOrder (knownTick s (qualifyTick s.dev n m)) 2 [] (tripQualify n m) s

/-- ESCALATION_EXPIRY (R254). -/
def execEscalationExpiry (n : Ch) (m : Mon) (s : State) : Host.Outcome State Fault Refusal :=
  inOrder (knownTick s (escTick s.dev n m)) 2 [] (escalationExpires n m) s

/-- BLANKING_END (R252, R254). -/
def execBlankingEnd (n : Ch) (m : Mon) (x : Int) (s : State) : Host.Outcome State Fault Refusal :=
  inOrder (knownTick s (blankTick s.dev n m)) 2 [] (blankingEnds n m x) s

end Sys2Proof.Machine
end

