-- ==== Sys2Proof/Machine/Ports.lean ====
section
/-! DEFINITION. Ports S, C and D (12, R349 to R362): request and response frames, CAL_SEAL, the test access port, fuses, attestation. -/

namespace Sys2Proof.Machine

/-! ### Request frames (Table 12.1) -/

/-- Operations of Table 12.1. -/
def opRead : Nat := 1
/-- WRITE. -/
def opWrite : Nat := 2
/-- DRAIN. -/
def opDrain : Nat := 3
/-- CANCEL. -/
def opCancel : Nat := 4

/-- Bytes 0 to 11 of a request frame, and its data (Table 12.1). -/
def frameBody (op : Nat) (f : Frame) : List Byte :=
  leBytes 1 op ++ [f.tag] ++ leBytes 2 f.index.toNat ++ [f.sub, f.flags] ++ leBytes 2 f.len.toNat ++ leBytes 4 f.offset.toNat ++ f.data

/-- The operation of a frame: its byte 0. -/
def frameOp (op : Nat) (f : Frame) : Nat :=
  match f.byte0 with
  | some b => b.toNat
  | none => op

/-- Data bytes that a frame holds (Table 12.1, log 44): LEN, which for READ and DRAIN is what is wanted back. -/
def frameLen (op : Nat) (f : Frame) : Nat := if op = opRead || op = opDrain then 0 else f.len.toNat

/-- The tests of R351: operation (byte 0 as received, log 165), CRC, LEN, length of the frame. -/
def frameServed (op : Nat) (f : Frame) : Bool :=
  1 ≤ op && op ≤ 4 && crc16 (frameBody op f) == f.crc.toNat && f.len.toNat ≤ 4096 && f.data.length == frameLen op f

/-- The status byte of a port (R351, R350). -/
def portStatusByte (s : Dev) (p : Port) : Byte :=
  let x := s.ports[p.idx]
  BitVec.ofNat 8 (flagAt x.response.isSome 0 + flagAt (irqLow s) 1 + flagAt (x.busy.isSome || !s.control.running) 2)

/-- Frame errors of Ports S and C (Table 12.8). -/
def countFrameError (p : Port) (s : Dev) : Dev :=
  match p with
  | .s => bump oSFrameErrors [] s
  | .c => bump oCFrameErrors [] s
  | .n | .x | .d => s

/-- Discarded requests and responses of Ports S and C (R353). -/
def countDrop (p : Port) (s : Dev) : Dev :=
  match p with
  | .s => bump oSDrops [] s
  | .c => bump oCDrops [] s
  | .n | .x | .d => s

/-- An unfetched response is discarded and counted (R353). -/
def dropResponse (p : Port) (s : Dev) : Dev :=
  if s.ports[p.idx].response.isSome then countDrop p (updPort p (fun x => { x with response := none }) s) else s

/-- A request frame arrives (R350, R351, R353): discarded while BUSY is set, answered with STATUS 2 on a frame error, else taken in service. -/
def frameArrives (p : Port) (op : Nat) (f : Frame) (nv : Nv) (s : Dev) : Dev :=
  let status := portStatusByte s p
  let s := updPort p (fun x => { x with shifted := [status] }) s
  if bitOf status.toNat 2 then countDrop p s
  else
    let s := dropResponse p s
    if frameServed op f then updPort p (fun x => { x with busy := some ⟨s.now, op, f, portShut nv s p, s.sec.sealOpen⟩ }) s
    else countFrameError p (updPort p (fun x => { x with response := some ⟨2, f.tag, 0, []⟩ }) s)

/-! ### FETCH (Table 12.2) -/

/-- The bytes of a response. -/
def responseBytes (r : Response) : List Byte :=
  let body := leBytes 1 r.status ++ [r.tag] ++ leBytes 2 r.data.length ++ leBytes 4 r.abort ++ r.data
  body ++ leBytes 2 (crc16 body)

/-- A FETCH frame (R350, R352): the status byte, and the response pending or STATUS 3. -/
def fetchArrives (p : Port) (s : Dev) : Dev :=
  let status := portStatusByte s p
  if s.control.running then
    let r := s.ports[p.idx].response.getD ⟨3, 0, 0, []⟩
    updPort p (fun x => { x with shifted := status :: responseBytes r, response := none }) s
  else updPort p (fun x => { x with shifted := [status] }) s

/-- A frame from its byte 0 on: FETCH, or a request. -/
def hostFrame (p : Port) (op : Nat) (f : Frame) (nv : Nv) (s : Dev) : Dev := if op = 0 then fetchArrives p s else frameArrives p op f nv s

/-- FETCH. -/
def execFetch (p : Port) (s : State) : Host.Outcome State Fault Refusal := onDev s fun s => .next (fetchArrives p s)

/-- READ. -/
def execRead (p : Port) (f : Frame) (s : State) : Host.Outcome State Fault Refusal := onDevNv s fun nv s => .next (hostFrame p (frameOp opRead f) f nv s)

/-- WRITE. -/
def execWrite (p : Port) (f : Frame) (s : State) : Host.Outcome State Fault Refusal := onDevNv s fun nv s => .next (hostFrame p (frameOp opWrite f) f nv s)

/-- DRAIN. -/
def execDrain (p : Port) (f : Frame) (s : State) : Host.Outcome State Fault Refusal := onDevNv s fun nv s => .next (hostFrame p (frameOp opDrain f) f nv s)

/-- CANCEL. -/
def execCancel (p : Port) (f : Frame) (s : State) : Host.Outcome State Fault Refusal := onDevNv s fun nv s => .next (hostFrame p (frameOp opCancel f) f nv s)

/-! ### Serving (R353) -/

/-- The row of a DOMAIN object. -/
def domainRow (p : Port) (index sub : Nat) : Option Row :=
  match nameOf p index sub with
  | .row r => if r.size = 0 then some r else none
  | .count _ | .missing _ => none

/-- FLAGS [0] LAST. -/
def frameLast (f : Frame) : Bool := bitOf f.flags.toNat 0

/-- FLAGS [1] complete access. -/
def frameWhole (f : Frame) : Bool := bitOf f.flags.toNat 1

/-- The port's transfer is abandoned, an upload with it (R353, R364). -/
def transferLost (p : Port) (s : Dev) : Dev := uploadAbandon p (updPort p (fun x => { x with transfer := none }) s)

/-- A segment of a DOMAIN write: FW_UPLOAD's bytes go to the slot as they arrive (R366), those of other objects wait for the last. -/
def segmentWrite (nv : Nv) (p : Port) (r : Row) (f : Frame) (s : Dev) : Verdict × Dev :=
  let i := f.index.toNat
  let j := f.sub.toNat
  let old := s.ports[p.idx].transfer.getD ⟨i, j, []⟩
  if old.index ≠ i || old.sub ≠ j || old.data.length ≠ f.offset.toNat then (.abort 0x06070010, transferLost p s)
  else
    let first := s.ports[p.idx].transfer.isNone
    let data := old.data ++ f.data
    let s1 := updPort p (fun x => { x with transfer := if frameLast f then none else some ⟨i, j, data⟩ }) s
    if rowIs r oFwUpload then
      let target := rdP s oFwUploadTarget p []
      match firstBad [if first then mayWrite r p else .ok, refuseIf (first && uploadBusy s target) 3] with
      | .ok =>
        let s2 := uploadBytes p f.data (if first then uploadStart p target s1 else s1)
        (.ok, if frameLast f then uploadEnd p s2 else s2)
      | v => (v, s)
    else if frameLast f then writeOpen nv p i j data s1
    else (.ok, s1)

/-- A WRITE frame served. -/
def serveWrite (nv : Nv) (p : Port) (f : Frame) (s : Dev) : Verdict × Dev :=
  let i := f.index.toNat
  let j := f.sub.toNat
  if frameWhole f then writeWhole nv p i j f.data s
  else match domainRow p i j with
    | some r => segmentWrite nv p r f s
    | none => writeOpen nv p i j f.data s

/-- A READ frame served (R353, R335): at OFFSET 0 of a DOMAIN the initiate copy is taken, later offsets read it. -/
def serveRead (nv : Nv) (p : Port) (f : Frame) (s : Dev) : Answer × Dev :=
  let i := f.index.toNat
  let j := f.sub.toNat
  if frameWhole f then readWhole nv p i j s
  else match domainRow p i j with
    | some _ =>
      if f.offset.toNat = 0 then
        match readOpen nv p i j s with
        | (.done l, s) => (.done l, updPort p (fun x => { x with copy := some ⟨i, j, l⟩ }) s)
        | v => v
      else match s.ports[p.idx].copy with
        | some c => (if c.index = i && c.sub = j then .done (c.data.drop f.offset.toNat) else .refused 0x06070010, s)
        | none => (.refused 0x06070010, s)
    | none => readOpen nv p i j s

/-- The rules of a DRAIN frame (R353, R167): LEN, the queue, and its consumer, which is Port S or the port that OBJ_ACCESS serves (R166). -/
def drainBarred (p : Port) (f : Frame) (q : Queue) : Verdict := firstBad [refuseIf (f.len.toNat = 0 || 512 < f.len.toNat) 3, drainCheck p q]

/-- A DRAIN frame served: whole records up to LEN words leave the queue of that device number (R32, R167). No queue has
Port C as its consumer. -/
def serveDrain (p : Port) (f : Frame) (s : Dev) : Answer × Dev :=
  let q := f.index.toNat
  if p = .c then (.refused 0x0F100052, s)
  else if q < 12288 then
    let n : Ch := ⟨q / 512 % 24, Nat.mod_lt _ (by decide)⟩
    let x := qFind (s.ch n).queues (q % 512)
    match reachCheck s (0x3000 + 0x100 * n.val), drainBarred p f x with
    | .ok, .ok =>
      let r := takeRecords f.len.toNat x.recs
      (.done (recordBytes8 r.1), closeRun n (updCh n (fun c => { c with queues := qPut c.queues (q % 512) { x with recs := r.2 } }) s))
    | .abort c, _ | .ok, .abort c => (.refused c, s)
    | .reserved, _ | .ok, .reserved => (.none, s)
  else
    let x := qFind s.ctrlQueues (q - 12288)
    match (if 16384 ≤ q then .abort 0x0F100003 else drainBarred p f x) with
    | .ok =>
      let r := takeRecords f.len.toNat x.recs
      (.done (recordBytes8 r.1), { s with ctrlQueues := qPut s.ctrlQueues (q - 12288) { x with recs := r.2 } })
    | .abort c => (.refused c, s)
    | .reserved => (.none, s)

/-- A request frame served, as an answer; none where it writes a reserved bit (R8). -/
def serveFrame (nv : Nv) (p : Port) (x : Serving) (s : Dev) : Answer × Dev :=
  let written (v : Verdict × Dev) : Answer × Dev :=
    match v with
    | (.ok, s) => (.done [], s)
    | (.abort c, s) => (.refused c, s)
    | (.reserved, s) => (.none, s)
  if x.shut then (.refused 0x0F100001, s)
  else if x.op = opRead then
    match serveRead nv p x.frame s with
    | (.done l, s) => (.done (l.take x.frame.len.toNat), s)
    | v => v
  else if x.op = opDrain then serveDrain p x.frame s
  else if x.op = opCancel then (.done [], transferLost p s)
  else written (serveWrite nv p x.frame s)

/-- A request served under the seal of its last byte (R355). -/
def underSeal (x : Serving) (f : Dev → Answer × Dev) (s : Dev) : Answer × Dev :=
  let open_ := s.sec.sealOpen
  let r := f (updSec (fun y => { y with sealOpen := x.sealOpen }) s)
  (r.1, updSec (fun y => { y with sealOpen := open_ }) r.2)

/-- The request of a frame waits for the retraining link of the die it asks (Table 1.6). -/
def frameWaits (p : Port) (x : Serving) (s : Dev) : Bool :=
  let i := x.frame.index.toNat
  !x.shut && (if x.op = opDrain then i < 12288 && (linkWaits s (0x3000 + 0x100 * (i / 512 % 24))).isSome
    else if x.op = opRead then (linkWaits s i).isSome
    else x.op = opWrite && !stagedRow p i x.frame.sub.toNat && (linkWaits s i).isSome)

/-- The segment of an upload whose response waits: it would fill the buffer of a supply warning beyond 64 KiB (Table 12.12). -/
def responseWaits (p : Port) (x : Serving) (s : Dev) : Bool :=
  frameWaits p x s || !x.shut && x.op = opWrite && !frameWhole x.frame && (domainRow p x.frame.index.toNat x.frame.sub.toNat).any (rowIs · oFwUpload) &&
    uploadFull p (uploadBytes p x.frame.data s)

/-- RESPONSE_READY (R353): the request in service ends, a write counts as applied, the response awaits FETCH. -/
def execResponseReady (p : Port) (s : State) : Host.Outcome State Fault Refusal := onDevNv s fun nv s =>
  match s.ports[p.idx].busy with
  | none => .next s
  | some x =>
    if responseWaits p x s then .next s
    else
    let r := underSeal x (serveFrame nv p x) s
    let respond (status code : Nat) (l : List Byte) : Dev :=
      updPort p (fun y => { y with busy := none, response := some ⟨status, x.frame.tag, code, l⟩ }) r.2
    match r.1 with
    | .done l => .next (respond 0 0 l)
    | .refused c => .next (respond 1 c [])
    | .none | .unanswered => .refused .reservedBit

/-! ### CAL_SEAL (R355) -/

/-- The seal changes. -/
def sealTo (b : Bool) (s : Dev) : Dev :=
  if s.sec.sealOpen = b then s else bump oCalSealChanges [] (updSec (fun x => { x with sealOpen := b }) s)

/-- CAL_SEAL_OPEN: 10 ms high. -/
def execCalSealOpen (s : State) : Host.Outcome State Fault Refusal := onDev s fun s => .next (sealTo true s)

/-- CAL_SEAL_CLOSE: 1 µs low. -/
def execCalSealClose (s : State) : Host.Outcome State Fault Refusal := onDev s fun s => .next (sealTo false s)

/-! ### The test access port (R358, R359) -/

/-- The fuse that removes an instruction (Table 12.5). -/
def tapFuse : TapInstr → Option Nat
  | .bypass | .idcode => none
  | .samplePreload | .extest => some 2
  | .objAccess => some 1
  | .debug => some 0

/-- The opcode of an instruction (Table 12.5). -/
def tapOpcode : TapInstr → BitVec 8
  | .bypass => 0xFF
  | .idcode => 0x01
  | .samplePreload => 0x02
  | .extest => 0x03
  | .objAccess => 0x10
  | .debug => 0x11

/-- The instruction of an opcode: every opcode that Table 12.5 does not list selects BYPASS (R358). -/
def tapOf (opcode : BitVec 8) : TapInstr :=
  (([.idcode, .samplePreload, .extest, .objAccess, .debug] : List TapInstr).find? fun i => tapOpcode i == opcode).getD .bypass

/-- The instruction that is in force: BYPASS where the fuse of the one selected is blown. -/
def tapSelects (nv : Nv) (i : TapInstr) : TapInstr := if (tapFuse i).any fun b => bitOf nv.fuses b then .bypass else i

/-- What the data register of an instruction captures: 0 for BYPASS, the IDCODE, else free (log 45). -/
def tapCapture (i : TapInstr) (s : Dev) : Nat :=
  match i with
  | .bypass => 0
  | .idcode => rd s oIdcode []
  | .samplePreload | .extest | .objAccess | .debug => Config.scanCapture s.free

/-- An instruction comes into force: its data register captures. -/
def tapEnters (i : TapInstr) (s : Dev) : Dev :=
  let v := tapCapture i s
  nextFree (updSec (fun x => { x with tap := i, tapData := v }) s)

/-- An opcode is shifted into the instruction register. -/
def tapShift (opcode : BitVec 8) (nv : Nv) (s : Dev) : Dev :=
  tapEnters (tapSelects nv (tapOf opcode)) (updSec (fun x => { x with ir := opcode }) s)

/-- An instruction is selected. -/
def tapSelect (i : TapInstr) (nv : Nv) (s : Dev) : Dev := tapShift (tapOpcode i) nv s

/-- BYPASS, by its own opcode. Nothing that the device shows depends on which of the opcodes that Table 12.5 does not list has selected it instead
(log 166). -/
def execBypass (s : State) : Host.Outcome State Fault Refusal := onDevNv s fun nv s => .next (tapSelect .bypass nv s)

/-- IDCODE. -/
def execIdcode (s : State) : Host.Outcome State Fault Refusal := onDevNv s fun nv s => .next (tapSelect .idcode nv s)

/-- The boundary register takes a pattern, where an instruction that reaches it is in force. -/
def scanIn (pattern : List (Nat × Bool)) (s : Dev) : Dev :=
  if s.sec.tap = .samplePreload ∨ s.sec.tap = .extest then updSec (fun x => { x with boundary := pattern }) s else s

/-- A scan of the boundary register, by SAMPLE/PRELOAD or under the instruction in force. -/
def execSamplePreload (scan : BoundaryScan) (s : State) : Host.Outcome State Fault Refusal := onDevNv s fun nv s =>
  .next (scanIn scan.pattern (if scan.keep then s else tapSelect .samplePreload nv s))

/-- EXTEST (R359): the balls follow the boundary register, as preloaded and as later scans leave it. -/
def execExtest (s : State) : Host.Outcome State Fault Refusal := onDevNv s fun nv s => .next (tapSelect .extest nv s)

/-- The level of an output ball with a cell of the boundary register (R359): under EXTEST it follows the register, but for the balls of a channel
whose source is not OFF. -/
def ballLevel (s : Dev) (owner : Option Ch) (cell : Nat) (functional : Bool) : Bool :=
  if s.sec.tap = .extest && owner.all fun n => decide ((s.ch n).src.st = .off) then
    ((s.sec.boundary.find? fun e => e.1 == cell).map (·.2)).getD functional
  else functional

/-- DEBUG: a view, nothing else. -/
def execDebug (s : State) : Host.Outcome State Fault Refusal := onDevNv s fun nv s => .next (tapSelect .debug nv s)

/-- OBJ_ACCESS: a frame of Table 12.1 shifted in as on Port S, unless the instruction is removed. -/
def execObjAccess (op : BitVec 8) (f : Frame) (s : State) : Host.Outcome State Fault Refusal := onDevNv s fun nv s =>
  let s := tapSelect .objAccess nv s
  .next (if s.sec.tap = .objAccess then hostFrame .d op.toNat f nv s else s)

/-- TRST: the TAP resets to IDCODE (R358, R403). -/
def execTrst (s : State) : Host.Outcome State Fault Refusal := onDev s fun s =>
  .next (updSec (fun x => { x with ir := tapOpcode .idcode, tap := .idcode, tapData := rd s oIdcode [] }) s)

/-! ### Fuses and attestation (R360, R362) -/

/-- FUSE_BLOW_COMPLETE (R360): the fuses of the write are blown; an instruction they remove selects BYPASS (R358). -/
def execFuseBlowComplete (s : State) : Host.Outcome State Fault Refusal := onBoth s fun nv s =>
  match s.sec.blowing with
  | some (f, _) =>
    let nv := { nv with fuses := nv.fuses ||| f }
    let s := updSec (fun x => { x with blowing := none }) s
    (nv, if tapSelects nv s.sec.tap = s.sec.tap then s else tapEnters .bypass s)
  | none => (nv, s)

/-- ATTEST_REPORT_READY (R362): the report and its signature are held for the port. -/
def execAttestReportReady (p : Port) (s : State) : Host.Outcome State Fault Refusal := onDev s fun s =>
  .next (
    match s.ports[p.idx].attest with
    | some x =>
      updPort p (fun y => { y with attest := none })
        (wrP s oAttestReport p (ofBytes (x.body ++ leBytes 114 (Config.identitySign x.body))) [])
    | none => s)

end Sys2Proof.Machine
end

