-- ==== Sys2Proof/Machine/Dispatch.lean ====
section
/-! DEFINITION. The meaning of each command, one arm per row of spec/opcode_table.json. -/

namespace Sys2Proof.Machine

/-- The effect of a command on everything but the queue of commands. -/
def exec (i : Instr) (s : State) : Host.Outcome State Fault Refusal :=
  match i with
  | .engineSelfCheckFail e => Sys2Proof.Machine.execEngineSelfCheckFail e s
  | .spareTakeoverComplete k => Sys2Proof.Machine.execSpareTakeoverComplete k s
  | .fabricMessageDelivered k m => Sys2Proof.Machine.execFabricMessageDelivered k m s
  | .messageRetry k => Sys2Proof.Machine.execMessageRetry k s
  | .linkTrainingAttemptEnd k width rate8 => Sys2Proof.Machine.execLinkTrainingAttemptEnd k width rate8 s
  | .linkTrainingRetry k => Sys2Proof.Machine.execLinkTrainingRetry k s
  | .fabricCounterClear p v => Sys2Proof.Machine.execFabricCounterClear p v s
  | .refLinkFault => Sys2Proof.Machine.execRefLinkFault s
  | .refLinkRecover => Sys2Proof.Machine.execRefLinkRecover s
  | .inputBoundaryEvent stamp mv => Sys2Proof.Machine.execInputBoundaryEvent stamp mv s
  | .sourceLossTimeout => Sys2Proof.Machine.execSourceLossTimeout s
  | .reelCycleBoundary => Sys2Proof.Machine.execReelCycleBoundary s
  | .holdoverAlarm => Sys2Proof.Machine.execHoldoverAlarm s
  | .cadenceRecordArrival k => Sys2Proof.Machine.execCadenceRecordArrival k s
  | .dieRecordExtend k => Sys2Proof.Machine.execDieRecordExtend k s
  | .recordAdoption k => Sys2Proof.Machine.execRecordAdoption k s
  | .reelCounterClear p v => Sys2Proof.Machine.execReelCounterClear p v s
  | .zhewickFrameTx => Sys2Proof.Machine.execZhewickFrameTx s
  | .zhewickFrameRx stamp bytes => Sys2Proof.Machine.execZhewickFrameRx stamp bytes s
  | .zhewickFrameLoss => Sys2Proof.Machine.execZhewickFrameLoss s
  | .returnMarkerTx => Sys2Proof.Machine.execReturnMarkerTx s
  | .returnFrameRx stamp bytes => Sys2Proof.Machine.execReturnFrameRx stamp bytes s
  | .syncIssue p num => Sys2Proof.Machine.execSyncIssue p num s
  | .syncEvent => Sys2Proof.Machine.execSyncEvent s
  | .sourceSampleSlot n => Sys2Proof.Machine.execSourceSampleSlot n s
  | .modulatorClock n outLimit compliance => Sys2Proof.Machine.execModulatorClock n outLimit compliance s
  | .stepHoldRelease n => Sys2Proof.Machine.execStepHoldRelease n s
  | .holdForced n => Sys2Proof.Machine.execHoldForced n s
  | .srcCodeWrite p n v => Sys2Proof.Machine.execSrcCodeWrite p n v s
  | .srcQueueDataWrite p n data => Sys2Proof.Machine.execSrcQueueDataWrite p n data s
  | .srcCounterClear p n v => Sys2Proof.Machine.execSrcCounterClear p n v s
  | .gndClampOpen n => Sys2Proof.Machine.execGndClampOpen n s
  | .forceEnAssert n => Sys2Proof.Machine.execForceEnAssert n s
  | .sourceRelease n => Sys2Proof.Machine.execSourceRelease n s
  | .disableRampEnd n => Sys2Proof.Machine.execDisableRampEnd n s
  | .disableComplete n => Sys2Proof.Machine.execDisableComplete n s
  | .rangeBreak n => Sys2Proof.Machine.execRangeBreak n s
  | .rangeChangeRelease n => Sys2Proof.Machine.execRangeChangeRelease n s
  | .resetGndClamp n => Sys2Proof.Machine.execResetGndClamp n s
  | .refSrcSettle n => Sys2Proof.Machine.execRefSrcSettle n s
  | .slotStart n a => Sys2Proof.Machine.execSlotStart n a s
  | .apertureEnd n a c => Sys2Proof.Machine.execApertureEnd n a c s
  | .takeFormation n a => Sys2Proof.Machine.execTakeFormation n a s
  | .powerupCalibrationComplete k slices sources => Sys2Proof.Machine.execPowerupCalibrationComplete k slices sources s
  | .rotation n a => Sys2Proof.Machine.execRotation n a s
  | .calPhaseComplete n a r => Sys2Proof.Machine.execCalPhaseComplete n a r s
  | .sliceRetirement n a slice => Sys2Proof.Machine.execSliceRetirement n a slice s
  | .refSettledSet n a => Sys2Proof.Machine.execRefSettledSet n a s
  | .calStale n a => Sys2Proof.Machine.execCalStale n a s
  | .urgentReq p n a v => Sys2Proof.Machine.execUrgentReq p n a v s
  | .urgentRequestArrival n a => Sys2Proof.Machine.execUrgentRequestArrival n a s
  | .urgentApertureEnd n a c => Sys2Proof.Machine.execUrgentApertureEnd n a c s
  | .tapSample n a v overload => Sys2Proof.Machine.execTapSample n a v overload s
  | .arrayCounterClear p n a v => Sys2Proof.Machine.execArrayCounterClear p n a v s
  | .mcfgTableWrite p n data => Sys2Proof.Machine.execMcfgTableWrite p n data s
  | .queueConfigWrite p n data => Sys2Proof.Machine.execQueueConfigWrite p n data s
  | .ctrlQueueConfigWrite p data => Sys2Proof.Machine.execCtrlQueueConfigWrite p data s
  | .queueDrain p n => Sys2Proof.Machine.execQueueDrain p n s
  | .queueFlush p n q => Sys2Proof.Machine.execQueueFlush p n q s
  | .queueForward n q => Sys2Proof.Machine.execQueueForward n q s
  | .takeCounterClear p n v => Sys2Proof.Machine.execTakeCounterClear p n v s
  | .peResultWrite n pe => Sys2Proof.Machine.execPeResultWrite n pe s
  | .peRestart p n pe v => Sys2Proof.Machine.execPeRestart p n pe v s
  | .loopPeriodBoundary n => Sys2Proof.Machine.execLoopPeriodBoundary n s
  | .lawHandoff n eccCorrections => Sys2Proof.Machine.execLawHandoff n eccCorrections s
  | .softTripAtLe n m => Sys2Proof.Machine.execSoftTripAtLe n m s
  | .xoverRelease p n v => Sys2Proof.Machine.execXoverRelease p n v s
  | .loopSpWrite p n v => Sys2Proof.Machine.execLoopSpWrite p n v s
  | .safeRampBegin n => Sys2Proof.Machine.execSafeRampBegin n s
  | .safeRampEnd n => Sys2Proof.Machine.execSafeRampEnd n s
  | .loopFaultClear p n v => Sys2Proof.Machine.execLoopFaultClear p n v s
  | .loopCounterClear p n v => Sys2Proof.Machine.execLoopCounterClear p n v s
  | .decisionPoint n => Sys2Proof.Machine.execDecisionPoint n s
  | .courseStart n => Sys2Proof.Machine.execCourseStart n s
  | .seqStart p n => Sys2Proof.Machine.execSeqStart p n s
  | .seqStop p n => Sys2Proof.Machine.execSeqStop p n s
  | .seqHold p n => Sys2Proof.Machine.execSeqHold p n s
  | .seqResume p n => Sys2Proof.Machine.execSeqResume p n s
  | .bankWrite p n b data => Sys2Proof.Machine.execBankWrite p n b data s
  | .bankHeaderWrite p n b sub v => Sys2Proof.Machine.execBankHeaderWrite p n b sub v s
  | .cutReq p n v => Sys2Proof.Machine.execCutReq p n v s
  | .trigInEdge k pin edge => Sys2Proof.Machine.execTrigInEdge k pin edge s
  | .chainCut p v => Sys2Proof.Machine.execChainCut p v s
  | .groupArrival n g => Sys2Proof.Machine.execGroupArrival n g s
  | .groupReleasePosition n => Sys2Proof.Machine.execGroupReleasePosition n s
  | .vectorDriveEdge n => Sys2Proof.Machine.execVectorDriveEdge n s
  | .vectorCompareFailure n x => Sys2Proof.Machine.execVectorCompareFailure n x s
  | .markerEdge n m => Sys2Proof.Machine.execMarkerEdge n m s
  | .markerPulseEnd n m => Sys2Proof.Machine.execMarkerPulseEnd n m s
  | .seqCounterClear p n v => Sys2Proof.Machine.execSeqCounterClear p n v s
  | .monitorFirstDecision n m x => Sys2Proof.Machine.execMonitorFirstDecision n m x s
  | .monitorStateChange n m x => Sys2Proof.Machine.execMonitorStateChange n m x s
  | .tripQualify n m => Sys2Proof.Machine.execTripQualify n m s
  | .escalationExpiry n m => Sys2Proof.Machine.execEscalationExpiry n m s
  | .blankingEnd n m x => Sys2Proof.Machine.execBlankingEnd n m x s
  | .guardLatchClear p n v => Sys2Proof.Machine.execGuardLatchClear p n v s
  | .verifyReq p n v => Sys2Proof.Machine.execVerifyReq p n v s
  | .verifyPeriodicDue n m => Sys2Proof.Machine.execVerifyPeriodicDue n m s
  | .verifyComplete n m hi lo => Sys2Proof.Machine.execVerifyComplete n m hi lo s
  | .verifyStale n m => Sys2Proof.Machine.execVerifyStale n m s
  | .guardCounterClear p n v => Sys2Proof.Machine.execGuardCounterClear p n v s
  | .ovenRegulating => Sys2Proof.Machine.execOvenRegulating s
  | .ovenWarmupLong => Sys2Proof.Machine.execOvenWarmupLong s
  | .ovenOutEntry => Sys2Proof.Machine.execOvenOutEntry s
  | .ovenOutExit => Sys2Proof.Machine.execOvenOutExit s
  | .ovenFault dieSensorFailed => Sys2Proof.Machine.execOvenFault dieSensorFailed s
  | .refTrimUpdate dieTemp subTemp heaterMw => Sys2Proof.Machine.execRefTrimUpdate dieTemp subTemp heaterMw s
  | .extLevelMeasurement microvolt => Sys2Proof.Machine.execExtLevelMeasurement microvolt s
  | .cmpStart p => Sys2Proof.Machine.execCmpStart p s
  | .cmpAbandon p => Sys2Proof.Machine.execCmpAbandon p s
  | .comparisonStart => Sys2Proof.Machine.execComparisonStart s
  | .comparisonPhaseEnd => Sys2Proof.Machine.execComparisonPhaseEnd s
  | .comparisonBackgroundDue => Sys2Proof.Machine.execComparisonBackgroundDue s
  | .srcSelfcal p n v => Sys2Proof.Machine.execSrcSelfcal p n v s
  | .selfcalComplete n current offset gain => Sys2Proof.Machine.execSelfcalComplete n current offset gain s
  | .applyMarkProgram => Sys2Proof.Machine.execApplyMarkProgram s
  | .calSealOpen => Sys2Proof.Machine.execCalSealOpen s
  | .calSealClose => Sys2Proof.Machine.execCalSealClose s
  | .ledgerAppend notBlank => Sys2Proof.Machine.execLedgerAppend notBlank s
  | .baselineReq p label => Sys2Proof.Machine.execBaselineReq p label s
  | .checkpoint => Sys2Proof.Machine.execCheckpoint s
  | .ledgerScanComplete torn broken => Sys2Proof.Machine.execLedgerScanComplete torn broken s
  | .calLoaded => Sys2Proof.Machine.execCalLoaded s
  | .driftRun p v => Sys2Proof.Machine.execDriftRun p v s
  | .unitRequest cls inst unit deadline => Sys2Proof.Machine.execUnitRequest cls inst unit deadline s
  | .unitGrant unit => Sys2Proof.Machine.execUnitGrant unit s
  | .unitRelease cls inst unit => Sys2Proof.Machine.execUnitRelease cls inst unit s
  | .holdOverrun unit => Sys2Proof.Machine.execHoldOverrun unit s
  | .backgroundLate cls inst unit => Sys2Proof.Machine.execBackgroundLate cls inst unit s
  | .waitGraphScan => Sys2Proof.Machine.execWaitGraphScan s
  | .hostRelease p v => Sys2Proof.Machine.execHostRelease p v s
  | .arbCommit p pos => Sys2Proof.Machine.execArbCommit p pos s
  | .arbCommitApply => Sys2Proof.Machine.execArbCommitApply s
  | .arbClear p v => Sys2Proof.Machine.execArbClear p v s
  | .txnOpen p v => Sys2Proof.Machine.execTxnOpen p v s
  | .rkWriteStage p index sub data => Sys2Proof.Machine.execRkWriteStage p index sub data s
  | .keystone p slot flags pos => Sys2Proof.Machine.execKeystone p slot flags pos s
  | .txnAbort p v => Sys2Proof.Machine.execTxnAbort p v s
  | .prepareAtDie p slot die => Sys2Proof.Machine.execPrepareAtDie p slot die s
  | .dieVote p slot die => Sys2Proof.Machine.execDieVote p slot die s
  | .voteDeadline p slot => Sys2Proof.Machine.execVoteDeadline p slot s
  | .decisionArrival p slot die => Sys2Proof.Machine.execDecisionArrival p slot die s
  | .presumedAbort p slot die => Sys2Proof.Machine.execPresumedAbort p slot die s
  | .keystoneApply p slot => Sys2Proof.Machine.execKeystoneApply p slot s
  | .sdoDownload index sub complete total data => Sys2Proof.Machine.execSdoDownload index sub complete total data s
  | .sdoUpload index sub complete => Sys2Proof.Machine.execSdoUpload index sub complete s
  | .sdoSegment toggle last data => Sys2Proof.Machine.execSdoSegment toggle last data s
  | .sdoSegmentTimeout => Sys2Proof.Machine.execSdoSegmentTimeout s
  | .sdoAbortByMaster => Sys2Proof.Machine.execSdoAbortByMaster s
  | .sdoInformation q => Sys2Proof.Machine.execSdoInformation q s
  | .foeWrite target last data => Sys2Proof.Machine.execFoeWrite target last data s
  | .foeRead => Sys2Proof.Machine.execFoeRead s
  | .unsupportedMailbox t => Sys2Proof.Machine.execUnsupportedMailbox t s
  | .alStateRequest r => Sys2Proof.Machine.execAlStateRequest r s
  | .ethercatLinkLoss port => Sys2Proof.Machine.execEthercatLinkLoss port s
  | .pdoMappingWrite index sub v => Sys2Proof.Machine.execPdoMappingWrite index sub v s
  | .rxpdoLatch images newBuffer => Sys2Proof.Machine.execRxpdoLatch images newBuffer s
  | .rxpdoAct n => Sys2Proof.Machine.execRxpdoAct n s
  | .txpdoInputLoad => Sys2Proof.Machine.execTxpdoInputLoad s
  | .sm2WatchdogExpiry => Sys2Proof.Machine.execSm2WatchdogExpiry s
  | .emergencySend => Sys2Proof.Machine.execEmergencySend s
  | .chFaultClear p n v => Sys2Proof.Machine.execChFaultClear p n v s
  | .portnCounterClear p v => Sys2Proof.Machine.execPortnCounterClear p v s
  | .fetch p => Sys2Proof.Machine.execFetch p s
  | .read p f => Sys2Proof.Machine.execRead p f s
  | .write p f => Sys2Proof.Machine.execWrite p f s
  | .drain p f => Sys2Proof.Machine.execDrain p f s
  | .cancel p f => Sys2Proof.Machine.execCancel p f s
  | .responseReady p => Sys2Proof.Machine.execResponseReady p s
  | .peerCmd p v => Sys2Proof.Machine.execPeerCmd p v s
  | .peerMessageRx fromUpstream field => Sys2Proof.Machine.execPeerMessageRx fromUpstream field s
  | .peerTimeout => Sys2Proof.Machine.execPeerTimeout s
  | .bypass => Sys2Proof.Machine.execBypass s
  | .idcode => Sys2Proof.Machine.execIdcode s
  | .samplePreload scan => Sys2Proof.Machine.execSamplePreload scan s
  | .extest => Sys2Proof.Machine.execExtest s
  | .objAccess op f => Sys2Proof.Machine.execObjAccess op f s
  | .debug => Sys2Proof.Machine.execDebug s
  | .trst => Sys2Proof.Machine.execTrst s
  | .fuseBlow p v => Sys2Proof.Machine.execFuseBlow p v s
  | .fuseBlowComplete => Sys2Proof.Machine.execFuseBlowComplete s
  | .attestNonce p nonce => Sys2Proof.Machine.execAttestNonce p nonce s
  | .attestReportReady p => Sys2Proof.Machine.execAttestReportReady p s
  | .fwUpload p data => Sys2Proof.Machine.execFwUpload p data s
  | .imageVerifyComplete slot flashOk => Sys2Proof.Machine.execImageVerifyComplete slot flashOk s
  | .fwConfirm p v => Sys2Proof.Machine.execFwConfirm p v s
  | .trialExpiry => Sys2Proof.Machine.execTrialExpiry s
  | .fwChLoad p v => Sys2Proof.Machine.execFwChLoad p v s
  | .fwChLoadComplete k ok => Sys2Proof.Machine.execFwChLoadComplete k ok s
  | .microcodeBankChange k n => Sys2Proof.Machine.execMicrocodeBankChange k n s
  | .fwFloorRaise p v => Sys2Proof.Machine.execFwFloorRaise p v s
  | .powerUpRelease => Sys2Proof.Machine.execPowerUpRelease s
  | .timingTreeCalComplete => Sys2Proof.Machine.execTimingTreeCalComplete s
  | .controlImageRunning => Sys2Proof.Machine.execControlImageRunning s
  | .supplyWarning inputs l => Sys2Proof.Machine.execSupplyWarning inputs l s
  | .supplyRecovering recovering l => Sys2Proof.Machine.execSupplyRecovering recovering l s
  | .supplyRecoveryComplete => Sys2Proof.Machine.execSupplyRecoveryComplete s
  | .supplyReset => Sys2Proof.Machine.execSupplyReset s
  | .dieRailFault => Sys2Proof.Machine.execDieRailFault s
  | .dieRailRemoval => Sys2Proof.Machine.execDieRailRemoval s
  | .trkPwmPeriod n => Sys2Proof.Machine.execTrkPwmPeriod n s
  | .slateInEdge falling => Sys2Proof.Machine.execSlateInEdge falling s
  | .slateNow p v => Sys2Proof.Machine.execSlateNow p v s
  | .slateAt p pos => Sys2Proof.Machine.execSlateAt p pos s
  | .slateAtReached => Sys2Proof.Machine.execSlateAtReached s
  | .slateChain p pos => Sys2Proof.Machine.execSlateChain p pos s
  | .chainSlateReached => Sys2Proof.Machine.execChainSlateReached s
  | .slateCapture => Sys2Proof.Machine.execSlateCapture s
  | .slateRingTransfer => Sys2Proof.Machine.execSlateRingTransfer s
  | .slateCounterClear p v => Sys2Proof.Machine.execSlateCounterClear p v s
  | .scrubPass k corrected pool => Sys2Proof.Machine.execScrubPass k corrected pool s
  | .eccUncorrectable k cls addr where_ => Sys2Proof.Machine.execEccUncorrectable k cls addr where_ s
  | .mcReloadComplete k => Sys2Proof.Machine.execMcReloadComplete k s
  | .telemetryReport k temp vCore vAnaP vAnaN => Sys2Proof.Machine.execTelemetryReport k temp vCore vAnaP vAnaN s
  | .dieCounterClear p k v => Sys2Proof.Machine.execDieCounterClear p k v s
  | .supplyCounterClear p v => Sys2Proof.Machine.execSupplyCounterClear p v s
  | .restartReq p v => Sys2Proof.Machine.execRestartReq p v s
  | .controlDieRestart cause => Sys2Proof.Machine.execControlDieRestart cause s
  | .restartTimeout => Sys2Proof.Machine.execRestartTimeout s
  | .objectWrite p index sub data => Sys2Proof.Machine.execObjectWrite p index sub data s
  | .phyRstRelease => Sys2Proof.Machine.execPhyRstRelease s
  | .miiPortLinkUp port => Sys2Proof.Machine.execMiiPortLinkUp port s
  | .siiStationAliasWrite word v => Sys2Proof.Machine.execSiiStationAliasWrite word v s
  | .mailboxSm1Read => Sys2Proof.Machine.execMailboxSm1Read s

end Sys2Proof.Machine
end

