-- ==== Sys2Proof/Machine/Step.lean ====
section
/-! DEFINITION. One step: the command at the front of the queue, or one tick of the master clock. -/

namespace Sys2Proof.Machine

/-- The queue loses its front. -/
def State.behind (s : State) (rest : List Instr) : State := { s with pending := rest }

/-- A step takes the command at the front of the queue and runs it with the queue's rest; on an empty queue one master tick passes
(R12, log 1). -/
def step (s : State) : Host.Outcome State Fault Refusal :=
  match s.pending with
  | [] => .next (idle s)
  | i :: rest => exec i (s.behind rest)

/-- The state with the command a word spells at the front of its queue; unchanged where the word spells none. -/
def State.withFetchWord (s : State) (nbits w : Nat) : State :=
  match decodeTableWord nbits w with
  | some i => { s with pending := i :: s.pending }
  | none => s

end Sys2Proof.Machine
end

