-- ==== Sys2Proof/Machine/Balls.lean ====
section
/-! DEFINITION. The 1600 balls of the package (00 R16, 14 R403 to R407, R412): the signal of every ball, its direction and I/O type, the level of
an input that nothing drives, and which output balls a channel keeps under EXTEST (12 R359). -/

namespace Sys2Proof.Machine

/-- The per-channel signals of Table 14.1; the inputs AUX0–3 and the drivers RANGE_SEL0–7 by their number. -/
inductive ChSignal where
  | senseHi | senseLo | shuntHi | shuntLo | aux (i : Fin 4) | guard | forceOut | forceEnN | rangeSel (i : Fin 8) | trkP | trkN | markA | markB
  deriving DecidableEq, Repr

/-- The signals of one MII port (Table 14.1). -/
inductive MiiSignal where
  | txd (i : Fin 4) | txEn | txEr | txClk | crs | rxd (i : Fin 4) | rxDv | rxEr | rxClk | col
  deriving DecidableEq, Repr

/-- A pair of the Zhewick link: the side it faces, its frames (Table 14.1). -/
inductive LinkPair where
  | upFwd | upRet | dnFwd | dnRet
  deriving DecidableEq, Repr

/-- The supply inputs of Table 13.1. -/
inductive SupplyBall where
  | vsys | avp | avn | vio
  deriving DecidableEq, Repr

/-- What a ball carries (Table 14.1). -/
inductive Signal where
  | ch (n : Ch) (x : ChSignal)
  | vec (die : Die) (lane : Fin 32)
  | trigIn (die : Die) (i : Fin 4)
  | mii (port : Fin 2) (x : MiiSignal)
  | mdc | mdio | phyRstN
  | sCsN | sSck | sMosi | sMiso | irqN
  | cCsN | cSck | cMosi | cMiso | calSeal
  | tck | tms | tdi | tdo | trstN
  | flCsN | flSck | flIo (i : Fin 4)
  | link (pair : LinkPair) (negative : Bool)
  | mainsIn (negative : Bool) | refclkIn | ppsIn | slateIn
  | refx (negative : Bool)
  | supply (x : SupplyBall)
  | agnd | gnd | dnc
  deriving DecidableEq, Repr

/-- The 40 row letters, in order (R16). -/
def rowLetters : List String :=
  ["A", "B", "C", "D", "E", "F", "G", "H", "J", "K", "L", "M", "N", "P", "T", "U", "V", "W", "Y", "AA"] ++
  ["AB", "AC", "AD", "AE", "AF", "AG", "AH", "AJ", "AK", "AL", "AM", "AN", "AP", "AT", "AU", "AV", "AW", "AY", "BA", "BB"]

/-- A ball: its row index, 1 to 40, and its column, 1 to 40 (R16, R404). -/
structure Ball where
  row : Nat
  col : Nat
  deriving DecidableEq, Repr

/-- The name of a ball: its row letters followed by its column number (R16). -/
def Ball.name (b : Ball) : String := (rowLetters.getD (b.row - 1) "") ++ toString b.col

/-- Where a ball of a Channel die site lies: die, depth from the package edge, position along the edge (Table 14.2). -/
structure SitePlace where
  die : Die
  depth : Nat
  pos : Nat
  deriving DecidableEq, Repr

/-- Table 14.2, read from the ball to its site; none in the central field. -/
def Ball.site (b : Ball) : Option SitePlace :=
  if b.col ≤ 10 then (if b.row ≤ 20 then some ⟨0, b.col - 1, b.row - 1⟩ else some ⟨1, b.col - 1, b.row - 21⟩)
  else if 31 ≤ b.col then (if b.row ≤ 20 then some ⟨2, 40 - b.col, b.row - 1⟩ else some ⟨3, 40 - b.col, b.row - 21⟩)
  else if b.row ≤ 10 then some ⟨4, b.row - 1, b.col - 11⟩
  else if 31 ≤ b.row then some ⟨5, 40 - b.row, b.col - 11⟩
  else none

/-- Table 14.3: the signal of a channel's balls at depth d and q = 0 to 3; none is one of the grounds `patternGround`. -/
def chPattern (depth q : Nat) : Option ChSignal :=
  match depth, q with
  | 0, 0 => some .senseHi
  | 0, 1 => some .senseLo
  | 0, 2 => some .shuntHi
  | 0, _ => some .shuntLo
  | 1, 1 => some .guard
  | 2, _ => some (.aux (Fin.ofNat 4 q))
  | 3, 1 => some .forceOut
  | 5, 0 => some .forceEnN
  | 5, 1 => some .markA
  | 5, 2 => some .markB
  | 6, _ => some (.rangeSel (Fin.ofNat 8 q))
  | 7, _ => some (.rangeSel (Fin.ofNat 8 (4 + q)))
  | 8, 0 => some .trkP
  | 8, 1 => some .trkN
  | _, _ => none

/-- Table 14.3: the grounds of the per-channel pattern, analog down to depth 4 where q is 0 or 1. -/
def patternGround (depth q : Nat) : Signal := if depth ≤ 3 || (depth = 4 && q ≤ 1) then .agnd else .gnd

/-- The signal at a place of a Channel die site (R405, R406). -/
def SitePlace.signal (x : SitePlace) : Signal :=
  let q := x.pos % 4
  if x.pos < 16 then
    match chPattern x.depth q with
    | some y => .ch ⟨(4 * x.die.val + x.pos / 4) % 24, Nat.mod_lt _ (by decide)⟩ y
    | none => patternGround x.depth q
  else if x.depth = 0 then .trigIn x.die (Fin.ofNat 4 q)
  else if x.depth ≤ 8 then .vec x.die (Fin.ofNat 32 (4 * (x.depth - 1) + q))
  else .gnd

/-- The MII signals of rows L and M, in the order of Table 14.4. -/
def miiRow (second : Bool) (i : Nat) : MiiSignal :=
  match second, i with
  | false, 4 => .txEn
  | false, 5 => .txEr
  | false, 6 => .txClk
  | false, 7 => .crs
  | true, 4 => .rxDv
  | true, 5 => .rxEr
  | true, 6 => .rxClk
  | true, 7 => .col
  | false, i => .txd (Fin.ofNat 4 i)
  | true, i => .rxd (Fin.ofNat 4 i)

/-- Table 14.4: runs of balls of one row of the central field, as row, first column and the signals from there on. -/
def centralRuns : List (Nat × Nat × List Signal) :=
  let mii (p : Fin 2) (second : Bool) := (List.range 8).map fun i => Signal.mii p (miiRow second i)
  let run (n : Nat) (x : Signal) := List.replicate n x
  [(11, 11, mii 0 false), (12, 11, mii 0 true), (11, 21, mii 1 false), (12, 21, mii 1 true),
   (13, 11, [.mdc, .mdio, .phyRstN]), (13, 15, [.flCsN, .flSck, .flIo 0, .flIo 1, .flIo 2, .flIo 3]),
   (13, 22, [.sCsN, .sSck, .sMosi, .sMiso, .irqN]),
   (14, 11, [.cCsN, .cSck, .cMosi, .cMiso, .calSeal]), (14, 17, [.tck, .tms, .tdi, .tdo, .trstN]), (14, 23, [.slateIn, .ppsIn, .refclkIn]),
   (15, 11, [.link .upFwd false, .link .upFwd true]), (15, 14, [.link .upRet false, .link .upRet true]),
   (15, 26, [.link .dnFwd false, .link .dnFwd true]), (15, 29, [.link .dnRet false, .link .dnRet true])] ++
  [(16, 11, run 9 .dnc), (17, 11, run 8 (.supply .vsys)), (18, 11, run 8 (.supply .vsys)), (17, 23, run 8 (.supply .vio)),
   (19, 11, run 6 (.supply .avp)), (20, 11, run 6 (.supply .avp)), (19, 25, run 6 (.supply .avn)), (20, 25, run 6 (.supply .avn)),
   (30, 14, [.mainsIn false, .mainsIn true]), (30, 19, [.refx false, .refx true])]

/-- A ball of the central field: Table 14.4, else GND down to row AA and AGND below (R407). -/
def Ball.central (b : Ball) : Signal :=
  match centralRuns.find? fun r => r.1 = b.row && decide (r.2.1 ≤ b.col) && decide (b.col < r.2.1 + r.2.2.length) with
  | some r => r.2.2.getD (b.col - r.2.1) .gnd
  | none => if b.row ≤ 20 then .gnd else .agnd

/-- The signal of a ball of the package (R403 to R407). -/
def Ball.signal (b : Ball) : Signal :=
  match b.site with
  | some x => x.signal
  | none => b.central

/-- The 1600 balls (R16). -/
def balls : List Ball := (List.range 40).flatMap fun r => (List.range 40).map fun c => ⟨r + 1, c + 1⟩

/-- The ball that carries a signal of which the package has one: the first in the order of rows and columns. -/
def Signal.ball (x : Signal) : Option Ball := balls.find? fun b => decide (b.signal = x)

/-- The direction of a ball (Table 14.1). -/
inductive Direction where
  | input | output | inOut | noDirection
  deriving DecidableEq, Repr

/-- The direction of a signal (Table 14.1; the MII signals by IEEE 802.3 clause 22, as R418 drives and samples them). -/
def Signal.direction : Signal → Direction
  | .ch _ x =>
    match x with
    | .senseHi | .senseLo | .shuntHi | .shuntLo | .aux _ | .guard => .input
    | .forceOut | .forceEnN | .rangeSel _ | .trkP | .trkN | .markA | .markB => .output
  | .mii _ x =>
    match x with
    | .txd _ | .txEn | .txEr => .output
    | .txClk | .crs | .rxd _ | .rxDv | .rxEr | .rxClk | .col => .input
  | .link p _ => if p = .upFwd ∨ p = .dnRet then .input else .output
  | .vec _ _ | .mdio | .flIo _ | .refx _ => .inOut
  | .mdc | .phyRstN | .sMiso | .irqN | .cMiso | .tdo | .flCsN | .flSck => .output
  | .trigIn _ _ | .sCsN | .sSck | .sMosi | .cCsN | .cSck | .cMosi | .calSeal | .tck | .tms | .tdi | .trstN => .input
  | .mainsIn _ | .refclkIn | .ppsIn | .slateIn => .input
  | .supply _ | .agnd | .gnd | .dnc => .noDirection

/-- The I/O types of Table 14.7; A is analog, SUP is supply and ground, a DNC ball has none. -/
inductive IoType where
  | a | d33 | d33pd | d33t | lvds | clk | sup | noType
  deriving DecidableEq, Repr

/-- The I/O type of a signal (Table 14.1). -/
def Signal.ioType : Signal → IoType
  | .ch _ x =>
    match x with
    | .forceEnN => .d33t
    | .rangeSel _ | .trkP | .trkN | .markA | .markB => .d33
    | .senseHi | .senseLo | .shuntHi | .shuntLo | .aux _ | .guard | .forceOut => .a
  | .trigIn _ _ | .calSeal | .ppsIn | .slateIn => .d33pd
  | .link _ _ => .lvds
  | .mainsIn _ | .refx _ => .a
  | .refclkIn => .clk
  | .supply _ | .agnd | .gnd => .sup
  | .dnc => .noType
  | .vec _ _ | .mii _ _ | .mdc | .mdio | .phyRstN | .sCsN | .sSck | .sMosi | .sMiso | .irqN => .d33
  | .cCsN | .cSck | .cMosi | .cMiso | .tck | .tms | .tdi | .tdo | .trstN | .flCsN | .flSck | .flIo _ => .d33

/-- What an input that nothing drives reads as, where the device has a pull on it: D33PD and TCK low, TMS, TDI and TRST_n high (R407, Table
14.7); none where the manual gives no pull. -/
def Signal.undriven (x : Signal) : Option Bool :=
  match x with
  | .tms | .tdi | .trstN => some true
  | .tck => some false
  | _ => if x.ioType = .d33pd then some false else none

/-- The channel whose source state decides over a ball under EXTEST (R359): a channel's own drivers, and the vector lanes mapped to it (R235). -/
def Signal.extestOwner (s : Dev) : Signal → Option Ch
  | .ch n x =>
    match x with
    | .forceEnN | .rangeSel _ | .trkP | .trkN | .markA | .markB => some n
    | .senseHi | .senseLo | .shuntHi | .shuntLo | .aux _ | .guard | .forceOut => none
  | .vec k lane =>
    (List.finRange 24).find? fun n => n.die = k && (List.range 8).any fun i => rdJ s oVecMap [n] i = lane.val
  | _ => none

/-- The level of an output ball (R359): the boundary register's under EXTEST, but for what a channel keeps. -/
def Ball.level (s : Dev) (b : Ball) (cell : Nat) (functional : Bool) : Bool := ballLevel s (b.signal.extestOwner s) cell functional

/-! ### What the device drives (Table 13.3) -/

/-- The level of a tracking output (R383): high for the first `duty` ticks of a period. -/
def trackHigh (s : Dev) (duty : Nat) : Bool := decide (s.now % 2048 < duty)

/-- The level that a drive state of a lane drives, none for high impedance (Table 7.4). -/
def laneDrive (code : Nat) : Option Bool := if code = 0 then some false else if code = 1 then some true else none

/-- The drive of a vector lane: that of the lane slot it is mapped to, none while it is mapped to no channel (R235, R237). -/
def vecDrive (s : Dev) (k : Die) (lane : Nat) : Option Bool :=
  ((List.finRange 24).findSome? fun (n : Ch) =>
    if n.die = k then ((List.range 8).find? fun i => rdJ s oVecMap [n] i = lane).map fun i => (s.ch n).seq.lanes.getD i 2 else none).bind laneDrive

/-- The level that the device drives on a digital output of its own; none where the ball is at high impedance, is analog, or carries the bits of a
frame or of a management or flash access (R91, R354, R376, R381, R413; Table 13.3). -/
def Signal.drive (s : Dev) (x : Signal) : Option Bool :=
  if !outputsDriven s then none
  else
    match x with
    | .ch n .forceEnN => some (!(s.ch n).src.forceEn)
    | .ch n (.rangeSel i) => some (bitOf (s.ch n).src.rangeSel i)
    | .ch n .trkP => some (trackHigh s (s.ch n).track.dutyP)
    | .ch n .trkN => some (trackHigh s (s.ch n).track.dutyN)
    | .ch n .markA => some (markHigh (s.ch n).seq.markA.ball)
    | .ch n .markB => some (markHigh (s.ch n).seq.markB.ball)
    | .vec k lane => vecDrive s k lane
    | .irqN => some (!irqLow s)
    | .phyRstN => some s.supply.phy
    | _ => none

/-- The code of FORCE_OUT (R73, R91, Table 3.3): none before the release and behind the HIZ clamp, 0 behind the GND clamp. -/
def forceOut (s : Dev) (n : Ch) : Option Int :=
  let x := (s.ch n).src
  if !outputsDriven s || (x.hizClamp && !x.gndClamp) then none else if x.gndClamp then some 0 else some x.pin

end Sys2Proof.Machine
end

