-- ==== Sys2Proof/Safety.lean ====
section
/-! DEFINITION. The terms that claims use: a live device, a command that completes, a port that is served, a die that is reached, what only
grows. -/

namespace Sys2Proof.Machine

/-- The state with its device replaced by `d` and what follows every command (R345, R347); the ledger, the fuses and the queue stay. -/
def State.acts (s : State) (d : Dev) : State := { s with dev := after s.dev d }

/-- The command completes: exec answers the next state in which the device is `d`. -/
def Completes (i : Instr) (s : State) (d : Dev) : Prop := exec i s = .next (s.acts d)

/-- The dies are released and run (Table 13.4). -/
def Live (s : State) : Prop := s.dev.supply.released = true

/-- A port is served and may write the objects of a row (R328, R349, R350; R332, checks 1 and 2), and no earlier request of it waits on a link that
retrains (Table 1.6, R333). -/
def Served (s : State) (p : Port) (r : Row) : Prop :=
  Live s ∧ serves s.dev p = true ∧ portShut s.nv s.dev p = false ∧ mayWrite r p = .ok ∧ portHolds s.dev p = none

/-- The link of a Channel die is ACTIVE (R332, check 4). -/
def LinkUp (s : State) (k : Die) : Prop := s.dev.dies[k].link.st = .active

/-- The device after a write that is done, at the port that made it. -/
def done (p : Port) (d : Dev) : Dev := setAnswer p (.done []) d

/-- From `a` to `b` only time, objects and channel n have changed. -/
def chanOnly (n : Ch) (a b : Dev) : Prop := b = { a with now := b.now, objs := b.objs, chans := a.chans.set n (b.ch n) }

/-- From `a` to `b` no object has changed but those of the keys. -/
def objsKept (keys : List Nat) (a b : Dev) : Prop := ∀ k, k ∉ keys → tabFind b.objs k = tabFind a.objs k

/-- Every fuse of `a` is blown in `b` (R360). -/
def fusesKept (a b : Nat) : Prop := ∀ i, bitOf a i = true → bitOf b i = true

/-- A ledger record without its APPLY_MARK, which alone of a record can change, from 0xFF to 0 (R289). -/
def LRecord.unmarked (r : LRecord) : LRecord := { r with mark := 0xFF }

/-- The records from one of SEQ `seq` and hash `hash` on: SEQ counts, every record holds the hash of the one before it and the device's
signature of its own header (R290). -/
def chained : Nat → Nat → List LRecord → Prop
  | _, _, [] => True
  | seq, hash, r :: t =>
    r.seq = (seq + 1) % 2 ^ 32 ∧ r.prevHash = hash ∧ r.devSig = Config.identitySign (headerBytes r 0xFF) ∧ chained r.seq (recordHash r) t

/-- The ledger continues the shipped one as R290 chains it, within its pages (R289). -/
def ledgerInv (nv : Nv) : Prop := chained Config.shippedSeq Config.shippedHash nv.recs ∧ nv.used ≤ Config.shippedFree

/-- Published records lie without gap or overlap (R47), newest first. -/
def contiguous : List Rec → Prop
  | a :: b :: t => a.base = b.base + b.len ∧ a.c = (b.c + 1) % 2 ^ 32 ∧ contiguous (b :: t)
  | _ => True

/-- Commands that carry a value or a frame of an object, and so may set a bit that the manual reserves (R8): all but these complete in every
state. -/
def mayReserve (i : Instr) : Bool :=
  match i with
  | .fabricCounterClear .. | .reelCounterClear .. | .zhewickFrameRx .. | .returnFrameRx .. | .syncIssue .. | .srcCodeWrite .. | .srcQueueDataWrite ..
  | .srcCounterClear .. | .urgentReq .. | .arrayCounterClear .. | .mcfgTableWrite .. | .queueConfigWrite .. | .ctrlQueueConfigWrite ..
  | .queueFlush .. | .takeCounterClear .. | .peRestart .. | .xoverRelease .. | .loopSpWrite .. | .loopFaultClear .. | .loopCounterClear ..
  | .bankWrite .. | .bankHeaderWrite .. | .cutReq .. | .chainCut .. | .seqCounterClear .. | .guardLatchClear .. | .verifyReq ..
  | .guardCounterClear .. | .cmpStart .. | .cmpAbandon .. | .srcSelfcal .. | .baselineReq .. | .driftRun .. | .hostRelease .. | .arbCommit ..
  | .arbClear .. | .txnOpen .. | .rkWriteStage .. | .keystone .. | .txnAbort .. | .sdoDownload .. | .sdoSegment .. | .pdoMappingWrite ..
  | .chFaultClear .. | .portnCounterClear .. | .responseReady .. | .peerCmd .. | .peerMessageRx .. | .fuseBlow .. | .attestNonce .. | .fwUpload ..
  | .fwConfirm .. | .fwChLoad .. | .fwFloorRaise .. | .slateNow .. | .slateAt .. | .slateChain .. | .slateCounterClear .. | .dieCounterClear ..
  | .supplyCounterClear .. | .restartReq .. | .objectWrite .. => true
  | _ => false

end Sys2Proof.Machine
end

