-- ==== Sys2Proof/Certificates/Slice0/Obligations.lean ====
section
/-! DEFINITION. The statements for the provers, from the manual's numbered rules. `Completes i s d` says that exec answers the next state of `i` with
the device `d`, so that each such clause states the effect and the frame of a command together. -/

section
open Sys2Proof Sys2Proof.Machine

/-- O1. Retries of a message (R36: three, then a retrain; Table 1.9 bounds the counts), training attempts (R36, Table 1.6), the loss of a link (R37, R63) and the retries of a LOST one. The rate of a link that fell back earlier is read from log 117, requests that a link holds are log 161. -/
def Obligations.LinkTraining : Prop :=
  (∀ (s : Sys2Proof.Machine.State) (k : Die), Live s →
    (¬ LinkUp s k → Completes (.messageRetry k) s s.dev) ∧
    (LinkUp s k → (s.dev.dies[k]).link.msgRetry < 3 →
      Completes (.messageRetry k) s (updLink k (fun l => { l with msgRetry := l.msgRetry + 1, retries := min 65535 (l.retries + 1) }) s.dev)) ∧
    (LinkUp s k → 3 ≤ (s.dev.dies[k]).link.msgRetry →
      Completes (.messageRetry k) s (logEvent 0x04 k 3
        (updLink k (fun l => { l with st := .retraining, msgRetry := 0, fails := 0, retrains := min 255 (l.retrains + 1) }) s.dev)))) ∧
  (∀ (s : Sys2Proof.Machine.State) (k : Die), Live s →
    let l := (s.dev.dies[k]).link
    (∀ (w : BitVec 2) (r : Bool), l.st = .retraining ∨ l.st = .training ∨ (l.st = .lost ∧ l.retrying = true) → w ≠ 0 → serviceGone s.dev k 0 = false →
      (s.dev.dies[k]).events = [] → s.dev.slate.parts = [] → s.dev.zh.sync = none → (∀ e ∈ allTxns s.dev, e.2.2.st ≠ .split) →
      let up := logEvent 0x04 k 2 (updLink k (fun l => { l with
        st := .active, width := if l.degraded = true ∧ w = 3 then l.width else w, rate8 := decide (l.fails < 2) && (l.rate8 || r)
        degraded := l.degraded || w != 3, fails := 0, retrying := false, announced := false, held := [], activeAt := s.dev.now }) s.dev)
      (l.held = [] → Completes (.linkTrainingAttemptEnd k (some w) r) s up) ∧
      (∀ (p : Port), ∀ row ∈ [oSlateOnSplit, oEmcyMask], ∀ data : List Byte, l.held = [.request p (.write false false row.ix row.sub data)] →
        portShut s.nv s.dev p = false → mayWrite row p = .ok → data.length = row.size → limitCheck row (ofBytes data) = .ok →
        Completes (.linkTrainingAttemptEnd k (some w) r) s (done p (wr up row (ofBytes data) [])))) ∧
    (∀ (r : Bool), l.st = .retraining ∨ l.st = .training → l.fails < 2 →
      Completes (.linkTrainingAttemptEnd k none r) s
        (updLink k (fun l => { l with fails := l.fails + 1, rate8 := l.rate8 && decide (l.fails = 0) }) s.dev)) ∧
    (∀ (r : Bool), l.st = .lost → l.retrying = true →
      Completes (.linkTrainingAttemptEnd k none r) s
        (updLink k (fun l => { l with fails := l.fails + 1, rate8 := l.rate8 && decide (l.fails = 0), retrying := false }) s.dev)) ∧
    (∀ (r : Bool), l.st = .retraining ∨ l.st = .training → l.fails = 2 →
      ∃ d, Completes (.linkTrainingAttemptEnd k none r) s d ∧ (d.dies[k]).link.st = .lost ∧ (d.dies[k]).extending = true ∧
        (∀ j : Die, j ≠ k → d.dies[j] = s.dev.dies[j]) ∧
        ∀ n : Ch, d.ch n = { s.dev.ch n with seq := { (s.dev.ch n).seq with holdLink := decide (n.die = k) || (s.dev.ch n).seq.holdLink } }) ∧
    (l.st = .lost → l.announced = false →
      let d := advance (l.tryAt + 10 * msTicks) s.dev
      Completes (.linkTrainingRetry k) s (updLink k (fun l => { l with retrying := true, tryAt := d.now }) d)))

/-- O2. Delivery over a link (R36, R41, R42): codes, setpoints and takes over an ACTIVE link, order kept while it retrains. -/
def Obligations.FabricDelivery : Prop :=
  ∀ (s : Sys2Proof.Machine.State) (k : Die) (n : Ch), Live s → n.die = k →
    let b := updLink k (fun l => { l with msgRetry := 0 }) s.dev
    (LinkUp s k →
      (∀ v, Completes (.fabricMessageDelivered k (.code n v)) s (wr b oSrcCode v.toNat [n])) ∧
      (∀ v, Completes (.fabricMessageDelivered k (.setpoint n v)) s (loopSpWrite n v.toNat b) ∧
        rd (loopSpWrite n v.toNat b) oLoopSp [n] = v.toNat ∧ ((s.dev.ch n).loop.xover = none → loopSpWrite n v.toNat b = wr b oLoopSp v.toNat [n])) ∧
      (∀ a w q, ∃ d, Completes (.fabricMessageDelivered k (.take n a w q)) s d ∧
        (∃ rest, d.portN.takes = (2 * n.val + a.idx, w.toNat, q.toNat) :: rest ∧ ∀ e ∈ rest, e ∈ s.dev.portN.takes ∧ e.1 ≠ 2 * n.val + a.idx) ∧
        d.objs = s.dev.objs ∧ d.chans = s.dev.chans) ∧
      (∀ q, Completes (.fabricMessageDelivered k (.record n q)) s (queueForward n q b)) ∧
      (∀ p i, Completes (.fabricMessageDelivered k (.vote p i)) s (voteArrives p i (k.val + 1) b)) ∧
      (∀ p i, Completes (.fabricMessageDelivered k (.decision p i)) s (decisionArrives p i (k.val + 1) b))) ∧
    (∀ m, (s.dev.dies[k]).link.st = .retraining →
      Completes (.fabricMessageDelivered k m) s (updLink k (fun l => { l with held := l.held ++ [.fabric m] }) s.dev)) ∧
    (∀ m, (s.dev.dies[k]).link.st = .lost ∨ (s.dev.dies[k]).link.st = .training ∨ (s.dev.dies[k]).link.st = .reset →
      Completes (.fabricMessageDelivered k m) s s.dev)

/-- O3. Engine failures of Table 1.3 (R31): channel engines, services, spare, supervisor cores; and the reference control link (R38): the Reference die keeps its state, a comparison is abandoned (R279). -/
def Obligations.EngineFailures : Prop :=
  ∀ (s : Sys2Proof.Machine.State) (k : Die) (i : Fin 8), Live s →
    let x := (s.dev.dies[k]).services
    (∀ (n : Ch) (e : ChEngine), ∃ d, Completes (.engineSelfCheckFail (.chan n e)) s d ∧ bitOf (rd d oEngineFault [n]) e.idx = true ∧
      bitOf (rd d oChFault [n]) 1 = true ∧ (∀ m : Ch, m ≠ n → d.ch m = s.dev.ch m) ∧ d.cad = s.dev.cad ∧ d.ledger = s.dev.ledger ∧ (e ≠ .ge → d.arb = s.dev.arb)) ∧
    (i.val < 7 → x.spare = none → x.loading = none → x.spareDead = false →
      ∃ d, Completes (.engineSelfCheckFail (.ds k i)) s d ∧ (d.dies[k]).services = { x with
          map := BitVec.ofNat 8 (clearBit x.map.toNat i), loading := some i } ∧
        (∀ j : Die, j ≠ k → d.dies[j] = s.dev.dies[j]) ∧ d.chans = s.dev.chans) ∧
    (i.val < 7 → x.spare ≠ none ∨ x.loading ≠ none ∨ x.spareDead = true →
      ∃ d, Completes (.engineSelfCheckFail (.ds k i)) s d ∧ (d.dies[k]).services.stopped = x.stopped ||| BitVec.ofNat 8 (2 ^ i.val) ∧
        (i = 0 → (d.dies[k]).link.st = .lost) ∧ ∀ j : Die, j ≠ k → d.dies[j] = s.dev.dies[j]) ∧
    (∃ d, Completes (.engineSelfCheckFail (.ds k 7)) s d ∧ (d.dies[k]).services.spareDead = true ∧ (d.dies[k]).services.loading = none ∧
      (d.dies[k]).services.stopped = (match x.spare, x.loading with
        | some j, _ => x.stopped ||| BitVec.ofNat 8 (2 ^ j.val)
        | none, some j => x.stopped ||| BitVec.ofNat 8 (2 ^ j.val)
        | none, none => x.stopped) ∧ ∀ j : Die, j ≠ k → d.dies[j] = s.dev.dies[j]) ∧
    (∀ j, x.loading = some j →
      let d := updServices k (fun x => { x with spare := some j, loading := none, map := BitVec.ofNat 8 (setBit x.map.toNat 7) }) s.dev
      (j ≠ 2 → Completes (.spareTakeoverComplete k) s d) ∧
      (j = 2 → ∃ e, Completes (.spareTakeoverComplete k) s e ∧ e = { d with chans := e.chans } ∧
        (∀ n : Ch, n.die ≠ k → e.ch n = s.dev.ch n) ∧
        ∀ n : Ch, n.die = k → e.ch n = { s.dev.ch n with
          vm := { (s.dev.ch n).vm with cal := (s.dev.ch n).vm.cal.map fun c => { c with since := s.dev.now } }
          im := { (s.dev.ch n).im with cal := (s.dev.ch n).im.cal.map fun c => { c with since := s.dev.now } }
          mons := (s.dev.ch n).mons.map fun y => { y with verifyAt := y.verifyAt.map fun _ => s.dev.now } })) ∧
    (x.loading = none → Completes (.spareTakeoverComplete k) s s.dev) ∧
    (∀ c : Fin 16,
      (s.dev.control.running = true ∨ s.dev.control.booted = false → s.dev.control.restart = none →
        Completes (.engineSelfCheckFail (.core c)) s (restartDue 4 s.dev.now (logEvent 0x09 0 (64 + c.val) s.dev))) ∧
      (s.dev.control.running = false → s.dev.control.booted = true → s.dev.control.restart = none → Completes (.engineSelfCheckFail (.core c)) s (logEvent 0x09 0 (64 + c.val) s.dev)) ∧
      (s.dev.control.restart ≠ none → ∃ d, Completes (.engineSelfCheckFail (.core c)) s d ∧ d.control.restart = none ∧ d.chans = s.dev.chans ∧
        d.dies = s.dev.dies)) ∧
    (s.dev.ref.linkFault = false → s.dev.ref.comparison = none →
      Completes .refLinkFault s (updRef (fun r => { r with linkFault := true }) (logEvent 0x05 1 0 s.dev))) ∧
    (s.dev.ref.linkFault = true → s.dev.ref.comparison = none → Completes .refLinkFault s s.dev) ∧
    (s.dev.ref.comparison ≠ none → ∃ d, Completes .refLinkFault s d ∧ d.ref.linkFault = true ∧ d.ref.comparison = none ∧ d.ref.oven = s.dev.ref.oven ∧
      d.ref.trim = s.dev.ref.trim ∧ d.cad = s.dev.cad ∧ ∃ e ∈ d.ledger.queue, e.type = 2) ∧
    (s.dev.ref.linkFault = true → s.dev.ref.heldEvents = [] ∨ s.dev.control.running = false →
      Completes .refLinkRecover s (updRef (fun r => { r with linkFault := false }) (logEvent 0x05 0 0 s.dev))) ∧
    (s.dev.ref.linkFault = false → s.dev.ref.heldEvents = [] → Completes .refLinkRecover s s.dev) ∧
    (s.dev.ref.heldEvents ≠ [] → s.dev.control.running = true → ∃ d, Completes .refLinkRecover s d ∧ d.ref.linkFault = false ∧ d.ref.heldEvents = [] ∧
      d.ref.oven = s.dev.ref.oven ∧ d.chans = s.dev.chans ∧ d.dies = s.dev.dies ∧
      ∀ p ∈ s.dev.ref.heldEvents, ∃ e ∈ d.ledger.queue, e.type = 8 ∧ e.payload = p)

/-- O4. Tests at an input boundary event (R58, Table 2.3), the losses and runs they make (Table 2.2), and what HOLDOVER keeps (R59). The model chooses: PHASE_ERR is computed at every event (log 119), and the loss is due from the last event (log 120). -/
def Obligations.InputTests : Prop :=
  (∀ (s : Sys2Proof.Machine.State) (stamp mv l : Nat), Live s → s.dev.cad.src ≤ 2 → s.dev.cad.lastEvent = some l → l < stamp →
    let a := advance ((stamp + 255) / 256) s.dev
    let p := phaseError s.dev stamp
    let noted : Bool → Dev := fun b =>
      wr { a with cad := { a.cad with lastEvent := some stamp, lastLen := some (stamp - l), present := true, rangeErr := b } } oPhaseErr (ofSigned 32 p) []
    let good := inputInRange s.dev (stamp - l) = true ∧ reelInRange s.dev (stamp - l) = true
    (s.dev.cad.st = .locked → good → (s.dev.cad.src ≠ 0 ∨ 100 ≤ mv) → p.natAbs ≤ 16 * rd s.dev oLockThresh [] →
      Completes (.inputBoundaryEvent stamp mv) s { noted false with cad := { (noted false).cad with badFreq := 0, badReel := 0, badPhase := 0 } }) ∧
    (s.dev.cad.st = .locked → good → (s.dev.cad.src ≠ 0 ∨ 100 ≤ mv) → 16 * rd s.dev oLockThresh [] < p.natAbs → s.dev.cad.badPhase = 0 →
      Completes (.inputBoundaryEvent stamp mv) s { noted false with cad := { (noted false).cad with badFreq := 0, badReel := 0, badPhase := 1 } }) ∧
    (s.dev.cad.st = .locked → good → (s.dev.cad.src ≠ 0 ∨ 100 ≤ mv) → 16 * rd s.dev oLockThresh [] < p.natAbs → 1 ≤ s.dev.cad.badPhase →
      ∃ d, Completes (.inputBoundaryEvent stamp mv) s d ∧ d.cad.st = .holdover ∧ d.cad.recs = s.dev.cad.recs ∧
        d.cad.lHold = slewBound s.dev (newestLen s.dev) (Config.loopFilterHold s.dev.free) ∧ d.chans = s.dev.chans ∧ d.dies = s.dev.dies ∧
        rd d oHoldoverCount [] = min (2 ^ 32 - 1) (rd s.dev oHoldoverCount [] + 1)) ∧
    (s.dev.cad.st = .locked ∨ s.dev.cad.st = .relock → (s.dev.cad.src ≠ 0 ∨ 100 ≤ mv) → inputInRange s.dev (stamp - l) = false →
      (if s.dev.cad.src = 2 then 1 else 3) ≤ s.dev.cad.badFreq →
      ∃ d, Completes (.inputBoundaryEvent stamp mv) s d ∧ d.cad.st = .holdover ∧ d.cad.recs = s.dev.cad.recs ∧ d.chans = s.dev.chans ∧ d.dies = s.dev.dies) ∧
    (s.dev.cad.st = .locked ∨ s.dev.cad.st = .relock → s.dev.cad.src = 0 → mv < 100 →
      ∃ d, Completes (.inputBoundaryEvent stamp mv) s d ∧ d.cad.st = .holdover ∧ d.cad.recs = s.dev.cad.recs ∧ d.chans = s.dev.chans ∧ d.dies = s.dev.dies) ∧
    (s.dev.cad.st = .acquire ∨ s.dev.cad.st = .holdover → ¬ good →
      Completes (.inputBoundaryEvent stamp mv) s { noted true with cad := { (noted true).cad with run := [stamp], runPhase := [p] } })) ∧
  (∀ (s : Sys2Proof.Machine.State) (stamp mv : Nat), Live s →
    (2 < s.dev.cad.src → Completes (.inputBoundaryEvent stamp mv) s s.dev) ∧
    (s.dev.cad.src ≤ 2 → ∃ d, Completes (.inputBoundaryEvent stamp mv) s d ∧ d.cad.lastEvent = some stamp ∧ d.cad.recs = s.dev.cad.recs ∧
      rd d oPhaseErr [] = ofSigned 32 (phaseError s.dev stamp) % 2 ^ 32 ∧ d.chans = s.dev.chans ∧ d.dies = s.dev.dies)) ∧
  (∀ (s : Sys2Proof.Machine.State) (e : Nat), Live s → s.dev.cad.src ≤ 2 → s.dev.cad.lastEvent = some e →
    (s.dev.cad.st = .locked ∨ s.dev.cad.st = .relock) →
    ∃ d, Completes .sourceLossTimeout s d ∧ d.cad.st = .holdover ∧ d.cad.recs = s.dev.cad.recs ∧ d.cad.present = false ∧
      d.cad.lHold = slewBound s.dev (newestLen s.dev) (Config.loopFilterHold s.dev.free) ∧ d.cad.corrLeft = 0 ∧ rd d oSlipTotal [] = rd s.dev oSlipTotal [] ∧
      rd d oHoldoverCount [] = min (2 ^ 32 - 1) (rd s.dev oHoldoverCount [] + 1) ∧ d.chans = s.dev.chans ∧ d.dies = s.dev.dies ∧
      (s.dev.cad.src = 0 → d.now = max s.dev.now ((e + s.dev.cad.lSrc + s.dev.cad.lSrc / 4 + 255) / 256)) ∧
      (s.dev.cad.src = 1 → d.now = max s.dev.now (e / 256 + 984)) ∧
      (s.dev.cad.src = 2 → d.now = max s.dev.now ((e + unitsPerSecond + unitsPerSecond / 4 + 255) / 256)))

/-- O5. The end of qualification (R58, R61): e lies in [−0.5, +0.5) cycle. That the line is fitted to the last 16 of the 17 events is read from log 15. -/
def Obligations.Qualification : Prop :=
  ∀ (s : Sys2Proof.Machine.State) (stamp mv l : Nat), Live s → s.dev.cad.src ≤ 2 → s.dev.cad.lastEvent = some l → l < stamp →
    (s.dev.cad.st = .acquire ∨ s.dev.cad.st = .holdover) → inputInRange s.dev (stamp - l) = true → reelInRange s.dev (stamp - l) = true →
    (s.dev.cad.src ≠ 0 ∨ 200 ≤ mv) → s.dev.cad.run.length = 16 → runSteady (stamp :: s.dev.cad.run) = true →
    let stamps := stamp :: s.dev.cad.run.take 15
    let phases := (phaseError s.dev stamp :: s.dev.cad.runPhase).take 16
    ∃ d, Completes (.inputBoundaryEvent stamp mv) s d ∧ d.cad.st = .relock ∧ d.cad.recs = s.dev.cad.recs ∧
      d.cad.lSrc = (roundOpen ((stamp - s.dev.cad.run.getLastD 0 : Nat) : Int) (16 * reelPerInput s.dev : Nat)).toNat ∧
      d.cad.err = fitError stamps phases (nextBoundary s.dev.cad) ∧ -(2 ^ 31) ≤ d.cad.err ∧ d.cad.err < 2 ^ 31 ∧
      d.cad.corrLeft = roundOpen (d.cad.err * d.cad.lSrc) (2 ^ 32) ∧ d.cad.corrRun = 0 ∧
      d.chans = s.dev.chans ∧ d.dies = s.dev.dies ∧ d.zh = s.dev.zh

/-- O6. Records are fixed one cycle ahead and never changed (R48, R426); renumbering (R54); the bound of R61 on L in LOCKED; the order of R51. -/
def Obligations.BoundaryRecord : Prop :=
  ∀ (s : Sys2Proof.Machine.State), Live s →
    let e := settleDue s.nv ⟨max s.dev.now (cycleTick s.dev), 2, 0⟩ [] s.dev
    (e.cad.recs = [] → Completes .reelCycleBoundary s (cycleBoundary e)) ∧
    ∀ (r : Rec) (t : List Rec), e.cad.recs = r :: t → (∀ w ∈ e.cad.waiting, r.base < w.since) →
    ((∀ c since, e.cad.preset = some (c, since) → r.base < since) →
      ∃ d, Completes .reelCycleBoundary s d ∧ d.now = max e.now ((r.base + 255) / 256) ∧ d.dies = e.dies ∧ d.zh = e.zh ∧ d.cad.preset = e.cad.preset ∧
        (e.cad.st = .freerun → d.cad.recs = ⟨(r.c + 1) % 2 ^ 32, r.base + r.len, nominalLength e⟩ :: r :: t) ∧
        (e.cad.st = .acquire → d.cad.recs = ⟨(r.c + 1) % 2 ^ 32, r.base + r.len, r.len⟩ :: r :: t) ∧
        (e.cad.st = .holdover → d.cad.recs = ⟨(r.c + 1) % 2 ^ 32, r.base + r.len, e.cad.lHold⟩ :: r :: t ∧ d.cad.holdCycles = e.cad.holdCycles + 1) ∧
        (e.cad.st = .locked → ∃ len, d.cad.recs = ⟨(r.c + 1) % 2 ^ 32, r.base + r.len, len⟩ :: r :: t ∧
          r.len - r.len * rd e oSlewLimit [] / 1000000 ≤ len ∧ len ≤ r.len + r.len * rd e oSlewLimit [] / 1000000) ∧
        (e.cad.st = .relock → ∃ len, d.cad.recs = ⟨(r.c + 1) % 2 ^ 32, r.base + r.len, len⟩ :: r :: t)) ∧
    (∀ c since, e.cad.preset = some (c, since) → since ≤ r.base → r.c < 2 ^ 32 → c < 2 ^ 32 → (∀ q ∈ t, q.base < r.base) →
      ∃ d len, Completes .reelCycleBoundary s d ∧ d.cad.preset = none ∧
        d.cad.recs = ⟨(c + 1) % 2 ^ 32, r.base + r.len, len⟩ :: { r with c := c } :: t)

/-- O7. The slew of R61: full steps while more than one is left, the last cycle the remainder. -/
def Obligations.RelockRuns : Prop :=
  ∀ (d : Dev),
    let r := relockRecord d
    let x := d.cad.corrLeft - r.1.cad.corrLeft
    r.1.cad.corrLeft + r.1.cad.corrRun = d.cad.corrLeft + d.cad.corrRun ∧ x.natAbs ≤ slewStep d ∧ 0 ≤ x * d.cad.corrLeft ∧
      r.1.cad.corrLeft.natAbs = d.cad.corrLeft.natAbs - slewStep d ∧ ((slewStep d : Int) ≤ d.cad.lSrc → (r.2 : Int) = d.cad.lSrc - x) ∧
      (r.1.cad.corrLeft = 0 → rdI r.1 oSlipTotal [] = toSigned 64 (ofSigned 64 (d.cad.slipBase + d.cad.err))) ∧
      r.1.cad.recs = d.cad.recs ∧ r.1.chans = d.chans ∧ r.1.dies = d.dies

/-- O8. B(c + 1) = B(c) + L(c) (R47), and no published record changes (R48), at every boundary that does not renumber; e is the device after what R51 puts before the boundary. -/
def Obligations.RecordsContiguous : Prop :=
  contiguous State.reset.dev.cad.recs ∧
    ∀ (s : Sys2Proof.Machine.State), Live s →
      let e := settleDue s.nv ⟨max s.dev.now (cycleTick s.dev), 2, 0⟩ [] s.dev
      contiguous e.cad.recs → e.cad.recs ≠ [] → e.cad.preset = none →
      ∃ d, Completes .reelCycleBoundary s d ∧ contiguous d.cad.recs ∧ d.cad.recs.tail = e.cad.recs

/-- O9. R49, over records without gap or overlap (R47). They are counted back from the newest, so that a position is read under the count in force; without the record the event is held. -/
def Obligations.StampRule : Prop :=
  ∀ (n : Rec) (t : List Rec) (p : Nat), p < 2 ^ 64 →
    let recs := n :: t
    let f := p % 2 ^ 32
    let back := (n.c + 2 ^ 32 - p / 2 ^ 32) % 2 ^ 32
    (recs.length ≤ back → stampOf recs p = none) ∧
    (∀ (a : List Rec) (r : Rec) (b : List Rec), recs = a ++ r :: b → a.length = back →
      let stamp := r.base + f * r.len / 2 ^ 32
      (∀ q, a.getLast? = some q → stamp < q.base) →
      stampOf recs p = some stamp ∧ stamp ≤ 256 * tickNear recs p ∧ 256 * tickNear recs p < stamp + 256)

/-- O10. Positions of stamps (R52) and their way back (R49), records at the dies (R48), their extension (R63) and adoption (R64), and the alarm of Table 2.2. The model chooses: a die extends at the base of its newest record (log 102), and the alarm counts boundaries passed in HOLDOVER (log 121). -/
def Obligations.DieRecords : Prop :=
  (∀ (r : Rec) (t : List Rec) (f : Nat), f < 2 ^ 32 → r.c < 2 ^ 32 → 0 < r.len →
    let p := r.c * 2 ^ 32 + f
    (∀ stamp, r.base ≤ stamp → stamp < r.base + r.len → posOf (r :: t) stamp = r.c * 2 ^ 32 + (stamp - r.base) * 2 ^ 32 / r.len) ∧
      let back := posOf (r :: t) (r.base + f * r.len / 2 ^ 32)
      back ≤ p ∧ back / 2 ^ 32 = r.c ∧ (p - back) * r.len < 2 ^ 32 + r.len) ∧
  ∀ (s : Sys2Proof.Machine.State) (k : Die), Live s →
    (∀ (r : Rec) (t : List Rec), s.dev.cad.recs = r :: t → LinkUp s k → (s.dev.dies[k]).extending = false → (s.dev.dies[k]).recs = t →
      (∀ q ∈ t, q.base < r.base) → Completes (.cadenceRecordArrival k) s (updDie k (fun d => { d with recs := r :: t }) s.dev)) ∧
    (LinkUp s k → (s.dev.dies[k]).extending = true → Completes (.cadenceRecordArrival k) s s.dev) ∧
    ((s.dev.dies[k]).link.st = .retraining →
      Completes (.cadenceRecordArrival k) s (updLink k (fun l => { l with held := l.held ++ [.record] }) s.dev)) ∧
    (∀ (r : Rec) (t : List Rec), (s.dev.dies[k]).recs = r :: t → (s.dev.dies[k]).extending = true →
      ∃ d, Completes (.dieRecordExtend k) s d ∧ d.now = max s.dev.now ((r.base + 255) / 256) ∧ d.cad = s.dev.cad ∧
        (d.dies[k]).recs = ⟨(r.c + 1) % 2 ^ 32, r.base + r.len, r.len⟩ :: r :: t ∧ (∀ j : Die, j ≠ k → d.dies[j] = s.dev.dies[j]) ∧
        ∀ n : Ch, n.die ≠ k → d.ch n = s.dev.ch n) ∧
    ((s.dev.dies[k]).extending = false → Completes (.dieRecordExtend k) s s.dev) ∧
    (∀ (x : Rec) (a b : List Rec) (r : Rec), (s.dev.dies[k]).extending = true → LinkUp s k → s.dev.cad.recs = x :: (a ++ r :: b) →
      let from_ := (s.dev.dies[k]).link.activeAt * 256
      from_ < r.base → (∀ q ∈ b, q.base ≤ from_) →
      ∃ d, Completes (.recordAdoption k) s d ∧ d.now = max s.dev.now ((r.base + 255) / 256) + 1 ∧ d.cad = s.dev.cad ∧
        (d.dies[k]).extending = false ∧ (∀ j : Die, j ≠ k → d.dies[j] = s.dev.dies[j]) ∧
        (d.dies[k]).recs = (s.dev.cad.recs.filter fun q => decide (r.base ≤ q.base)) ++ (s.dev.dies[k]).recs.filter fun q => decide (q.base < r.base)) ∧
    ((s.dev.dies[k]).extending = false ∨ ¬ LinkUp s k ∨ (∀ q ∈ s.dev.cad.recs.tail, q.base ≤ (s.dev.dies[k]).link.activeAt * 256) →
      Completes (.recordAdoption k) s s.dev) ∧
    (s.dev.cad.st = .holdover → rd s.dev oHoldoverAlarm [] ≤ s.dev.cad.holdCycles →
      Completes .holdoverAlarm s { s.dev with cad := { s.dev.cad with long := true } }) ∧
    (s.dev.cad.st ≠ .holdover ∨ s.dev.cad.holdCycles < rd s.dev oHoldoverAlarm [] → Completes .holdoverAlarm s s.dev)

/-- O11. What a device sends on the chain (R66, R67, R69, R234, R356). The phase of the frame slots, multiples of 3840 ticks, is the choice of log 43. -/
def Obligations.ZhewickSends : Prop :=
  ∀ (s : Sys2Proof.Machine.State), Live s →
    (∀ h, sendsFrames s.dev = true → hopSent s.dev = some h →
      ∃ d, Completes .zhewickFrameTx s d ∧ d.now = max s.dev.now (frameDue s.dev) ∧ d.zh.txEdge = some d.now ∧ d.zh.txFrame.length = 48 ∧
        frameValid d.zh.txFrame = true ∧ frameField d.zh.txFrame 1 1 / 16 = h ∧
        bitOf (frameField d.zh.txFrame 1 1) 3 = (s.dev.zh.masterHold || decide (s.dev.cad.st = .holdover)) ∧
        frameField d.zh.txFrame 2 8 = posOf s.dev.cad.recs (d.now * 256) ∧
        frameField d.zh.txFrame 28 2 = d.zh.cutLines.toNat + d.zh.cutSeq.toNat * 2 ^ 12 ∧
        (∀ l, s.dev.zh.cutChange = some l → d.zh.cutLines = l ∧ d.zh.cutSeq = s.dev.zh.cutSeq + 1) ∧
        (s.dev.zh.cutChange = none → d.zh.cutLines = s.dev.zh.cutLines ∧ d.zh.cutSeq = s.dev.zh.cutSeq) ∧ d.cad = s.dev.cad) ∧
    (∀ e m, s.dev.zh.retDue = some (e, m) →
      ∃ z, Completes .returnMarkerTx s { s.dev with now := max s.dev.now ((e + 255) / 256 + 1024), zh := z } ∧
        z.retEdge = some (e + 1024 * 256) ∧ z.retFrame.length = 19 ∧ returnValid z.retFrame = true ∧
        frameField z.retFrame 0 1 = (if m = true then 0x5D else 0x5C) ∧ frameField z.retFrame 1 16 = (s.dev.zh.upQ.headD 0).toNat ∧
        z.upQ = s.dev.zh.upQ.tail ∧ z.retDue = none)

/-- O12. What a device takes from the chain (R66, R67, R234, R356) and the loss of its frames (Table 2.3). The model chooses: a bad START is counted in CRC_ERRORS and ends the run (log 50); cuts and validity are taken when the source is not 3 (log 46). -/
def Obligations.ZhewickReceives : Prop :=
  ∀ (s : Sys2Proof.Machine.State) (stamp : Nat) (bytes : List Byte), Live s →
    (frameValid bytes = false →
      ∃ d, Completes (.zhewickFrameRx stamp bytes) s d ∧ d.zh.run = [] ∧ d.cad = s.dev.cad ∧ d.chans = s.dev.chans ∧ d.zh.upValid = s.dev.zh.upValid ∧
        rd d oCrcErrors [] = min (2 ^ 32 - 1) (rd s.dev oCrcErrors [] + 1) ∧ d.zh.rxCount = s.dev.zh.rxCount + 1) ∧
    (frameValid bytes = true → getField (frameField bytes 30 16) 4 4 = 0 → s.dev.cad.src ≠ 3 →
      ∃ d, Completes (.zhewickFrameRx stamp bytes) s d ∧ d.zh.upValid = true ∧ d.zh.validEdge = some stamp ∧ d.zh.retDue = none ∧
        d.cad = s.dev.cad ∧ rd d oChainCutRx [] = frameField bytes 28 2 ∧ d.zh.cutSeqIn = some (BitVec.ofNat 4 (frameField bytes 28 2 / 2 ^ 12))) ∧
    (frameValid bytes = true → getField (frameField bytes 30 16) 4 4 = 0 → s.dev.cad.src = 3 → s.dev.cad.st = .locked →
      bitOf (frameField bytes 1 1) 2 = false → bitOf (frameField bytes 1 1) 1 = false →
      ∃ d, Completes (.zhewickFrameRx stamp bytes) s d ∧ d.zh.upHop = some (frameField bytes 1 1 / 16) ∧
        d.zh.masterHold = bitOf (frameField bytes 1 1) 3 ∧ d.zh.run.head? = some (((stamp : Int) - s.dev.zh.oneWay).toNat, frameField bytes 2 8) ∧
        rdI d oPhaseErr [] = framePhase s.dev (((stamp : Int) - s.dev.zh.oneWay).toNat, frameField bytes 2 8) ∧ d.cad.recs = s.dev.cad.recs ∧
        d.zh.retDue = some (stamp, (s.dev.zh.rxCount + 1) % 64 == 0)) ∧
    (∀ e, s.dev.zh.validEdge = some e →
      ∃ d, Completes .zhewickFrameLoss s d ∧ d.now = max s.dev.now ((e + 255) / 256 + 8 * 3840) ∧ d.zh.upValid = false ∧ d.zh.run = [] ∧
        d.zh.masterHold = false ∧ d.cad.recs = s.dev.cad.recs ∧ (s.dev.cad.src ≠ 3 → d.cad = s.dev.cad) ∧
        (s.dev.cad.src = 3 → s.dev.cad.st = .locked → d.cad.st = .holdover ∧ d.cad.present = false)) ∧
    (∀ e, returnValid bytes = true → frameField bytes 0 1 = 0x5D → getField (frameField bytes 1 16) 4 4 = 0 → s.dev.zh.txEdge = some e →
      ∃ d, Completes (.returnFrameRx stamp bytes) s d ∧ d.zh.downSeen = true ∧
        d.zh.trip = some (stamp - e * 256 - 1024 * 256 - Config.turnaround) ∧ d.cad = s.dev.cad ∧ d.chans = s.dev.chans ∧ d.objs = s.dev.objs)

/-- O13. SYNC (R70); e is the device after what R51 puts before the event. -/
def Obligations.Syncs : Prop :=
  ∀ (s : Sys2Proof.Machine.State), Live s →
    (∀ (p : Port) (num : BitVec 16), Served s p oSyncIssue →
      let pos := rd s.dev oSyncPos []
      (hopOf s.dev = 0 → within1ms s.dev pos = false → s.dev.zh.sync = none →
        ∃ d, Completes (.syncIssue p num) s (done p d) ∧ d.zh = { s.dev.zh with sync := some ⟨pos, num.toNat⟩ } ∧ d.objs = s.dev.objs ∧
          d.cad = s.dev.cad ∧ (∀ k : Die, LinkUp s k → (d.dies[k]).sync = some (num.toNat, pos)) ∧
          (∀ k : Die, (s.dev.dies[k]).link.st = .lost → d.dies[k] = s.dev.dies[k]) ∧
          ∀ n : Ch, (d.ch n).seq.wait = (s.dev.ch n).seq.wait → d.ch n = s.dev.ch n) ∧
      (hopOf s.dev ≠ 0 → Completes (.syncIssue p num) s (setAnswer p (.refused 0x0F100023) s.dev)) ∧
      (hopOf s.dev = 0 → (within1ms s.dev pos = true ∨ s.dev.zh.sync ≠ none) →
        Completes (.syncIssue p num) s (setAnswer p (.refused 0x0F100022) s.dev))) ∧
    (∀ e, e = settleDue s.nv ⟨max s.dev.now (knownTick s (s.dev.zh.sync.bind fun t => reachTick s.dev.cad.recs t.pos)), 2, 0⟩ [] s.dev →
      (∀ t r, e.zh.sync = some t → reachTick e.cad.recs t.pos = some r → t.num < 2 ^ 16 → t.pos < 2 ^ 64 →
        ∃ d, Completes .syncEvent s d ∧ d.now = max e.now r ∧ d.zh = { e.zh with sync := none } ∧
          rd d oSyncLastNum [] = t.num ∧ rd d oSyncLastPos [] = t.pos ∧ d.chans = e.chans ∧ d.cad = e.cad) ∧
      (e.zh.sync = none ∨ (∃ t, e.zh.sync = some t ∧ reachTick e.cad.recs t.pos = none) → Completes .syncEvent s e))

/-- O14. Source sample slots (R76 to R80), held while their record is missing (R48); e is the device after what R51 puts before the slot; that the distance of R78 is taken to the last served slot is the model's reading (log 107). -/
def Obligations.SourceSlots : Prop :=
  ∀ (s : Sys2Proof.Machine.State) (n : Ch) (e : Dev), Live s → e = settleDue s.nv ⟨max s.dev.now (knownTick s (sampleTick s.dev n)), 3, 0⟩ [n] s.dev →
    let x := (e.ch n).src
    (sampleTick e n = none → Completes (.sourceSampleSlot n) s e) ∧
    (∀ tick, sampleTick e n = some tick → x.st ≠ .running →
      Completes (.sourceSampleSlot n) s (updSrc n (fun x => { x with slot := x.slot + 1 }) (advance tick e))) ∧
    (∀ tick, sampleTick e n = some tick → x.st = .running →
      let clipped : Prop := ∃ l, x.lastSlot = some l ∧ tick < l + 160
      ∃ d, Completes (.sourceSampleSlot n) s d ∧ chanOnly n e d ∧ d.now = max e.now tick ∧ (d.ch n).src.slot = x.slot + 1 ∧
        (¬ clipped → (d.ch n).src.lastSlot = some tick ∧ rd d oRateClips [n] = rd e oRateClips [n]) ∧
        (clipped → (d.ch n).src.lastSlot = x.lastSlot ∧ rd d oRateClips [n] = min (2 ^ 32 - 1) (rd e oRateClips [n] + 1) ∧
          (d.ch n).src.static = x.static ∧ (d.ch n).src.segs = x.segs) ∧
        (∀ w rest, rd e oSrcOrigin [n] = 1 → x.queue = w :: rest → w.slot = none →
          (d.ch n).src.queue = rest ∧ rd d oUnderruns [n] = rd e oUnderruns [n] ∧
          (¬ clipped → (d.ch n).src.primed = true ∧ (d.ch n).src.lastLeft = entryCode w)) ∧
        (rd e oSrcOrigin [n] = 1 → x.queue = [] → ¬ clipped →
          (d.ch n).src.queue = [] ∧ (d.ch n).src.primed = x.primed ∧ ((d.ch n).src.segs.map Seg.c0).head? = some (if x.primed = true then x.lastLeft else 0) ∧
          rd d oUnderruns [n] = (if x.primed = true then min (2 ^ 32 - 1) (rd e oUnderruns [n] + 1) else rd e oUnderruns [n])) ∧
        (rd e oSrcOrigin [n] = 0 → ¬ clipped → (d.ch n).src.static = rdI e oSrcCode [n] ∧ (d.ch n).src.queue = x.queue ∧ d.objs = e.objs) ∧
        (rd e oSrcOrigin [n] = 0 ∨ rd e oSrcOrigin [n] = 2 → (d.ch n).src.queue = x.queue ∧ (d.ch n).src.primed = x.primed))

/-- O15. The modulator clock (R75) and the step hold (R97 to R99); 1 ms is 245760 ticks (R12); e is the device after what R51 puts before the clock. -/
def Obligations.ModulatorClocks : Prop :=
  (∀ (s : Sys2Proof.Machine.State) (n : Ch) (e : Dev), Live s → e = settleDue s.nv ⟨max s.dev.now (modulatorTick s.dev n), 3, 0⟩ [n] s.dev →
    let x := (e.ch n).src
    let t := max (x.clock + 10) ((e.now + 9) / 10 * 10)
    let sum := match x.safe with
      | some y => safeCode y t
      | none => originSum (sineClock n (advance t e)) n t
    let code := if x.safe.isSome then sum else clampInt (-(rd e oCodeLimit [n] : Int)) (rd e oCodeLimit [n] : Int) sum
    let steps : Prop := rd e oStepHoldUs [n] ≠ 0 ∧ rd e oSrcOrigin [n] ≠ 4 ∧ rd e oStepThresh [n] < (code - x.code).natAbs
    ∀ lim comp,
      ∃ d, Completes (.modulatorClock n lim comp) s d ∧ chanOnly n e d ∧ d.now = max e.now t ∧ (d.ch n).src.clock = t ∧
        (d.ch n).src.code = code ∧ (d.ch n).src.codeClamped = (code != sum) ∧ (d.ch n).src.recon.head? = some code ∧
        rd d oClamps [n] = (if code ≠ sum ∧ x.clampCounted = false then min (2 ^ 32 - 1) (rd e oClamps [n] + 1) else rd e oClamps [n]) ∧
        (d.ch n).src.st = x.st ∧ (d.ch n).src.queue = x.queue ∧ (d.ch n).loop = (e.ch n).loop ∧ (d.ch n).seq = (e.ch n).seq ∧
        (x.hold = none → x.forcedAt = none → steps → (d.ch n).src.hold = some ⟨x.pin, d.now, d.now + usTicks (rd e oStepHoldUs [n])⟩ ∧
          rd d oStepHolds [n] = min (2 ^ 32 - 1) (rd e oStepHolds [n] + 1) ∧
          (x.gndClamp = false → x.hizClamp = false → (d.ch n).src.pin = x.pin)) ∧
        (¬ steps → (d.ch n).src.hold = x.hold ∧ rd d oStepHolds [n] = rd e oStepHolds [n])) ∧
  (∀ (s : Sys2Proof.Machine.State) (n : Ch), Live s →
    let x := (s.dev.ch n).src
    (∀ h, x.hold = some h →
      (h.release ≤ h.since + 245760 →
        ∃ d, Completes (.stepHoldRelease n) s d ∧ chanOnly n s.dev d ∧ d.now = max s.dev.now h.release ∧ (d.ch n).src.hold = none ∧
          d.objs = s.dev.objs ∧ (x.gndClamp = false → x.hizClamp = false → (d.ch n).src.pin = x.recon.getLastD 0)) ∧
      (h.since + 245760 < h.release →
        ∃ d, Completes (.holdForced n) s d ∧ chanOnly n s.dev d ∧ d.now = max s.dev.now (h.since + 245760) ∧ (d.ch n).src.hold = none ∧
          (d.ch n).src.forcedAt = some d.now ∧ rd d oHoldForced [n] = min (2 ^ 32 - 1) (rd s.dev oHoldForced [n] + 1))))

/-- O16. Enable and disable (R92, R94, R95). That a step hold still engaged lets go as the GND clamp closes is the choice of log 157. -/
def Obligations.EnableSequence : Prop :=
  ∀ (s : Sys2Proof.Machine.State) (n : Ch) (t : Nat), Live s →
    let x := (s.dev.ch n).src
    let settle := max 2 (rd s.dev oSettleUs [n, rd s.dev oRangeActive [n]])
    (x.st = .enabling → x.enableT = some t →
      (∃ d, Completes (.gndClampOpen n) s d ∧ chanOnly n s.dev d ∧ d.now = max s.dev.now (t + 492) ∧ d.objs = s.dev.objs ∧
        (d.ch n).src.gndClamp = false ∧ (d.ch n).src.clampCause = 0 ∧ (d.ch n).src.st = .enabling ∧ (d.ch n).src.forceEn = x.forceEn) ∧
      Completes (.forceEnAssert n) s (updSrc n (fun x => { x with forceEn := true }) (advance (t + usTicks settle) s.dev)) ∧
      ∃ d, Completes (.sourceRelease n) s d ∧ chanOnly n s.dev d ∧ d.now = max s.dev.now (t + usTicks (settle + rd s.dev oRelaySettleUs [n])) ∧
        (d.ch n).src.st = .running ∧ (d.ch n).src.static = rdI s.dev oSrcCode [n] ∧ (d.ch n).src.sine.ampl = 0 ∧
        (d.ch n).src.sine.amplWait = some (rd s.dev oSineAmpl [n]) ∧ (d.ch n).src.forceEn = true ∧ (d.ch n).src.queue = x.queue ∧
        (d.ch n).eseq = ((s.dev.ch n).eseq + 1) % 65536) ∧
    (x.st = .disabling → x.rampDone = none → x.safe = none → ∀ t0 c, x.rampFrom = some (t0, c) →
      ∃ d, Completes (.disableRampEnd n) s d ∧ chanOnly n s.dev d ∧ (d.ch n).src.forceEn = false ∧ (d.ch n).src.rampDone = some d.now ∧
        (rd s.dev oSrcRamp [n] = 0 → d.now = max s.dev.now t0) ∧
        (0 < rd s.dev oSrcRamp [n] →
          d.now = max s.dev.now (t0 + (c.natAbs * 24576 + 100 * rd s.dev oSrcRamp [n] - 1) / (100 * rd s.dev oSrcRamp [n]))) ∧
        d.objs = s.dev.objs ∧ (d.ch n).src.st = .disabling) ∧
    (x.st = .disabling → x.rampDone = some t → x.safe = none → x.enablePending = false →
      ∃ d, Completes (.disableComplete n) s d ∧ chanOnly n s.dev d ∧ d.now = max s.dev.now (t + usTicks (rd s.dev oRelaySettleUs [n])) ∧
        (d.ch n).src.st = .off ∧ (d.ch n).src.gndClamp = true ∧ (d.ch n).src.clampCause = 2 ∧ (d.ch n).src.queue = [] ∧
        (d.ch n).src.primed = false ∧ (d.ch n).src.hold = none ∧ (d.ch n).src.pin = 0 ∧ (d.ch n).src.rangeSel = x.rangeSel ∧ rd d oOverflows [n] = rd s.dev oOverflows [n])

/-- O17. Range changes (R101), reference settling (R104), the clamp after a reset (Table 3.3). -/
def Obligations.RangeSequence : Prop :=
  ∀ (s : Sys2Proof.Machine.State) (n : Ch), Live s →
    (∀ r, (s.dev.ch n).src.range = some r →
      Completes (.rangeBreak n) s (updSrc n (fun x => { x with rangeSel := rd s.dev oPattern [n, r.target], range := some { r with broken := true } })
        (advance r.breakAt s.dev)) ∧
      ∃ d, Completes (.rangeChangeRelease n) s d ∧ chanOnly n s.dev d ∧ d.now = max s.dev.now r.releaseAt ∧ (d.ch n).src.range = none ∧
        (d.ch n).src.rangeSel = rd s.dev oPattern [n, r.target] ∧ (d.ch n).eseq = ((s.dev.ch n).eseq + 1) % 65536 ∧
        (∀ h, (s.dev.ch n).src.hold = some h → (d.ch n).src.hold = if h.release ≤ r.releaseAt then none else some h)) ∧
    (∀ t, (s.dev.ch n).src.settleAt = some t →
      Completes (.refSrcSettle n) s (updSrc n (fun x => { x with refSettled := true, settleAt := none }) (advance t s.dev))) ∧
    (∀ t, (s.dev.ch n).src.resetGndAt = some t →
      Completes (.resetGndClamp n) s (updSrc n (fun x => { x with gndClamp := true, resetGndAt := none }) (advance t s.dev)))

/-- O18. Direct writes of the source (R76, R79). -/
def Obligations.SourceWrites : Prop :=
  ∀ (s : Sys2Proof.Machine.State) (p : Port) (n : Ch), LinkUp s n.die →
    (∀ v, Served s p oSrcCode → Completes (.srcCodeWrite p n v) s (done p (wr s.dev oSrcCode v.toNat [n]))) ∧
    (∀ data : List Byte, Served s p oSrcQData → data ≠ [] → data.length % 5 = 0 → data.length ≤ 20480 →
      let codes := (List.range (data.length / 5)).map fun i => toSigned 40 (ofBytes ((data.drop (5 * i)).take 5))
      let owner := rd s.dev oSrcQOwner [n]
      let mine := p = .n ∧ owner = 0 ∨ p = .s ∧ owner = 1
      (mine → (s.dev.ch n).src.queue.length + codes.length ≤ 4096 →
        Completes (.srcQueueDataWrite p n data) s (done p (updSrc n (fun x => { x with queue := x.queue ++ codes.map (codeEntry none) }) s.dev))) ∧
      (mine → 4096 < (s.dev.ch n).src.queue.length + codes.length →
        Completes (.srcQueueDataWrite p n data) s (setAnswer p (.refused 0x0F100030) s.dev)) ∧
      (¬ mine → Completes (.srcQueueDataWrite p n data) s (setAnswer p (.refused 0x0F100035) s.dev)))

/-- O19. Slots (R117 to R122, R124, R125, R132, Table 4.6); when a restart becomes known is the choice of log 152. -/
def Obligations.SlotStarts : Prop :=
  ∀ (s : Sys2Proof.Machine.State) (n : Ch) (a : ArrId) (st : Nat), Live s →
    let x := arrOf s.dev n a
    let k := x.nextK
    let role := k % max 1 x.roles.length
    let act := actStamp (s.dev.dies[n.die])
    let stop := act (stampNear (dieRecs s.dev n) (slotEnd x k))
    let len := stop - st
    let begins : Prop := (stampOf (dieRecs s.dev n) (slotStart x k)).map act = some st
    let known : Prop := ∃ t, restartTick s.dev n a = some t ∧ t * 256 < stop
    let added : Dev → Slot → Prop := fun d y => ∃ l, (arrOf d n a).slots = l ++ [y] ∧ l.map Slot.ord = x.slots.map Slot.ord ∧ (x.mode = 0 → l = x.slots)
    let least := if x.mode = 0 then max 246 ((532 + (x.roles.length - 1) - 1) / max 1 (x.roles.length - 1)) else 3192
    (x.st = .starting ∨ x.st = .running) →
    (stampOf (dieRecs s.dev n) (slotStart x k) = none → Completes (.slotStart n a) s s.dev) ∧
    (∀ sp, begins → x.dropRole = false → x.rotRole = none → x.roles.getD role (some 0) = none → x.spare = some sp → (x.slices[sp]).st = .spareIdle →
      none ∈ listSet x.roles role (some sp) → (∀ i, i ≠ sp → (x.slices[i]).st ≠ .spareIdle ∧ (x.slices[i]).st ≠ .verify ∧ (x.slices[i]).st ≠ .calibrating) →
      s.dev.ref.comparison = none →
      ∃ d, Completes (.slotStart n a) s d ∧ (x.mode = 0 → (arrOf d n a).dropRole = true ∧ (arrOf d n a).st = .running) ∧
        (x.mode ≠ 0 → (arrOf d n a).st = .fault ∧ (arrOf d n a).slots = [])) ∧
    (∀ sp, begins → x.dropRole = false → x.rotRole = none → least * 256 ≤ len →
      x.roles.getD role (some 0) = none → x.spare = some sp → (x.slices[sp]).st = .spareIdle → urgentHolds x sp ((st + 255) / 256) = false →
      none ∉ listSet x.roles role (some sp) →
      ∃ d, Completes (.slotStart n a) s d ∧ (arrOf d n a).spare = none ∧ (arrOf d n a).roles = listSet x.roles role (some sp) ∧
        ((arrOf d n a).slices[sp]).st = .active ∧ (∀ m : Ch, m ≠ n → d.ch m = s.dev.ch m) ∧
        ∃ y, added d y ∧ y.k = k ∧ y.ord = x.ord ∧ y.role = role ∧ y.slice = sp ∧ y.start = st ∧ (y.idle = true ↔ known) ∧ (y.swap = true ↔ ¬ known)) ∧
    (begins → x.dropRole = false → x.rotRole = none → (none ∉ x.roles ∨ noSpare x = false) →
      (x.roles.getD role (some 0) ≠ none ∨ ∀ sp, x.spare = some sp → (x.slices[sp]).st ≠ .spareIdle) →
      ∃ d, Completes (.slotStart n a) s d ∧ chanOnly n s.dev d ∧ d.now = max s.dev.now ((st + 255) / 256) ∧ (arrOf d n a).st = .running ∧
        (arrOf d n a).nextK = k + 1 ∧ (arrOf d n a).ord = x.ord + 1 ∧ (arrOf d n a).seq = x.seq ∧
        (∀ i, least * 256 ≤ len → x.roles.getD role none = some i → urgentHolds x i ((st + 255) / 256) = false →
          (arrOf d n a).done = x.done ∧ ∃ y, added d y ∧ (y.idle = true ↔ known) ∧ y.k = k ∧ y.ord = x.ord ∧ y.role = role ∧ y.slice = i ∧
            y.startPos = slotStart x k ∧ y.endPos = slotEnd x k ∧ y.start = st ∧ y.trim = (x.slices[i].offset, x.slices[i].gain) ∧
            (x.slices[i].freeAt = 0 → y.conv = st) ∧ (x.mode = 0 → y.donor = none)) ∧
        (∀ i, least * 256 ≤ len → x.roles.getD role none = some i → urgentHolds x i ((st + 255) / 256) = true →
          (arrOf d n a).slots = x.slots ∧ ∃ q, (arrOf d n a).done = doneInsert q x.done ∧ q.aborted = true ∧ q.value = 0 ∧ q.ord = x.ord) ∧
        (least * 256 ≤ len → x.roles.getD role none = none →
          (arrOf d n a).slots = x.slots ∧ ∃ q, (arrOf d n a).done = doneInsert q x.done ∧ q.aborted = true ∧ q.value = 0 ∧ q.ord = x.ord) ∧
        (len < least * 256 → rd d oShortApertures [n, a.idx] = min (2 ^ 32 - 1) (rd s.dev oShortApertures [n, a.idx] + 1) ∧
          (arrOf d n a).slots = x.slots ∧ ∃ q, (arrOf d n a).done = doneInsert q x.done ∧ q.aborted = true ∧ q.value = 0 ∧ q.ord = x.ord))

/-- O20. Apertures (R110, R124, R137) and takes (R149 to R152, R157); e is the device after what R51 puts before the formation. That a slot cut short or never converted waits for no stage is the choice of log 154. -/
def Obligations.AperturesAndTakes : Prop :=
  ∀ (s : Sys2Proof.Machine.State) (n : Ch) (a : ArrId), Live s →
    let x := arrOf s.dev n a
    (∀ y t e c, x.slots = y :: t → (stampOf (dieRecs s.dev n) y.endPos).map (actStamp (s.dev.dies[n.die])) = some e → y.idle = true →
      ∃ d, Completes (.apertureEnd n a c) s d ∧ chanOnly n s.dev d ∧ d.objs = s.dev.objs ∧ d.now = max s.dev.now ((e + 255) / 256) ∧
        (arrOf d n a).slots = t ∧ (arrOf d n a).slices = x.slices ∧
        ∃ q, (arrOf d n a).done = doneInsert q x.done ∧ q.ord = y.ord ∧ q.aborted = true ∧ q.value = 0 ∧ q.ovr = none) ∧
    (∀ y t e c, x.slots = y :: t → (stampOf (dieRecs s.dev n) y.endPos).map (actStamp (s.dev.dies[n.die])) = some e → y.idle = false →
      ∃ d, Completes (.apertureEnd n a c) s d ∧ chanOnly n s.dev d ∧ d.objs = s.dev.objs ∧ d.now = max s.dev.now ((e + 255) / 256) ∧
        (arrOf d n a).slots = t ∧ ((arrOf d n a).slices[y.slice]).freeAt = (e + 255) / 256 ∧
        ∃ q, (arrOf d n a).done = doneInsert q x.done ∧ q.ord = y.ord ∧ q.start = y.start ∧ q.stop = e ∧ q.aborted = false ∧
          (c.ovr = none → q.value = slotValue y e c.ys ∧ q.ovr = none) ∧
          (∀ p oe, c.ovr = some (p, oe) → q.value = (if p = true then 2 ^ 39 - 1 else -(2 ^ 39)) ∧ q.ovr = some p ∧ q.ovrEnd = some oe)) ∧
    (∀ q t, x.done = q :: t → (∃ y ∈ x.slots, y.ord < q.ord) → Completes (.takeFormation n a) s s.dev) ∧
    (x.done = [] → Completes (.takeFormation n a) s s.dev) ∧
    (∀ q0 t0 e, x.done = q0 :: t0 → (∀ y ∈ x.slots, q0.ord ≤ y.ord) →
      e = settleDue s.nv ⟨max s.dev.now (if q0.aborted = true then s.dev.now else (q0.stop + 255) / 256 + 369), 3, 0⟩ [n] s.dev →
      let z := arrOf e n a
      ∀ q t, z.done = q :: t → (∀ y ∈ z.slots, q.ord ≤ y.ord) → e.ref.comparison = none → z.seq < 65536 →
      ∃ d, Completes (.takeFormation n a) s d ∧ (z.st ≠ .draining → chanOnly n e d) ∧ (∀ m : Ch, m ≠ n → d.ch m = e.ch m) ∧ (arrOf d n a).done = t ∧ (arrOf d n a).slots = z.slots ∧
        (arrOf d n a).seq = (z.seq + 1) % 65536 ∧ (q.aborted = false → d.now = max e.now ((q.stop + 255) / 256 + 369)) ∧
        (let w := match a with
          | .vm => rd d oVmLatest [n]
          | .im => rd d oImLatest [n]
        w % 65536 = z.seq ∧ bitOf w 22 = decide (z.runFirst ≤ q.ord ∧ q.ord ≤ z.runEnd) ∧ bitOf w 21 = q.ovr.isSome ∧ bitOf w 19 = q.aborted ∧
        bitOf w 16 = q.swap ∧
        (bitOf w 23 = true → bitOf w 22 = false ∧ bitOf w 21 = false ∧ bitOf w 20 = false ∧ bitOf w 19 = false ∧ q.cfg.ref ≠ 2) ∧
        ((q.aborted = true ∨ q.ovr.isSome = true) → -(2 ^ 39) ≤ q.value → q.value < 2 ^ 39 → toSigned 40 (w / 2 ^ 24) = q.value)) ∧
        rd d oAbortCount [n, a.idx] = (if q.aborted = true then min (2 ^ 32 - 1) (rd e oAbortCount [n, a.idx] + 1) else rd e oAbortCount [n, a.idx]) ∧
        rd d oOvrCount [n, a.idx] = (if q.ovr.isSome = true then min (2 ^ 32 - 1) (rd e oOvrCount [n, a.idx] + 1) else rd e oOvrCount [n, a.idx]))

/-- O21. Rotation (R130) and the calibration sequence (R129, Tables 4.7 and 4.8); 1 ms is 245760 ticks (R12). That a DRAINING array skips its neighbour phase is the model's choice (log 129). -/
def Obligations.SliceCalibration : Prop :=
  ∀ (s : Sys2Proof.Machine.State) (n : Ch) (a : ArrId), Live s → s.dev.ref.comparison = none →
    let x := arrOf s.dev n a
    let ap := rd s.dev oCalAperture [n, a.idx] * 245760
    (let t := advance (x.rotTick + rd s.dev oRotInterval [n, a.idx] * 245760) s.dev;
      (∀ l, rotationDue t n a = true → serviceRuns s.dev n.die 2 = true → x.roles.getD (x.nextRole % max 1 x.roles.length) none = some l →
        Completes (.rotation n a) s (unitRequest (sliceCalId n a) (pathUnit n a) (calDeadline t n a l) t)) ∧
      (rotationDue t n a = false ∨ serviceRuns s.dev n.die 2 = false → Completes (.rotation n a) s t)) ∧
    (x.cal = none → ∀ r, Completes (.calPhaseComplete n a r) s s.dev) ∧
    (∀ c r, x.cal = some c → calMayRun s.dev n a c = false → Completes (.calPhaseComplete n a r) s s.dev) ∧
    (∀ c r, x.cal = some c → calMayRun s.dev n a c = true →
      let later := max s.dev.now (c.since + usTicks 500 + ap)
      let spareNow : Dev → Prop := fun d => (arrOf d n a).cal = none ∧ (arrOf d n a).spare = some c.slice ∧ (arrOf d n a).roles = x.roles ∧
        (let z := (arrOf d n a).slices[c.slice]
        z.st = .spareIdle ∧ z.offset = c.offset ∧ z.calTick = d.now) ∧
        rd d oRotations [n, a.idx] = min (2 ^ 32 - 1) (rd s.dev oRotations [n, a.idx] + 1)
      let retiredNow : Dev → Prop := fun d => ((arrOf d n a).slices[c.slice]).st = .retired ∧ (arrOf d n a).cal = none ∧
        rd d oRetirements [n, a.idx] = min 255 (rd s.dev oRetirements [n, a.idx] + 1)
      (c.phase = .zero → offsetWithin r.value = true → Completes (.calPhaseComplete n a r) s
        (updArr n a (fun x => { x with cal := some { c with phase := .plus, offset := r.value, since := max s.dev.now (c.since + ap) } }) (advance (c.since + ap) s.dev))) ∧
      (c.phase = .zero → offsetWithin r.value = false → ∃ d, Completes (.calPhaseComplete n a r) s d ∧ retiredNow d) ∧
      (c.phase = .plus → Completes (.calPhaseComplete n a r) s
        (updArr n a (fun x => { x with cal := some { c with phase := .minus, since := later } }) (advance (c.since + usTicks 500 + ap) s.dev))) ∧
      (c.phase = .minus → gainWithin r.value = false → ∃ d, Completes (.calPhaseComplete n a r) s d ∧ retiredNow d) ∧
      (c.phase = .minus → gainWithin r.value = true →
        neighbourSkipped (advance (c.since + usTicks 500 + ap) s.dev) n a { c with gain := r.value, since := later } = false →
        ∃ d, Completes (.calPhaseComplete n a r) s d ∧ d.now = later ∧ d.objs = s.dev.objs ∧
          (arrOf d n a).cal = some { c with phase := .neighbour, gain := r.value, since := d.now } ∧ (arrOf d n a).slices = x.slices) ∧
      (c.phase = .minus → gainWithin r.value = true → x.roles.all Option.isSome = true → x.rotRole = none →
        neighbourSkipped (advance (c.since + usTicks 500 + ap) s.dev) n a { c with gain := r.value, since := later } = true →
        ∃ d, Completes (.calPhaseComplete n a r) s d ∧ spareNow d ∧ ((arrOf d n a).slices[c.slice]).gain = r.value ∧
          ((arrOf d n a).slices[c.slice]).nbrDiff = (x.slices[c.slice]).nbrDiff) ∧
      (c.phase = .neighbour → neighbourSkipped s.dev n a c = true → x.roles.all Option.isSome = true → x.rotRole = none →
        ∃ d, Completes (.calPhaseComplete n a r) s d ∧ spareNow d ∧ ((arrOf d n a).slices[c.slice]).gain = c.gain ∧ d.now = s.dev.now) ∧
      (c.phase = .neighbour → neighbourSkipped s.dev n a c = false → r.value.natAbs ≤ rd s.dev oNbrLimit [n, a.idx] →
        ∃ d, Completes (.calPhaseComplete n a r) s d ∧ chanOnly n s.dev d ∧ spareNow d ∧ d.now = max s.dev.now (neighbourEnd s.dev n a c) ∧
          (let z := (arrOf d n a).slices[c.slice]
          z.gain = c.gain ∧ z.nbrDiff = r.value ∧ z.nbrFails = 0)) ∧
      (c.phase = .neighbour → neighbourSkipped s.dev n a c = false → rd s.dev oNbrLimit [n, a.idx] < r.value.natAbs →
        ((x.slices[c.slice]).nbrFails = 0 → ∃ d, Completes (.calPhaseComplete n a r) s d ∧ chanOnly n s.dev d ∧ spareNow d ∧
          ((arrOf d n a).slices[c.slice]).nbrFails = 1 ∧ ((arrOf d n a).slices[c.slice]).nbrDiff = r.value) ∧
        (1 ≤ (x.slices[c.slice]).nbrFails → ∃ d, Completes (.calPhaseComplete n a r) s d ∧ retiredNow d)))

/-- O22. Slices in service (R127, R131, R132), REF_SETTLED (R116), READY (R126); 1 ms is 245760 ticks (R12). -/
def Obligations.SlicesInService : Prop :=
  ∀ (s : Sys2Proof.Machine.State) (n : Ch) (a : ArrId), Live s →
    let x := arrOf s.dev n a
    (∀ i, s.dev.ref.comparison = none → (x.slices[i]).st = .active → (x.st = .starting ∨ x.st = .running ∨ x.st = .draining) →
      ∃ d, Completes (.sliceRetirement n a i) s d ∧ ((arrOf d n a).slices[i]).st = .retired ∧ (∀ y ∈ (arrOf d n a).slots, y.slice ≠ i) ∧
        some i ∉ (arrOf d n a).roles ∧ rd d oRetirements [n, a.idx] = min 255 (rd s.dev oRetirements [n, a.idx] + 1)) ∧
    (∀ i, some i ∈ x.roles → (∀ j, some j ∈ x.roles → (x.slices[i]).calTick ≤ (x.slices[j]).calTick) →
      Completes (.calStale n a) s (updArr n a (fun x => { x with calStale := true })
        (advance ((x.slices[i]).calTick + rd s.dev oStaleLimit [n, a.idx] * 245760 + 1) s.dev))) ∧
    (∀ t, x.refSettleAt = some t →
      Completes (.refSettledSet n a) s (updArr n a (fun x => { x with refSettled := true, refSettleAt := none }) (advance t s.dev))) ∧
    (∀ (k : Die) slices sources, (∀ m : Ch, m.die = k → (s.dev.ch m).vm.ready = false) →
      ∃ d, Completes (.powerupCalibrationComplete k slices sources) s d ∧ d.now = s.dev.now ∧
        ∀ m : Ch, (m.die = k → (d.ch m).vm.ready = true ∧ (d.ch m).im.ready = true) ∧ (m.die ≠ k → d.ch m = s.dev.ch m))

/-- O23. Urgent conversions (R139 to R142; that a request with no slice to serve it is dropped is the model's choice, log 130), the tap converter (R145), the measure configuration table (R148); e is the device after what R51 puts before the urgent take. -/
def Obligations.UrgentTapTable : Prop :=
  ∀ (s : Sys2Proof.Machine.State) (p : Port) (n : Ch) (a : ArrId), Live s → s.dev.ref.comparison = none →
    let x := arrOf s.dev n a
    let idle := x.st = .off ∨ x.st = .fault
    (∀ v, Served s p oUrgentReq → LinkUp s n.die →
      (¬ idle → Completes (.urgentReq p n a v) s (done p (updArr n a (fun x => { x with urgentReqs := x.urgentReqs ++ [.object] }) s.dev))) ∧
      (idle → Completes (.urgentReq p n a v) s (setAnswer p (.refused 0x0F100043) s.dev))) ∧
    (∀ src t, x.urgentReqs = src :: t →
      let taken := updArr n a (fun x => { x with urgentReqs := t }) s.dev
      let heard := bitOf (rd s.dev oUrgentSrc [n, a.idx]) (urgentBit src) = true
      (idle ∨ ¬ heard → Completes (.urgentRequestArrival n a) s (bump oUrgentDropped [n, a.idx] taken)) ∧
      (¬ idle → heard → x.urgent.isSome = true → Completes (.urgentRequestArrival n a) s (bump oUrgentMerged [n, a.idx] taken)) ∧
      (∀ y, ¬ idle → heard → x.urgent = none → earliestSlot x = some y →
        let edge := (s.dev.now + 39) / 40 * 40
        ∃ d, Completes (.urgentRequestArrival n a) s d ∧ chanOnly n s.dev d ∧ d.objs = s.dev.objs ∧ d.now = s.dev.now ∧
          (arrOf d n a).urgent = some ⟨y.slice, (edge + 492) * 256, (edge + 492 + usTicks (rd s.dev oUrgentAp [n, a.idx])) * 256⟩ ∧
          (∀ z ∈ (arrOf d n a).slots, z.ord ≠ y.ord) ∧
          ∃ q, (arrOf d n a).done = doneInsert q x.done ∧ q.ord = y.ord ∧ q.aborted = true ∧ q.value = 0 ∧ q.stop = edge * 256) ∧
      (¬ idle → heard → x.urgent = none → earliestSlot x = none →
        let edge := (s.dev.now + 39) / 40 * 40
        (∀ i, x.roles.getD (x.nextK % max 1 x.roles.length) none = some i → Completes (.urgentRequestArrival n a) s
          (updArr n a (fun x => { x with urgent := some ⟨i, (edge + 492) * 256, (edge + 492 + usTicks (rd s.dev oUrgentAp [n, a.idx])) * 256⟩ }) taken)) ∧
        (x.roles.getD (x.nextK % max 1 x.roles.length) none = none → Completes (.urgentRequestArrival n a) s (bump oUrgentDropped [n, a.idx] taken)))) ∧
    (∀ c, x.urgent = none → Completes (.urgentApertureEnd n a c) s s.dev) ∧
    (∀ u0 u c e, x.urgent = some u0 → e = settleDue s.nv ⟨max s.dev.now (u0.stop / 256 + 369), 3, 0⟩ [n] s.dev → (arrOf e n a).urgent = some u →
      ∃ d, Completes (.urgentApertureEnd n a c) s d ∧ chanOnly n e d ∧ d.now = max e.now (u.stop / 256 + 369) ∧ (arrOf d n a).urgent = none ∧
        (arrOf d n a).seq = (arrOf e n a).seq ∧ (arrOf d n a).slots = (arrOf e n a).slots ∧
        (let cnt := min (2 ^ 32 - 1) (rd e oUrgentCount [n, a.idx] + 1)
        rd d oUrgentCount [n, a.idx] = cnt ∧ rd d oUrgentTake [n, a.idx] % 65536 = cnt % 65536) ∧
        (let z := (arrOf d n a).slices[u.slice]
        z.freeAt = u.stop / 256 ∧ z.urgentFree = u.stop / 256 + 492)) ∧
    (∀ v ovl, ∃ d, Completes (.tapSample n a v ovl) s d ∧ chanOnly n s.dev d ∧
      (let t := max (x.tap.tick + 160) ((s.dev.now + 159) / 160 * 160)
      d.now = max s.dev.now t ∧ (arrOf d n a).tap.tick = t) ∧ (arrOf d n a).tap.value = v.map BitVec.toInt ∧ (arrOf d n a).tap.overload = ovl ∧
      (x.ready = false → (arrOf d n a).tap.settling = true) ∧ (∀ w, v = some w → rd d oTapNow [n, a.idx] = w.toNat) ∧ (v = none → d.objs = s.dev.objs) ∧ (d.ch n).src = (s.dev.ch n).src) ∧
    (∀ (first : Nat) (l : List Nat) (data : List Byte), Served s p oMcfgTable → LinkUp s n.die → l ≠ [] → first < 256 →
      data.length = 2 + 16 * l.length → ofBytes (data.take 2) = first → mcfgEntries (data.drop 2) = l →
      (first + l.length ≤ 256 →
        (∀ e ∈ l, ∀ h ∈ [e % 2 ^ 64, e / 2 ^ 64], mcfgHalfReserved h = false ∧ mcfgHalfOk s.dev h = true) →
        ∃ d, Completes (.mcfgTableWrite p n data) s (done p d) ∧ chanOnly n s.dev d ∧ d.objs = s.dev.objs ∧
          ∀ i, tabGet (d.ch n).mcfg mcfgDefault i = if first ≤ i ∧ i < first + l.length then l.getD (i - first) 0 else tabGet (s.dev.ch n).mcfg mcfgDefault i) ∧
      (256 < first + l.length → Completes (.mcfgTableWrite p n data) s (setAnswer p (.refused 0x0F100003) s.dev)))

/-- O24. The write of a record into a queue (R165); overflows stop at their largest value (R177, Table 5.12). -/
def Obligations.QueueRule : Prop :=
  ∀ (q : Queue) (r : List Word64),
    let q' := queueWrite r q
    let depth := descDepth q.desc
    (depth = 0 → q' = q) ∧
    (depth ≠ 0 → queueFill q + r.length ≤ depth →
      q' = { q with recs := q.recs ++ [r], high := max q.high (queueFill q + r.length) }) ∧
    (depth ≠ 0 → depth < queueFill q + r.length → descDiscardOld q.desc = false → q' = { q with overflows := min (2 ^ 24 - 1) (q.overflows + 1) }) ∧
    (depth ≠ 0 → depth < queueFill q + r.length → descDiscardOld q.desc = true → r.length ≤ depth → q.overflows + q.recs.length < 2 ^ 24 →
      ∃ i, 0 < i ∧ i ≤ q.recs.length ∧ q'.recs = q.recs.drop i ++ [r] ∧ q'.overflows = q.overflows + i ∧ q'.high = max q.high (queueFill q') ∧
        queueFill q' ≤ depth ∧ ∀ j, j < i → depth < ((q.recs.drop j).map List.length).sum + r.length) ∧
    (queueFill q ≤ depth → queueFill q' ≤ depth)

/-- O25. Forwarding (R168), drains (R167) and flushes (R166) of queues. -/
def Obligations.QueueCommands : Prop :=
  ∀ (s : Sys2Proof.Machine.State) (p : Port) (n : Ch), Live s →
    (∀ (q : BitVec 16) (r : List Word64) (t : List (List Word64)),
      let x := qFind (s.dev.ch n).queues q.toNat
      x.recs = r :: t → descConsumer x.desc = 2 → s.dev.ctlRunning = true →
      (LinkUp s n.die → ∃ d, Completes (.queueForward n q) s d ∧ d.objs = s.dev.objs ∧ d.dies = s.dev.dies ∧
        d.chans = s.dev.chans.set n { s.dev.ch n with queues := qPut (s.dev.ch n).queues q.toNat { x with recs := t }, evTick := none } ∧
        d.ctrlQueues = qPut s.dev.ctrlQueues (descTarget x.desc) (queueWrite r (qFind s.dev.ctrlQueues (descTarget x.desc)))) ∧
      (¬ LinkUp s n.die → Completes (.queueForward n q) s s.dev)) ∧
    (∀ (q : BitVec 16), Served s p oQueueFlush → LinkUp s n.die → 1 ≤ q.toNat → q.toNat ≤ 511 →
      Completes (.queueFlush p n q) s (done p (updCh n (fun c => { c with
        queues := qPut c.queues q.toNat { qFind c.queues q.toNat with recs := [] }, evTick := none }) s.dev))) ∧
    (serves s.dev p = true → portShut s.nv s.dev p = false → portHolds s.dev p = none → LinkUp s n.die → p ≠ .c → p ≠ .x →
      let i := rdP s.dev oQueueSel p [n]
      let q := qFind (s.dev.ch n).queues i
      (descDepth q.desc = 0 → Completes (.queueDrain p (some n)) s (setAnswer p (.refused 0x0F100050) s.dev)) ∧
      (descDepth q.desc ≠ 0 → consumerOf p ≠ some (descConsumer q.desc) →
        Completes (.queueDrain p (some n)) s (setAnswer p (.refused 0x0F100052) s.dev)) ∧
      (descDepth q.desc ≠ 0 → consumerOf p = some (descConsumer q.desc) →
        ∃ j, Completes (.queueDrain p (some n)) s (setAnswer p (.done (recordBytes8 (q.recs.take j)))
            (updCh n (fun c => { c with queues := qPut c.queues i { q with recs := q.recs.drop j }, evTick := none }) s.dev)) ∧
          ((q.recs.take j).map List.length).sum ≤ 512 ∧ (j < q.recs.length → 512 < ((q.recs.take (j + 1)).map List.length).sum))) ∧
    (serves s.dev p = true → portShut s.nv s.dev p = false → portHolds s.dev p = none → p ≠ .c → p ≠ .x →
      let i := rdP s.dev oCtrlQueueSel p []
      let q := qFind s.dev.ctrlQueues i
      (descDepth q.desc = 0 → Completes (.queueDrain p none) s (setAnswer p (.refused 0x0F100050) s.dev)) ∧
      (descDepth q.desc ≠ 0 → consumerOf p = some (descConsumer q.desc) →
        ∃ j, Completes (.queueDrain p none) s (setAnswer p (.done (recordBytes8 (q.recs.take j)))
            { s.dev with ctrlQueues := qPut s.dev.ctrlQueues i { q with recs := q.recs.drop j } }) ∧
          ((q.recs.take j).map List.length).sum ≤ 512 ∧ (j < q.recs.length → 512 < ((q.recs.take (j + 1)).map List.length).sum)))

/-- O26. Results and restarts of the post-processing engines (R165, R175, R176); b is the device after what R51 puts before the write. That a restart drops a held unpaired take uncounted is the choice of log 160. -/
def Obligations.PostProcessing : Prop :=
  ∀ (s : Sys2Proof.Machine.State) (n : Ch) (i : Fin 2),
    let x := (s.dev.ch n).pes[i]
    (Live s → x.ready = [] → Completes (.peResultWrite n i) s s.dev) ∧
    (∀ ws c t b, Live s → x.ready ≠ [] → b = settleDue s.nv ⟨s.dev.now, 3, 0⟩ [n] s.dev → ((b.ch n).pes[i]).ready = (ws, c) :: t →
      ∃ d, Completes (.peResultWrite n i) s d ∧ chanOnly n b d ∧ d.now = b.now ∧ ((d.ch n).pes[i]) = { (b.ch n).pes[i] with ready := t, last := ws } ∧
        (∀ j, j ≠ i → ((d.ch n).pes[j]) = ((b.ch n).pes[j])) ∧
        (d.ch n).queues = (b.ch n).queues.map (fun e =>
          if descStream e.2.desc = 5 + i.val then (e.1, queueWrite (streamRecord (5 + i.val) ws c e.2) e.2) else e) ∧
        rd d oResults [n, i] = min (2 ^ 32 - 1) (rd b oResults [n, i] + 1)) ∧
    (∀ (p : Port) (v : BitVec 8), Served s p oPeRestart → LinkUp s n.die →
      ∃ d, Completes (.peRestart p n i v) s (done p d) ∧ chanOnly n s.dev d ∧ d.now = s.dev.now ∧
        ((d.ch n).pes[i]) = ⟨0, 0, 0, 0, 0, 0, [], none, none, none, x.seq, x.ready, x.last⟩ ∧
        rd d oPartialDiscards [n, i] = (if x.used + x.skipped = 0 then rd s.dev oPartialDiscards [n, i]
          else min (2 ^ 32 - 1) (rd s.dev oPartialDiscards [n, i] + 1)))

/-- O27. Loop period boundaries (R179 to R181, R184, R194) and the losses found there (R203, R204); e is the device after what R51 puts before the boundary. -/
def Obligations.LoopPeriods : Prop :=
  ∀ (s : Sys2Proof.Machine.State) (n : Ch) (e : Dev), Live s → e = settleDue s.nv ⟨max s.dev.now (boundaryTick s.dev n), 3, 0⟩ [n] s.dev →
    let l := (e.ch n).loop
    let b := loopBank n e
    let p := 160 * 2 ^ rd e oLoopRate [n]
    let k := 2 ^ rd e oLoopRate [n]
    let t := max (l.boundary / p * p + p) ((e.now + p - 1) / p * p)
    let i := Instr.loopPeriodBoundary n
    let fed := if rd e oLoopMode [n] % 2 = 1 then l.tapI.take k else l.tapV.take k
    let quiet : Prop := l.owed = false ∧ l.frozenFound = false
    let taps : Prop := k ≤ l.tapV.length ∧ k ≤ l.tapI.length ∧ ∀ q ∈ l.tapV.take k ++ l.tapI.take k, q.1 ≠ none
    let lost (cause : Nat) : Prop := ∃ d, Completes i s d ∧ d.now = t ∧ (d.ch n).loop.st = .safeHold ∧ bitOf (rd d oLoopFault [n]) cause = true ∧
      bitOf (rd d oChFault [n]) 0 = true ∧ (d.ch n).src.loopCode = (e.ch n).src.loopCode ∧ (d.ch n).src.safe = some
        ⟨l.uOut, rdI e oSafeCode [n], t + usTicks (rd e oSafeHoldUs [n]), (usTicks (((l.uOut - rdI e oSafeCode [n]).natAbs +
          max 1 (rd e oSlewMax [n, rd e oCoefActive [n]]) - 1) / max 1 (rd e oSlewMax [n, rd e oCoefActive [n]])) + 9) / 10⟩
    let closed : Prop := l.st = .primary ∨ l.st = .limit
    ((l.st = .openState ∨ l.st = .safeHold ∨ l.st = .safeRamp) →
      let opened := updLoop n (fun l => { l with boundary := t }) (advance t b)
      ((∀ u m, (e.ch n).loopBefore = some (u, m) → u ≠ t ∨ loopClosed m.st = false) → Completes i s opened) ∧
      (∀ m, (e.ch n).loopBefore = some (t, m) → loopClosed m.st = true →
        ∃ v, Completes i s (wr opened oLoopFault v [n]) ∧ (m.frozenFound = true → bitOf v 2 = true))) ∧
    ((∀ u m, (e.ch n).loopBefore = some (u, m) → u ≠ t) →
    (∀ x, l.st = .rangeXover → l.xover = some x → quiet → taps → l.setWaits = false → l.coastRun < rd e oCoastMax [n] → x.scaled = false →
      ∃ d, Completes i s d ∧ chanOnly n b d ∧ d.now = t ∧ (d.ch n).loop.st = .rangeXover ∧ (d.ch n).loop.owed = true ∧
        (t < x.scaleAt → (d.ch n).loop.handed = some l.uOut ∧ (d.ch n).loop.integ = l.integ ∧ (d.ch n).loop.bqs = l.bqs ∧ (d.ch n).loop.xover = some x) ∧
        (x.scaleAt ≤ t → x.writes = [] → (d.ch n).loop.handed = some (sat40 (mulRho x.rhoM x.rhoE l.uPrev)) ∧
          (d.ch n).loop.integ = sat96 (mulRho x.rhoM x.rhoE l.integ) ∧ (d.ch n).loop.xover = some { x with scaled := true })) ∧
    (∀ x, l.st = .rangeXover → l.xover = some x → quiet → ¬ taps → lost 1) ∧
    (∀ x, l.st = .rangeXover → l.xover = some x → quiet → taps → l.setWaits = false → x.scaled = true → x.resumeAt ≤ t → (x.back = .primary ∨ x.back = .limit) →
      (∀ q ∈ fed, q.2 = false) → l.softWaits = none → l.decided = none →
      ∃ d, Completes i s d ∧ chanOnly n b d ∧ d.now = t ∧ (d.ch n).loop.st = x.back ∧ (d.ch n).loop.xover = none ∧ (d.ch n).loop.law.isSome = true ∧
        (d.ch n).loop.coastRun = 0 ∧ (d.ch n).loop.integ = l.integ) ∧
    (∀ x, l.st = .rangeXover → l.xover = some x → x.writes = [] → quiet → taps → l.setWaits = false → (x.scaled = true → t < x.resumeAt) →
      rd e oCoastMax [n] ≤ l.coastRun → lost 1) ∧
    (l.xover = none → closed → quiet → taps → l.setWaits = true →
      ∃ d, Completes i s d ∧ d.now = t ∧ (d.ch n).loop.set = loadSet e n ∧ (d.ch n).loop.setWaits = false) ∧
    (l.xover = none → (∀ u, closed → l.owed = true → l.handed = some u → l.frozenFound = false →
      ∃ d, Completes i s d ∧ d.now = t ∧ (d.ch n).src.loopCode = u ∧ (d.ch n).loop.uOut = u ∧ (d.ch n).loop.consec = 0 ∧
        rd d oOverruns [n] = rd e oOverruns [n]) ∧
    (closed → l.owed = true → l.handed = none → l.frozenFound = false → l.consec < 2 →
      ∃ d, Completes i s d ∧ d.now = t ∧ (d.ch n).src.loopCode = (e.ch n).src.loopCode ∧ (d.ch n).loop.uOut = l.uOut ∧
        rd d oOverruns [n] = min (2 ^ 32 - 1) (rd e oOverruns [n] + 1) ∧ bitOf (rd d oChFault [n]) 8 = true ∧
        ((d.ch n).loop.st ≠ .safeHold → (d.ch n).loop.consec = l.consec + 1 ∧ (d.ch n).loop.overrunLast = true ∧
          (d.ch n).eseq = ((e.ch n).eseq + 1) % 65536)) ∧
    (closed → l.owed = true → l.handed = none → l.frozenFound = false → l.consec = 2 → lost 0) ∧
    (closed → l.owed = true → l.handed = none → l.frozenFound = true → lost 2) ∧
    (closed → quiet → ¬ taps → lost 1) ∧
    (closed → quiet → taps →
      ((∃ q ∈ fed, q.2 = true) → l.setWaits = false → l.coastRun < rd e oCoastMax [n] →
        ∃ d, Completes i s d ∧ chanOnly n b d ∧ d.now = t ∧ (d.ch n).src = (e.ch n).src ∧ (d.ch n).loop = { l with
            boundary := t, coasting := true, coastRun := l.coastRun + 1, handed := some l.uOut, owed := true, law := none, window := [], tapV := [], tapI := [] } ∧
          rd d oCoastPeriods [n] = min (2 ^ 32 - 1) (rd e oCoastPeriods [n] + 1) ∧ rd d oLoopOut [n] = ofSigned 40 l.uOut) ∧
      ((∃ q ∈ fed, q.2 = true) → l.setWaits = false → rd e oCoastMax [n] ≤ l.coastRun → lost 1) ∧
      ((∀ q ∈ fed, q.2 = false) → l.softWaits = none → l.decided = none → l.setWaits = false →
        Completes i s (updLoop n (fun l => { l with
          boundary := t, owed := true, handed := none, coasting := false, coastRun := 0, tapV := [], tapI := []
          law := some ⟨t, loopUnits (rd e oRange [n, 0]) (tapMean (l.tapV.take k)), loopUnits (rd e oRange [n, 1]) (tapMean (l.tapI.take k)),
            ((fed.map Prod.fst).head?.join).getD 0, setpoint e n t, rdI e oLimHi [n], rdI e oLimLo [n], 0, none, loopCosts b n⟩ }) (advance t b))) ∧
      (l.st = .limit → ∀ low, (∀ q ∈ fed, q.2 = false) → l.setWaits = false → l.softWaits = some low →
        ∃ d, Completes i s d ∧ chanOnly n b d ∧ d.now = t ∧ (d.ch n).loop.st = .limit ∧ (d.ch n).loop.softWaits = none ∧ (d.ch n).loop.decided = none ∧
          (d.ch n).loop.count = 0 ∧ (d.ch n).loop.sideLow = l.sideLow ∧ (d.ch n).loop.integ = l.integ ∧ (d.ch n).loop.law.isSome = true ∧
          rd d oXovers [n] = rd e oXovers [n]) ∧
      (∀ go y, (∀ q ∈ fed, q.2 = false) → l.setWaits = false →
        (l.softWaits = none ∧ l.decided = some go ∧ y = l.decidedY ∨
          ∃ low, l.st = .primary ∧ l.softWaits = some low ∧ go = some low ∧ y = if rd e oLoopMode [n] % 2 = 1 then
            loopUnits (rd e oRange [n, 0]) (tapMean (l.tapV.take k)) else loopUnits (rd e oRange [n, 1]) (tapMean (l.tapI.take k))) →
        ∃ d, Completes i s d ∧ chanOnly n b d ∧ d.now = t ∧ (d.ch n).loop.law.isSome = true ∧
          (d.ch n).loop.st = (if go.isSome = true then .limit else .primary) ∧ (d.ch n).loop.sideLow = go.getD false ∧ (d.ch n).loop.yPrev = some y ∧
          (d.ch n).loop.uPrev = l.uPrev ∧ (d.ch n).loop.released = false ∧ (d.ch n).loop.window = [] ∧ (d.ch n).loop.count = 0 ∧
          (d.ch n).loop.integ = integFor l.uPrev (if go.isSome = true then l.set.shiftL else l.set.shift) 0 0 0 0 ∧
          rd d oXovers [n] = min (2 ^ 32 - 1) (rd e oXovers [n] + 1)))))

/-- O28. The law (R186 to R189, R191) and the compliance step (R195). -/
def Obligations.LoopLaw : Prop :=
  (∀ (s : Sys2Proof.Machine.State) (n : Ch) (w : Law) (ecc : Nat), Live s → (s.dev.ch n).loop.law = some w →
    let l := (s.dev.ch n).loop
    let i := Instr.lawHandoff n ecc
    let cost := costedNeed w.costs l.set.bqCount + w.extra + 6 * ecc
    let counted (d : Dev) : Prop := rd d oEccRetries [n] = min (2 ^ 32 - 1) (rd s.dev oEccRetries [n] + ecc) ∧
      rd d oWorstTicks [n] = min 65535 (max (rd s.dev oWorstTicks [n]) cost)
    (160 * 2 ^ rd s.dev oLoopRate [n] < cost → ∃ d, Completes i s d ∧ d = { s.dev with objs := d.objs } ∧ counted d) ∧
    (cost ≤ 160 * 2 ^ rd s.dev oLoopRate [n] → (l.st = .primary ∨ l.st = .limit) →
      let cur : Bool := rd s.dev oLoopMode [n] % 2 = 1
      let lim : Bool := l.st = .limit
      let y := if cur != lim then w.yi else w.yv
      let r := if lim then (if l.sideLow then w.limLo else w.limHi) else w.r
      let kp := if lim then l.set.kpL else l.set.kp
      let ki := if lim then l.set.kiL else l.set.ki
      let kd := if lim then l.set.kdL else l.set.kd
      let shift := if lim then l.set.shiftL else l.set.shift
      let e := sat40 (r - y)
      let pd := kp * e - kd * (y - l.yPrev.getD y)
      let integ := sat96 (l.integ + ki * e)
      let bq := biquads l.set.bqCount l.set.bqs l.bqs (sat40 (quotNearestAway ((pd + integ) * 2 ^ shift) (2 ^ 39)))
      let u := max l.set.uMin (min l.set.uMax (max (l.uPrev - l.set.slewP) (min (l.uPrev + l.set.slewP) bq.1)))
      let win := ((w.last, u) :: l.window).take (rd s.dev oFrozenPeriods [n])
      0 ≤ l.set.slewP → l.set.uMin ≤ l.set.uMax →
      ∃ d, Completes i s d ∧ chanOnly n s.dev d ∧ d.now = max s.dev.now (w.b + cost) ∧ counted d ∧ (d.ch n).src = (s.dev.ch n).src ∧
        (frozenTest (rd s.dev oFrozenPeriods [n]) (rd s.dev oFrozenMove [n]) win = true →
          (d.ch n).loop = { l with law := none, frozenFound := true } ∧ rd d oLoopOut [n] = rd s.dev oLoopOut [n]) ∧
        (frozenTest (rd s.dev oFrozenPeriods [n]) (rd s.dev oFrozenMove [n]) win = false → ∃ out,
          (lim = true → out = u) ∧
          (∀ rp, lim = false → l.yPrev.isSome = true → l.rPrev = rp →
            out = sat40 (u + (l.set.ff0 * w.r + l.set.ff1 * (w.r - rp)) * 2 ^ l.set.ffShift / 2 ^ 39)) ∧
          (d.ch n).loop.handed = some out ∧ rd d oLoopOut [n] = ofSigned 40 out ∧ rd d oLoopErr [n] = ofSigned 40 e ∧ (d.ch n).loop.law = none ∧
          (d.ch n).loop.integ = (if u = bq.1 then integ else sat96 (integ - (bq.1 - u) * 2 ^ (39 - shift))) ∧ (d.ch n).loop.bqs = bq.2 ∧
          (d.ch n).loop.uPrev = u ∧ (d.ch n).loop.yPrev = some y ∧ (d.ch n).loop.rPrev = r ∧ (d.ch n).loop.window = win ∧
          (d.ch n).loop.st = l.st ∧ (d.ch n).loop.uOut = l.uOut))) ∧
  (∀ (c : BqCoef) (h : BqHist) (x : Int), biquad c h x =
    (sat40 ((c.b0 * x + c.b1 * h.x1 + c.b2 * h.x2 - c.a1 * h.y1 - c.a2 * h.y2) * 2 ^ c.shift / 2 ^ 39), ⟨x, h.x1, (biquad c h x).1, h.y1⟩)) ∧
  (∀ (l : Loop) (w : Law) (cur auto : Bool) (need : Nat), l.decided = none →
    let prim := if cur then w.yi else w.yv
    let lim := if cur then w.yv else w.yi
    let m := complianceStep l w cur auto need
    let counts (low : Bool) (go : Option Bool) (y : Int) : Prop :=
      m.count = (if l.count ≠ 0 ∧ l.countLow = low then l.count + 1 else 1) ∧ m.countLow = low ∧
      (need ≤ m.count → m.decided = some go ∧ m.decidedY = y) ∧ (m.count < need → m.decided = none)
    (l.st = .primary → w.limHi < lim → counts false (some false) lim) ∧
    (l.st = .primary → lim ≤ w.limHi → lim < w.limLo → counts true (some true) lim) ∧
    (l.st = .primary → lim ≤ w.limHi → w.limLo ≤ lim → m = { l with count := 0 }) ∧
    (l.st = .limit → (auto = true ∨ l.released = true) → (if l.sideLow then prim ≤ w.r else w.r ≤ prim) → counts false none prim) ∧
    (l.st = .limit → auto = false → l.released = false → m = { l with count := 0 })) ∧
  (∀ (u : Int) (shift : Nat) (kp kd : Int), shift ≤ 16 → -(2 ^ 39) ≤ u → u < 2 ^ 39 →
    sat40 (quotNearestAway ((kp * 0 - kd * 0 + integFor u shift kp 0 kd 0) * 2 ^ shift) (2 ^ 39)) = u)

/-- O29. Soft trips and the return (R195, R196), the loop's own objects (R183, R206) and the safe-state ramp (Table 6.4). -/
def Obligations.LoopCommands : Prop :=
  ∀ (s : Sys2Proof.Machine.State) (p : Port) (n : Ch), Live s →
    let l := (s.dev.ch n).loop
    (Served s p oXoverRelease → LinkUp s n.die → ∀ v,
      Completes (.xoverRelease p n v) s (done p (updLoop n (fun l => { l with released := true }) s.dev))) ∧
    (Served s p oLoopSp → LinkUp s n.die → ∀ v, Completes (.loopSpWrite p n v) s (done p (loopSpWrite n v.toNat s.dev)) ∧
      rd (loopSpWrite n v.toNat s.dev) oLoopSp [n] = v.toNat ∧ (l.xover = none → loopSpWrite n v.toNat s.dev = wr s.dev oLoopSp v.toNat [n])) ∧
    (Served s p oLoopFault → LinkUp s n.die → ∀ v : BitVec 8, v.toNat < 16 →
      (l.st = .openState → ∃ d, Completes (.loopFaultClear p n v) s (done p d) ∧ d = { s.dev with objs := d.objs } ∧
        ∀ i, bitOf (rd d oLoopFault [n]) i = (bitOf (rd s.dev oLoopFault [n]) i && !bitOf v.toNat i)) ∧
      ((l.st = .safeHold ∨ l.st = .safeRamp) → Completes (.loopFaultClear p n v) s (setAnswer p (.refused 0x0F100065) s.dev))) ∧
    (∀ (m : Mon) (side : Option Bool), l.softSent.find? (fun e => e.1 == m) = some (m, side) →
      let limited : Mon := if rd s.dev oLoopMode [n] % 2 = 1 then 0 else 1
      (∀ low, side = some low → m = limited → l.st = .primary →
        Completes (.softTripAtLe n m) s (updLoop n (fun l => { l with softSent := l.softSent.erase (m, side), softWaits := some low }) s.dev)) ∧
      ((side = none ∨ m ≠ limited) →
        Completes (.softTripAtLe n m) s (updLoop n (fun l => { l with softSent := l.softSent.erase (m, side) }) s.dev))) ∧
    (∀ y, (s.dev.ch n).src.safe = some y →
      (l.st = .safeHold → Completes (.safeRampBegin n) s (updLoop n (fun l => { l with st := .safeRamp }) (advance y.begin_ s.dev))) ∧
      (l.st = .safeRamp → l.xover = none → (s.dev.ch n).src.st = .running →
        ∃ d, Completes (.safeRampEnd n) s d ∧ d.now = max s.dev.now (y.begin_ + 10 * y.clocks) ∧ (d.ch n).loop.st = .openState ∧
          (d.ch n).src.st = .tripped ∧ (d.ch n).src.clampCause = 4 ∧ (d.ch n).src.gndClamp = decide (rd s.dev oSrcMode [n] = 0) ∧
          (d.ch n).src.hizClamp = !decide (rd s.dev oSrcMode [n] = 0) ∧ (d.ch n).src.forceEn = false ∧ (d.ch n).src.safe = none ∧
          (d.ch n).src.queue = [] ∧ rd d oSrcEnable [n] = 0))

/-- O30. The step of the Sequencer at a decision point (R212, R219, R220), swaps (R223, R224), landings (R231), holds (R242); e is the device after what R51 puts before the decision point. -/
def Obligations.DecisionPoints : Prop :=
  ∀ (s : Sys2Proof.Machine.State) (n : Ch) (st : Nat) (e : Dev), Live s → e = settleDue s.nv ⟨max s.dev.now (knownTick s (decisionTick s.dev n)), 2, 1⟩ [n] s.dev →
    let q := (e.ch n).seq
    let i := Instr.decisionPoint n
    let c := courseOf q q.bank q.idx
    let runs (P : Dev → Prop) : Prop := ∃ d, Completes i s d ∧ d.now = max e.now st ∧ (d.ch n).seq.next = q.next + 1 ∧
      (∀ k, k ≠ n → d.ch k = e.ch k) ∧ P d
    let codeIs (d : Dev) (g x : Nat) : Prop := (d.ch n).seq.last = courseCode c q.last g x ∧
      (rd e oSrcQOwner [n] ≠ 2 → (d.ch n).src = (e.ch n).src) ∧
      (rd e oSrcQOwner [n] = 2 → rd e oSrcOrigin [n] = 1 → (e.ch n).src.st = .running → (e.ch n).src.queue.length < 4096 →
        (d.ch n).src.queue = (e.ch n).src.queue ++ [codeEntry (some q.next) (courseCode c q.last g x)])
    (decisionTick e n = none → Completes i s e) ∧
    (decisionTick e n = some st →
      (q.st = .stopped → runs fun d => (d.ch n).seq = { q with next := q.next + 1 } ∧ d.objs = e.objs) ∧
      (q.st = .held → holdCause q = true → runs fun d => (d.ch n).seq = { q with next := q.next + 1 } ∧ d.objs = e.objs) ∧
      (∀ w, q.st = .waiting → q.cut = none → holdCause q = false → q.wait = some w → w.release = none → runs fun d =>
        (d.ch n).seq = { q with next := q.next + 1 }) ∧
      (q.st = .endHold → q.cut = none → holdCause q = false → bankState q (1 - q.bank) ≠ .ready → runs fun d =>
        (d.ch n).seq = { q with next := q.next + 1 }) ∧
      (q.st = .playing → q.i < coSegLen c → runs fun d => (d.ch n).seq.st = .playing ∧ (d.ch n).seq.idx = q.idx ∧ (d.ch n).seq.seg = q.seg ∧
        (d.ch n).seq.i = q.i + 1 ∧ codeIs d q.seg (q.i + 1) ∧
        (d.ch n).seq.landing = (q.landing || (q.cut.isSome && lastOfUnit c q.seg (q.i + 1)))) ∧
      (q.st = .playing → coSegLen c ≤ q.i → q.landing = false → q.patch = none →
        ((coRepeat c = 0 ∨ q.seg + 1 < coRepeat c) → runs fun d => (d.ch n).seq.st = .playing ∧ (d.ch n).seq.idx = q.idx ∧
          (d.ch n).seq.seg = q.seg + 1 ∧ (d.ch n).seq.i = 0 ∧ codeIs d (q.seg + 1) 0) ∧
        (coRepeat c ≠ 0 → coRepeat c ≤ q.seg + 1 →
          let last := rd e oBankEnd [n, q.bank]
          let flags := rd e oBankFlags [n, q.bank]
          (q.idx ≠ last → q.idx ≠ 8191 → holdCause q = false →
            (let c' := courseOf q q.bank (q.idx + 1)
            coWait c' = 0 → coDelay c' = 0 → coDunit c' = false → runs fun d => (d.ch n).seq.st = .playing ∧ (d.ch n).seq.bank = q.bank ∧
              (d.ch n).seq.idx = q.idx + 1 ∧ (d.ch n).seq.seg = 0 ∧ (d.ch n).seq.i = 0 ∧ (d.ch n).seq.last = courseCode c' q.last 0 0 ∧
              (d.ch n).seq.starts = q.starts ++ [⟨q.next, q.bank, q.idx + 1, coMcfg c'⟩])) ∧
          (q.idx ≠ last → q.idx ≠ 8191 → holdCause q = true → runs fun d => (d.ch n).seq.st = .held ∧ (d.ch n).seq.chosen = some (q.idx + 1) ∧
            markLevels (d.ch n).seq = 0 ∧ (d.ch n).seq.compare = [] ∧ (d.ch n).src = (e.ch n).src ∧ rd d oHoldPos [n] = chPos d n) ∧
          (q.idx = last → bankState q (1 - q.bank) = .ready → q.bank < 2 → runs fun d => (d.ch n).seq.bank = 1 - q.bank ∧
            bankState (d.ch n).seq (1 - q.bank) = .playing ∧ bankState (d.ch n).seq q.bank = .idle ∧
            (d.ch n).seq.swaps = min (2 ^ 32 - 1) (q.swaps + 1) ∧ rd d oBankLates [n] = rd e oBankLates [n] ∧ (holdCause q = false → (d.ch n).seq.idx = 0)) ∧
          (q.idx = last → bankState q (1 - q.bank) ≠ .ready → holdCause q = false → bitOf flags 0 = false → runs fun d =>
            (d.ch n).seq.st = .endHold ∧ (d.ch n).seq.idx = q.idx ∧ (d.ch n).seq.last = q.last ∧ rd d oBankLates [n] =
              (if bitOf flags 1 = true then min (2 ^ 32 - 1) (rd e oBankLates [n] + 1) else rd e oBankLates [n]) ∧
            (bitOf flags 1 = true → bitOf (rd d oBankLate [n]) 0 = true)))) ∧
      (∀ x, q.st = .playing → coSegLen c ≤ q.i → q.landing = true → q.cut = some x → x.source < 8 → (∀ v, x.target = some v → v < 8192) → runs fun d =>
        let tgt := x.target.getD (coTarget c)
        (d.ch n).seq.cut = none ∧ (d.ch n).seq.landing = false ∧ (d.ch n).seq.bank = q.bank ∧ (holdCause q = false → (d.ch n).seq.idx = tgt) ∧
          (holdCause q = true → (d.ch n).seq.st = .held ∧ (d.ch n).seq.chosen = some tgt) ∧
          rd d oCuts [n] = min (2 ^ 32 - 1) (rd e oCuts [n] + 1) ∧ rd d oCutLast [n] = x.source * 8192 + tgt ∧ rd d oCutLastPos [n] = chPos d n))

/-- O31. SEQ_CMD (R241, Table 7.12), the banks (R221) and CUT_REQ (R228, R230). SEQ_CMD rows act at once as direct requests (log 27); a request that waits on a retraining link is log 161. -/
def Obligations.SequencerCommands : Prop :=
  ∀ (s : Sys2Proof.Machine.State) (p : Port) (n : Ch), Live s →
    let q := (s.dev.ch n).seq
    let b := rd s.dev oStartBank [n]
    (Served s p oSeqCmd → LinkUp s n.die →
    (q.st = .stopped → bankState q b = .ready → b < 2 →
      ∃ d, Completes (.seqStart p n) s (done p (wr d oSeqCmd 1 [n])) ∧ chanOnly n s.dev d ∧ d.now = s.dev.now ∧ d.objs = s.dev.objs ∧ (d.ch n).seq.st = .waiting ∧
        (d.ch n).seq.bank = b ∧ (d.ch n).seq.idx = 0 ∧ (d.ch n).seq.last = 0 ∧ bankState (d.ch n).seq b = .playing ∧
        bankState (d.ch n).seq (1 - b) = bankState q (1 - b) ∧ (d.ch n).seq.crr = none ∧ (d.ch n).seq.cut = none ∧
        (rd s.dev oSrcQOwner [n] = 2 → (d.ch n).src = { (s.dev.ch n).src with queue := [] }) ∧ (rd s.dev oSrcQOwner [n] ≠ 2 → (d.ch n).src = (s.dev.ch n).src)) ∧
    ((q.st ≠ .stopped ∨ bankState q b ≠ .ready) → Completes (.seqStart p n) s (setAnswer p (.refused 0x0F100073) s.dev)) ∧
    (q.st ≠ .stopped → q.bank < 2 →
      ∃ d, Completes (.seqStop p n) s (done p (wr d oSeqCmd 2 [n])) ∧ d.now = s.dev.now ∧ d.objs = s.dev.objs ∧ (∀ k, k ≠ n → d.ch k = s.dev.ch k) ∧
        (d.ch n).src = (s.dev.ch n).src ∧ (d.ch n).seq.st = .stopped ∧ bankState (d.ch n).seq q.bank = .idle ∧ (d.ch n).seq.lanes = q.lanes ∧
        markLevels (d.ch n).seq = 0 ∧ (d.ch n).seq.cut = none ∧ (d.ch n).seq.crr = q.crr ∧ (d.ch n).seq.holdHost = q.holdHost ∧ (d.ch n).seq.holdLink = q.holdLink) ∧
    (q.st = .stopped → Completes (.seqStop p n) s (done p (wr s.dev oSeqCmd 2 [n]))) ∧
    Completes (.seqHold p n) s (done p (wr (updSeq n (fun q => { q with holdHost := true }) s.dev) oSeqCmd 3 [n])) ∧
    ((q.st = .held ∨ q.holdHost = true ∨ q.holdLink = true ∨ (q.st ≠ .stopped ∧ q.holdSupply = true)) →
      Completes (.seqResume p n) s (done p (wr (updSeq n (fun q => { q with holdHost := false, holdLink := false }) s.dev) oSeqCmd 4 [n]))) ∧
    (q.st ≠ .held → q.holdHost = false → q.holdLink = false → (q.st = .stopped ∨ q.holdSupply = false) →
      Completes (.seqResume p n) s (setAnswer p (.refused 0x0F100076) s.dev))) ∧
    (Served s p oSeqCmd → ((s.dev.dies[n.die]).link.st = .lost ∨ (s.dev.dies[n.die]).link.st = .training) →
      ∀ i ∈ [Instr.seqStart p n, .seqStop p n, .seqHold p n, .seqResume p n], Completes i s (setAnswer p (.refused 0x0F100002) s.dev)) ∧
    (Served s p oSeqCmd → (s.dev.dies[n.die]).link.st = .retraining → Completes (.seqHold p n) s (holdRequest n.die p (.seq n 3) s.dev)) ∧
    (∀ (k : Fin 2) (data : List Byte) (first : Nat) (l : List Nat), Served s p (if k = 0 then oBankA else oBankB) → LinkUp s n.die →
      l ≠ [] → data = leBytes 2 first ++ l.flatMap (leBytes 32) → first + l.length ≤ 8192 → (∀ c ∈ l, c < 2 ^ 256 ∧ courseReserved c = false) →
      (bankState q k = .idle →
        ∃ d, Completes (.bankWrite p n k data) s (done p d) ∧ chanOnly n s.dev d ∧ d.objs = s.dev.objs ∧ ∀ e,
          courseOf (d.ch n).seq k e = (if first ≤ e ∧ e < first + l.length then l.getD (e - first) 0 else courseOf q k e) ∧
          courseOf (d.ch n).seq (1 - k.val) e = courseOf q (1 - k.val) e) ∧
      (bankState q k = .ready → Completes (.bankWrite p n k data) s (setAnswer p (.refused 0x0F100071) s.dev)) ∧
      (bankState q k = .playing → Completes (.bankWrite p n k data) s (setAnswer p (.refused 0x0F100070) s.dev))) ∧
    (∀ (k : Fin 2) (v : BitVec 16), Served s p oBankEnd → LinkUp s n.die →
      (bankState q k = .idle → v.toNat ≤ 8191 →
        Completes (.bankHeaderWrite p n k 0 v) s (done p (wr s.dev oBankEnd v.toNat [n, k])) ∧
        Completes (.bankHeaderWrite p n k 1 v) s (done p (wr s.dev oLoopStart v.toNat [n, k])) ∧
        (v.toNat < 4 → Completes (.bankHeaderWrite p n k 2 v) s (done p (wr s.dev oBankFlags v.toNat [n, k])))) ∧
      (bankState q k = .ready → v.toNat < 4 → ∀ h, Completes (.bankHeaderWrite p n k h v) s (setAnswer p (.refused 0x0F100071) s.dev)) ∧
      (bankState q k = .playing → v.toNat < 4 → ∀ h, Completes (.bankHeaderWrite p n k h v) s (setAnswer p (.refused 0x0F100070) s.dev))) ∧
    (∀ v : BitVec 16, Served s p oCutReq → LinkUp s n.die → getField v.toNat 13 2 = 0 →
      let open_ : Prop := q.st ≠ .stopped ∧ bitOf (rd s.dev oCutSrc [n]) 4 = true
      (open_ → q.cut = none → Completes (.cutReq p n v) s (done p (updSeq n (fun q => { q with
        cut := some ⟨0, if bitOf v.toNat 15 then some (v.toNat % 8192) else none⟩ }) s.dev))) ∧
      (open_ → q.cut.isSome = true → Completes (.cutReq p n v) s (done p (bump oCutsMerged [n] s.dev))) ∧
      (¬ open_ → Completes (.cutReq p n v) s (setAnswer p (.refused 0x0F100077) s.dev)))

/-- O32. Trigger pins (R216, R228), chain Cut lines (R234), groups (R232); e is the device after what R51 puts before the edge. The pin samples that pass the filter are log 145, the edge after the filter and CUTS_DROPPED only while STOPPED log 26. -/
def Obligations.CutsAndGroups : Prop :=
  ∀ (s : Sys2Proof.Machine.State) (n : Ch), Live s →
    let q := (s.dev.ch n).seq
    let c := courseOf q q.bank q.idx
    (∀ (pin : Fin 4) (falling : Bool) (samples : BitVec 8) (e : Dev), e = settleDue s.nv ⟨max s.dev.now 0, 2, 0⟩ [] s.dev →
      let q := (e.ch n).seq
      let c := courseOf q q.bank q.idx
      let z := rd e oCutSrc [n]
      let sees : Prop := rd e oTrigFilter [n] = samples.toNat
      let cuts : Prop := bitOf z 5 = true ∧ getField z 6 2 = pin ∧ bitOf z 8 = falling
      ∃ d, Completes (.trigInEdge n.die pin ⟨falling, samples⟩) s d ∧ d.now = e.now ∧ (∀ k : Ch, k.die ≠ n.die → d.ch k = e.ch k) ∧
        (¬ sees → d.ch n = e.ch n) ∧
        (sees → (∀ w, q.wait = some w → coWait c = 1 → w.release = none → coArg c % 4 = pin → bitOf (coArg c) 2 = falling → w.since < e.now →
          (d.ch n).seq.wait = some { w with release := some (.tick e.now) }) ∧
        (∀ w, q.wait = some w → (coWait c ≠ 1 ∨ coArg c % 4 ≠ pin ∨ bitOf (coArg c) 2 ≠ falling) → (d.ch n).seq.wait = some w) ∧
        (cuts → q.st ≠ .stopped → q.cut = none → (d.ch n).seq.cut = some ⟨1, none⟩) ∧
        (cuts → q.st ≠ .stopped → q.cut.isSome = true → (d.ch n).seq.cut = q.cut ∧
          rd d oCutsMerged [n] = min (2 ^ 32 - 1) (rd e oCutsMerged [n] + 1)) ∧
        (cuts → q.st = .stopped → (d.ch n).seq.cut = q.cut ∧ rd d oCutsDropped [n] = min (2 ^ 32 - 1) (rd e oCutsDropped [n] + 1)) ∧
        (¬ cuts → (d.ch n).seq.cut = q.cut ∧ rd d oCutsMerged [n] = rd e oCutsMerged [n] ∧ rd d oCutsDropped [n] = rd e oCutsDropped [n]))) ∧
    (∀ (p : Port) (v : BitVec 16), Served s p oChainCut → v.toNat < 4096 →
      Completes (.chainCut p v) s (done p { s.dev with zh := { s.dev.zh with
        cutChange := some (s.dev.zh.cutChange.getD 0 ||| BitVec.ofNat 12 v.toNat), cutOwn := s.dev.zh.cutOwn ||| BitVec.ofNat 12 v.toNat } })) ∧
    (∀ (g : Fin 8) (rest : List (Ch × Nat × Bool)) (arrive : Bool), LinkUp s n.die → s.dev.ctlRunning = true →
      takeMsg n g s.dev.groups.msgs = some (arrive, rest) →
      let others := s.dev.groups.arrived.filter fun e => !(e.1 == n && e.2 == g.val)
      let now := if arrive then others ++ [(n, g.val)] else others
      let here := (now.filter fun e => e.2 == g.val).map Prod.fst
      let members := (List.finRange 24).filter fun (k : Ch) => bitOf (rd s.dev oSeqGroups [k]) g || here.contains k
      ((here = [] ∨ ∃ k ∈ members, k ∉ here) → Completes (.groupArrival n g) s { s.dev with groups := { s.dev.groups with msgs := rest, arrived := now } }) ∧
      (here ≠ [] → (∀ k ∈ members, k ∈ here) →
        ∃ pos d, Completes (.groupArrival n g) s d ∧ d = { s.dev with groups := ⟨rest, now.filter (fun e => e.2 != g.val),
            s.dev.groups.releases ++ members.map fun k => (k, g.val, pos)⟩ } ∧ pos % 65536 = 0 ∧
          (let least := posOf s.dev.cad.recs ((s.dev.now + 12288) * 256)
          least + 65535 < posMod → least ≤ pos ∧ pos < least + 65536))) ∧
    (∀ (g : Fin 8) (pos : Nat), LinkUp s n.die → s.dev.groups.releases.find? (fun e => e.1 == n) = some (n, g.val, pos) →
      let taken := { s.dev with groups := { s.dev.groups with releases := s.dev.groups.releases.erase (n, g.val, pos) } }
      (∀ w, q.wait = some w → coWait c = 4 → coArg c % 8 = g → w.release = none → Completes (.groupReleasePosition n) s
        (updSeq n (fun q => { q with wait := some { w with release := some (.pos pos) } }) taken)) ∧
      (q.wait = none → Completes (.groupReleasePosition n) s taken))

/-- O33. Course starts (R218), vector lanes (R236), markers (R238). The operands of VECTOR_COMPARE_FAILURE are log 145; offsets rounded up to a tick are log 26. -/
def Obligations.VectorsAndMarkers : Prop :=
  ∀ (s : Sys2Proof.Machine.State) (n : Ch), Live s →
    let q := (s.dev.ch n).seq
    (∀ e, e = settleDue s.nv ⟨max s.dev.now (knownTick s (courseTick s.dev n)), 2, 0⟩ [] s.dev →
      (courseTick e n = none → Completes (.courseStart n) s e) ∧
      ∀ x t at_, (e.ch n).seq.starts = x :: t → courseTick e n = some at_ →
      ∃ d, Completes (.courseStart n) s d ∧ d.now = max e.now at_ ∧ (∀ k : Ch, k ≠ n → d.ch k = e.ch k) ∧ d.cad = e.cad ∧ d.dies = e.dies ∧
        (d.ch n).seq = { (e.ch n).seq with starts := t, crr := some (x.bank * 8192 + x.entry), crrLog := (d.ch n).seq.crrLog } ∧
        ∀ a : ArrId, let h := mcfgHalf e n x.mcfg a
          (bitOf h 52 = false → rd e oSched [n, a.idx] ≠ 0 → rd d oRange [n, a.idx] = getField h 45 2 ∧ rd d oAperture [n, a.idx] = getField h 0 40 ∧
            rd d oArrEnable [n, a.idx] = (if bitOf h 51 = true then 1 else 0)) ∧
          (bitOf h 52 = true ∨ rd e oSched [n, a.idx] = 0 → rd d oRange [n, a.idx] = rd e oRange [n, a.idx] ∧
            rd d oAperture [n, a.idx] = rd e oAperture [n, a.idx] ∧ rd d oArrEnable [n, a.idx] = rd e oArrEnable [n, a.idx])) ∧
    (∀ x t, q.drives = x :: t →
      ∃ d, Completes (.vectorDriveEdge n) s d ∧ chanOnly n s.dev d ∧ d.objs = s.dev.objs ∧
        d.now = max s.dev.now ((((slotTick s.dev n x.slot + 960 : Nat) : Int) * 16 + rdI s.dev oVecOffset [n] + 15) / 16).toNat ∧
        (d.ch n).seq.compare = (x, d.now, match q.compare with | y :: _ => if x.goesOn = true then y.2.2 else 0 | [] => 0) ::
          q.compare.filter (fun y => match y.1.stop with | some j => !decide (slotTick s.dev n j + 960 ≤ d.now) | none => true) ∧ (d.ch n).seq.drives = t ∧ ∀ i : Fin 8, (d.ch n).seq.lanes.getD i 2 =
          (if getField x.vdrive (2 * i) 2 = 3 then q.lanes.getD i 2 else getField x.vdrive (2 * i) 2)) ∧
    (∀ (lane : Fin 8) (level : Bool) (held : BitVec 8),
      let fails (y : Drive × Nat × Nat) : Bool := decide (rd s.dev oVecDeglitch [n] ≤ held.toNat ∧
        y.2.1 + usTicks (rd s.dev oVecCmpDelay [n]) + rd s.dev oVecDeglitch [n] ≤ s.dev.now + 1 ∧
        (∀ j ∈ y.1.stop, s.dev.now < slotTick s.dev n j + 960) ∧
        getField y.1.vcmp (2 * lane) 2 = (if level = true then 1 else 2) ∧ bitOf y.2.2 lane = false ∧ rdJ s.dev oVecMap [n] lane ≠ 0xFF)
      let k := (q.compare.filter fails).length
      (k = 0 → Completes (.vectorCompareFailure n ⟨lane, level, held⟩) s s.dev) ∧
      (k ≠ 0 → bitOf (rd s.dev oCutSrc [n]) 9 = false →
        ∃ d, Completes (.vectorCompareFailure n ⟨lane, level, held⟩) s d ∧ chanOnly n s.dev d ∧ d.now = s.dev.now ∧
          (d.ch n).seq.compare = q.compare.map (fun y => if fails y = true then (y.1, y.2.1, setBit y.2.2 lane) else y) ∧
          rd d oVecFail [n] = setBit (rd s.dev oVecFail [n]) lane ∧ rd d oVecFails [n] = min (2 ^ 32 - 1) (rd s.dev oVecFails [n] + k) ∧
          rd d oVecFailPos [n] = (if rd s.dev oVecFail [n] = 0 then chPos s.dev n else rd s.dev oVecFailPos [n]))) ∧
    (∀ (m : Fin 2) (slot : Nat) (ball : Bool) (k : MarkKind),
      let x := markOf q m
      let off : Int := if ball = true then (if m = 0 then rdI s.dev oMarkOffsetA [n] else rdI s.dev oMarkOffsetB [n]) else 0
      let t := (((slotTick s.dev n slot + 960 : Nat) : Int) * 16 + off + 15) / 16
      x.items = [⟨slot, ball, k⟩] → (∀ c : Ch, bitOf (rd s.dev oCutSrc [c]) 15 = false) →
      ∃ d, Completes (.markerEdge n m) s d ∧ chanOnly n s.dev d ∧ d.objs = s.dev.objs ∧ d.now = max s.dev.now t.toNat ∧
        (let y := markOf (d.ch n).seq m
        y.items = [] ∧ (if ball = true then y.nominal else y.ball) = (if ball = true then x.nominal else x.ball) ∧
          (let was := if ball = true then x.ball else x.nominal
          (if ball = true then y.ball else y.nominal) = match k with
            | .up => { was with hold := true }
            | .down => { was with hold := false }
            | .pulse => if was.hold = true ∨ was.pulse.isSome = true then was else { was with pulse := some (d.now + rd s.dev oMarkWidth [n]) }))) ∧
    (∀ (m : Fin 2) (e f : Nat), (markOf q m).nominal.pulse = some e → (markOf q m).ball.pulse = some f →
      Completes (.markerPulseEnd n m) s (updMark n m (fun y => { y with
        nominal := { y.nominal with pulse := if e ≤ f then none else some e }, ball := { y.ball with pulse := if f ≤ e then none else some f } })
        (advance (min e f) s.dev)))

/-- O34. Decisions (R248, Table 8.2), start-up (R250) and blanking (R252, R254); e is the device after what R51 puts before the event. -/
def Obligations.MonitorDecisions : Prop :=
  ∀ (s : Sys2Proof.Machine.State) (n : Ch) (m : Mon) (x : Int) (e : Dev), Live s →
    let y := monOf e n m
    let hi : Int := (rd e oThHi [n, m] * 65536 : Nat)
    let lo : Int := (rd e oThLo [n, m] * 65536 : Nat)
    let hyst : Int := (rd e oHyst [n, m] * 65536 : Nat)
    let c := rd e oTripCond [n, m]
    let next : Decided := match y.decided with
      | .undecided => .undecided
      | .inside => if hi < x then .above else if x < lo then .below else .inside
      | .above => if x < lo then .below else if x < hi - hyst then .inside else .above
      | .below => if hi < x then .above else if lo + hyst < x then .inside else .below
    let others (d : Dev) : Prop := chanOnly n e d ∧ ∀ k, k ≠ m → monOf d n k = monOf e n k
    let moved (d : Dev) (new : Decided) : Prop := others d ∧ (monOf d n m).decided = new ∧
      (condMet c new = true → y.condSince = none → (monOf d n m).condSince = some d.now) ∧
      (condMet c new = false → (monOf d n m).condSince = none ∧ (monOf d n m).acted = false ∧ (monOf d n m).esc = none)
    (e = settleDue s.nv ⟨max s.dev.now (knownTick s (firstTick s.dev n m)), 2, 0⟩ [] s.dev → y.st = .starting → y.decided = .undecided →
      ∃ d, Completes (.monitorFirstDecision n m x) s d ∧ d.now = max e.now (max (y.onAt + 2458) (y.blankTo.getD 0)) ∧
        moved d (if hi < x then .above else if x < lo then .below else .inside) ∧ (monOf d n m).st = .running ∧ (monOf d n m).blankTo = none ∧
        (monOf d n m).inBand = decide ((hi - hyst ≤ x ∧ x ≤ hi) ∨ (lo ≤ x ∧ x ≤ lo + hyst))) ∧
    (e = settleDue s.nv ⟨max s.dev.now 0, 2, 0⟩ [] s.dev → y.st = .running → y.blankTo = none → y.decided ≠ .undecided →
      (next = y.decided → Completes (.monitorStateChange n m x) s e) ∧
      (next ≠ y.decided → ∃ d, Completes (.monitorStateChange n m x) s d ∧ d.now = e.now ∧ moved d next ∧ (monOf d n m).st = .running ∧
        (monOf d n m).inBand = false)) ∧
    (e = settleDue s.nv ⟨max s.dev.now 0, 2, 0⟩ [] s.dev → (y.st ≠ .running ∨ y.blankTo.isSome = true) → Completes (.monitorStateChange n m x) s e) ∧
    (∀ t, e = settleDue s.nv ⟨max s.dev.now (knownTick s (blankTick s.dev n m)), 2, 0⟩ [] s.dev → y.st = .running → y.blankTo = some t → y.decided ≠ .undecided →
      ∃ d, Completes (.blankingEnd n m x) s d ∧ d.now = max e.now t ∧ (∀ k, k ≠ n → d.ch k = e.ch k) ∧ (monOf d n m).decided = next ∧
        (monOf d n m).blankTo = none ∧ (y.escOver = true → condMet c next = true → (monOf d n m).hard.isSome = true) ∧
        ((∀ z, (e.ch n).loop.xover = some z → z.writes = []) → condMet c next = true → y.escOver = false → y.acted = false →
          (y.condSince = none ∨ ∃ t0, y.condSince = some t0 ∧ t0 + rd e oTripFilter [n, m] ≤ d.now) →
          (monOf d n m).acted = true ∧ rd d oTrips [n, m] = min (2 ^ 32 - 1) (rd e oTrips [n, m] + 1)) ∧
        (next ≠ y.decided → condMet c next = false → (monOf d n m).esc = none ∧ (monOf d n m).hard = y.hard))

/-- O35. Trips (R249, R253 to R257) and latches (R258, R263); the latch bits of an ACTION are log 115, the soft latch of a channel whose GE has failed log 95; e is the device after what R51 puts before the event. -/
def Obligations.MonitorTrips : Prop :=
  ∀ (s : Sys2Proof.Machine.State) (n : Ch) (m : Mon) (e : Dev), Live s →
    let y := monOf e n m
    let a := rd e oAction [n, m]
    let esc := usTicks (rd e oEscUs [n, m])
    let tripped (d : Dev) : Prop := (monOf d n m).hard = some d.now ∧ (monOf d n m).esc = none ∧ bitOf (rd d oChFault [n]) 2 = true ∧
      ((e.ch n).src.st = .running → (d.ch n).src.st = .tripped ∧ (d.ch n).src.clampCause = 3 ∧ (d.ch n).src.forceEn = false) ∧
      (d.ch n).loop.st = .openState ∧
      (((e.ch n).src.st = .off ∨ (e.ch n).src.st = .tripped) → (d.ch n).src = { (e.ch n).src with safe := (d.ch n).src.safe })
    let calm : Prop := ∀ z, (e.ch n).loop.xover = some z → z.writes = []
    (∀ t, e = settleDue s.nv ⟨max s.dev.now (knownTick s (qualifyTick s.dev n m)), 2, 0⟩ [] s.dev → y.condSince = some t → y.st = .running → y.blankTo = none →
      (y.acted = true → Completes (.tripQualify n m) s e) ∧
      (y.acted = false → calm → ∃ d, Completes (.tripQualify n m) s d ∧ d.now = max e.now (t + rd e oTripFilter [n, m]) ∧
        (∀ k, k ≠ n → d.ch k = e.ch k) ∧ (∀ k, k ≠ m → monOf d n k = monOf e n k) ∧ (monOf d n m).acted = true ∧
        rd d oTrips [n, m] = min (2 ^ 32 - 1) (rd e oTrips [n, m] + 1) ∧
        rd d oLastTripPos [n, m] = posOf (dieRecs e n) (d.now * 256) ∧
        (monOf d n m).soft = (if bitOf a 0 = true then some d.now else y.soft) ∧
        (bitOf a 1 = true → (bitOf a 0 = false ∨ esc = 0) → tripped d) ∧
        (bitOf a 1 = true → bitOf a 0 = true → esc ≠ 0 → (monOf d n m).esc = some (d.now + esc) ∧ (monOf d n m).hard = y.hard) ∧
        (bitOf a 1 = false → (d.ch n).src = (e.ch n).src ∧ (monOf d n m).hard = y.hard) ∧
        (bitOf a 0 = true → bitOf a 1 = false → geFailed e n = false → (d.ch n).loop = { (e.ch n).loop with
            softSent := (e.ch n).loop.softSent ++ [(m, tripSide y.decided)] } ∧ (d.ch n).eseq = ((e.ch n).eseq + 1) % 65536) ∧
        (bitOf a 2 = true → geFailed e n = false → (m = 0 → (d.ch n).vm.urgentReqs = (e.ch n).vm.urgentReqs ++ [.ge]) ∧
          (m = 1 → (d.ch n).im.urgentReqs = (e.ch n).im.urgentReqs ++ [.ge])) ∧
        (geFailed e n = true → (d.ch n).vm = (e.ch n).vm ∧ (d.ch n).im = (e.ch n).im ∧ d.slate = e.slate))) ∧
    (∀ t, e = settleDue s.nv ⟨max s.dev.now (knownTick s (escTick s.dev n m)), 2, 0⟩ [] s.dev → y.esc = some t → y.escOver = false →
      (y.blankTo = none → calm → ∃ d, Completes (.escalationExpiry n m) s d ∧ d.now = max e.now t ∧ tripped d) ∧
      (y.blankTo.isSome = true → Completes (.escalationExpiry n m) s (updMon n m (fun x => { x with escOver := true }) (advance t e)))) ∧
    (∀ (p : Port) (v : BitVec 8), Served s p oGuardLatch → LinkUp s n.die →
      ∃ d, Completes (.guardLatchClear p n v) s (done p d) ∧ chanOnly n s.dev d ∧ d.now = s.dev.now ∧ d.objs = s.dev.objs ∧ ∀ k : Mon,
        let z := monOf s.dev n k
        let again : Option Nat := if condMet (rd s.dev oTripCond [n, k]) z.decided = true then some (s.dev.now + 1) else none
        (rd s.dev oLatchMode [n, k] ≠ 0 → monOf d n k = z) ∧
        (rd s.dev oLatchMode [n, k] = 0 → bitOf v.toNat k = true → z.soft.isSome = true → z.soft ≠ some s.dev.now → (monOf d n k).soft = again) ∧
        (bitOf v.toNat k = false → (monOf d n k).soft = z.soft) ∧
        (z.soft = some s.dev.now → (monOf d n k).soft = z.soft) ∧ (z.hard = some s.dev.now → (monOf d n k).hard = z.hard) ∧
        (rd s.dev oLatchMode [n, k] = 0 → bitOf v.toNat (4 + k) = true → z.hard.isSome = true → z.hard ≠ some s.dev.now → (monOf d n k).hard = again) ∧
        (bitOf v.toNat (4 + k) = false → (monOf d n k).hard = z.hard))

/-- O36. Threshold verifies (R259 to R262, R264; that the deadline of a monitor never verified counts from its enable is the model's choice, log 125); 1 ms is 245760 ticks (R12). -/
def Obligations.ThresholdVerify : Prop :=
  ∀ (s : Sys2Proof.Machine.State) (n : Ch) (m : Mon), Live s →
    let y := monOf s.dev n m
    let x := arrOf s.dev n (verifyArr m)
    let u := pathUnit n (verifyArr m)
    let due := verifyBase y + rd s.dev oVerifyStale [n] * 245760
    let periodic := y.verifyLast.getD y.onAt + rd s.dev oVerifyStale [n] * 245760
    let entered (d : Dev) (deadline : Nat) : Prop := ∃ r ∈ (sharedOf d u).waiters, r.id = verifyId n m ∧ r.deadline = deadline ∧ r.entry = d.now
    let free : Prop := x.ready = true ∧ y.verifyAt = none ∧ noSpare x = false ∧ geFailed s.dev n = false ∧ s.dev.arb.units = []
    (∀ (p : Port) (v : BitVec 8), Served s p oVerifyReq → LinkUp s n.die →
      ((noSpare (s.dev.ch n).vm = true ∨ noSpare (s.dev.ch n).im = true) →
        Completes (.verifyReq p n v) s (setAnswer p (.refused 0x0F100081) s.dev)) ∧
      (noSpare (s.dev.ch n).vm = false → noSpare (s.dev.ch n).im = false →
        (∀ k : Mon, (monOf s.dev n k).st ≠ .off → (hintTick s.dev (pathUnit n (verifyArr k))
          (wouldRequest s.dev (verifyId n k) (deadlineIn s.dev (dlOffset s.dev p.idx)))).isSome = true) →
        ∃ d, Completes (.verifyReq p n v) s (done p d) ∧ d.now = s.dev.now ∧ d.objs = s.dev.objs ∧ (∀ k, k ≠ n → d.ch k = s.dev.ch k) ∧
          (y.st ≠ .off → free → entered d (deadlineIn s.dev (dlOffset s.dev p.idx))) ∧
          (y.st = .off → monOf d n m = y) ∧ ((∀ k : Mon, (monOf s.dev n k).st = .off) → d = s.dev))) ∧
    ((bitOf (rd s.dev oVerifyCtrl [n]) 1 = false ∨ y.st = .off) → Completes (.verifyPeriodicDue n m) s s.dev) ∧
    (bitOf (rd s.dev oVerifyCtrl [n]) 1 = true → y.st ≠ .off → free →
      ∃ d, Completes (.verifyPeriodicDue n m) s d ∧ entered d (posOf (dieRecs s.dev n) (periodic * 256)) ∧ (∀ k, k ≠ n → d.ch k = s.dev.ch k) ∧
        monOf d n m = { y with verifyBg := true } ∧ d.objs = s.dev.objs ∧ (s.dev.supply.warning = true → grantNext u d = none)) ∧
    (∀ (g : Nat) (hi lo : Int), y.verifyAt = some g → y.verifyWant = none → y.st ≠ .off → serviceRuns s.dev n.die 2 = true → x.roles.all Option.isSome = true →
      let dh := verifyDiff hi (rd s.dev oThHi [n, m])
      let dl := verifyDiff lo (rd s.dev oThLo [n, m])
      let tol := rd s.dev oVerifyTol [n]
      ∃ d, Completes (.verifyComplete n m hi lo) s d ∧ d.now = max s.dev.now (g + 123864) ∧ (monOf d n m).verifyAt = none ∧
        (∀ k, k ≠ n → d.ch k = s.dev.ch k) ∧ (∀ r f, s.dev.arb.units = [⟨u, [r], [], f⟩] → r.id = verifyId n m → r.drop = none → d.arb.units = []) ∧
        (∀ i, x.spare = some i → (x.slices[i]).st = .verify → ((arrOf d n (verifyArr m)).slices[i]).st = .spareIdle) ∧
        (y.verifyVoid = true → d.objs = s.dev.objs ∧ (monOf d n m).verifyLast = y.verifyLast ∧ (monOf d n m).verified = y.verified) ∧
        (y.verifyVoid = false → (∀ z, (s.dev.ch n).loop.xover = some z → z.writes = []) →
          rd d oVerifyDiffHi [n, m] = ofSigned 8 dh ∧ rd d oVerifyDiffLo [n, m] = ofSigned 8 dl ∧
          rd d oVerifyPos [n, m] = posOf (dieRecs s.dev n) (d.now * 256) ∧ (monOf d n m).verifyLast = some d.now ∧ (monOf d n m).verifyStale = false ∧
          (dh.natAbs ≤ tol ∧ dl.natAbs ≤ tol → (monOf d n m).verified = true ∧ (monOf d n m).threshFault = false ∧ (monOf d n m).hard = y.hard) ∧
          (tol < dh.natAbs ∨ tol < dl.natAbs → (monOf d n m).verified = false ∧ (monOf d n m).threshFault = true ∧
            bitOf (rd d oChFault [n]) 3 = true ∧ (bitOf (rd s.dev oVerifyCtrl [n]) 2 = true → noSpare x = false → (monOf d n m).hard.isSome = true)))) ∧
    (serviceRuns s.dev n.die 2 = false → ∀ hi lo, Completes (.verifyComplete n m hi lo) s s.dev) ∧
    (y.st ≠ .off → Completes (.verifyStale n m) s (updMon n m (fun y => { y with verifyStale := true }) (advance due s.dev))) ∧
    (y.st = .off → Completes (.verifyStale n m) s s.dev)

/-- O37. The oven loop, REF_TRIM (Table 9.1, R267 to R270) and EXT_LEVEL (R274). 100 ms are 24576000 ticks and 30 min 442368000000 (R12). The bound of the trim at its range is log 109. -/
def Obligations.Oven : Prop :=
  ∀ (s : Sys2Proof.Machine.State), Live s →
    let r := s.dev.ref
    let read : Prop := r.linkFault = false ∧ s.dev.control.running = true
    let moved (d : Dev) (st : OvenState) : Prop := d.ref.oven = st ∧ d.ref.ovenSince = s.dev.now ∧ d.now = s.dev.now ∧ d.chans = s.dev.chans ∧
      rd d oOvenEvents [] = min (2 ^ 32 - 1) (rd s.dev oOvenEvents [] + 1) ∧ objsKept [keyOf oOvenEvents [] 0, keyOf oHeaterPower [] 0] s.dev d ∧
      rd d oHeaterPower [] = (if st = .warmup ∨ st = .regulating then rd s.dev oHeaterPower [] else 0) ∧
      (d.ref.heater = true ↔ st = .warmup ∨ st = .regulating) ∧
      (∀ c, r.comparison = some c → c.begun = true → d.ref.comparison = some { c with oven := c.oven ||| ((if st ≠ .regulating then 1 else 0) +
        (if d.ref.ovenOut = true then 2 else 0) + (if d.ref.ovenFault = true then 4 else 0)) })
    let reported (d : Dev) (a b : Nat) : Prop :=
      let payload := leBytes 1 a ++ leBytes 1 b ++ leBytes 2 (rd s.dev oRefDieTemp []) ++ leBytes 2 (rd s.dev oSubstrateTemp [])
      (read → d.ref.heldEvents = r.heldEvents ∧ ∃ e ∈ d.ledger.queue, e.type = 8 ∧ e.payload = payload ∧ e.cause = s.dev.now) ∧
      (¬ read → d.ledger = s.dev.ledger ∧ (r.heldEvents.length < 16 → d.ref.heldEvents = r.heldEvents ++ [payload]))
    let code : OvenState → Nat := fun x => match x with
      | .warmup => 0 | .regulating => 1 | .out => 2 | .fault => 3
    (r.oven = .warmup → ∃ d, Completes .ovenRegulating s d ∧ moved d .regulating ∧ d.ledger = s.dev.ledger ∧ d.ref.settled = true ∧
      d.ref.ovenOut = false ∧ d.ref.warmupLong = false ∧ -5000000 ≤ d.ref.trim ∧ d.ref.trim ≤ 5000000 ∧
      (let t := compTrim (compPoints s.dev) (rd s.dev oOvenSetpoint [] : Nat)
       d.ref.clamped = t.2 ∧ (-5000000 ≤ t.1 → t.1 ≤ 5000000 → d.ref.trim = t.1))) ∧
    (r.oven ≠ .warmup → Completes .ovenRegulating s s.dev ∧ Completes .ovenWarmupLong s s.dev) ∧
    (r.oven = .warmup → ∃ d, Completes .ovenWarmupLong s d ∧ d.now = max s.dev.now (r.ovenSince + 442368000000) ∧
      d.ref = { r with warmupLong := true } ∧ d.objs = s.dev.objs ∧ d.ledger = s.dev.ledger) ∧
    ((r.oven = .warmup ∨ r.oven = .regulating) → ∃ d, Completes .ovenOutEntry s d ∧ moved d .out ∧ d.ref.ovenOut = true ∧ d.ref.trim = r.trim ∧
      reported d (code r.oven) 2) ∧
    ((r.oven = .out ∨ r.oven = .fault) → Completes .ovenOutEntry s s.dev) ∧
    (r.oven = .out → ∃ d, Completes .ovenOutExit s d ∧ moved d .warmup ∧ d.ref.ovenOut = r.ovenOut ∧ d.ref.trim = r.trim ∧ reported d 2 0) ∧
    (r.oven ≠ .out → Completes .ovenOutExit s s.dev) ∧
    (∀ failed, (r.oven = .fault → Completes (.ovenFault failed) s s.dev) ∧
      (r.oven ≠ .fault → ∃ d, Completes (.ovenFault failed) s d ∧ moved d .fault ∧ d.ref.ovenFault = true ∧ d.ref.dieSensorFailed = failed ∧
        d.ref.trim = r.trim ∧ reported d (code r.oven) 3)) ∧
    (∀ (die sub : Int) (heater : Nat), ∃ d, Completes (.refTrimUpdate die sub heater) s d ∧ d.now = max s.dev.now (r.trimAt + 24576000) ∧
      d.ref.trimAt = d.now ∧ d.ref.oven = r.oven ∧ d.chans = s.dev.chans ∧ d.ledger = s.dev.ledger ∧
      rd d oRefDieTemp [] = ofSigned 16 die ∧ rd d oSubstrateTemp [] = ofSigned 16 sub ∧ rd d oHeaterPower [] = (if r.heater = true then heater % 65536 else 0) ∧ d.ref.heater = r.heater ∧
      objsKept [keyOf oRefDieTemp [] 0, keyOf oSubstrateTemp [] 0, keyOf oHeaterPower [] 0] s.dev d ∧
      (r.oven = .regulating → d.ref.trim = r.trim ∧ d.ref.clamped = r.clamped) ∧
      (r.oven ≠ .regulating → -5000000 ≤ r.trim → r.trim ≤ 5000000 →
        let t := compTrim (compPoints s.dev) (if r.oven = .fault ∧ r.dieSensorFailed = true then sub else die)
        d.ref.clamped = t.2 ∧ -5000000 ≤ d.ref.trim ∧ d.ref.trim ≤ 5000000 ∧ (d.ref.trim - r.trim).natAbs ≤ 50 ∧
        (-5000000 ≤ t.1 → t.1 ≤ 5000000 → (d.ref.trim = t.1 ∨ d.ref.trim = r.trim + 50 ∧ r.trim + 50 < t.1 ∨
          d.ref.trim = r.trim - 50 ∧ t.1 < r.trim - 50)))) ∧
    (∀ (uv : Int),
      (rd s.dev oRefSwitch [] = 1 ∨ rd s.dev oRefSwitch [] = 3 → ∃ d, Completes (.extLevelMeasurement uv) s d ∧
        d.now = max s.dev.now (r.extAt + 24576000) ∧ rd d oExtLevel [] = ofSigned 32 uv ∧ objsKept [keyOf oExtLevel [] 0] s.dev d ∧
        d.ref = { r with extAt := d.now, extRangeErr := d.ref.extRangeErr } ∧
        (d.ref.extRangeErr = true ↔ uv < 9000000 ∨ 10500000 < uv)) ∧
      (rd s.dev oRefSwitch [] ≠ 1 → rd s.dev oRefSwitch [] ≠ 3 → Completes (.extLevelMeasurement uv) s s.dev))

/-- O38. The comparison procedure (R276 to R280, Table 9.4). 1 ms is 245760 ticks, an hour 884736000000 (R12); requester 0x8000 is class 8, unit 0x20 the switch (Tables 10.1, 10.2). The rounding of RATIO_DEV is free (log 4). `cmpMoveStamp` is the stamp of the next slot boundary of the array, none while the record of its cycle has not arrived (R48). -/
def Obligations.ComparisonRuns : Prop :=
  ∀ (s : Sys2Proof.Machine.State), Live s →
    let r := s.dev.ref
    let copied (c : Comparison) : Prop := c.channel = rd s.dev oCmpChannel [] ∧ c.aperture = rd s.dev oCmpAperture [] ∧ c.takes = rd s.dev oCmpTakes [] ∧
      c.pairs = rd s.dev oCmpPairs [] ∧ c.stdValue = rdI s.dev oStdValue [] ∧ c.stdU = rd s.dev oStdU [] ∧ c.stdId = rd s.dev oStdId [] ∧
      c.begun = false ∧ c.pair = 1 ∧ c.reversed = false ∧ c.used = 0 ∧ c.skipped = 0 ∧ c.phases = []
    let asked (d : Dev) (deadline : Nat) : Prop := ∃ x ∈ (sharedOf d 0x20).waiters, x.id = 0x8000 ∧ x.deadline = deadline ∧ x.entry = d.now
    let barred : Prop := rd s.dev oStdU [] = 0 ∨ r.comparison.isSome = true ∨ rd s.dev oRefSwitch [] = 3 ∨ r.linkFault = true ∨
      ∀ n : Ch, n.val = rd s.dev oCmpChannel [] % 24 → (s.dev.ch n).vm.st ≠ .off ∨ (s.dev.ch n).vm.ready = false
    let rows : List Row := [oArrEnable, oArrMode, oAperture, oArrStart, oInputSel, oRange, oFilter, oRefSel, oSched]
    let restored (d : Dev) (c : Comparison) : Prop := rd d oRefSwitch [] = c.before ∧
      (∀ row ∈ rows, getKey d (keyOf row [c.channel, 0] 0) =
        getKey (c.saved.foldl (fun s e => putKey e.1 e.2 s) (wr s.dev oArrEnable 0 [c.channel, 0])) (keyOf row [c.channel, 0] 0)) ∧
      ∀ n : Ch, n.val = c.channel → (d.ch n).vm.st = .off ∨ (d.ch n).vm.st = .draining
    let recorded (d : Dev) (c : Comparison) (status : Nat) (ratio : Int) : Prop := ∃ e ∈ d.ledger.queue, e.type = 2 ∧ e.cause = d.now ∧
      e.origin = c.origin ∧ e.payload.take 40 = leBytes 8 (ofSigned 64 c.stdValue) ++ leBytes 4 c.stdU ++ leBytes 4 0 ++ leBytes 16 c.stdId ++
        leBytes 8 (ofSigned 64 ratio) ∧ (e.payload.drop 76).head? = some (BitVec.ofNat 8 status)
    (∀ p : Port, Served s p oCmpStart →
      (barred → Completes (.cmpStart p) s (setAnswer p (.refused 0x0F100095) s.dev)) ∧
      (¬ barred → ∀ S, S = nextMultiple s.dev (s.dev.now + 245760) 32 →
        ((hintTick s.dev 0x20 (wouldRequest s.dev 0x8000 S)).isNone = true →
          ∃ d, Completes (.cmpStart p) s (setAnswer p (.refused 0x0F100086) d) ∧ d.ref = r ∧ d.arb = s.dev.arb) ∧
        ((hintTick s.dev 0x20 (wouldRequest s.dev 0x8000 S)).isSome = true → ∃ d c, Completes (.cmpStart p) s (done p d) ∧
          d.now = s.dev.now ∧ d.objs = s.dev.objs ∧ d.chans = s.dev.chans ∧ d.ref = { r with comparison := some c } ∧ copied c ∧
          c.start = S ∧ c.origin = p.idx.val ∧ (s.dev.arb.units = [] → asked d S))) ∧
      (r.comparison = none → Completes (.cmpAbandon p) s (done p s.dev)) ∧
      (∀ c, r.comparison = some c → c.channel < 24 → ∃ d, Completes (.cmpAbandon p) s (done p d) ∧ d.now = s.dev.now ∧ d.ref.comparison = none ∧
        d.ref.lastComparison = r.lastComparison ∧ rd d oCmpStatus [] = 4 ∧ recorded d c 1 0 ∧
        (c.begun = false → d.chans = s.dev.chans ∧ rd d oCmpLastRatio [] = rd s.dev oCmpLastRatio []) ∧
        (c.begun = true → c.before < 4 → restored d c))) ∧
    ((∀ c, r.comparison = some c → c.begun = true) → Completes .comparisonStart s s.dev) ∧
    (∀ c, r.comparison = some c → c.begun = false →
      (holds s.dev 0x8000 0x20 = false → Completes .comparisonStart s s.dev) ∧
      (holds s.dev 0x8000 0x20 = true → c.channel < 24 → c.skipped ≤ 4 * c.takes →
        let t := advance (tickNear s.dev.cad.recs c.start) s.dev
        let serves : Prop := ∀ n : Ch, n.val = c.channel →
          servable 0 (c.aperture % 2 ^ 40) (curRec (dieRecs t n) t.now).len (inService (s.dev.ch n).vm) = true
        (serves → ∃ (d : Dev) (c' : Comparison), Completes .comparisonStart s d ∧ d.now = t.now ∧
          d.ref.comparison = some c' ∧ c' = { c with begun := true, before := rd s.dev oRefSwitch [], saved := c'.saved, first := c'.first, oven := c'.oven } ∧
          (∀ row ∈ rows, (keyOf row [c.channel, 0] 0, rd s.dev row [c.channel, 0]) ∈ c'.saved) ∧
          (∀ e ∈ [(oArrEnable, 1), (oArrMode, 0), (oAperture, c.aperture % 2 ^ 40), (oArrStart, c.start % 2 ^ 64), (oInputSel, 7), (oRange, 2), (oFilter, 2),
            (oRefSel, 0), (oSched, 0)], rd d e.1 [c.channel, 0] = e.2) ∧ rd d oRefSwitch [] = 1 ∧ d.ledger = s.dev.ledger ∧
          ∀ n : Ch, n.val ≠ c.channel → rd s.dev oRefSel [n, 0] ≠ 1 → rd s.dev oRefSel [n, 1] ≠ 1 → srcPair s.dev n ≠ 1 → d.ch n = s.dev.ch n) ∧
        (¬ serves → rd s.dev oRefSwitch [] < 4 → ∃ d, Completes .comparisonStart s d ∧ d.now = t.now ∧ d.ref.comparison = none ∧
          rd d oCmpStatus [] = 4 ∧ recorded d c 1 0 ∧ rd d oRefSwitch [] = rd s.dev oRefSwitch [] ∧
          ∀ row ∈ rows, rd d row [c.channel, 0] = rd s.dev row [c.channel, 0]))) ∧
    ((∀ c, r.comparison = some c → c.begun = false ∨ c.used ≠ c.takes ∨ cmpMoveStamp s.dev c = none) → Completes .comparisonPhaseEnd s s.dev) ∧
    (∀ c st, r.comparison = some c → c.begun = true → c.used = c.takes → cmpMoveStamp s.dev c = some st →
      let moves := max s.dev.now ((st + 255) / 256)
      (¬ (c.reversed = true ∧ c.pair = c.pairs) → ∃ d c', Completes .comparisonPhaseEnd s d ∧ d.now = moves ∧ d.ref.comparison = some c' ∧
        c' = { c with first := c'.first, phases := c'.phases, used := 0, skipped := 0, sum := 0, sumSq := 0, reversed := !c.reversed, pair := c'.pair, oven := c'.oven } ∧
        c'.phases = (c.sum, c.sumSq) :: c.phases ∧ c'.pair = (if c.reversed = true then c.pair + 1 else c.pair) ∧
        rd d oRefSwitch [] = (if c.reversed = true then 1 else 3) ∧ d.ledger = s.dev.ledger) ∧
      (c.reversed = true → c.pair = c.pairs → c.channel < 24 → c.before < 4 → ∃ d ratio, Completes .comparisonPhaseEnd s d ∧ d.now = moves ∧ d.ref.comparison = none ∧
        d.ref.lastComparison = d.now ∧ d.ref.cmpLate = false ∧ rd d oCmpStatus [] = 0 ∧ rd d oCmpLastRatio [] = ofSigned 64 ratio ∧
        recorded d c 0 ratio ∧ restored d c ∧
        ∀ l : List ((Int × Nat) × (Int × Nat)), (c.sum, c.sumSq) :: c.phases = l.flatMap (fun e => [e.2, e.1]) → 0 < c.takes → 0 < c.pairs →
          let den : Int := 20 * ((c.takes * c.pairs : Nat) : Int) * 2 ^ 38
          let dev : Int := 12 * (l.map fun e => e.1.1 - e.2.1).sum - den
          (ratio * den - dev * 10 ^ 12).natAbs < den.natAbs)) ∧
    (rd s.dev oCmpInterval [] = 0 → Completes .comparisonBackgroundDue s s.dev) ∧
    (rd s.dev oCmpInterval [] ≠ 0 →
      let due := r.lastComparison + rd s.dev oCmpInterval [] * 884736000000
      let bound := 2 * rd s.dev oCmpPairs [] * (5 * rd s.dev oCmpTakes [] + 4) * durTicks s.dev (rd s.dev oCmpAperture [])
      let t := advance (due - bound) s.dev
      (barred → Completes .comparisonBackgroundDue s t) ∧
      (¬ barred → ∃ d c, Completes .comparisonBackgroundDue s d ∧ d.now = t.now ∧ d.objs = s.dev.objs ∧ d.ref = { r with comparison := some c } ∧
        copied c ∧ c.origin = 0xFF ∧ c.start = nextMultiple s.dev (t.now + 245760) 32 ∧
        (s.dev.arb.units = [] → asked d (posOf s.dev.cad.recs (due * 256)))))

/-- O39. Source self-calibration (R281), CAL_SEAL (R355), the load of calibration objects (R287) and the drift fit (R293). SELFCAL_FAIL clearing at the next good run is log 94. Requester 0x6000 + n is class 6 of channel n (Table 10.2). -/
def Obligations.Calibration : Prop :=
  ∀ (s : Sys2Proof.Machine.State) (n : Ch) (p : Port), Live s →
    let c := s.dev.ch n
    let x := c.selfcal
    let st := rd s.dev oSelfcalStatus [n]
    (∀ v : BitVec 8, Served s p oSrcSelfcal → LinkUp s n.die → v.toNat < 4 →
      let busy : Prop := ((s.dev.ch n).src.st ≠ .off ∧ (s.dev.ch n).src.st ≠ .tripped) ∨ noSpare (s.dev.ch n).vm = true
      let u := 0x40 + 2 * n.val
      let deadline := deadlineIn s.dev (dlOffset s.dev p.idx)
      let hint := hintTick s.dev u (wouldRequest s.dev (0x6000 + n.val) deadline)
      (busy → Completes (.srcSelfcal p n v) s (setAnswer p (.refused 0x0F100096) s.dev)) ∧
      (¬ busy → hint.isSome = true → v.toNat = 0 → Completes (.srcSelfcal p n v) s (done p s.dev)) ∧
      (¬ busy → hint.isSome = true → v.toNat ≠ 0 → ∃ d, Completes (.srcSelfcal p n v) s (done p d) ∧ d.objs = s.dev.objs ∧ d.now = s.dev.now ∧
        d.chans = s.dev.chans.set n { c with selfcal := ⟨x.voltage || bitOf v.toNat 0, x.current || bitOf v.toNat 1, true,
            x.modes + (if bitOf v.toNat 0 = true ∧ x.voltage = false then 1 else 0) + if bitOf v.toNat 1 = true ∧ x.current = false then 1 else 0⟩ } ∧
        (s.dev.arb.units = [] → ∃ q ∈ (sharedOf d u).waiters, q.id = 0x6000 + n.val ∧ q.deadline = deadline ∧ q.entry = s.dev.now))) ∧
    (∀ (current : Bool) (offset gain : Int),
      let bit := if current = true then 2 else 1
      let due : Prop := (if current = true then x.current else x.voltage) = true ∧ holds s.dev (0x6000 + n.val) (muxUnit n) = true ∧ serviceRuns s.dev n.die 2 = true
      let good : Prop := 1000000 * offset.natAbs ≤ 50 * 2 ^ 38 ∧ 1000 * gain.natAbs ≤ 2 ^ 39
      (¬ due → Completes (.selfcalComplete n current offset gain) s s.dev) ∧
      (due → ∃ d, Completes (.selfcalComplete n current offset gain) s d ∧ d.now = s.dev.now ∧ (∀ k, k ≠ n → d.ch k = s.dev.ch k) ∧
        (d.ch n).src = (s.dev.ch n).src ∧
        (good → bitOf (rd d oSelfcalStatus [n]) bit = false ∧
          (current = false → rd d oTrimVOffset [n] = ofSigned 40 offset ∧ rd d oTrimVGain [n] = ofSigned 40 gain ∧
            rd d oTrimIOffset [n] = rd s.dev oTrimIOffset [n] ∧ rd d oTrimIGain [n] = rd s.dev oTrimIGain [n]) ∧
          (current = true → rd d oTrimIOffset [n] = ofSigned 40 offset ∧ rd d oTrimIGain [n] = ofSigned 40 gain ∧
            rd d oTrimVOffset [n] = rd s.dev oTrimVOffset [n] ∧ rd d oTrimVGain [n] = rd s.dev oTrimVGain [n])) ∧
        (¬ good → bitOf (rd d oSelfcalStatus [n]) bit = true ∧
          ∀ row ∈ [oTrimVOffset, oTrimVGain, oTrimIOffset, oTrimIGain], rd d row [n] = rd s.dev row [n]) ∧
        (st < 128 → bitOf (rd d oSelfcalStatus [n]) (3 - bit) = bitOf st (3 - bit)) ∧
        ((if current = true then x.voltage else x.current) = true → (d.ch n).selfcal.running = x.running ∧ d.arb = s.dev.arb ∧
          rd d oSelfcalPos [n] = rd s.dev oSelfcalPos [n]) ∧
        ((if current = true then x.voltage else x.current) = false → (d.ch n).selfcal = ⟨false, false, false, 0⟩ ∧
          rd d oSelfcalPos [n] = posOf (dieRecs s.dev n) (s.dev.now * 256)))) ∧
    (∀ b : Bool, s.dev.sec.sealOpen = b → Completes (if b = true then .calSealOpen else .calSealClose) s s.dev) ∧
    (∀ b : Bool, s.dev.sec.sealOpen ≠ b → ∃ d, Completes (if b = true then .calSealOpen else .calSealClose) s d ∧
      d = { s.dev with sec := { s.dev.sec with sealOpen := b }, objs := d.objs } ∧ objsKept [keyOf oCalSealChanges [] 0] s.dev d ∧
      rd d oCalSealChanges [] = min (2 ^ 32 - 1) (rd s.dev oCalSealChanges [] + 1)) ∧
    (s.dev.ref.calLoaded = true ∨ s.dev.ledger.scanDone = false → Completes .calLoaded s s.dev) ∧
    (∀ b, s.dev.ref.calLoaded = false → s.dev.ledger.scanDone = true → s.dev.ledger.broken = some b → s.nv.recs = [] →
      ∃ d, Completes .calLoaded s d ∧ d.ref = { s.dev.ref with calLoaded := true } ∧ d.chans = s.dev.chans ∧ d.ledger = s.dev.ledger ∧
        (∀ k ∈ corrKeys, getKey d k = if b ≤ Config.shippedCalSeq k then 0 else getKey s.dev k) ∧ ∀ k, k ∉ corrKeys → getKey d k = getKey s.dev k) ∧
    (s.dev.ref.calLoaded = false → s.dev.ledger.scanDone = true → s.dev.ledger.broken = none →
      (s.nv.recs = [] → Completes .calLoaded s { s.dev with ref := { s.dev.ref with calLoaded := true } }) ∧
      (∀ q index sub data, s.nv.recs = [q] → q.type = 1 → q.payload = leBytes 2 index ++ leBytes 1 sub ++ leBytes 1 data.length ++
          (data ++ leBytes 16 0).take 16 → data.length ≤ 16 → isCalObject index sub = true → index < 65536 → sub < 256 →
        (q.mark = 0 → ∃ d, Completes .calLoaded s d ∧ d.ref.calLoaded = true ∧ (∀ row, rowOf index sub = some row → row.size = data.length →
            getKey d (objKey index sub 0) = ofBytes data) ∧
          (q.flags = 1 → rd d oLastAuthSeq [] = q.authSeq % 2 ^ 32) ∧ d.ledger = s.dev.ledger) ∧
        (q.mark = 0xFF → q.powerUps < s.dev.ledger.powerUps → ∃ d, Completes .calLoaded s d ∧ d.ref.calLoaded = true ∧ d.objs = s.dev.objs ∧
          d.ledger.unconfirmed = true ∧ ∃ e ∈ d.ledger.queue, e.type = 6 ∧ e.payload = leBytes 4 q.seq ++ leBytes 1 0 ++ leBytes 3 0)) ∧
      (∀ before_ q after_ index sub data row, s.nv.recs = before_ ++ q :: after_ → q.type = 1 → q.mark = 0 →
        q.payload = leBytes 2 index ++ leBytes 1 sub ++ leBytes 1 data.length ++ (data ++ leBytes 16 0).take 16 → data.length ≤ 16 →
        isCalObject index sub = true → index < 65536 → sub < 256 → rowOf index sub = some row → row.size = data.length →
        (∀ x ∈ after_, x.type = 1 → x.mark = 0 → objKey index sub 0 ∉ (calItems x.payload.length x.payload).map Prod.fst) →
        ∃ d, Completes .calLoaded s d ∧ d.ref.calLoaded = true ∧ getKey d (objKey index sub 0) = ofBytes data)) ∧
    (∀ v : BitVec 8, Served s p oDriftRun →
      let time (q : DriftRec) : Nat := if bitOf (rdP s.dev oDriftSelect p []) 0 = true then q.utc else q.age
      let same : Prop := ∀ a ∈ driftPick s.nv s.dev p, ∀ b ∈ driftPick s.nv s.dev p, time a = time b
      (same → Completes (.driftRun p v) s (setAnswer p (.refused 0x0F100097) s.dev)) ∧
      (¬ same → ∃ d, Completes (.driftRun p v) s (done p d) ∧ d = { s.dev with objs := d.objs } ∧ rd d oDriftStatus [] = 1 ∧
        rd d oDriftN [] = (driftPick s.nv s.dev p).length % 65536 ∧
        objsKept [keyOf oDriftN [] 0, keyOf oDriftSlope [] 0, keyOf oDriftUSlope [] 0, keyOf oDriftPred [] 0, keyOf oDriftUPred [] 0,
          keyOf oDriftChi2 [] 0, keyOf oDriftStatus [] 0] s.dev d))

/-- O40. The ledger (R286, R289 to R292). 24 h are 21233664000000 ticks (R12). AGE taken at the append is log 37; the offset of a NOTICE is open (Config.noticeOffset, log 36, as are its cause bytes), a record whose program was cut short counts as torn (log 149). `torn` and `broken` are what the flash itself shows (log 147). -/
def Obligations.LedgerAppends : Prop :=
  ∀ (s : Sys2Proof.Machine.State), Live s →
    let led := s.dev.ledger
    let caused (d : Dev) (type : Nat) (payload : List Byte) : Prop := ∃ e ∈ d.ledger.queue, e.type = type ∧ e.payload = payload ∧ e.cause = d.now
    (∀ skips : Nat,
      ((programmed s.dev = none ∨ led.scanDone = false) → exec (.ledgerAppend skips) s = .next (s.acts s.dev)) ∧
      (∀ a, programmed s.dev = some a → led.scanDone = true →
        let bytes := 176 + a.payload.length + 114 + (if a.authSig.isSome = true then 114 else 0)
        let pages := (bytes + 255) / 256 + skips
        (Config.shippedFree - s.nv.used < pages → ∃ d, exec (.ledgerAppend skips) s = .next (s.acts d) ∧ d.ledger.full = true ∧
          d.ledger.queue = led.queue.erase a ∧ rd d oLedgerLost [] = min (2 ^ 32 - 1) (rd s.dev oLedgerLost [] + 1)) ∧
        (pages ≤ Config.shippedFree - s.nv.used → ∃ d q, exec (.ledgerAppend skips) s =
            .next { s.acts d with nv := { s.nv with recs := s.nv.recs ++ [q], used := s.nv.used + pages } } ∧
          q.type = a.type ∧ q.payload = a.payload ∧ q.origin = a.origin ∧ q.effectPos = a.effectPos ∧ q.mark = 0xFF ∧
          q.seq = (headSeq s.nv + 1) % 2 ^ 32 ∧ q.prevHash = headHash s.nv ∧ q.age = led.ageBase + s.dev.now / 245760 ∧ q.powerUps = led.powerUps ∧
          q.flags = (if a.authSig.isSome = true then 1 else 0) ∧ q.devSig = Config.identitySign (headerBytes q 0xFF) ∧
          d.now = s.dev.now ∧ d.ledger.lastAt = s.dev.now ∧
          rd d oLedgerSkips [] = min (2 ^ 32 - 1) (rd s.dev oLedgerSkips [] + skips) ∧
          (a.aborted = none → d.ledger.queue = led.queue.erase a) ∧
          (∀ c, a.aborted = some c → caused d 6 (leBytes 4 q.seq ++ leBytes 1 c ++ leBytes 3 0)) ∧
          (a.type = 2 → rd d oCmpLastSeq [] = q.seq) ∧
          (∀ port i, a.slot = some (port, i) → a.aborted = none → port < 5 → 1 ≤ i → i ≤ 16 →
            (portTxn d (portAt port) i).record = some q.seq)))) ∧
    (led.marks = [] → exec .applyMarkProgram s = .next (s.acts s.dev)) ∧
    (∀ e t, led.marks = e :: t → ∃ recs, exec .applyMarkProgram s =
        .next { s.acts { s.dev with ledger := { led with marks := t, lastApplied := true } } with nv := { s.nv with recs := recs } } ∧
      recs.length = s.nv.recs.length ∧ recs.map LRecord.unmarked = s.nv.recs.map LRecord.unmarked ∧
      ∀ (i : Nat) (a b : LRecord), s.nv.recs[i]? = some a → recs[i]? = some b → b.mark = (if a.seq = e.1 ∧ a.mark = 0xFF then 0 else a.mark)) ∧
    ((led.queue ≠ [] ∨ led.scanDone = false) → Completes .checkpoint s s.dev) ∧
    (led.queue = [] → led.scanDone = true → ∃ d, Completes .checkpoint s d ∧ d.now = max s.dev.now (led.lastAt + 21233664000000) ∧ caused d 9 [] ∧
      d.objs = s.dev.objs ∧ d.chans = s.dev.chans) ∧
    (∀ torn broken, (led.scanDone = true → Completes (.ledgerScanComplete torn broken) s s.dev) ∧
      (led.scanDone = false →
        let found := earlierBreak broken (scanBreak Config.provAuthKey Config.shippedHash s.nv.recs)
        let torn_ := torn || led.program.isSome
        ∃ d, Completes (.ledgerScanComplete torn broken) s d ∧ d.ledger.scanDone = true ∧ d.ledger.torn = torn_ ∧ d.ledger.program = none ∧
        d.ledger.broken = found ∧ d.objs = s.dev.objs ∧ d.now = s.dev.now ∧
        (torn_ = true → ∃ o, caused d 10 (leBytes 4 o ++ leBytes 4 1)) ∧ (found.isSome = true → ∃ o, caused d 10 (leBytes 4 o ++ leBytes 4 2)) ∧
        (∀ c ∈ s.dev.control.starts, caused d 7 (leBytes 8 c)) ∧ d.control = { s.dev.control with starts := [] } ∧
        (torn_ = false → found = none → s.dev.control.starts = [] → d.ledger.queue = led.queue))) ∧
    (∀ key hash, scanBreak key hash [] = none) ∧
    (∀ key hash q t, (q.prevHash ≠ hash ∨ signatureBad key q = true → scanBreak key hash (q :: t) = some q.seq) ∧
      (q.prevHash = hash → signatureBad key q = false → scanBreak key hash (q :: t) =
        scanBreak (if q.type = 5 ∧ q.mark = 0 then ofBytes (q.payload.take 57) else key) (recordHash q) t)) ∧
    (∀ key q, signatureBad key q = true ↔ q.mark = 0 ∧ (q.type = 1 ∨ q.type = 5 ∧ q.flags = 1) ∧
      Config.edVerify key (statementBytes q.type q.payload q.authSeq q.utc) q.authSig = false) ∧
    (∀ (p : Port) (label : BitVec 128), Served s p oBaselineReq → s.dev.arb.units = [] →
      ∃ d e, Completes (.baselineReq p label) s (done p d) ∧ e ∈ d.ledger.queue ∧ e.type = 4 ∧ e.origin = p.idx.val ∧ e.cause = s.dev.now ∧
        e.payload.length = 1616 ∧ e.payload.take 16 = leBytes 16 label.toNat ∧ d.objs = s.dev.objs ∧ d.chans = s.dev.chans)

/-- O41. Staging (R311 to R313, R319). A refusal that names the staged object in TXN_REFUSED is R318 as log 39 reads it. -/
def Obligations.Staging : Prop :=
  ∀ (s : Sys2Proof.Machine.State) (p : Port), Live s →
    let cur := s.dev.ports[p.idx].current
    let t := portTxn s.dev p cur
    let staged (c : Instr) (index sub : Nat) (data : List Byte) : Prop :=
      ∀ r, nameOf p index sub = .row r → r.acc = .rk → serves s.dev p = true → portShut s.nv s.dev p = false → mayWrite r p = .ok →
        lengthOk r data.length = true → dieReachable s.dev (objDie index) = true →
        let l := (t.staged.filter fun x => !(x.index == index && x.sub == sub)) ++ [⟨index, sub, data⟩]
        let tooMuch : Prop := 512 < l.length ∨ 65536 < (l.map fun w => w.data.length).sum
        let refused (code : Nat) : Prop := Completes c s (setAnswer p (.refused code) (updTxn p.idx cur (fun x => { x with
          refused := if x.refused = 0 then code * 2 ^ 32 + index * 2 ^ 16 + sub * 2 ^ 8 + objDie index else x.refused }) s.dev))
        ((cur = 0 ∨ t.st ≠ .opened) → Completes c s (setAnswer p (.refused 0x0F100080) s.dev)) ∧
        (cur ≠ 0 → t.st = .opened → tooMuch → refused 0x0F100081) ∧
        (cur ≠ 0 → t.st = .opened → ¬ tooMuch →
          (∀ code, valueCheck r index sub data = .abort code → refused code) ∧
          (valueCheck r index sub data = .reserved → exec c s = .refused .reservedBit) ∧
          (valueCheck r index sub data = .ok →
            (isAuthority index sub = true → s.dev.sec.sealOpen = false → refused 0x0F100090) ∧
            (∀ code, stageRules s.dev r index sub data = .abort code → refused code) ∧
            (stageRules s.dev r index sub data = .ok → Completes c s (done p (updTxn p.idx cur (fun x => { x with staged := l }) s.dev)))))
    (∀ (index : BitVec 16) (sub : Byte) (data : List Byte), staged (.rkWriteStage p index sub data) index.toNat sub.toNat data) ∧
    (∀ (n : Ch) (data : List Byte), staged (.queueConfigWrite p n data) (0x3051 + 0x100 * n.val) 1 data) ∧
    (∀ data : List Byte, staged (.ctrlQueueConfigWrite p data) 0x2040 1 data) ∧
    (∀ v : BitVec 8, Served s p oTxnOpen →
      let i := v.toNat
      let x := portTxn s.dev p i
      ((i = 0 ∨ 16 < i) → Completes (.txnOpen p v) s (setAnswer p (.refused 0x0F100003) s.dev)) ∧
      (1 ≤ i → i ≤ 16 → (x.st = .opened ∨ x.st = .preparing ∨ x.st = .committed) →
        Completes (.txnOpen p v) s (setAnswer p (.refused 0x0F100082) s.dev)) ∧
      (1 ≤ i → i ≤ 16 → x.st ≠ .opened → x.st ≠ .preparing → x.st ≠ .committed → ∃ d y, Completes (.txnOpen p v) s (done p d) ∧
        d = { s.dev with ports := d.ports } ∧ d.ports[p.idx].current = i ∧ portTxn d p i = y ∧ y.st = .opened ∧ y.staged = [] ∧ y.cause = 0 ∧
        y.refused = 0 ∧ (∀ j, 1 ≤ j → j ≤ 16 → j ≠ i → portTxn d p j = portTxn s.dev p j) ∧ ∀ q, q ≠ p.idx → d.ports[q] = s.dev.ports[q])) ∧
    (∀ v : BitVec 8, Served s p oTxnAbort →
      let i := v.toNat
      let x := portTxn s.dev p i
      ((i = 0 ∨ 16 < i) → Completes (.txnAbort p v) s (setAnswer p (.refused 0x0F100003) s.dev)) ∧
      (1 ≤ i → i ≤ 16 →
        (x.st = .committed → Completes (.txnAbort p v) s (setAnswer p (.refused 0x0F100088) s.dev)) ∧
        ((x.st = .free ∨ x.st = .applied ∨ x.st = .aborted ∨ x.st = .split) → Completes (.txnAbort p v) s (setAnswer p (.refused 0x0F100085) s.dev)) ∧
        ((x.st = .opened ∨ x.st = .preparing) → ∃ d, Completes (.txnAbort p v) s (done p d) ∧ d.now = s.dev.now ∧ d.chans = s.dev.chans ∧
          portTxn d p i = { x with st := .aborted, cause := 6, staged := [] } ∧
          rd d oAborts [] = min (2 ^ 32 - 1) (rd s.dev oAborts [] + 1) ∧ objsKept [keyOf oAborts [] 0] s.dev d)))

/-- O42. The admission of a Keystone write (R317), its lead measured from the end of the frame that carries it. LEDGER_LEAD is R285; 200 µs are 49152 ticks. Positions of records to come are converted with CYCLE_LEN in force. A slot without staged writes commits at once (log 40); refusals that no object causes are noted as 0x2401:01 of die 0 (log 39); the first unit is asked for at admission (log 87). -/
def Obligations.KeystoneAdmission : Prop :=
  ∀ (s : Sys2Proof.Machine.State) (p : Port) (slot flags : BitVec 8) (pos : Pos), Served s p oKeystone → flags.toNat < 2 →
    let i := slot.toNat
    let c := Instr.keystone p slot flags pos
    let t := portTxn s.dev p i
    let at_ := tickAhead s.dev.cad.recs s.dev.now
    let f := frameEnd s.dev p
    let note (code index sub die : Nat) : Dev := updTxn p.idx i (fun x => { x with
      refused := if x.refused = 0 then code * 2 ^ 32 + index * 2 ^ 16 + sub * 2 ^ 8 + die else x.refused }) s.dev
    let refused (code : Nat) (d : Dev) : Prop := Completes c s (setAnswer p (.refused code) d)
    ((i = 0 ∨ 16 < i) → refused 0x0F100003 s.dev) ∧
    (s.dev.ports[p.idx].busy = none → f = s.dev.now) ∧
    (∀ x, s.dev.ports[p.idx].busy = some x → x.op = 2 → x.frame.index.toNat = 0x2401 → f = x.since) ∧
    (1 ≤ i → i ≤ 16 →
      (t.st ≠ .opened → refused 0x0F100085 s.dev) ∧
      (t.st = .opened → s.dev.supply.warning = true → refused 0x0F100089 (note 0x0F100089 0x2401 1 0)) ∧
      (t.st = .opened → s.dev.supply.warning = false →
        let lead := 122880 + stagedLeadMs t * 245760
        let P := if flags.toNat = 1 then nextMultiple s.dev (f + lead) 16 else pos.toNat
        let met : Prop := f + lead ≤ at_ P ∧ posLater P (ctlPos s.dev) = true
        (¬ met → ∃ d, refused 0x0F100084 d ∧ d.chans = s.dev.chans ∧ d.arb = s.dev.arb ∧ (portTxn d p i).st = .aborted ∧ (portTxn d p i).cause = 3 ∧
          (portTxn d p i).pos = t.pos ∧ (portTxn d p i).staged = [] ∧ (t.refused = 0 → (portTxn d p i).refused = 0x0F100084 * 2 ^ 32 + 0x24010100) ∧
          rd d oAborts [] = min (2 ^ 32 - 1) (rd s.dev oAborts [] + 1)) ∧
        (met →
          let acq := txnUnits s.dev p t
          let held := unitsOfPort s.dev p
          let V := at_ P - 49152
          let ordered : Prop := ∀ u ∈ acq, ∀ h ∈ held, h < u
          let checked : Prop := admitFailed s.nv s.dev p t P = none
          let need (u : Nat) : Nat := if u = 0xA0 then stagedLeadMs t * 245760 else 0
          let hint (u : Nat) : Option Nat := hintTick s.dev u (wouldRequest s.dev (p.idx.val * 4096 + i) (posAhead s.dev.cad.recs s.dev.now (V - need u)))
          (¬ ordered → refused 0x0F100083 (note 0x0F100083 0x2401 1 0)) ∧
          (ordered → ∀ x, admitFailed s.nv s.dev p t P = some x → refused x.code (note x.code x.index x.sub x.die)) ∧
          (ordered → checked → ∀ u rest, acq = u :: rest → (∀ h, hint u = some h → V < h + need u) → ∃ d, refused 0x0F100086 d ∧
            portTxn d p i = portTxn (note 0x0F100086 0x2401 1 0) p i ∧ d.arb = s.dev.arb ∧ d.chans = s.dev.chans ∧
            rdP d oHintLast p [] = (match hint u with
              | some h => posOf s.dev.cad.recs (h * 256)
              | none => 2 ^ 64 - 1) ∧
            rd d oPromiseRefusals [] = min (2 ^ 32 - 1) (rd s.dev oPromiseRefusals [] + 1)) ∧
          (ordered → checked → (∀ u ∈ acq, ∃ h, hint u = some h ∧ h + need u ≤ V) → ∃ d y, Completes c s (done p d) ∧ d.now = s.dev.now ∧
            d.objs = s.dev.objs ∧ d.chans = s.dev.chans ∧ portTxn d p i = y ∧ y.st = (if t.staged = [] then .committed else .preparing) ∧ y.pos = P ∧
            y.staged = t.staged ∧ y.refused = t.refused ∧ (∀ k, bitOf y.mask k = true ↔ ∃ w ∈ t.staged, objDie w.index = k) ∧ y.units = acq ∧
            y.order = s.dev.admitted + 1 ∧ d.admitted = s.dev.admitted + 1 ∧ y.voted = 0 ∧ y.decided = 0 ∧ y.record = none ∧ y.commitAt = s.dev.now ∧
            (s.dev.arb.units = [] → ∀ u rest, acq = u :: rest → ∃ r ∈ (sharedOf d u).waiters, r.id = p.idx.val * 4096 + i ∧
              r.deadline = posAhead s.dev.cad.recs s.dev.now (V - need u) ∧ r.entry = s.dev.now)))))

/-- O43. Prepare to decision (R313, R314, R316, R318). The order of causes at V is log 88; a die votes once the units of its arbiter are granted (log 87). -/
def Obligations.PrepareAndDecide : Prop :=
  ∀ (s : Sys2Proof.Machine.State) (p : Port) (slot : Fin 16) (die : Fin 8), Live s →
    let i := slot.val + 1
    let t := portTxn s.dev p i
    let id := p.idx.val * 4096 + i
    let V := tickAhead s.dev.cad.recs s.dev.now t.pos - 49152
    let becomes (c : Instr) (y : Txn) : Prop := Completes c s (updTxn p.idx i (fun _ => y) s.dev)
    let link (st : LinkState) : Prop := 1 ≤ die.val ∧ die.val ≤ 6 ∧ s.dev.dies[dieNo die.val].link.st = st
    let comes : Prop := die.val = 0 ∨ (die.val = 7 ∧ s.dev.ref.linkFault = false) ∨ link .active
    let lost : Prop := (die.val = 7 ∧ s.dev.ref.linkFault = true) ∨ link .lost ∨ link .training ∨ link .reset
    let held (c : Instr) (m : FabMsg) : Prop := link .retraining → ∃ d, Completes c s d ∧ d = { s.dev with dies := d.dies } ∧
      (d.dies[dieNo die.val]).link.held = (s.dev.dies[dieNo die.val]).link.held ++ [.fabric m]
    let aborted (d : Dev) (cause word : Nat) : Prop :=
      portTxn d p i = { t with st := .aborted, cause := cause, staged := [], refused := if t.refused = 0 then word else t.refused } ∧
      rd d oAborts [] = min (2 ^ 32 - 1) (rd s.dev oAborts [] + 1) ∧ objsKept [keyOf oAborts [] 0] s.dev d ∧ d.chans = s.dev.chans ∧
      (t.record = none → ∀ u g, ∀ free, s.dev.arb.units = [⟨u, [g], [], free⟩] → g.id = id → g.host = false → g.drop = none → u ≠ 0xA0 → d.arb.units = []) ∧
      (∀ q, t.record = some q → ∃ e ∈ d.ledger.queue, e.type = 6 ∧ e.payload = leBytes 4 q ++ leBytes 1 cause ++ leBytes 3 0) ∧
      ((calRecord t).isSome = true → d.ledger.calAborted = true)
    let takes : Prop := t.st = .preparing ∧ bitOf t.mask die = true ∧ bitOf t.prepared die = false
    (¬ takes → Completes (.prepareAtDie p slot die) s s.dev) ∧
    (takes →
      let y := { t with prepared := setBit t.prepared die }
      let shared (w : Staged) : Prop := ∃ (q : Port) (j : Nat), 1 ≤ j ∧ j ≤ 16 ∧ (q ≠ p ∨ j ≠ i) ∧
        ((portTxn s.dev q j).st = .preparing ∨ (portTxn s.dev q j).st = .committed) ∧ (portTxn s.dev q j).order < t.order ∧
        ∃ x ∈ (portTxn s.dev q j).staged, x.index = w.index ∧ x.sub = w.sub
      (∀ w rest, t.staged = w :: rest → shared w → ∃ d, Completes (.prepareAtDie p slot die) s d ∧ d.now = s.dev.now ∧
        aborted d 1 (w.index * 2 ^ 16 + w.sub * 2 ^ 8 + objDie w.index)) ∧
      ((∀ w ∈ t.staged, ¬ shared w) →
        (link .retraining → ∃ d, Completes (.prepareAtDie p slot die) s d ∧ d = { s.dev with dies := d.dies } ∧
          (d.dies[dieNo die.val]).link.held = (s.dev.dies[dieNo die.val]).link.held ++ [.prepare p i]) ∧
        (dieReachable s.dev die = false → t.veto = none →
          becomes (.prepareAtDie p slot die) { y with veto := some (4, 0x0F100002 * 2 ^ 32 + die.val) }) ∧
        (¬ link .retraining → dieReachable s.dev die = true → ∀ cause f, prepareFailed s.dev t die = some (cause, f) → t.veto = none →
          becomes (.prepareAtDie p slot die) { y with veto := some (cause, f.code * 2 ^ 32 + f.index * 2 ^ 16 + f.sub * 2 ^ 8 + f.die) }) ∧
        (¬ link .retraining → dieReachable s.dev die = true → prepareFailed s.dev t die = none →
          becomes (.prepareAtDie p slot die) { y with toSend := setBit t.toSend die }))) ∧
    (lost → Completes (.dieVote p slot die) s s.dev ∧ Completes (.decisionArrival p slot die) s s.dev) ∧
    held (.dieVote p slot die) (.vote p i) ∧ held (.decisionArrival p slot die) (.decision p i) ∧
    (comes → (t.st ≠ .preparing ∨ bitOf t.prepared die = false ∨ V < s.dev.now) → Completes (.dieVote p slot die) s s.dev) ∧
    (comes → t.st = .preparing → bitOf t.prepared die = true → s.dev.now ≤ V →
      (bitOf t.toSend die = true → (∃ u ∈ t.units, holds s.dev id u = false ∧ arbiterDie u = die.val) → Completes (.dieVote p slot die) s s.dev) ∧
      (bitOf t.toSend die = true → (∀ u ∈ t.units, holds s.dev id u = true) → ((calRecord t).isNone = true ∨ t.record.isSome = true) →
        let v := setBit t.voted die
        (v ≠ t.mask → becomes (.dieVote p slot die) { t with commitAt := s.dev.now, voted := v, toSend := clearBit t.toSend die }) ∧
        (v = t.mask → becomes (.dieVote p slot die)
          { t with commitAt := s.dev.now, voted := v, toSend := clearBit t.toSend die, st := .committed, decided := if bitOf t.mask 0 = true then 1 else t.decided })) ∧
      (bitOf t.toSend die = false → bitOf t.voted die = false → ∀ c w, t.veto = some (c, w) →
        ∃ d, Completes (.dieVote p slot die) s d ∧ d.now = s.dev.now ∧ aborted d c w)) ∧
    (t.st ≠ .preparing → Completes (.voteDeadline p slot) s s.dev) ∧
    (t.st = .preparing → ∃ d c w, Completes (.voteDeadline p slot) s d ∧
      d.now = max s.dev.now (V - if 0xA0 ∈ t.units ∧ holds s.dev id 0xA0 = false then stagedLeadMs t * 245760 else 0) ∧ aborted d c w ∧
      (0xA0 ∈ t.units → holds s.dev id 0xA0 = false → c = 4 ∧ w = 0x0F100086 * 2 ^ 32 + 0xA0 * 2 ^ 8) ∧
      (∀ u, (0xA0 ∈ t.units → holds s.dev id 0xA0 = true) → (t.units.find? fun u => !holds s.dev id u) = some u → c = 4 ∧ w = 0x0F100086 * 2 ^ 32 + u * 2 ^ 8 + arbiterDie u) ∧
      ((∀ u ∈ t.units, holds s.dev id u = true) →
        ((calRecord t).isSome = true → t.record = none → c = 4 ∧ w = 0x26100100) ∧
        (((calRecord t).isNone = true ∨ t.record.isSome = true) →
          let missing := (List.range 8).filter fun k => bitOf t.mask k && !bitOf t.voted k
          (∀ k, (missing.find? fun k => !dieReachable s.dev k) = some k → c = 4 ∧ w = 0x0F100002 * 2 ^ 32 + k) ∧
          (∀ k rest, missing = k :: rest → (∀ j ∈ missing, dieReachable s.dev j = true) → c = 3 ∧ w = k)))) ∧
    (let told : Prop := t.st = .committed ∧ bitOf t.mask die = true ∧ bitOf t.presumed die = false
     (comes → told → becomes (.decisionArrival p slot die) { t with decided := setBit t.decided die }) ∧
     (comes → ¬ told → Completes (.decisionArrival p slot die) s s.dev)) ∧
    (let waits : Prop := t.st = .committed ∧ bitOf t.mask die = true ∧ bitOf t.decided die = false
     (waits → Completes (.presumedAbort p slot die) s (updTxn p.idx i (fun _ => { t with presumed := setBit t.presumed die })
       (advance (tickNear s.dev.cad.recs t.pos - 4915) s.dev))) ∧
     (¬ waits → Completes (.presumedAbort p slot die) s s.dev))

/-- O44. The apply (R315, R316) and what is due before it (R51); e is the device after that. `together`: the dies that hold the decision reach P on one tick. What some of the objects start is stated for each; that an array which cannot serve its mode and aperture goes to FAULT at its enable is log 108. Objects of the other chapters take their effect through the same operation. -/
def Obligations.KeystoneApplies : Prop :=
  ∀ (s : Sys2Proof.Machine.State) (p : Port) (slot : Fin 16) (e : Dev) (t : Txn), Live s →
    let i := slot.val + 1
    let c := Instr.keystoneApply p slot
    let together : Prop := t.applied = 0 ∧ t.decided < 256 ∧ t.mask < 256 ∧ (applyTick e t).isSome = true ∧
      ∀ k ∈ applyDies t, partTick e k t.pos = applyTick e t
    let only (index sub : Nat) (data : List Byte) : Prop :=
      t.st = .committed ∧ t.decided = t.mask ∧ together ∧ t.staged = [⟨index, sub, data⟩] ∧ bitOf t.mask (objDie index) = true ∧ e.ref.comparison = none
    let ran (d : Dev) : Prop := Completes c s d ∧ (∀ u, applyTick e t = some u → d.now = max e.now u) ∧
      portTxn d p i = { t with st := .applied, applied := t.mask, staged := [] } ∧ rd d oCommits [] = min (2 ^ 32 - 1) (rd e oCommits [] + 1)
    (∀ w chans, (firstDue w (dueEvents e chans) = none → settleDue s.nv w chans e = e) ∧
      (∀ x, firstDue w (dueEvents e chans) = some x → x ∈ dueEvents e chans ∧ x.1.before w = true ∧
        ∀ y ∈ dueEvents e chans, y.1.before w = true → ¬ (y.1.before x.1 = true))) ∧
    (∀ q ∈ allTxns e, ∀ u, q.2.2.st = .committed → applyTick e q.2.2 = some u → (⟨u, 1, q.2.2.order⟩, Due.apply q.1 q.2.1) ∈ dueEvents e []) ∧
    (∀ u, nextCapture e.slate.triggers = some u → (⟨u, 0, 1⟩, Due.capture) ∈ dueEvents e []) ∧
    (∀ a b : When, a.before b = true ↔ a.tick < b.tick ∨ (a.tick = b.tick ∧ (a.rank < b.rank ∨ (a.rank = b.rank ∧ a.order < b.order)))) ∧
    (((portTxn s.dev p i).st ≠ .committed ∨ applyTick s.dev (portTxn s.dev p i) = none) → Completes c s s.dev) ∧
    (∀ u, (portTxn s.dev p i).st = .committed → applyTick s.dev (portTxn s.dev p i) = some u →
      e = settleDue s.nv ⟨u, 1, (portTxn s.dev p i).order⟩ [] s.dev → t = portTxn e p i →
    ((t.st ≠ .committed ∨ applyTick e t = none) → Completes c s e) ∧
    (∀ (n : Ch) (a : ArrId) (data : List Byte), ∀ row ∈ [oStaleLimit, oNbrLimit, oUrgentAp],
      let index := row.ix + 0x100 * n.val + 0x10 * a.idx
      let key := keyOf row [n, a.idx] 0
      (only index row.sub data → data.length = row.size → ∃ d, ran d ∧ rd d row [n, a.idx] = ofBytes data ∧
        objsKept [key, keyOf oCommits [] 0] e d ∧ (e.arb.units = [] → d.arb = e.arb) ∧ (row.ix ≠ oStaleLimit.ix ∨ row.sub ≠ oStaleLimit.sub → d.chans = e.chans) ∧
        (∀ k b, k ≠ n ∨ b ≠ a → arrOf d k b = arrOf e k b) ∧ (d.ch n).src = (e.ch n).src ∧ (d.ch n).loop = (e.ch n).loop ∧ (d.ch n).seq = (e.ch n).seq ∧
        arrOf d n a = { arrOf e n a with calStale := (arrOf d n a).calStale } ∧
        ((arrOf d n a).calStale = true → (arrOf e n a).calStale = true)) ∧
      (t.st = .committed → t.decided ≠ t.mask → together → t.staged = [⟨index, row.sub, data⟩] → bitOf t.decided (objDie index) = false →
        e.ref.comparison = none → ∃ d, Completes c s d ∧ (∀ u, applyTick e t = some u → d.now = max e.now u) ∧ d.chans = e.chans ∧
        portTxn d p i = { t with st := .split, applied := t.decided } ∧
        objsKept [keyOf oSplits [] 0, keyOf oFaultLatch [] 0, keyOf oIrqStatus [] 0] e d ∧
        rd d oSplits [] = min (2 ^ 32 - 1) (rd e oSplits [] + 1) ∧ bitOf (rd d oFaultLatch []) 1 = true ∧
        (∃ x l, d.events = x :: l ∧ x.code = 2 ∧ x.arg0 = p.idx.val ∧ x.arg1 = i) ∧
        (bitOf (rd e oSlateOnSplit []) 0 = true → bitOf (rd e oSlateSrcEn []) 5 = true →
          ∃ x, d.slate.triggers = e.slate.triggers ++ [x] ∧ x.tick = d.now + 2) ∧
        (bitOf (rd e oSlateOnSplit []) 0 = false → d.slate = e.slate))) ∧
    (∀ n : Ch, only (0x3010 + 0x100 * n.val) 1 [1] → ((e.ch n).src.st = .off ∨ (e.ch n).src.st = .tripped) →
      rd e oSrcOrigin [n] ≠ 4 → ∃ d, ran d ∧ (d.ch n).src.st = .enabling ∧ rd d oSrcEnable [n] = 1 ∧ ∀ k, k ≠ n → d.ch k = e.ch k) ∧
    (∀ n : Ch, only (0x3010 + 0x100 * n.val) 1 [0] → ((e.ch n).src.st = .enabling ∨ (e.ch n).src.st = .running) →
      (e.ch n).loop.st = .openState →
      ∃ d, ran d ∧ (d.ch n).src.st = .disabling ∧ rd d oSrcEnable [n] = 0 ∧ ∀ k, k ≠ n → d.ch k = e.ch k) ∧
    (∀ (n : Ch) (a : ArrId), only (0x3030 + 0x100 * n.val + 0x10 * a.idx) 1 [1] → (arrOf e n a).st = .off → (arrOf e n a).ready = true →
      ∃ d, ran d ∧ (arrOf d n a).st = (if servable (rd e oArrMode [n, a.idx]) (rd e oAperture [n, a.idx]) (curRec (dieRecs e n) d.now).len
        (inService (arrOf e n a)) = true then .starting else .fault) ∧ (arrOf d n a).mode = rd e oArrMode [n, a.idx] ∧
        (arrOf d n a).aperture = rd e oAperture [n, a.idx] ∧ (d.ch n).src = (e.ch n).src ∧ ∀ k, k ≠ n → d.ch k = e.ch k) ∧
    (∀ (n : Ch) (a : ArrId), only (0x3030 + 0x100 * n.val + 0x10 * a.idx) 1 [0] → ((arrOf e n a).st = .starting ∨ (arrOf e n a).st = .running) →
      ∃ d, ran d ∧ (arrOf d n a).st = (if (arrOf e n a).slots = [] ∧ (arrOf e n a).done = [] then .off else .draining)) ∧
    (∀ (n : Ch) (m : Mon), only (0x30A0 + 0x100 * n.val + m.val) 1 [0] → (monOf e n m).st ≠ .off → rd e oMonMode [n, m] ≠ 0 →
      ∃ d, ran d ∧ (monOf d n m).st = .off ∧ (monOf d n m).decided = .undecided ∧ (monOf d n m).soft = (monOf e n m).soft ∧
        (monOf d n m).hard = (monOf e n m).hard ∧ ∀ k, k ≠ m → monOf d n k = monOf e n k) ∧
    (∀ (n : Ch) (m : Mon) (v : BitVec 8), only (0x30A0 + 0x100 * n.val + m.val) 1 [v] → (monOf e n m).st = .off → 1 ≤ v.toNat →
      rd e oMonMode [n, m] = 0 → ∃ d, ran d ∧ (monOf d n m).st = .starting ∧ (monOf d n m).onAt = d.now ∧ rd d oMonMode [n, m] = v.toNat) ∧
    (t.st = .committed → t.decided = t.mask → together → e.ref.comparison = none →
      (∀ w ∈ t.staged, bitOf t.mask (objDie w.index) = true ∧ ∃ (n : Ch) (a : ArrId), ∃ row ∈ [oNbrLimit, oUrgentAp],
        w.index = row.ix + 0x100 * n.val + 0x10 * a.idx ∧ w.sub = row.sub ∧ w.data.length = row.size) →
      (t.staged.map fun w => (w.index, w.sub)).Nodup → ∃ d, ran d ∧ d.chans = e.chans ∧
        (∀ w ∈ t.staged, getKey d (objKey w.index w.sub 0) = ofBytes w.data) ∧
        objsKept (keyOf oCommits [] 0 :: t.staged.map fun w => objKey w.index w.sub 0) e d) ∧
    (∀ (n : Ch) (v : BitVec 8), only (0x30B0 + 0x100 * n.val) 1 [v] → v.toNat < 8 → v.toNat ≠ rd e oRangeActive [n] →
      let x := (e.ch n).src
      let l := (e.ch n).loop
      let set (d : Dev) : Prop := ran d ∧ rd d oRangeActive [n] = v.toNat ∧ ∀ k, k ≠ n → d.ch k = e.ch k
      ((x.st = .off ∨ x.st = .tripped) → l.st = .openState → ∃ d, set d ∧
        d.ch n = { e.ch n with src := { x with rangeSel := rd e oPattern [n, v.toNat] } }) ∧
      (x.st ≠ .off → x.st ≠ .tripped → (l.st = .openState ∨ ((l.st = .primary ∨ l.st = .limit) ∧ l.law = none)) → ∃ d, set d ∧
        (d.ch n).src.range = some ⟨d.now, v.toNat, d.now + usTicks (rd e oOverlapUs [n, v.toNat]), d.now + usTicks (rd e oHoldUs [n, v.toNat]), false⟩ ∧
        (d.ch n).src.rangeSel = x.rangeSel ||| rd e oPattern [n, v.toNat] ∧ (d.ch n).src.st = x.st ∧ (l.st = .openState → (d.ch n).loop = l) ∧
        (l.st ≠ .openState → (d.ch n).loop.st = .rangeXover ∧ ∃ y, (d.ch n).loop.xover = some y ∧ y.back = l.st ∧ y.writes = [] ∧ y.scaled = false ∧
          y.scaleAt = d.now + usTicks (rd e oOverlapUs [n, v.toNat]) ∧ y.resumeAt = d.now + usTicks (rd e oHoldUs [n, v.toNat])))) ∧
    (∀ (n : Ch) (data : List Byte), (e.ch n).loop.xover = none → data.length = 5 →
      (only (0x3060 + 0x100 * n.val) 8 data → ∃ d, ran d ∧ rd d oLimHi [n] = ofBytes data ∧ d.chans = e.chans) ∧
      (only (0x3060 + 0x100 * n.val) 6 data → ∃ d, ran d ∧ rd d oLoopSpStaged [n] = ofBytes data ∧ rd d oLoopSp [n] = ofBytes data ∧
        d.chans = e.chans)) ∧
    (∀ (n : Ch) (v : BitVec 8), only (0x3060 + 0x100 * n.val) 3 [v] → v.toNat < 4 → v.toNat ≠ rd e oCoefActive [n] → (e.ch n).loop.xover = none →
      let l := (e.ch n).loop
      let live : Prop := l.st = .primed ∨ l.st = .primary ∨ l.st = .limit ∨ l.st = .rangeXover
      ∃ d, ran d ∧ rd d oCoefActive [n] = v.toNat ∧ d.chans = e.chans.set n { e.ch n with loop := (d.ch n).loop } ∧
        rd d oAdmittedTicks [n] = 60 + 14 * rd e oBqCount [n, v.toNat] ∧
        (¬ live → (d.ch n).loop = l) ∧ (live → rd e oCoefSwitch [n] = 1 → (d.ch n).loop = { l with setWaits := true }) ∧
        (live → rd e oCoefSwitch [n] ≠ 1 → l.law = none → (d.ch n).loop = { l with
          set := loadSet d n, setNo := v.toNat, setWaits := false, count := 0, integ := (d.ch n).loop.integ })) ∧
    (∀ (n : Ch) (v : BitVec 8), only (0x3010 + 0x100 * n.val) 3 [v] → v.toNat < 5 → v.toNat ≠ rd e oSrcOrigin [n] → (e.ch n).loop.xover = none →
      let l := (e.ch n).loop
      let x := (e.ch n).src
      let live : Prop := l.st = .primed ∨ l.st = .primary ∨ l.st = .limit ∨ l.st = .rangeXover
      ∃ d, ran d ∧ rd d oSrcOrigin [n] = v.toNat ∧ (∀ k, k ≠ n → d.ch k = e.ch k) ∧
        (live → v.toNat ≠ 4 → (d.ch n).loop.st = .openState) ∧ (live → v.toNat = 4 → (d.ch n).loop = l) ∧
        (¬ live → v.toNat ≠ 4 → (d.ch n).loop = l) ∧
        (v.toNat = 4 → l.st = .openState → (x.st = .enabling ∨ x.st = .running) →
          (d.ch n).loop.st = .primed ∧ (d.ch n).loop.uPrev = x.code ∧ (d.ch n).src = { x with loopCode := x.code }) ∧
        (v.toNat ≠ 4 → (d.ch n).src = { x with static := if v.toNat = 0 then rdI e oSrcCode [n] else x.static })) ∧
    (∀ (n : Ch) (q : Nat) (v : BitVec 64), only (0x3051 + 0x100 * n.val) 1 (leBytes 2 q ++ leBytes 8 v.toNat) → 1 ≤ q → q < 512 →
      ((e.ch n).queues.map Prod.fst).Pairwise (· < ·) →
      let old := qFind (e.ch n).queues q
      ∃ d, ran d ∧ (∀ k, k ≠ n → d.ch k = e.ch k) ∧ (qFind (d.ch n).queues q).desc = v ∧
        (descStream v ≠ descStream old.desc ∨ descCompanion v ≠ descCompanion old.desc → (qFind (d.ch n).queues q).recs = []) ∧
        (descStream v = descStream old.desc → descCompanion v = descCompanion old.desc → descDepth v = descDepth old.desc →
          (qFind (d.ch n).queues q).recs = old.recs) ∧ ∀ j, j ≠ q → qFind (d.ch n).queues j = qFind (e.ch n).queues j) ∧
    (∀ (n : Ch) (b : Fin 2) (v : BitVec 8), only (0x3081 + 0x100 * n.val + b.val) 4 [v] → v.toNat < 2 → ∃ d, ran d ∧ (∀ k, k ≠ n → d.ch k = e.ch k) ∧
      bankState (d.ch n).seq (1 - b.val) = bankState (e.ch n).seq (1 - b.val) ∧ bankState (d.ch n).seq b =
        (if bankState (e.ch n).seq b = .idle ∧ v.toNat = 1 then .ready else if bankState (e.ch n).seq b = .ready ∧ v.toNat = 0 then .idle
          else bankState (e.ch n).seq b)) ∧
    (∀ (n : Ch) (b : Fin 2) (entry data : Nat), t.st = .committed → t.decided = t.mask → together → e.ref.comparison = none →
      bitOf t.mask (objDie (0x3083 + 0x100 * n.val)) = true → entry < 8192 → data < 2 ^ 256 →
      t.staged = [⟨0x3083 + 0x100 * n.val, 1, leBytes 2 (b * 8192 + entry)⟩, ⟨0x3083 + 0x100 * n.val, 2, leBytes 32 data⟩] →
      let q := (e.ch n).seq
      (q.st = .stopped → q.crr = none → q.starts = [] → ∃ d, ran d ∧ (∀ k, k ≠ n → d.ch k = e.ch k) ∧ (d.ch n).seq.patch = none ∧
        courseOf (d.ch n).seq b entry = data ∧ rd d oPatches [n] = min (2 ^ 32 - 1) (rd e oPatches [n] + 1)) ∧
      (q.crr = some (b * 8192 + entry) → ∃ d, ran d ∧ (∀ k, k ≠ n → d.ch k = e.ch k) ∧
        (d.ch n).seq = { q with patch := some ⟨b, entry, data⟩ } ∧ rd d oPatches [n] = rd e oPatches [n])) ∧
    (∀ (v : BitVec 8), only 0x2100 1 [v] → ∃ d, ran d ∧ d.chans = e.chans ∧ objsKept [keyOf oCommits [] 0] e d ∧ d.cad = { e.cad with
      waiting := (e.cad.waiting.filter fun w => w.key != keyOf oReelSource [] 0) ++ [⟨keyOf oReelSource [] 0, v.toNat, stampNear e.cad.recs t.pos⟩] }) ∧
    (∀ (v : BitVec 32), only 0x2102 1 (leBytes 4 v.toNat) → ∃ d, ran d ∧ d.chans = e.chans ∧ rd d oCyclePreset [] = v.toNat ∧
      d.cad = { e.cad with preset := some (v.toNat, stampNear e.cad.recs t.pos) }) ∧
    (∀ data, only 0x2610 1 data → data.length = 126 → ∃ d, ran d ∧ rd d oCalStatement [] = ofBytes data ∧ d.chans = e.chans ∧ d.ledger.queue = e.ledger.queue) ∧
    (∀ v : BitVec 8, only 0x2602 1 [v] → v.toNat ≠ rd e oRefSwitch [] → v.toNat < 4 → ∃ d, ran d ∧ rd d oRefSwitch [] = v.toNat ∧
      ((v.toNat = 0 ∨ v.toNat = 2) → rd d oExtLevel [] = 0 ∧ d.ref.extRangeErr = false) ∧
      ∀ (n : Ch) (a : ArrId), (rd e oRefSel [n, a.idx] = 1 → (arrOf d n a).refSettled = false) ∧
        (rd e oRefSel [n, a.idx] ≠ 1 → arrOf d n a = arrOf e n a)) ∧
    (∀ (u : Nat) (data : List Byte) (g : Grant), only 0x2404 1 data → data.length = 32 → bitOf (ofBytes data) u = true → g.id = p.idx.val * 4096 + i →
      ∀ free, e.arb.units = [⟨u, [g], [], free⟩] → g.drop = none →
      ∃ d, ran d ∧ rdP d oHostHold p [] = ofBytes data ∧ d.arb.units = [⟨u, [{ g with host := true }], [], free⟩]) ∧
    (∀ (n : Ch) (a : ArrId) (data : List Byte) (u : Nat) (g : Grant), only (oUrgentAp.ix + 0x100 * n.val + 0x10 * a.idx) oUrgentAp.sub data → data.length = 2 →
      g.id = p.idx.val * 4096 + i → g.host = false → ∀ free, e.arb.units = [⟨u, [g], [], free⟩] → g.drop = none →
      ∃ d, ran d ∧ d.arb.units = [⟨u, [{ g with drop := some (d.now + 1) }], [], free⟩] ∧ holds d g.id u = true ∧
        holds { d with now := d.now + 1 } g.id u = false))

/-- O45. The arbiters (R296 to R310, R322, R323). `e` is the device as the grant is made: at its tick, a commit whose position has come in force. 30 µs are 7373 ticks. Scans at multiples of 2458 ticks and the re-entry of the victim are log 98, the release of a scrub pass or report log 111, BACKGROUND_LATE of work not asked for log 144. Identifiers are class × 4096 + instance (R298). The clauses about a whole table of units are given where one unit, or one circle of two, is listed. -/
def Obligations.ArbiterGrants : Prop :=
  ∀ (s : Sys2Proof.Machine.State), Live s →
    let isUnit (u : Nat) : Prop := (0x10 ≤ u ∧ u ≤ 0x15) ∨ u = 0x20 ∨ (0x40 ≤ u ∧ u ≤ 0x6F) ∨ (0x80 ≤ u ∧ u ≤ 0x85) ∨ u = 0x90 ∨ u = 0xA0 ∨
      (0xB0 ≤ u ∧ u ≤ 0xB5)
    let unitsOnly (d : Dev) : Prop := d = { s.dev with arb := { s.dev.arb with units := d.arb.units } }
    let others (d : Dev) (u : Nat) : Prop := ∀ v, v ≠ u → sharedOf d v = sharedOf s.dev v
    (∀ (cls : Fin 15) (inst : BitVec 12) (unit : BitVec 8) (deadline : Pos),
      let c := Instr.unitRequest cls inst unit deadline
      let id := cls.val * 4096 + inst.toNat
      let u := unit.toNat
      let x := sharedOf s.dev u
      let known : Prop := holds s.dev id u = true ∨ ∃ r ∈ x.waiters, r.id = id
      let outOfOrder : Prop := cls.val ≤ 8 ∧ ∃ v, u ≤ v ∧ v ∈ unitsHeld s.dev id
      ((¬ isUnit u ∨ known ∨ outOfOrder) → Completes c s s.dev) ∧
      (isUnit u → ¬ known → ¬ outOfOrder → ∃ d r, Completes c s d ∧ unitsOnly d ∧ others d u ∧ (sharedOf d u).grants = x.grants ∧
        (sharedOf d u).waiters.map (fun w => { w with hint := none }) = x.waiters.map (fun w => { w with hint := none }) ++ [r] ∧ r.id = id ∧
        (cls.val ≠ 11 → cls.val ≠ 12 → cls.val ≠ 14 → r.deadline = deadline.toNat) ∧ (cls.val = 11 → r.deadline = posOf s.dev.cad.recs (scrubDue s.dev inst.toNat * 256) % 2 ^ 64) ∧
        (cls.val = 12 → r.deadline = posOf s.dev.cad.recs (reportDue s.dev inst.toNat * 256) % 2 ^ 64) ∧
        (cls.val = 14 → r.deadline = posOf s.dev.cad.recs ((s.dev.now + usTicks (s.dev.arb.now.offset.getD 14 0)) * 256) % 2 ^ 64) ∧ r.entry = s.dev.now ∧ r.passed = 0 ∧ r.late = false)) ∧
    (∀ (unit : BitVec 8) (e : Dev),
      let u := unit.toNat
      let slots := if 0xB0 ≤ u then 32 else 1
      let w := sharedOf s.dev u
      let x := sharedOf e u
      let can (r : Request) : Prop := r ∈ x.waiters ∧ grantable e u r = true
      let earlier (a b : Request) : Prop := a.entry < b.entry ∨ (a.entry = b.entry ∧ a.id < b.id)
      let prio (r : Request) : Nat := min 15 (e.arb.now.prio.getD (r.id / 4096) 0 + r.passed)
      let before (a b : Request) : Prop :=
        (e.arb.now.mode = 0 ∧ ((a.deadline % 2 ^ 64 ≠ b.deadline % 2 ^ 64 ∧ posLater b.deadline a.deadline = true) ∨
          (a.deadline % 2 ^ 64 = b.deadline % 2 ^ 64 ∧ earlier a b))) ∨
        (e.arb.now.mode ≠ 0 ∧ (prio b < prio a ∨ (prio a = prio b ∧ earlier a b)))
      let others_ (d : Dev) : Prop := ∀ v, v ≠ u → sharedOf d v = sharedOf e v
      (w.grants.length < slots → grantTick s.dev u = max s.dev.now w.freeFrom) ∧
      (∀ g k, w.grants = [g] → slots = 1 → g.drop = some k → grantTick s.dev u = max k w.freeFrom) ∧
      (∀ r k, unitLink u = some k → (0xB0 ≤ u ∨ r.id / 4096 ≤ 4) → (e.dies[k].link.st ≠ .active ∧ e.dies[k].link.st ≠ .retraining) → grantable e u r = false) ∧
      (e = commitDue (advance (grantTick s.dev u) s.dev) →
      ((¬ isUnit u ∨ slots ≤ x.grants.length ∨ ∀ r, ¬ can r) → Completes (.unitGrant unit) s e) ∧
      (∀ r, isUnit u → x.grants.length < slots → can r → (∀ q, can q → q ≠ r → before r q ∧ ¬ before q r) → ∃ d, Completes (.unitGrant unit) s d ∧
        d.now = e.now ∧
        (8 ≤ r.id / 4096 → let used := r.id / 4096 = 11 ∨ r.id / 4096 = 12
          others_ d ∧ (sharedOf d u).grants = x.grants.map (fun g => if used ∧ g.id = r.id then { g with drop := some (e.now + 7373) } else g) ++
            [⟨r.id, e.now, ctlPos e, r.deadline, false, false, if used then some (e.now + 7373) else none⟩] ∧
          (sharedOf d u).waiters.map (fun q => (q.id, q.deadline, q.entry, q.passed)) =
            (x.waiters.filter fun q => q.id != r.id).map (fun q => (q.id, q.deadline, q.entry, q.passed + 1)) ∧
          d.chans = e.chans ∧ d.ports = e.ports ∧ d.ledger = e.ledger ∧
          rd d oHintMisses [] = (if ∃ h, hintNow e u r = some h ∧ tickNear e.cad.recs h < e.now then
            min (2 ^ 32 - 1) (rd e oHintMisses [] + 1) else rd e oHintMisses []) ∧
          (r.id = 0xB006 → d.control.scrubAt = e.now ∧ rd d oCtrlScrubPos [] = ctlPos e) ∧
          (∀ k : Fin 6, r.id = 0xB000 + k.val → (d.dies[k]).scrubAt = e.now ∧ rd d oScrubPos [k] = ctlPos e)) ∧
        (∀ (n : Ch) (m : Mon), r.id = 0x7000 + 4 * n.val + m.val → (monOf d n m).verifyAt = some e.now ∧
          ∀ k, (arrOf e n (verifyArr m)).spare = some k → ((arrOf d n (verifyArr m)).slices[k]).st = .verify)))) ∧
    (∀ (cls : Fin 15) (inst : BitVec 12) (unit : BitVec 8),
      let c := Instr.unitRelease cls inst unit
      let id := cls.val * 4096 + inst.toNat
      let u := unit.toNat
      let x := sharedOf s.dev u
      (holds s.dev id u = false → Completes c s s.dev) ∧
      (holds s.dev id u = true → (id ≠ 0xE047 ∨ u ≠ 0xA0) → ∃ d, Completes c s d ∧ unitsOnly d ∧
        ((x.waiters ≠ [] ∨ ∃ g ∈ x.grants, g.id ≠ id) → others d u ∧ (sharedOf d u).grants = x.grants.filter (fun g => g.id != id) ∧
          (sharedOf d u).waiters.map (fun w => { w with hint := none }) = x.waiters.map (fun w => { w with hint := none })) ∧
        (x.waiters = [] → (∀ g ∈ x.grants, g.id = id) → s.dev.arb.units = [x] → d.arb.units = []))) ∧
    (∀ (unit : BitVec 8),
      let u := unit.toNat
      let x := sharedOf s.dev u
      (x.grants = [] → Completes (.holdOverrun unit) s s.dev) ∧
      (∀ g, x.grants = [g] → (g.overrun = true ∨ g.host = true) → Completes (.holdOverrun unit) s s.dev) ∧
      (∀ g bound, x.grants = [g] → g.overrun = false → g.host = false → g.drop = none →
        (g.id / 4096, bound) ∈ [(7, 123864), (10, 98304), (11, 7373), (12, 7373), (13, 7373), (14, 2457600)] → ∃ d, Completes (.holdOverrun unit) s d ∧
        d.now = max s.dev.now (g.tick + bound + 1) ∧ (sharedOf d u).grants = [{ g with overrun := true }] ∧
        (∀ v, v ≠ u → sharedOf d v = sharedOf { s.dev with now := d.now } v) ∧
        rd d oHoldOverruns [] = min (2 ^ 32 - 1) (rd s.dev oHoldOverruns [] + 1) ∧
        (∃ e l, d.events = e :: l ∧ e.code = 0x0A ∧ e.arg0 = u ∧ e.arg1 = g.id) ∧ d.chans = s.dev.chans ∧ d.ports = s.dev.ports)) ∧
    (∀ (cls : Fin 15) (inst : BitVec 12) (unit : BitVec 8),
      let c := Instr.backgroundLate cls inst unit
      let id := cls.val * 4096 + inst.toNat
      let x := sharedOf s.dev unit.toNat
      let grace := s.dev.arb.now.grace.getD cls 0 * 245760
      let background : Prop := (5 ≤ cls.val ∧ cls.val ≤ 9) ∨ cls.val = 11 ∨ cls.val = 12
      (∀ r, x.waiters = [r] → r.id = id → (¬ background ∨ r.late = true) → Completes c s s.dev) ∧
      (∀ r, x.waiters = [r] → r.id = id → background → r.late = false → (∀ g ∈ x.grants, g.drop = none) → ∃ d, Completes c s d ∧
        d.now = max s.dev.now (tickNear s.dev.cad.recs r.deadline + grace) ∧ (sharedOf d unit.toNat).waiters = [{ r with late := true }] ∧
        (sharedOf d unit.toNat).grants = x.grants ∧ rdJ d oLates [] cls = min (2 ^ 32 - 1) (rdJ s.dev oLates [] cls + 1) ∧
        objsKept [keyOf oLates [] cls] s.dev d ∧ d.ref.cmpLate = (s.dev.ref.cmpLate || decide (cls.val = 8)) ∧ d.chans = s.dev.chans) ∧
      ((∀ r ∈ x.waiters, r.id ≠ id) → (cls.val ≠ 8 ∨ rd s.dev oCmpInterval [] = 0) → (cls.val ≠ 11 ∨ 6 < inst.toNat ∨ id ∈ s.dev.arb.lateWork) →
        (cls.val ≠ 12 ∨ 5 < inst.toNat ∨ id ∈ s.dev.arb.lateWork) → Completes c s s.dev) ∧
      (∀ due, (∀ r ∈ x.waiters, r.id ≠ id) → (cls.val = 11 ∧ inst.toNat ≤ 6 ∧ due = scrubDue s.dev inst.toNat ∨
          cls.val = 12 ∧ inst.toNat < 6 ∧ due = reportDue s.dev inst.toNat) → id ∉ s.dev.arb.lateWork → ∃ d, Completes c s d ∧
        d.now = max s.dev.now (due + grace) ∧ d.arb = { s.dev.arb with lateWork := s.dev.arb.lateWork ++ [id] } ∧
        rdJ d oLates [] cls = min (2 ^ 32 - 1) (rdJ s.dev oLates [] cls + 1) ∧ objsKept [keyOf oLates [] cls] s.dev d ∧ d.chans = s.dev.chans) ∧
      ((∀ r ∈ x.waiters, r.id ≠ id) → cls.val = 8 → rd s.dev oCmpInterval [] ≠ 0 →
        let t := advance (s.dev.ref.lastComparison + rd s.dev oCmpInterval [] * 884736000000 + s.dev.arb.now.grace.getD 8 0 * 245760) s.dev
        Completes c s { t with ref := { t.ref with cmpLate := true } })) ∧
    (let t := max (s.dev.arb.scanAt + 2458) ((s.dev.now + 2457) / 2458 * 2458)
     ((∀ x ∈ s.dev.arb.units, x.waiters = [] ∨ x.grants = []) → ∃ d, Completes .waitGraphScan s d ∧ d.now = max s.dev.now t ∧ d.objs = s.dev.objs ∧
       d.events = s.dev.events ∧ d.arb = { s.dev.arb with scanAt := t }) ∧
     (∀ (u v f f' : Nat) (g h : Grant) (q r : Request), s.dev.arb.units = [⟨u, [g], [q], f⟩, ⟨v, [h], [r], f'⟩] → g.drop = none → h.drop = none → isUnit u → isUnit v → u < v → q.id = h.id →
       r.id = g.id → q.id ≠ r.id → 8 < q.id / 4096 → q.id < 65536 → ∃ d, Completes .waitGraphScan s d ∧ d.now = max s.dev.now t ∧ holds d q.id v = false ∧
       holds d r.id u = true ∧ (sharedOf d u).waiters = [] ∧ (∃ a b, (sharedOf d v).waiters = [a, b] ∧ a.id = r.id ∧ b.id = q.id ∧
         b.deadline = h.deadline % 2 ^ 64 ∧ b.entry = d.now) ∧ rd d oBreaks [] = min (2 ^ 32 - 1) (rd s.dev oBreaks [] + 1) ∧
       rd d oBreakLast [] % 2 ^ 24 = (q.id + u * 2 ^ 16) % 2 ^ 24 ∧ rd d oBreakLast [] / 2 ^ 64 % 2 ^ 256 = 2 ^ v ∧
       bitOf (rd d oFaultLatch []) 0 = true ∧ (∃ e l, d.events = e :: l ∧ e.code = 1 ∧ e.arg0 = u ∧ e.arg1 = q.id) ∧ d.chans = s.dev.chans)) ∧
    (∀ (p : Port) (v : BitVec 8), Served s p oHostRelease → ∃ d, Completes (.hostRelease p v) s (done p d) ∧ d.now = s.dev.now ∧
      rdP d oHostHold p [] = clearBit (rdP s.dev oHostHold p []) v.toNat % 2 ^ 256 ∧ d.chans = s.dev.chans ∧
      (∀ g w f, s.dev.arb.units = [⟨v.toNat, [g], w, f⟩] → g.drop = none →
        (g.id / 4096 = p.idx.val → g.host = true → holds d g.id v.toNat = false ∧ (sharedOf d v.toNat).waiters.map Request.id = w.map Request.id ∧
          (w ≠ [] → (sharedOf d v.toNat).freeFrom = d.now + 1)) ∧
        ((g.id / 4096 ≠ p.idx.val ∨ g.host = false) → d.arb = s.dev.arb))) ∧
    (∀ (p : Port) (pos : Pos), Served s p oArbCommit →
      let near : Prop := posLater pos.toNat (ctlPos s.dev) = false ∨ tickNear s.dev.cad.recs pos.toNat < s.dev.now + 61440
      let refused (code : Nat) : Prop := Completes (.arbCommit p pos) s (setAnswer p (.refused code) s.dev)
      (s.dev.supply.warning = true → refused 0x0F100089) ∧
      (s.dev.supply.warning = false → ((pos.toNat ≠ 0 ∧ near) ∨ s.dev.arb.commit.isSome = true) → refused 0x0F100087) ∧
      (s.dev.supply.warning = false → (pos.toNat = 0 ∨ ¬ near) → s.dev.arb.commit = none → ∃ d v, Completes (.arbCommit p pos) s (done p d) ∧
        d.arb = { s.dev.arb with commit := some (rd d oArbCommitPos [], v) } ∧ objsKept [keyOf oArbCommitPos [] 0] s.dev d ∧
        rd d oArbCommitPos [] = (if pos.toNat = 0 then nextMultiple s.dev (s.dev.now + 61440) 16 else pos.toNat) ∧ v.mode = rd s.dev oArbMode [] ∧
        ∀ k, k < 15 → v.prio[k]? = some (rdJ s.dev oPrio [] k) ∧ v.offset[k]? = some (rdJ s.dev oDlOffset [] k) ∧
          v.grace[k]? = some (rdJ s.dev oGrace [] k))) ∧
    (s.dev.arb.commit = none → Completes .arbCommitApply s s.dev) ∧
    (∀ P v, s.dev.arb.commit = some (P, v) → reachTick s.dev.cad.recs P = none → Completes .arbCommitApply s s.dev) ∧
    (∀ P v t, s.dev.arb.commit = some (P, v) → reachTick s.dev.cad.recs P = some t → ∃ d, Completes .arbCommitApply s d ∧ d.now = max s.dev.now t ∧
      d.arb.now = v ∧ d.arb.commit = none ∧ d.objs = s.dev.objs ∧ d.chans = s.dev.chans ∧
      (∀ x, s.dev.arb.units = [x] → x.waiters ≠ [] → (∀ g ∈ x.grants, g.drop = none) → ∃ y, d.arb.units = [y] ∧ y.unit = x.unit ∧ y.grants = x.grants ∧
        y.waiters.map (fun w => (w.id, w.deadline, w.entry, w.passed)) = x.waiters.map (fun w => (w.id, w.deadline, w.entry, 0))))

/-- O46. Requests (R329 to R332) and SDO (R325, R326, R334, R335). The place of a new initiate, INIT and the layout of SDO Information are log 74, its fragments log 163, requests held by a link log 161. -/
def Obligations.ObjectRequests : Prop :=
  ∀ (s : Sys2Proof.Machine.State), Live s →
    let sent (m : Mail) (d : Dev) : Dev := { d with portN := if d.portN.sm1 = none then { d.portN with sm1 := some m } else
      { d.portN with mails := d.portN.mails ++ [m] } }
    let with_ (x : Option Sdo) (d : Dev) : Dev := { d with portN := { d.portN with sdo := x } }
    let aborts (index sub code : Nat) : Dev := sent (.abort index sub code) (setAnswer .n (.refused code) (with_ none s.dev))
    let answers (l : List Byte) (d : Dev) : Dev := sent (.sdo l) (setAnswer .n (.done l) d)
    let reached (index : Nat) : Prop := dieReachable s.dev (objDie index) = true
    let refusedBy (p : Port) (index sub : Nat) (data : List Byte) (code : Nat) : Prop :=
      (rowsAt index = [] ∧ code = 0x06020000) ∨ nameOf p index sub = .missing code ∨ (∃ k, nameOf p index sub = .count k ∧ code = 0x06010002) ∨
      ∃ r, nameOf p index sub = .row r ∧
        ((r.acc = .ro ∧ code = 0x06010002) ∨ (r.acc ≠ .ro ∧ rightOf r p = .read ∧ code = 0x0F100001) ∨
         (mayWrite r p = .ok ∧ lengthOk r data.length = false ∧ code = 0x06070010) ∨
         (mayWrite r p = .ok ∧ lengthOk r data.length = true ∧ ¬ reached index ∧ code = 0x0F100002) ∨
         (mayWrite r p = .ok ∧ lengthOk r data.length = true ∧ reached index ∧ r.acc ≠ .rk ∧ valueCheck r index sub data = .abort code))
    let plain : List Row := [oCmpInterval, oSlateOnSplit, oEmcyMask, oFwTrialS]
    let fits (row : Row) (p : Port) (data : List Byte) : Prop := rightOf row p = .full ∧ data.length = row.size ∧ limitCheck row (ofBytes data) = .ok
    let mail : Prop := s.dev.control.running = true ∧ s.dev.portN.al ≠ .init
    let free (p : Port) : Prop := portHolds s.dev p = none
    let heldOn (p : Port) (index : Nat) (k : Die) : Prop := portHolds s.dev p = some k ∨
      (free p ∧ objDie index = k.val + 1 ∧ (s.dev.dies[k]).link.st = .retraining)
    let writes (c : Instr) (index sub : Nat) (data : List Byte) : Prop :=
      (∀ code, refusedBy .n index sub data code → Completes c s (aborts index sub code)) ∧
      (free .n → ∀ row ∈ plain, index = row.ix → sub = row.sub → fits row .n data → Completes c s (answers [] (wr (with_ none s.dev) row (ofBytes data) [])))
    (∀ (p : Port) (index : BitVec 16) (sub : Byte) (data : List Byte),
      let c := Instr.objectWrite p index sub data
      (serves s.dev p = false → Completes c s (setAnswer p .unanswered s.dev)) ∧
      (serves s.dev p = true → portShut s.nv s.dev p = true → Completes c s (setAnswer p (.refused 0x0F100001) s.dev)) ∧
      (serves s.dev p = true → portShut s.nv s.dev p = false →
        (∀ code, refusedBy p index.toNat sub.toNat data code → Completes c s (setAnswer p (.refused code) s.dev)) ∧
        (∀ k r, heldOn p index.toNat k → nameOf p index.toNat sub.toNat = .row r → r.acc ≠ .rk →
          (writeObj s.nv p index.toNat sub.toNat data s.dev).1 = .ok → Completes c s (holdRequest k p (.write false false index.toNat sub.toNat data) s.dev)) ∧
        (free p → ∀ row ∈ plain, index.toNat = row.ix → sub.toNat = row.sub → fits row p data → Completes c s (done p (wr s.dev row (ofBytes data) []))))) ∧
    (∀ (index : BitVec 16) (sub : Byte) (complete : Bool) (total : Nat) (data : List Byte),
      let c := Instr.sdoDownload index sub complete total data
      (¬ mail → Completes c s (setAnswer .n .unanswered s.dev)) ∧
      (mail → data.length < total →
        Completes c s (answers [] (with_ (some ⟨index.toNat, sub.toNat, complete, false, data, total, false, s.dev.now, none⟩) s.dev))) ∧
      (mail → total < data.length → Completes c s (aborts index.toNat sub.toNat 0x06070010)) ∧
      (mail → data.length = total → complete = false → writes c index.toNat sub.toNat data) ∧
      (mail → free .n → data.length = total → complete = true → index.toNat = 0x2302 → sub.toNat = 1 → data.length ≤ 15 → (∀ b ∈ data, b.toNat < 16) →
        ∃ d, Completes c s (answers [] d) ∧ d = { with_ none s.dev with objs := d.objs } ∧ ∀ j, rdJ d oPrio [] j =
          (match data[j]? with
            | some b => b.toNat
            | none => rdJ s.dev oPrio [] j)) ∧
      (mail → data.length = total → complete = true → rowsAt index.toNat ≠ [] → (1 < sub.toNat ∨ noWholeWrite index.toNat = true) →
        Completes c s (aborts index.toNat sub.toNat 0x06010000))) ∧
    (∀ (index : BitVec 16) (sub : Byte) (complete : Bool),
      let c := Instr.sdoUpload index sub complete
      let i := index.toNat
      let given (l : List Byte) : Prop :=
        (l.length ≤ 1008 → Completes c s (answers l (with_ none s.dev))) ∧
        (1008 < l.length →
          Completes c s (answers (l.take 1008) (with_ (some ⟨i, sub.toNat, complete, true, l.drop 1008, l.length, false, s.dev.now, none⟩) s.dev)))
      (¬ mail → Completes c s (setAnswer .n .unanswered s.dev)) ∧
      (mail → complete = false →
        (∀ code, nameOf .n i sub.toNat = .missing code → Completes c s (aborts i sub.toNat code)) ∧
        (free .n → ∀ k, nameOf .n i sub.toNat = .count k → (objDie i = 0 ∨ 6 < objDie i ∨ (s.dev.dies[dieNo (objDie i)]).link.st ≠ .retraining) → given [BitVec.ofNat 8 k]) ∧
        (∀ r, nameOf .n i sub.toNat = .row r → ¬ reached i → Completes c s (aborts i sub.toNat 0x0F100002)) ∧
        (∀ k r, heldOn .n i k → nameOf .n i sub.toNat = .row r → reached i → rowIs r oRecord = false → rowIs r oSlateRead = false →
          rowIs r oQueueDrain = false → rowIs r oCtrlQueueDrain = false → Completes c s (holdRequest k .n (.read true false i sub.toNat) (with_ none s.dev))) ∧
        (∀ r, nameOf .n i sub.toNat = .row r → reached i → (∀ k, ¬ heldOn .n i k) → rowIs r oQueueDrain = false → rowIs r oCtrlQueueDrain = false → rowIs r oRecord = false →
          rowIs r oSlateRead = false → given (view s.nv s.dev .n r i sub.toNat))) ∧
      (mail → complete = true → rowsAt i ≠ [] →
        ((1 < sub.toNat ∨ ∃ r ∈ rowsAt i, r.size = 0) → Completes c s (aborts i sub.toNat 0x06010000)) ∧
        (sub.toNat = 1 → (∀ r ∈ rowsAt i, r.size ≠ 0 ∧ rightOf r .n ≠ .none) → reached i → (∀ k, ¬ heldOn .n i k) →
          given ((subsOf i).flatMap fun e => (view s.nv s.dev .n e.2 i e.1 ++ List.replicate e.2.size 0).take e.2.size)))) ∧
    (∀ (toggle last : Bool) (data : List Byte),
      let c := Instr.sdoSegment toggle last data
      (¬ mail → Completes c s (setAnswer .n .unanswered s.dev)) ∧
      (mail → s.dev.portN.sdo = none → Completes c s (aborts 0 0 0x05040001)) ∧
      (∀ x, mail → s.dev.portN.sdo = some x →
        let l := x.data ++ data
        let full : Prop := s.dev.supply.warning = true ∧ 65536 < l.length ∧ x.index = 0x2724 ∧ x.sub = 1
        (toggle ≠ x.toggle → Completes c s (aborts x.index x.sub 0x05030000)) ∧
        (toggle = x.toggle → x.upload = true → x.data.length ≤ 1015 → Completes c s (answers x.data (with_ none s.dev))) ∧
        (toggle = x.toggle → x.upload = true → 1015 < x.data.length → Completes c s (answers (x.data.take 1015)
          (with_ (some { x with data := x.data.drop 1015, toggle := !toggle, at_ := s.dev.now }) s.dev))) ∧
        (toggle = x.toggle → x.upload = false → full →
          Completes c s (with_ (some { x with data := l, toggle := !toggle, at_ := s.dev.now, waits := some last }) s.dev)) ∧
        (toggle = x.toggle → x.upload = false → last = false → ¬ full →
          Completes c s (answers [] (with_ (some { x with data := l, toggle := !toggle, at_ := s.dev.now, waits := none }) s.dev))) ∧
        (toggle = x.toggle → x.upload = false → last = true → ¬ full → l.length ≠ x.total → Completes c s (aborts x.index x.sub 0x06070010)) ∧
        (toggle = x.toggle → x.upload = false → last = true → ¬ full → l.length = x.total → x.complete = false →
          writes c x.index x.sub l))) ∧
    (s.dev.portN.sdo = none → Completes .sdoSegmentTimeout s s.dev) ∧
    (∀ x, s.dev.portN.sdo = some x → x.waits.isSome = true → Completes .sdoSegmentTimeout s s.dev) ∧
    (∀ x, s.dev.portN.sdo = some x → x.waits = none → Completes .sdoSegmentTimeout s
      (sent (.abort x.index x.sub 0x05040000) (setAnswer .n (.refused 0x05040000) (with_ none (advance (x.at_ + 245760000) s.dev))))) ∧
    Completes .sdoAbortByMaster s (with_ none s.dev) ∧
    (∀ (q : SdoInfo),
      let c := Instr.sdoInformation q
      let tells (l : List Byte) : Prop := Completes c s ((infoMails ((l.length - 1) / 1012) l).foldl (fun d m => sent m d) (setAnswer .n (.done l) s.dev))
      let refuses (i sub code : Nat) : Prop := Completes c s (sent (.abort i sub code) (setAnswer .n (.refused code) s.dev))
      (¬ mail → Completes c s (setAnswer .n .unanswered s.dev)) ∧
      (mail → q = .odList → ∃ l : List Nat, tells (l.flatMap (leBytes 2)) ∧ ∀ i ∈ l, ∃ r ∈ rowsEvery, rightOf r .n ≠ .none ∧ ∃ o ∈ dimsAll r.dims, i = r.ix + o) ∧
      (∀ i sub, mail → q = .entry i sub →
        (∀ code, nameOf .n i.toNat sub.toNat = .missing code → refuses i.toNat sub.toNat code) ∧
        (∀ r, nameOf .n i.toNat sub.toNat = .row r → ∃ access, tells (leBytes 2 i.toNat ++ leBytes 1 sub.toNat ++ leBytes 2 r.code ++
            leBytes 2 (8 * r.size) ++ leBytes 2 access) ∧
          (rightOf r .n = .full → r.acc = .rk → access = 63) ∧ (rightOf r .n = .read → access = 7))) ∧
      (∀ i, mail → q = .object i → (rowsAt i.toNat = [] → refuses i.toNat 0 0x06020000) ∧
        (∀ r, rowsAt i.toNat = [r] → rightOf r .n ≠ .none → tells (leBytes 2 i.toNat ++ leBytes 2 r.code ++
          leBytes 1 (r.sub + r.subs.1 * (r.subs.2 - 1)))))) ∧
    (∀ l : List Byte, l.length ≤ 1012 → infoMails ((l.length - 1) / 1012) l = [.info 0 l]) ∧
    (∀ (k : Nat) (l : List Byte), infoMails (k + 1) l = .info (k + 1) (l.take 1012) :: infoMails k (l.drop 1012))

/-- O47. Port N (R325, R327, R328, R342, R345). Codes the manual leaves to the protocol, 0x0011 and the FoE errors, are a choice of the model (logs 75 and 77), as is the SII alias at word 4 (log 75); the watchdog bit and what the entry to OP discards are log 76, the images that leave with OP log 141. -/
def Obligations.PortNStates : Prop :=
  ∀ (s : Sys2Proof.Machine.State), Live s →
    let x := s.dev.portN
    let sent (m : Mail) (y : PortN) : PortN := if y.sm1 = none then { y with sm1 := some m } else { y with mails := y.mails ++ [m] }
    let becomes (c : Instr) (y : PortN) : Prop := Completes c s { s.dev with portN := y }
    let mail : Prop := s.dev.control.running = true ∧ x.al ≠ .init
    let code : AlState → Nat := fun a => match a with
      | .init => 1 | .preop => 2 | .safeop => 4 | .op => 8
    let kept (d : Dev) : Prop := d.now = s.dev.now ∧ d.chans = s.dev.chans ∧ d.arb = s.dev.arb ∧ d.ports = s.dev.ports ∧ d.ctrlQueues = s.dev.ctrlQueues ∧
      d.ledger = s.dev.ledger ∧ d.portN.rx = x.rx ∧ d.portN.alias_ = x.alias_
    let entered (r : AlReq) (a : AlState) : Prop := ∃ d, Completes (.alStateRequest r) s d ∧ kept d ∧ d.portN.al = a ∧ d.portN.alCode = 0 ∧
      d.portN.alError = false ∧ objsKept [keyOf oIrqStatus [] 0] s.dev d ∧
      (x.al = a → d.events = s.dev.events) ∧
      (x.al ≠ a → ∃ e, d.events = (e :: s.dev.events).take 64 ∧ e.code = 7 ∧ e.arg0 = code a ∧ e.arg1 = 0 ∧ e.seq = s.dev.eventSeq) ∧
      (a = .init → d.portN.sdo = none ∧ d.portN.foe = none ∧ d.portN.sm1 = none ∧ d.portN.mails = []) ∧
      (a ≠ .init → d.portN.sdo = x.sdo ∧ d.portN.sm1 = x.sm1 ∧ d.portN.mails = x.mails) ∧
      (x.al = .op → a ≠ .op → d.portN.fresh = []) ∧ (x.al = .op → a = .op → d.portN.fresh = x.fresh) ∧ d.portN.owed = x.owed ∧
      (a = .op → d.portN.watchdog = false ∧ (x.al ≠ .op → d.portN.seqs = []))
    let refused (r : AlReq) (k : Nat) : Prop := becomes (.alStateRequest r) { x with alCode := k, alError := true }
    (s.dev.control.running = false → ∀ r, Completes (.alStateRequest r) s s.dev) ∧
    (s.dev.control.running = true →
      refused .boot 0x0013 ∧ entered .init .init ∧ entered .preop .preop ∧
      (x.al = .init → refused .safeop 0x0011 ∧ refused .op 0x0011) ∧
      (x.al = .preop → refused .op 0x0011 ∧
        (mappingsOk s.dev true = false → refused .safeop 0x001D) ∧
        (mappingsOk s.dev true = true → mappingsOk s.dev false = false → refused .safeop 0x001E) ∧
        (mappingsOk s.dev true = true → mappingsOk s.dev false = true →
          let sync := rd s.dev oOutSyncType []
          (2 < sync → refused .safeop 0x0030) ∧
          (sync = 0 → (rd s.dev oInCycle [] < 125000 ∨ 100000000 < rd s.dev oInCycle []) → refused .safeop 0x0035) ∧
          (sync = 2 → rd s.dev oInShift [] + 30000 < rd s.dev oOutCycle [] →
            (rd s.dev oOutCycle [] < 125000 ∨ 100000000 < rd s.dev oOutCycle [] ∨ rd s.dev oOutCycle [] % 1000 ≠ 0) → refused .safeop 0x0035) ∧
          (sync = 1 → entered .safeop .safeop) ∧
          (sync = 2 → rd s.dev oInShift [] + 30000 < rd s.dev oOutCycle [] → 125000 ≤ rd s.dev oOutCycle [] → rd s.dev oOutCycle [] ≤ 100000000 →
            rd s.dev oOutCycle [] % 1000 = 0 → entered .safeop .safeop) ∧
          (sync = 0 → 125000 ≤ rd s.dev oInCycle [] → rd s.dev oInCycle [] ≤ 100000000 → entered .safeop .safeop))) ∧
      ((x.al = .safeop ∨ x.al = .op) → entered .safeop .safeop ∧ entered .op .op)) ∧
    (∀ port : Fin 2, becomes (.ethercatLinkLoss port) (if port = 0 then { x with link0 := false } else { x with link1 := false }) ∧
      becomes (.miiPortLinkUp port) (if port = 0 then { x with link0 := true } else { x with link1 := true })) ∧
    (∀ (word : Nat) (v : BitVec 16), (word = 4 → becomes (.siiStationAliasWrite word v) { x with alias_ := v.toNat }) ∧
      (word ≠ 4 → Completes (.siiStationAliasWrite word v) s s.dev)) ∧
    (∀ word, siiWord s.dev word = if word = 4 then x.alias_ else (Config.siiContent word).toNat) ∧
    ((x.al ≠ .op ∨ s.dev.control.running = false) → Completes .sm2WatchdogExpiry s s.dev) ∧
    (x.al = .op → s.dev.control.running = true → ∃ d, Completes .sm2WatchdogExpiry s d ∧ kept d ∧ d.portN.al = .safeop ∧ d.portN.alCode = 0x001B ∧
      d.portN.alError = true ∧ d.portN.watchdog = true ∧ d.portN.fresh = [] ∧ d.portN.owed = x.owed ++ x.fresh.map (fun n => (n, rxImage s.dev n)) ∧ bitOf (rd d oFaultLatch []) 3 = true ∧
      rd d oWatchdogExpiries [] = min (2 ^ 32 - 1) (rd s.dev oWatchdogExpiries [] + 1) ∧
      ∃ e f l, d.events = e :: f :: l ∧ e.code = 7 ∧ e.arg0 = 4 ∧ e.arg1 = 0x001B ∧ f.code = 6) ∧
    becomes .mailboxSm1Read { x with sm1 := x.mails.head?, mails := x.mails.tail } ∧
    (∀ t : MailboxType,
      (mail → becomes .foeRead (sent (.foeError 0x8004) x) ∧ becomes (.unsupportedMailbox t) (sent .mailboxError x)) ∧
      (¬ mail → Completes .foeRead s (setAnswer .n .unanswered s.dev) ∧ Completes (.unsupportedMailbox t) s (setAnswer .n .unanswered s.dev))) ∧
    ((x.raised = [] ∨ s.dev.control.running = false) → Completes .emergencySend s s.dev) ∧
    (∀ bit arg t, ∀ rest, x.raised = (bit, arg, t) :: rest → s.dev.control.running = true →
      let y := { x with raised := rest }
      let recent : Prop := ∃ t, (bit, t) ∈ x.emcyAt ∧ s.dev.now < t + 2457600
      let waiting := (x.mails.filter isEmergency).length
      ((x.al = .init ∨ recent) → becomes .emergencySend y) ∧
      (x.al ≠ .init → ¬ recent → 8 ≤ waiting → ∃ d, Completes .emergencySend s d ∧ d.portN = y ∧
        rd d oEmcyLost [] = min (2 ^ 32 - 1) (rd s.dev oEmcyLost [] + 1) ∧ bitOf (rd d oFaultLatch []) 4 = true ∧
        objsKept [keyOf oEmcyLost [] 0, keyOf oFaultLatch [] 0] s.dev d ∧ kept d) ∧
      (x.al ≠ .init → ¬ recent → waiting < 8 → ∀ e l, s.dev.events = e :: l → ∃ z, becomes .emergencySend (sent (.emergency
          ([0x00, 0xFF, 0x80, BitVec.ofNat 8 bit, BitVec.ofNat 8 arg] ++ leBytes 3 e.seq)) z) ∧ z = { y with emcyAt := z.emcyAt } ∧
        (bit, s.dev.now) ∈ z.emcyAt ∧ ∀ b t, b ≠ bit → ((b, t) ∈ z.emcyAt ↔ (b, t) ∈ x.emcyAt)))

/-- O48. Process data (R169, R336 to R340). Unmapped subindices that keep their value and the image of an object not assigned are log 148; a repeat tested before the lost link is log 76. -/
def Obligations.ProcessData : Prop :=
  ∀ (s : Sys2Proof.Machine.State) (n : Ch), Live s →
    let x := s.dev.portN
    (∀ (images : List (Ch × RxImage)) (new : Bool),
      let c := Instr.rxpdoLatch images new
      let carried (m : Ch) : Prop := 0x1600 + m.val ∈ assigned s.dev true
      (x.al ≠ .safeop → x.al ≠ .op → Completes c s s.dev) ∧
      ((x.al = .safeop ∨ x.al = .op) → new = true → ∃ y, Completes c s { s.dev with portN := y } ∧ y = { x with rx := y.rx, fresh := y.fresh } ∧
        (∀ d m, d = { s.dev with portN := y } → ((∀ e ∈ images, e.1 ≠ m) ∨ ¬ carried m) → rxImage d m = rxImage s.dev m) ∧
        (∀ d e rest, d = { s.dev with portN := y } → images = e :: rest → carried e.1 →
          let im := rxImage d e.1
          let old := rxImage s.dev e.1
          let mapped (j : Nat) : Prop := ∃ m ∈ mapEntries s.dev (0x1600 + e.1.val), m / 256 = (0x7000 + 0x10 * e.1.val) * 256 + j
          (mapped 1 → im.ctrl = e.2.ctrl) ∧ (¬ mapped 1 → im.ctrl = old.ctrl) ∧ (mapped 2 → im.srcCode = e.2.srcCode) ∧
          (¬ mapped 2 → im.srcCode = old.srcCode) ∧ (mapped 3 → im.loopSp = e.2.loopSp) ∧ (¬ mapped 3 → im.loopSp = old.loopSp) ∧
          (mapped 4 → im.cutArg = e.2.cutArg) ∧ (¬ mapped 4 → im.cutArg = old.cutArg) ∧ (mapped 5 → im.qCount = e.2.qCount) ∧
          (¬ mapped 5 → im.qCount = old.qCount) ∧ ((∀ k, k < 8 → mapped (6 + k)) → im.qCodes = e.2.qCodes)) ∧
        (x.al = .op → ∀ m, m ∈ y.fresh ↔ m ∈ x.fresh ∨ (carried m ∧ ∃ e ∈ images, e.1 = m)) ∧ (x.al = .safeop → y.fresh = x.fresh)) ∧
      ((x.al = .safeop ∨ x.al = .op) → new = false →
        (rd s.dev oOutSyncType [] ≠ 2 → Completes c s s.dev) ∧
        (rd s.dev oOutSyncType [] = 2 → ∃ d, Completes c s d ∧ d = { s.dev with objs := d.objs } ∧ objsKept [keyOf oSmEventMissed [] 0] s.dev d ∧
          rd d oSmEventMissed [] = min (2 ^ 16 - 1) (rd s.dev oSmEventMissed [] + 1)))) ∧
    (let waits (im : RxImage) : Prop := x.owed.find? (fun e => e.1 == n) = some (n, im) ∨
      ((∀ e ∈ x.owed, e.1 ≠ n) ∧ x.al = .op ∧ n ∈ x.fresh ∧ im = rxImage s.dev n)
    ((s.dev.control.running = false ∨ ∀ im, ¬ waits im) → Completes (.rxpdoAct n) s s.dev) ∧
    ∀ im, s.dev.control.running = true → waits im →
      let seq : BitVec 4 := BitVec.ofNat 4 (im.ctrl.toNat / 16)
      let codes := (im.qCodes.take im.qCount.toNat).map BitVec.toInt
      let room := srcQueueDepth - (s.dev.ch n).src.queue.length
      let counted (d : Dev) (row : Row) (places : List Nat) (k : Nat) : Prop := rd s.dev row places < 2 ^ 32 → rd d row places = min (2 ^ 32 - 1) (rd s.dev row places + k)
      let taken (d : Dev) : Prop := d.now = s.dev.now ∧
        ((∀ e ∈ x.owed, e.1 ≠ n) → d.portN.fresh = x.fresh.filter (fun m => m != n) ∧ d.portN.owed = x.owed) ∧
        ((∃ e ∈ x.owed, e.1 = n) → d.portN.fresh = x.fresh ∧ d.portN.owed = x.owed.eraseP fun e => e.1 == n) ∧ ∀ k, k ≠ n → d.ch k = s.dev.ch k
      ((n, seq) ∈ x.seqs → ∃ d, Completes (.rxpdoAct n) s d ∧ taken d ∧ d.chans = s.dev.chans ∧ d.portN.seqs = x.seqs ∧ counted d oRxRepeats [] 1 ∧
        objsKept [keyOf oRxRepeats [] 0] s.dev d) ∧
      ((n, seq) ∉ x.seqs → dieReachable s.dev (n.die.val + 1) = false → ∃ d, Completes (.rxpdoAct n) s d ∧ taken d ∧ d.chans = s.dev.chans ∧
        d.portN.seqs = x.seqs ∧ counted d oRxRejects [] 1 ∧ objsKept [keyOf oRxRejects [] 0] s.dev d) ∧
      ((n, seq) ∉ x.seqs → (s.dev.dies[n.die]).link.st = .retraining → ∃ d, Completes (.rxpdoAct n) s d ∧ taken d ∧ d.chans = s.dev.chans ∧
        (n, seq) ∈ d.portN.seqs ∧ d.objs = s.dev.objs ∧ (d.dies[n.die]).link.held = (s.dev.dies[n.die]).link.held ++ [.rx n im]) ∧
      ((n, seq) ∉ x.seqs → (s.dev.dies[n.die]).link.st = .active → ∃ d, Completes (.rxpdoAct n) s d ∧ taken d ∧ (n, seq) ∈ d.portN.seqs ∧
        rd d oSrcCode [n] = (if bitOf im.ctrl.toNat 0 = true then im.srcCode.toNat else rd s.dev oSrcCode [n]) ∧
        rd d oLoopSp [n] = (if bitOf im.ctrl.toNat 1 = true then im.loopSp.toNat else rd s.dev oLoopSp [n]) ∧
        (8 < im.qCount.toNat → (d.ch n).src = (s.dev.ch n).src ∧ counted d oRxRejects [] 1) ∧
        (im.qCount.toNat ≤ 8 → rd s.dev oSrcQOwner [n] ≠ 0 → (d.ch n).src = (s.dev.ch n).src ∧ counted d oRxRejects [] im.qCount.toNat) ∧
        (im.qCount.toNat ≤ 8 → rd s.dev oSrcQOwner [n] = 0 → (s.dev.ch n).src.queue.length ≤ srcQueueDepth →
          (d.ch n).src.queue = (s.dev.ch n).src.queue ++ (codes.take room).map (codeEntry none) ∧ counted d oRxRejects [] 0 ∧
          counted d oOverflows [n] (codes.length - room)) ∧
        (bitOf im.ctrl.toNat 2 = false → (d.ch n).seq = (s.dev.ch n).seq) ∧
        (bitOf im.ctrl.toNat 2 = true → ((s.dev.ch n).seq.st = .stopped ∨ bitOf (rd s.dev oCutSrc [n]) 4 = false) →
          (d.ch n).seq = (s.dev.ch n).seq ∧ counted d oCutsDropped [n] 1))) ∧
    (¬ ((x.al = .safeop ∨ x.al = .op) ∧ s.dev.control.running = true) → Completes .txpdoInputLoad s s.dev) ∧
    ((x.al = .safeop ∨ x.al = .op) → s.dev.control.running = true →
      (assigned s.dev false = [0x1A18] → ∃ d, Completes .txpdoInputLoad s d ∧ d = { s.dev with objs := d.objs } ∧ rd d oPdoReelNow [] = ctlPos s.dev ∧
        ∀ m : Ch, rdJ d oPdoQFill [] m = (s.dev.ch m).src.queue.length % 65536) ∧
      (assigned s.dev false = [0x1A00 + n.val] → (s.dev.dies[n.die]).link.st = .active → (∀ k, k < 8 → k ≠ 0 → rdJ s.dev oHeadMap [n] k = 0xFFFF) →
        let latest (d : Dev) : Prop := rd d oVmTake [n] = rd s.dev oVmLatest [n] % 2 ^ 64 ∧ rd d oVmPos [n] = rd s.dev oVmLatestPos [n] % 2 ^ 64 ∧
          rd d oImTake [n] = rd s.dev oImLatest [n] % 2 ^ 64 ∧ rd d oImPos [n] = rd s.dev oImLatestPos [n] % 2 ^ 64 ∧ ∀ m, m ≠ n → d.ch m = s.dev.ch m
        (rdJ s.dev oHeadMap [n] 0 = 0xFFFF → ∃ d, Completes .txpdoInputLoad s d ∧ latest d ∧ d.chans = s.dev.chans ∧
          (headImage d n).2 = 0) ∧
        (∀ q r t, rdJ s.dev oHeadMap [n] 0 = 512 * n.val + q → 1 ≤ q → q < 512 → (qFind (s.dev.ch n).queues q).recs = r :: t → r.length ≤ 8 →
          ∃ d, Completes .txpdoInputLoad s d ∧ latest d ∧ (qFind (d.ch n).queues q).recs = t ∧ (headImage d n).1.take r.length = r ∧
            ∀ k, bitOf (headImage d n).2 k = true ↔ k < r.length))) ∧
    (∀ (sub : Byte) (v : BitVec 32), serves s.dev .n = true → portHolds s.dev .n = none → 1 ≤ sub.toNat → sub.toNat ≤ 13 →
      let index := 0x1600 + n.val
      let c := Instr.pdoMappingWrite (BitVec.ofNat 16 index) sub v
      let t := wrJ s.dev oRxMap v.toNat [n] (sub.toNat - 1)
      let good : Prop := (v.toNat / 2 ^ 8 = 0 ∧ v.toNat % 8 = 0) ∨
        (v.toNat / 2 ^ 16 = 0x7000 + 0x10 * n.val ∧ ∃ r, rowOf (v.toNat / 2 ^ 16) (v.toNat / 2 ^ 8 % 2 ^ 8) = some r ∧ 8 * r.size = v.toNat % 2 ^ 8)
      (x.al ≠ .preop → Completes c s (setAnswer .n (.refused 0x08000022) s.dev)) ∧
      (x.al = .preop → ¬ good → Completes c s (setAnswer .n (.refused 0x06040041) s.dev)) ∧
      (x.al = .preop → good → (2048 < mappedBytes t true ∨ 6144 < mappedBytes t false) → Completes c s (setAnswer .n (.refused 0x06040042) s.dev)) ∧
      (x.al = .preop → good → mappedBytes t true ≤ 2048 → mappedBytes t false ≤ 6144 → Completes c s (done .n t))) ∧
    (∀ (sub : Byte) (v : BitVec 32), serves s.dev .n = true → x.al = .preop → 1 ≤ sub.toNat → sub.toNat ≤ 24 → 0x1A00 ≤ v.toNat → v.toNat ≤ 0x1A18 →
      Completes (.pdoMappingWrite 0x1C12 sub v) s (setAnswer .n (.refused 0x06040043) s.dev)) ∧
    (∀ (sub : Byte) (v : BitVec 32), serves s.dev .n = true → 1 ≤ sub.toNat → sub.toNat ≤ 24 → v.toNat < 2 ^ 16 → v.toNat ≠ 0 →
      ¬ (0x1600 ≤ v.toNat ∧ v.toNat < 0x1618) → ¬ (0x1A00 ≤ v.toNat ∧ v.toNat ≤ 0x1A18) →
      Completes (.pdoMappingWrite 0x1C12 sub v) s (setAnswer .n (.refused 0x0F100003) s.dev))

/-- O49. Frames of Ports S and C (R350, R351, R353); OBJ_ACCESS of Port D takes the same frames. That a READ or DRAIN frame carries no data although LEN is not 0 is log 44; STATUS 2 at once with the TAG received log 56, a DRAIN LEN outside 1 to 512 log 57, a DOMAIN segment out of sequence log 58, DRAIN by Port D log 59, closed ports and the seal as of the frame end log 60, a segment that waits for the buffer log 146, a frame whose byte 0 is no OP log 165, one that waits for a link log 161. -/
def Obligations.PartnerFrames : Prop :=
  ∀ (s : Sys2Proof.Machine.State) (p : Port), Live s →
    let y := s.dev.ports[p.idx]
    let busy : Prop := y.busy.isSome = true ∨ s.dev.control.running = false
    let status : Byte := BitVec.ofNat 8 (flagAt y.response.isSome 0 + flagAt (irqLow s.dev) 1 + flagAt (y.busy.isSome || !s.dev.control.running) 2)
    let up (v : Nat) (b : Bool) : Nat := if b = true then min (2 ^ 32 - 1) (v + 1) else v
    let port (z : PortState) (drop bad : Bool) (d : Dev) : Prop :=
      d = { s.dev with ports := s.dev.ports.set p.idx z, objs := d.objs } ∧
      objsKept [keyOf oSDrops [] 0, keyOf oCDrops [] 0, keyOf oSFrameErrors [] 0, keyOf oCFrameErrors [] 0] s.dev d ∧
      rd d oSDrops [] = up (rd s.dev oSDrops []) (drop && decide (p = .s)) ∧ rd d oCDrops [] = up (rd s.dev oCDrops []) (drop && decide (p = .c)) ∧
      rd d oSFrameErrors [] = up (rd s.dev oSFrameErrors []) (bad && decide (p = .s)) ∧
      rd d oCFrameErrors [] = up (rd s.dev oCFrameErrors []) (bad && decide (p = .c))
    let arrives (c : Instr) (opcode : Nat) (f : Frame) : Prop :=
      let op : Nat := match f.byte0 with | some b => b.toNat | none => opcode
      let bytes : List Byte := leBytes 1 op ++ [f.tag] ++ leBytes 2 f.index.toNat ++ [f.sub, f.flags] ++ leBytes 2 f.len.toNat ++
        leBytes 4 f.offset.toNat ++ f.data
      let good : Prop := 1 ≤ op ∧ op ≤ 4 ∧ crc16 bytes = f.crc.toNat ∧ f.len.toNat ≤ 4096 ∧
        f.data.length = (if op = 1 ∨ op = 3 then 0 else f.len.toNat)
      (op = 0 → exec c s = exec (.fetch p) s) ∧ (op ≠ 0 →
      (busy → ∃ d, Completes c s d ∧ port { y with shifted := [status] } true false d) ∧
      (¬ busy → good → ∃ d z, Completes c s d ∧ port z y.response.isSome false d ∧
        z = { y with shifted := [status], response := none, busy := some ⟨s.dev.now, op, f, portShut s.nv s.dev p, s.dev.sec.sealOpen⟩ }) ∧
      (¬ busy → ¬ good → ∃ d z, Completes c s d ∧ port z y.response.isSome true d ∧
        z = { y with shifted := [status], response := some ⟨2, f.tag, 0, []⟩ }))
    (∀ f : Frame, arrives (.read p f) 1 f ∧ arrives (.write p f) 2 f ∧ arrives (.drain p f) 3 f ∧ arrives (.cancel p f) 4 f) ∧
    (y.busy = none → Completes (.responseReady p) s s.dev) ∧
    (∀ x, y.busy = some x →
      let f := x.frame
      let i := f.index.toNat
      let j := f.sub.toNat
      let idle : Dev := updPort p (fun z => { z with busy := none }) s.dev
      let sealed : Dev := updSec (fun z => { z with sealOpen := x.sealOpen }) idle
      let answers (st code : Nat) (l : List Byte) (d : Dev) : Prop :=
        Completes (.responseReady p) s (updPort p (fun z => { z with response := some ⟨st, f.tag, code, l⟩ }) d)
      let transfer (t : Option Transfer) : Dev := updPort p (fun z => { z with transfer := t }) idle
      let reached : Prop := dieReachable s.dev (objDie i) = true
      let part : Prop := bitOf f.flags.toNat 1 = false
      let waits (ix : Nat) : Prop := ∃ k : Die, objDie ix = k.val + 1 ∧ (s.dev.dies[k]).link.st = .retraining
      let held : Prop := x.shut = false ∧ ((x.op = 1 ∧ waits i) ∨ (x.op = 2 ∧ stagedRow p i j = false ∧ waits i) ∨
        (x.op = 3 ∧ i < 12288 ∧ waits (0x3000 + 0x100 * (i / 512))))
      (held → Completes (.responseReady p) s s.dev) ∧
      (¬ held →
      (x.shut = true → answers 1 0x0F100001 [] idle) ∧
      (x.shut = false → x.op = 1 → part →
        (∀ code, nameOf p i j = .missing code → answers 1 code [] idle) ∧
        (∀ r, nameOf p i j = .row r → ¬ reached → f.offset.toNat = 0 → answers 1 0x0F100002 [] idle) ∧
        (∀ r, nameOf p i j = .row r → r.size ≠ 0 → reached → answers 0 0 ((view s.nv sealed p r i j).take f.len.toNat) idle) ∧
        (∀ r, nameOf p i j = .row r → r.size = 0 → rowIs r oQueueDrain = false → rowIs r oCtrlQueueDrain = false → rowIs r oRecord = false →
          rowIs r oSlateRead = false → reached →
          (f.offset.toNat = 0 → answers 0 0 ((view s.nv sealed p r i j).take f.len.toNat)
            (updPort p (fun z => { z with copy := some ⟨i, j, view s.nv sealed p r i j⟩ }) idle)) ∧
          (f.offset.toNat ≠ 0 → ∀ c, y.copy = some c → c.index = i → c.sub = j →
            answers 0 0 ((c.data.drop f.offset.toNat).take f.len.toNat) idle))) ∧
      (x.shut = false → x.op = 2 → part →
        (∀ code, nameOf p i j = .missing code → answers 1 code [] idle) ∧
        (∀ r, nameOf p i j = .row r → r.size ≠ 0 →
          (r.acc = .ro → answers 1 0x06010002 [] idle) ∧ (r.acc ≠ .ro → rightOf r p = .read → answers 1 0x0F100001 [] idle) ∧
          (mayWrite r p = .ok → lengthOk r f.data.length = false → answers 1 0x06070010 [] idle) ∧
          (mayWrite r p = .ok → lengthOk r f.data.length = true → ¬ reached → answers 1 0x0F100002 [] idle)) ∧
        (∀ r ∈ [oCmpInterval, oSlateOnSplit, oEmcyMask, oFwTrialS], i = r.ix → j = r.sub → rightOf r p = .full → f.data.length = r.size →
          limitCheck r (ofBytes f.data) = .ok → answers 0 0 [] (wr idle r (ofBytes f.data) [])) ∧
        (∀ r, nameOf p i j = .row r → r.size = 0 → rowIs r oFwUpload = false →
          let old := y.transfer.getD ⟨i, j, []⟩
          let follows : Prop := old.index = i ∧ old.sub = j ∧ old.data.length = f.offset.toNat
          (¬ follows → uploading s.dev p = none → answers 1 0x06070010 [] (transfer none)) ∧
          (follows → bitOf f.flags.toNat 0 = false → answers 0 0 [] (transfer (some ⟨i, j, old.data ++ f.data⟩))) ∧
          (∀ code, follows → bitOf f.flags.toNat 0 = true → mayWrite r p = .abort code → answers 1 code [] (transfer none))) ∧
        (∀ r k, nameOf p i j = .row r → rowIs r oFwUpload = true → uploading s.dev p = some k → s.dev.supply.warning = true →
          65536 + 256 * s.dev.fw.slots[k].pages < s.dev.fw.slots[k].data.length + f.data.length → Completes (.responseReady p) s s.dev)) ∧
      (x.shut = false → x.op = 4 →
        (uploading s.dev p = none → answers 0 0 [] (transfer none)) ∧
        (∀ k, uploading s.dev p = some k → answers 0 0 [] (updImage k (fun m => { m with st := .invalid, cause := 6, data := [], erase := 0 }) (transfer none)))) ∧
      (p = .c → x.shut = false → x.op = 3 → answers 1 0x0F100052 [] idle) ∧
      (∀ n : Ch, p ≠ .c → x.shut = false → x.op = 3 → n.val = i / 512 → dieReachable s.dev (n.die.val + 1) = true →
        let q := qFind (s.dev.ch n).queues (i % 512)
        let owns : Prop := (p = .s ∧ descConsumer q.desc = 1) ∨ (p = .n ∧ descConsumer q.desc = 0) ∨ (p = .d ∧ descConsumer q.desc = 3)
        let asked : Prop := 1 ≤ f.len.toNat ∧ f.len.toNat ≤ 512
        (¬ asked → answers 1 0x0F100003 [] idle) ∧
        (asked → descDepth q.desc = 0 → answers 1 0x0F100050 [] idle) ∧
        (asked → descDepth q.desc ≠ 0 → ¬ owns → answers 1 0x0F100052 [] idle) ∧
        (asked → descDepth q.desc ≠ 0 → owns → ∃ a b, q.recs = a ++ b ∧ (a.map List.length).sum ≤ f.len.toNat ∧
          (∀ r t, b = r :: t → f.len.toNat < (a.map List.length).sum + r.length) ∧
          answers 0 0 (recordBytes8 a) (updCh n (fun c => { c with queues := qPut c.queues (i % 512) { q with recs := b }, evTick := none }) idle)))))

/-- O50. FETCH (R352, Table 12.2); BUSY while the Control die does not run is R350. -/
def Obligations.FetchResponse : Prop :=
  ∀ (s : Sys2Proof.Machine.State) (p : Port), Live s →
    let y := s.dev.ports[p.idx]
    let status : Byte := BitVec.ofNat 8 (flagAt y.response.isSome 0 + flagAt (irqLow s.dev) 1 + flagAt (y.busy.isSome || !s.dev.control.running) 2)
    let fetched (l : List Byte) : Prop := Completes (.fetch p) s
      (updPort p (fun z => { z with shifted := status :: (l ++ leBytes 2 (crc16 l)), response := none }) s.dev)
    (s.dev.control.running = true → ∀ r, y.response = some r →
      fetched (leBytes 1 r.status ++ [r.tag] ++ leBytes 2 r.data.length ++ leBytes 4 r.abort ++ r.data)) ∧
    (s.dev.control.running = true → y.response = none → ∃ tag code, fetched (leBytes 1 3 ++ [tag] ++ leBytes 2 0 ++ leBytes 4 code)) ∧
    (s.dev.control.running = false → Completes (.fetch p) s (updPort p (fun z => { z with shifted := [status] }) s.dev))

/-- O51. Peers (R349, R350, R356, R357). Rounding of half an odd round trip, the answers of a read and of a closed port, and the bound of a chain at hop 15 are choices of the model (logs 51 and 53 to 55). -/
def Obligations.PeerChannel : Prop :=
  ∀ (s : Sys2Proof.Machine.State), Live s →
    let sec := s.dev.sec
    let hop := hopOf s.dev
    let queued (down : Bool) (f : BitVec 128) (d : Dev) : Dev :=
      { d with zh := if down = true then { d.zh with downQ := d.zh.downQ ++ [f] } else { d.zh with upQ := d.zh.upQ ++ [f] } }
    (∀ (p : Port) (v : BitVec 128), Served s p oPeerCmd →
      let target := getField v.toNat 0 8
      let op := getField v.toNat 8 8
      let len := getField v.toNat 16 8
      let excluded : Prop := (op ≠ 1 ∧ op ≠ 2) ∨ len = 0 ∨ 8 < len ∨ getField v.toNat 24 8 ≠ 0 ∨ getField v.toNat 56 8 ≠ 0
      let barred : Prop := sec.peer.isSome = true ∨ hop = 0xFF ∨ target = hop ∨ 15 < target
      ((excluded ∨ barred) → Completes (.peerCmd p v) s (setAnswer p (.refused 0x0F100003) s.dev)) ∧
      (¬ excluded → ¬ barred → hop ≤ 15 → ∃ (f : BitVec 128) (x : Security),
        Completes (.peerCmd p v) s (done p (queued (decide (hop < target)) f { s.dev with sec := x })) ∧
        x = { sec with peer := some ⟨sec.tag % 16, s.dev.now⟩, tag := (sec.tag + 1) % 16, peerReady := false } ∧
        getField f.toNat 0 4 = sec.tag % 16 ∧ getField f.toNat 4 4 = 2 ∧ getField f.toNat 8 4 = hop ∧ getField f.toNat 12 4 = target ∧
        getField f.toNat 16 8 = op ∧ getField f.toNat 24 8 = len ∧ getField f.toNat 32 16 = getField v.toNat 32 16 ∧
        getField f.toNat 48 8 = getField v.toNat 48 8 ∧ getField f.toNat 56 8 = 0 ∧
        getField f.toNat 64 64 = getField v.toNat 64 64 % 2 ^ (8 * len))) ∧
    (∀ (fromUp : Bool) (field : BitVec 128),
      let c := Instr.peerMessageRx fromUp field
      let x := field.toNat
      let kind := getField x 4 4
      let mine : Prop := getField x 12 4 = hop
      let source := getField x 8 4
      let len := getField x 24 8
      let index := getField x 32 16
      let sub := getField x 48 8
      ((kind = 0 ∨ 3 < kind) → Completes c s s.dev) ∧
      (kind = 1 → (fromUp = false ∨ s.dev.cad.src ≠ 3) → Completes c s s.dev) ∧
      (kind = 1 → fromUp = true → s.dev.cad.src = 3 → ∃ (d : Dev) (half : Int), Completes c s d ∧
        d = { s.dev with objs := d.objs, zh := { s.dev.zh with oneWay := half + Config.receiverAsymmetry + toSigned 16 (rd s.dev oAsymTrim []) } } ∧
        objsKept [keyOf oRoundTrip [] 0, keyOf oOneWay [] 0] s.dev d ∧ rd d oRoundTrip [] = getField x 16 32 ∧
        (2 * half = getField x 16 32 ∨ 2 * half = getField x 16 32 + 1 ∨ 2 * half = getField x 16 32 - 1) ∧
        rd d oOneWay [] = ofSigned 32 (half + Config.receiverAsymmetry + toSigned 16 (rd s.dev oAsymTrim []))) ∧
      ((kind = 2 ∨ kind = 3) → ¬ mine → Completes c s (queued fromUp field s.dev)) ∧
      (kind = 2 → mine → s.dev.control.running = false → Completes c s s.dev) ∧
      (kind = 2 → mine → s.dev.control.running = true →
        let tells (st l value : Nat) (e : Dev) : Prop := ∃ f : BitVec 128, Completes c s (queued (decide (hop < source)) f e) ∧
          getField f.toNat 0 4 = getField x 0 4 ∧ getField f.toNat 4 4 = 3 ∧ getField f.toNat 8 4 = hop ∧ getField f.toNat 12 4 = source ∧
          getField f.toNat 16 8 = st ∧ getField f.toNat 24 8 = l ∧ getField f.toNat 32 16 = index ∧ getField f.toNat 48 8 = sub ∧
          getField f.toNat 56 8 = 0 ∧ getField f.toNat 64 64 = value
        let op := getField x 16 8
        let shut : Prop := portShut s.nv s.dev .x = true
        let word : Prop := index = 0x2740 ∧ 1 ≤ sub ∧ sub ≤ 16
        ((len = 0 ∨ 8 < len ∨ (op ≠ 1 ∧ op ≠ 2)) → tells 1 4 0x0F100003 s.dev) ∧
        (1 ≤ len → len ≤ 8 → (op = 1 ∨ op = 2) → shut → tells 1 4 0x0F100001 s.dev) ∧
        (1 ≤ len → len ≤ 8 → (op = 1 ∨ op = 2) → ¬ shut → ∀ code, nameOf .x index sub = .missing code → tells 1 4 code s.dev) ∧
        (1 ≤ len → len ≤ 8 → op = 1 → ¬ shut → word → tells 0 (min len 4) (rdJ s.dev oPeerWord [] (sub - 1) % 2 ^ (8 * min len 4)) s.dev) ∧
        (op = 2 → 1 ≤ len → len ≤ 8 → len ≠ 4 → ¬ shut → word → tells 1 4 0x06070010 s.dev) ∧
        (op = 2 → len = 4 → ¬ shut → word → tells 0 0 0 (wrJ s.dev oPeerWord (getField x 64 32) [] (sub - 1)))) ∧
      (kind = 3 → mine → (∀ q, sec.peer = some q → q.tag ≠ getField x 0 4) → ∃ d, Completes c s d ∧ d = { s.dev with objs := d.objs } ∧
        objsKept [keyOf oPeerErrors [] 0] s.dev d ∧ rd d oPeerErrors [] = min (2 ^ 32 - 1) (rd s.dev oPeerErrors [] + 1)) ∧
      (∀ q, kind = 3 → mine → sec.peer = some q → q.tag = getField x 0 4 → ∃ d, Completes c s d ∧
        d = { s.dev with objs := d.objs, sec := { sec with peer := none, peerReady := true } } ∧ objsKept [keyOf oPeerResp [] 0] s.dev d ∧
        rd d oPeerResp [] = getField x 16 8 + len * 2 ^ 16 +
          (if getField x 16 8 = 1 then getField x 64 32 * 2 ^ 32 else getField x 64 64 * 2 ^ 64))) ∧
    (sec.peer = none → Completes .peerTimeout s s.dev) ∧
    (∀ q, sec.peer = some q → ∃ d, Completes .peerTimeout s d ∧
      d = { s.dev with now := max s.dev.now (q.since + 491520), objs := d.objs, sec := { sec with peer := none, peerReady := true } } ∧
      objsKept [keyOf oPeerResp [] 0] s.dev d ∧ rd d oPeerResp [] = 2)

/-- O52. Port D (R358, R359), fuses (R360) and attestation (R362). What SAMPLE, EXTEST and DEBUG capture is open (log 45); the fall to BYPASS as a fuse is blown is log 61, the frame error of OBJ_ACCESS log 56, opcodes of no instruction log 166. -/
def Obligations.IdentityAndFuses : Prop :=
  ∀ (s : Sys2Proof.Machine.State), Live s →
    let blown (i : Nat) : Prop := bitOf s.nv.fuses i = true
    let selects (op : BitVec 8) (i : TapInstr) (v : Nat) : Dev :=
      { s.dev with free := s.dev.free + 1, sec := { s.dev.sec with ir := op, tap := i, tapData := v } }
    let captured := Config.scanCapture s.dev.free
    Completes .bypass s (selects 0xFF .bypass 0) ∧
    Completes .idcode s (selects 0x01 .idcode (rd s.dev oIdcode [])) ∧
    Completes .trst s { s.dev with sec := { s.dev.sec with ir := 0x01, tap := .idcode, tapData := rd s.dev oIdcode [] } } ∧
    (∀ pattern, (blown 2 → Completes (.samplePreload ⟨pattern, false⟩) s (selects 0x02 .bypass 0)) ∧
      (¬ blown 2 → ∃ x, Completes (.samplePreload ⟨pattern, false⟩) s { s.dev with free := s.dev.free + 1, sec := x } ∧
        x = { s.dev.sec with ir := 0x02, tap := .samplePreload, tapData := captured, boundary := pattern }) ∧
      ((s.dev.sec.tap = .samplePreload ∨ s.dev.sec.tap = .extest) →
        Completes (.samplePreload ⟨pattern, true⟩) s { s.dev with sec := { s.dev.sec with boundary := pattern } }) ∧
      (s.dev.sec.tap ≠ .samplePreload → s.dev.sec.tap ≠ .extest → Completes (.samplePreload ⟨pattern, true⟩) s s.dev)) ∧
    (blown 2 → Completes .extest s (selects 0x03 .bypass 0)) ∧ (¬ blown 2 → Completes .extest s (selects 0x03 .extest captured)) ∧
    (blown 0 → Completes .debug s (selects 0x11 .bypass 0)) ∧ (¬ blown 0 → Completes .debug s (selects 0x11 .debug captured)) ∧
    (∀ op : BitVec 8, tapOf op ≠ .bypass ↔ op ∈ [0x01, 0x02, 0x03, 0x10, 0x11]) ∧
    (∀ (op : BitVec 8) (f : Frame),
      let y := s.dev.ports[Port.d.idx]
      let status : Byte := BitVec.ofNat 8 (flagAt y.response.isSome 0 + flagAt (irqLow s.dev) 1 + flagAt (y.busy.isSome || !s.dev.control.running) 2)
      let port (z : PortState) : Prop := Completes (.objAccess op f) s (updPort .d (fun _ => z) (selects 0x10 .objAccess captured))
      let bytes : List Byte := leBytes 1 op.toNat ++ [f.tag] ++ leBytes 2 f.index.toNat ++ [f.sub, f.flags] ++ leBytes 2 f.len.toNat ++
        leBytes 4 f.offset.toNat ++ f.data
      let good : Prop := op.toNat ≤ 4 ∧ crc16 bytes = f.crc.toNat ∧ f.len.toNat ≤ 4096 ∧
        f.data.length = (if op.toNat = 1 ∨ op.toNat = 3 then 0 else f.len.toNat)
      let busy : Prop := y.busy.isSome = true ∨ s.dev.control.running = false
      (blown 1 → Completes (.objAccess op f) s (selects 0x10 .bypass 0)) ∧
      (¬ blown 1 → op = 0 → s.dev.control.running = true →
        let r := y.response.getD ⟨3, 0, 0, []⟩
        let body : List Byte := leBytes 1 r.status ++ [r.tag] ++ leBytes 2 r.data.length ++ leBytes 4 r.abort ++ r.data
        port { y with shifted := status :: (body ++ leBytes 2 (crc16 body)), response := none }) ∧
      (¬ blown 1 → op = 0 → s.dev.control.running = false → port { y with shifted := [status] }) ∧
      (¬ blown 1 → op ≠ 0 → busy → port { y with shifted := [status] }) ∧
      (¬ blown 1 → op ≠ 0 → ¬ busy → good →
        port { y with shifted := [status], response := none, busy := some ⟨s.dev.now, op.toNat, f, false, s.dev.sec.sealOpen⟩ }) ∧
      (¬ blown 1 → op ≠ 0 → ¬ busy → ¬ good → port { y with shifted := [status], response := some ⟨2, f.tag, 0, []⟩ })) ∧
    (∀ (p : Port) (v : BitVec 32), Served s p oFuseBlow →
      let f := v.toNat % 16
      let good : Prop := v.toNat / 65536 = 0xC105 ∧ getField v.toNat 4 12 = 0 ∧ (bitOf f 3 = true → s.dev.fw.image.key = 1)
      let blows (x : Nat × Nat) : Dev := { s.dev with sec := { s.dev.sec with blowing := some x } }
      (¬ good → Completes (.fuseBlow p v) s (setAnswer p (.refused 0x0F100003) s.dev)) ∧
      (good → s.dev.sec.blowing = none → Completes (.fuseBlow p v) s (done p (blows (f, s.dev.now)))) ∧
      (∀ g t, good → s.dev.sec.blowing = some (g, t) → Completes (.fuseBlow p v) s (done p (blows (g ||| f, t))))) ∧
    (s.dev.sec.blowing = none → Completes .fuseBlowComplete s s.dev) ∧
    (∀ f t, s.dev.sec.blowing = some (f, t) →
      let all := s.nv.fuses ||| f
      let tap := s.dev.sec.tap
      let removed : Prop := (tap = .debug ∧ bitOf all 0 = true) ∨ (tap = .objAccess ∧ bitOf all 1 = true) ∨
        ((tap = .samplePreload ∨ tap = .extest) ∧ bitOf all 2 = true)
      ∃ d, exec .fuseBlowComplete s = .next { s.acts d with nv := { s.nv with fuses := all } } ∧ fusesKept s.nv.fuses all ∧ fusesKept f all ∧
        d.sec.blowing = none ∧ d.objs = s.dev.objs ∧ d.chans = s.dev.chans ∧ d.ports = s.dev.ports ∧
        (removed → d.sec.tap = .bypass ∧ d.sec.tapData = 0) ∧ d.sec.ir = s.dev.sec.ir ∧ (¬ removed → d.sec.tap = tap ∧ d.free = s.dev.free)) ∧
    (∀ (p : Port) (nonce : BitVec 256), Served s p oAttestNonce →
      ∃ d a, Completes (.attestNonce p nonce) s (done p d) ∧ d = { s.dev with objs := d.objs, ports := d.ports } ∧
        objsKept [portKey oAttestNonce p.idx 0 []] s.dev d ∧ rdP d oAttestNonce p [] = nonce.toNat ∧
        (∀ q : Port, q ≠ p → d.ports[q.idx] = s.dev.ports[q.idx]) ∧ d.ports[p.idx] = { s.dev.ports[p.idx] with attest := some a } ∧
        a.since = s.dev.now ∧ a.body.length = 276 ∧
        (let field (i n : Nat) : Nat := ofBytes ((a.body.drop i).take n);
          field 0 2 = 1 ∧ field 2 2 = 390 ∧ field 12 4 = fuseWord s.nv ∧ field 17 1 = s.dev.fw.floor % 2 ^ 8 ∧
          field 20 4 = s.dev.fw.image.version % 2 ^ 32 ∧ field 24 64 = s.dev.fw.image.hash % 2 ^ 512 ∧
          field 152 4 = rd s.dev oFwChBank [] % 2 ^ 32 ∧ field 156 4 = headSeq s.nv % 2 ^ 32 ∧ field 160 64 = headHash s.nv % 2 ^ 512 ∧
          field 236 8 = ctlPos s.dev % 2 ^ 64 ∧ field 244 32 = nonce.toNat)) ∧
    (∀ p : Port, (s.dev.ports[p.idx].attest = none → Completes (.attestReportReady p) s s.dev) ∧
      (∀ a, s.dev.ports[p.idx].attest = some a → ∃ d, Completes (.attestReportReady p) s d ∧
        d = { updPort p (fun x => { x with attest := none }) s.dev with objs := d.objs } ∧ objsKept [portKey oAttestReport p.idx 0 []] s.dev d ∧
        rdP d oAttestReport p [] = ofBytes (a.body ++ leBytes 114 (Config.identitySign a.body)) % 2 ^ 3120))

/-- O53. Firmware (R364, R366 to R370, R400). Requester 0xE047 is SERVICE, instance 64 + 7 (R366). What cycle costs an image carries is open (Config.microcodeCosts). FIRMWARE records of verifications carry no effect position, and those of a fallback name the confirmed image (log 38). FW_CH_LOAD while a bank changes is log 90, the acknowledgement that waits log 146, corners of uploads log 89, the erase log 164. -/
def Obligations.FirmwareImages : Prop :=
  ∀ (s : Sys2Proof.Machine.State), Live s →
    let w := s.dev.fw
    let refused (c : Instr) (p : Port) : Prop := Completes c s (setAnswer p (.refused 0x0F100003) s.dev)
    let target (t : Nat) : Fin 4 := if t = 1 then (if w.running = 0 then 1 else 0) else (if w.boot = 3 then 2 else 3)
    let sectors (i : Fin 4) : Nat := if i.val < 2 then 2048 else 1024
    let fresh (i : Fin 4) (by_ : Nat) (st : SlotState) (data : List Byte) : ImageSlot := ⟨st, 0, 0, 0, 0, 0, none, by_, data, sectors i, 0⟩
    let owed (x : ImageSlot) : Prop := 0 < x.erase ∨ x.pages < pagesReady x
    let upAsks (d : Dev) : Prop := s.dev.arb.units = [] → ∃ q ∈ (sharedOf d 0xA0).waiters, q.id = 0xE047 ∧ q.entry = s.dev.now
    let onlySlot (i : Fin 4) (x : ImageSlot) (d : Dev) : Prop := d = { s.dev with fw := { w with slots := w.slots.set i x }, arb := d.arb, portN := d.portN, ports := d.ports }
    let sent (m : Mail) (x : PortN) : PortN := if x.sm1 = none then { x with sm1 := some m } else { x with mails := x.mails ++ [m] }
    let ack := sent .foeAck s.dev.portN
    let told (d : Dev) (slot event arg version rollback hash : Nat) : Prop := ∃ e ∈ d.ledger.queue, e.type = 3 ∧ e.cause = d.now ∧
      e.payload = leBytes 1 (if slot < 2 then 1 else 2) ++ leBytes 1 (slot % 2) ++ leBytes 1 event ++ leBytes 1 arg ++ leBytes 4 version ++
        leBytes 1 rollback ++ leBytes 3 0 ++ leBytes 64 hash
    let confirmed : ImageSlot := if w.confirmed = 0 then w.slots[0] else w.slots[1]
    let force (k : Die) : Option Bank := if bitOf (rd s.dev oFwChBank []) k.val = true then w.rams[k].bank1 else w.rams[k].bank0
    let loaded : Fin 4 := if w.boot = 3 then 2 else 3
    (∀ (p : Port) (data : List Byte), Served s p oFwUpload →
      let i := target (rdP s.dev oFwUploadTarget p [])
      (w.slots[i].st = .receiving → refused (.fwUpload p data) p) ∧
      (w.slots[i].st ≠ .receiving → uploading s.dev p = none → ¬ (s.dev.supply.warning = true ∧ 65536 < data.length) →
        ∃ d, Completes (.fwUpload p data) s (done p d) ∧ onlySlot i (fresh i p.idx.val .verifying data) d ∧ d.portN = s.dev.portN ∧
        d.ports = s.dev.ports ∧ upAsks d) ∧
      (w.slots[i].st ≠ .receiving → uploading s.dev p = none → s.dev.supply.warning = true → 65536 < data.length →
        ∃ d, Completes (.fwUpload p data) s (setAnswer p .none d) ∧ d = { s.dev with arb := d.arb, fw := { w with
          held := w.held ++ [p], slots := w.slots.set i (fresh i p.idx.val .receiving data) } })) ∧
    (∀ g free, s.dev.arb.units = [⟨0xA0, [g], [], free⟩] → g.id = 0xE047 → g.drop = none →
      (flashWaits s.dev = none → Completes (.unitRelease 14 71 0xA0) s { s.dev with arb := { s.dev.arb with units := [] } }) ∧
      (∀ i x, flashWaits s.dev = some i → x = w.slots[i] → ∃ d, Completes (.unitRelease 14 71 0xA0) s d ∧ holds d 0xE047 0xA0 = false ∧
        d = { s.dev with arb := d.arb, fw := { w with slots := w.slots.set i (if 0 < x.erase then { x with erase := 0 } else { x with pages := min (x.pages + 3) (pagesReady x) }) } })) ∧
    (∀ g q free i, s.dev.arb.units = [⟨0xA0, [g], [q], free⟩] → g.id = 0xE047 → g.drop = none → q.id ≠ 0xE047 → flashWaits s.dev = some i →
      0 < w.slots[i].erase → ∃ d, Completes (.unitRelease 14 71 0xA0) s d ∧ d.fw = w) ∧
    (∀ i, flashWaits s.dev = some i ↔ owed w.slots[i] ∧ ∀ j < i, ¬ owed w.slots[j]) ∧
    (∀ (last : Bool) (data : List Byte),
      let mail : Prop := s.dev.control.running = true ∧ s.dev.portN.al ≠ .init
      let c (t : Option Bool) : Instr := .foeWrite t last data
      (¬ mail → ∀ t, Completes (c t) s (setAnswer .n .unanswered s.dev)) ∧
      (mail → Completes (c none) s { s.dev with portN := sent (.foeError 0x8001) s.dev.portN }) ∧
      (∀ mc, mail → s.dev.portN.foe = none → w.slots[target (if mc = true then 2 else 1)].st = .receiving →
        Completes (c (some mc)) s { s.dev with portN := sent (.foeError 0x8002) s.dev.portN }) ∧
      (∀ mc, mail → s.dev.portN.foe = none → uploading s.dev .n = none →
        let t := if mc = true then 2 else 1
        w.slots[target t].st ≠ .receiving → ¬ (s.dev.supply.warning = true ∧ 65536 < data.length) → ∃ d, Completes (c (some mc)) s d ∧ d.ports = s.dev.ports ∧
          onlySlot (target t) (fresh (target t) 0 (if last = true then .verifying else .receiving) data) d ∧
          d.portN = { ack with foe := if last = true then none else some t, foeWait := false } ∧ upAsks d) ∧
      (∀ mc i, mail → s.dev.portN.foe = some (if mc = true then 2 else 1) → uploading s.dev .n = some i →
        let full : Prop := s.dev.supply.warning = true ∧ 65536 + 256 * w.slots[i].pages < w.slots[i].data.length + data.length
        ∃ d x, Completes (c (some mc)) s d ∧
          x = w.slots[i] ∧ onlySlot i { x with st := if last = true then .verifying else .receiving, data := x.data ++ data } d ∧
          d.ports = s.dev.ports ∧
          (¬ full → d.portN = { ack with foe := if last = true then none else s.dev.portN.foe }) ∧
          (full → d.portN = { s.dev.portN with foe := if last = true then none else s.dev.portN.foe, foeWait := true }))) ∧
    (∀ (i : Fin 4) (flashOk : Bool),
      let c := Instr.imageVerifyComplete i flashOk
      let l := w.slots[i].data
      let num (at_ n : Nat) : Nat := ofBytes ((l.drop at_).take n)
      let len := num 20 4
      let key := num 7 1
      let format : Prop := num 0 4 = 0x574D5243 ∧ num 4 2 = 1
      let fits : Prop := num 6 1 = (if i.val < 2 then 1 else 2) ∧ num 16 2 = 0x2408 ∧ num 18 2 ≤ 0x00B0 ∧ len ≤ (if i.val < 2 then 8388608 else 4194304)
      let signed : Prop := ((key = 0 ∧ bitOf s.nv.fuses 3 = false) ∨ (key = 1 ∧ Config.provKey1 = true)) ∧
        Config.edVerify (Config.firmwareKey key) (l.take 256) (num (len - 114) 114) = true
      let body : Prop := Config.shake256 ((l.take (len - 114)).drop 256) = num 24 64
      let gives (cause : Nat) : Prop := ∃ d, Completes c s d ∧ told d i.val (if cause = 0 then 1 else 2) cause (num 8 4) (num 12 1) (Config.shake256 (l.take len)) ∧
        d = { s.dev with fw := { w with slots := w.slots.set i ⟨if cause = 0 then .valid else .invalid, cause, num 8 4, num 12 1, key, Config.shake256 (l.take len),
          if i.val < 2 then none else Config.microcodeCosts (Config.shake256 (l.take len)), w.slots[i].by_, [], w.slots[i].erase, w.slots[i].pages⟩ }, arb := d.arb, ledger := { s.dev.ledger with queue := d.ledger.queue } }
      ((w.slots[i].st ≠ .verifying ∨ owed w.slots[i]) → Completes c s s.dev) ∧
      (w.slots[i].st = .verifying → ¬ owed w.slots[i] →
        (flashOk = false → gives 7) ∧
        (flashOk = true → ¬ format → gives 1) ∧
        (flashOk = true → format → ¬ fits → gives 2) ∧
        (flashOk = true → format → fits → ¬ signed → gives 3) ∧
        (flashOk = true → format → fits → signed → ¬ body → gives 4) ∧
        (flashOk = true → format → fits → signed → body → num 12 1 < w.floor → gives 5) ∧
        (flashOk = true → format → fits → signed → body → w.floor ≤ num 12 1 → gives 0))) ∧
    (∀ (p : Port) (v : BitVec 8), Served s p oFwConfirm →
      (w.trial = none → Completes (.fwConfirm p v) s (done p s.dev)) ∧
      (w.trial ≠ none → ∃ d x, Completes (.fwConfirm p v) s (done p d) ∧ x = (if w.running = 0 then w.slots[0] else w.slots[1]) ∧
        told d (if w.running = 0 then 0 else 1) 4 0 x.version x.rollback x.hash ∧
        d = { s.dev with fw := { w with confirmed := w.running, trial := none }, arb := d.arb, ledger := { s.dev.ledger with queue := d.ledger.queue } })) ∧
    (w.trial = none → Completes .trialExpiry s s.dev) ∧
    (∀ t, w.trial = some t → ∃ d, Completes .trialExpiry s d ∧ d.now = max s.dev.now (t + rd s.dev oFwTrialS [] * 245760000) ∧
      d.fw = { w with trial := none } ∧ rd d oFwCtrlSelect [] = w.confirmed % 2 ^ 8 ∧ objsKept [keyOf oFwCtrlSelect [] 0] s.dev d ∧
      d.control = { s.dev.control with due := s.dev.control.due ++ [(3, d.now)] } ∧ d.chans = s.dev.chans ∧
      told d (if w.confirmed = 0 then 0 else 1) 5 0 confirmed.version confirmed.rollback confirmed.hash) ∧
    (∀ (p : Port) (v : BitVec 8), Served s p oFwChLoad → v.toNat < 64 →
      (w.slots[loaded].st ≠ .valid → refused (.fwChLoad p v) p) ∧
      ((∃ k : Die, bitOf v.toNat k.val = true ∧ w.rams[k].changing ≠ []) → refused (.fwChLoad p v) p) ∧
      (w.slots[loaded].st = .valid → (∀ k : Die, bitOf v.toNat k.val = true → w.rams[k].changing = []) → (∀ e ∈ allTxns s.dev, txnPending e.2.2 = false) →
        ∃ d, Completes (.fwChLoad p v) s (done p d) ∧ d = { s.dev with fw := { w with rams := d.fw.rams } } ∧ ∀ k : Die, d.fw.rams[k] =
          (if bitOf v.toNat k.val = true then { w.rams[k] with loading := some (s.dev.now, loaded.val), failed := false } else w.rams[k]))) ∧
    (∀ (k : Die) (ok : Bool),
      let c := Instr.fwChLoadComplete k ok
      let one : Bool := !bitOf (rd s.dev oFwChBank []) k.val
      (w.rams[k].loading = none → Completes c s s.dev) ∧
      (∀ since slot i x, w.rams[k].loading = some (since, slot) → i = (if slot = 2 then 2 else 3 : Fin 4) → x = w.slots[i] →
        let good : Bool := ok && decide (x.st = .valid)
        let b : Option Bank := if good = true then some ⟨i.val, x.version, x.rollback, x.hash, x.costs⟩ else none
        ∃ d y, Completes c s d ∧ d = { s.dev with fw := { w with rams := w.rams.set k y } } ∧ y.loading = none ∧ y.failed = !good ∧
        y.changing = w.rams[k].changing ∧ (∀ e, e ∈ y.marked ↔ e ∈ w.rams[k].marked ∧ e.1 ≠ one) ∧ y.bank0 = (if one = true then w.rams[k].bank0 else b) ∧ y.bank1 = (if one = true then b else w.rams[k].bank1))) ∧
    (∀ (k : Die) (n : BankEngine),
      let at_ : Dev := match n with
        | .channel c .le => if n ∈ w.rams[k].changing then advance (boundaryTick s.dev (dieCh k c)) s.dev else s.dev
        | _ => s.dev
      ∃ y, Completes (.microcodeBankChange k n) s { at_ with fw := { w with rams := w.rams.set k y } } ∧
        y = { w.rams[k] with changing := y.changing } ∧ ∀ e, e ∈ y.changing ↔ e ∈ w.rams[k].changing ∧ e ≠ n) ∧
    (∀ (p : Port) (v : BitVec 8), Served s p oFwFloorRaise →
      let above : Prop := ∃ (k : Die) (b : Bank), force k = some b ∧ b.rollback < confirmed.rollback
      ((w.trial ≠ none ∨ above) → refused (.fwFloorRaise p v) p) ∧
      (w.trial = none → ¬ above → Completes (.fwFloorRaise p v) s (done p { s.dev with fw := { w with floor := max w.floor confirmed.rollback } })))

/-- O54. Supplies and tracking (R374, R375, R378 to R381, R384, R385), the verification at boot (R364) and PHY_RST_n (R413). Choices of the model: commands held in reset (log 10), warnings and restarts inside an episode (log 71), AGE and POWER_UPS (log 72), tracking periods (log 73), FW_CTRL_SELECT after a power-up (log 82), the causes of a boot that fails (log 89), a record cut short (log 149) and an upload with flash work owed (log 164). -/
def Obligations.SupplyStates : Prop :=
  ∀ (s : Sys2Proof.Machine.State),
    let u := s.dev.supply
    let power (c : Instr) (x : Power) : Prop := Completes c s { s.dev with supply := x }
    let bits (l : Levels) : BitVec 4 := BitVec.ofNat 4 (flagAt (decide (l.vsys < 10000)) 0 + flagAt (decide (l.avp < 13800)) 1 +
      flagAt (decide (-13800 < l.avn)) 2 + flagAt (decide (l.vio < 3000)) 3)
    let first (d : Dev) (code arg0 arg1 : Nat) : Prop := ∃ e l, d.events = e :: l ∧ e.code = code ∧ e.arg0 = arg0 ∧ e.arg1 = arg1
    ((u.released = true ∨ u.resetAt.isSome = true) → Completes .powerUpRelease s s.dev) ∧
    (u.released = false → u.resetAt = none →
      let w := s.dev.fw
      let b : ImageSlot := if w.boot = 2 then w.slots[2] else w.slots[3]
      ∃ d, Completes .powerUpRelease s d ∧ d.supply.released = true ∧ d.supply.st = .starting ∧ d.supply.tree = false ∧ d.now = 0 ∧
        objsKept [keyOf oIrqStatus [] 0, keyOf oHintMisses [] 0, keyOf oFwCtrlSelect [] 0] (Dev.heldInReset w) d ∧ rd d oFwCtrlSelect [] = w.confirmed % 2 ^ 8 ∧ d.control.running = false ∧ d.control.booted = false ∧ d.portN.al = .init ∧
        d.portN.alias_ = s.dev.portN.alias_ ∧ d.cad.st = .freerun ∧ (∀ k : Die, (d.dies[k]).link.st = .training) ∧
        (∀ n : Ch, d.ch n = { Chan.atReset with vm := (d.ch n).vm, im := (d.ch n).im }) ∧
        d.fw = { w with running := w.confirmed, trial := none, image := d.fw.image, rams := d.fw.rams } ∧
        (∀ k : Die, (d.fw.rams[k]).bank0 = (if b.st = .valid then some ⟨w.boot, b.version, b.rollback, b.hash, b.costs⟩ else none)) ∧
        d.ledger.program = s.dev.ledger.program ∧
        (∀ n : Ch, (Signal.ch n .forceEnN).drive d = some true ∧ (∀ i, (Signal.ch n (.rangeSel i)).drive d = some false) ∧
          (Signal.ch n .trkP).drive d = some false ∧ (Signal.ch n .trkN).drive d = some false ∧ (Signal.ch n .markA).drive d = some false ∧
          (Signal.ch n .markB).drive d = some false ∧ forceOut d n = some 0) ∧
        (∀ (k : Die) (lane : Fin 32), (Signal.vec k lane).drive d = none) ∧ Signal.phyRstN.drive d = some false ∧ (∀ x : Signal, x.drive s.dev = none) ∧
        d.ledger.powerUps = 1 + (match s.nv.recs.getLast? with
          | some r => r.powerUps
          | none => Config.shippedPowerUps)) ∧
    (∀ skips, u.released = false →
      (s.dev.ledger.program = none → exec (.ledgerAppend skips) s = .next s) ∧
      (∀ q k, s.dev.ledger.program = some (q, k) → exec (.ledgerAppend skips) s = .next { s with
        dev := { s.dev with ledger := { s.dev.ledger with program := none } }, nv := { s.nv with recs := s.nv.recs ++ [q], used := s.nv.used + k } })) ∧
    (u.resetAt = none → Completes .dieRailRemoval s s.dev) ∧
    (∀ t, u.resetAt = some t → Completes .dieRailRemoval s
      { s.dev with now := max s.dev.now (t + 2458), supply := { u with resetAt := none }, chans := Vector.replicate 24 Chan.atReset }) ∧
    (Live s →
      power .timingTreeCalComplete { u with tree := true } ∧
      (u.phy = true → Completes .phyRstRelease s s.dev) ∧
      (u.phy = false → Completes .phyRstRelease s { s.dev with now := max s.dev.now 2457600, supply := { u with phy := true } }) ∧
      (s.dev.control.restart = none → s.dev.control.booted = false →
        let ctl := s.dev.control
        let w := s.dev.fw
        let i : Fin 4 := if w.running = 0 then 0 else 1
        let x := w.slots[i]
        let keyOk : Prop := (x.key = 0 ∧ bitOf s.nv.fuses 3 = false) ∨ (x.key = 1 ∧ Config.provKey1 = true)
        let verified (d : Dev) (event arg : Nat) : Prop := ∃ e ∈ d.ledger.queue, e.type = 3 ∧
          e.payload.take 4 = leBytes 1 1 ++ leBytes 1 i.val ++ leBytes 1 event ++ leBytes 1 arg
        ((x.st ≠ .valid ∨ ctl.stuck = true ∨ ctl.due ≠ []) → Completes .controlImageRunning s s.dev) ∧
        (x.st = .valid → ctl.stuck = false → ctl.due = [] → keyOk → w.floor ≤ x.rollback → ∃ d, Completes .controlImageRunning s d ∧
          d.control = { ctl with running := true, booted := true, starts := if s.dev.ledger.scanDone = true then ctl.starts else ctl.starts ++ [1] } ∧
          d.supply = { u with st := if u.st = .starting then .running else u.st } ∧ rd d oRestartCause [] = 1 ∧ d.chans = s.dev.chans ∧
          d.now = s.dev.now ∧ d.fw = w ∧ verified d 1 0 ∧
          (s.dev.ledger.scanDone = true → ∃ e ∈ d.ledger.queue, e.type = 7 ∧ e.payload = leBytes 8 1)) ∧
        (∀ cause, x.st = .valid → ctl.stuck = false → ctl.due = [] → (cause = 3 ∧ ¬ keyOk) ∨ (cause = 5 ∧ keyOk ∧ x.rollback < w.floor) →
          ∃ d, Completes .controlImageRunning s d ∧ verified d 2 cause ∧ d.control = ctl ∧ d.supply = u ∧ d.chans = s.dev.chans ∧
          d.objs = s.dev.objs ∧ d.fw = { w with slots := w.slots.set i { x with st := .invalid, cause := cause } })) ∧
      (∀ (inputs : BitVec 4) (l : Levels),
        let c := Instr.supplyWarning inputs l
        ((u.st = .starting ∨ u.st = .running) → ∃ d, Completes c s d ∧ d.now = s.dev.now ∧ d.supply.st = .warning ∧ d.supply.warning = true ∧
          d.supply.cause = inputs ∧ d.supply.below = inputs ||| bits l ∧ d.supply.warnAt = s.dev.now ∧ d.supply.recoverFrom = none ∧
          rd d oEpisodes [] = min (2 ^ 32 - 1) (rd s.dev oEpisodes [] + 1) ∧ rd d oWarnPos [] = ctlPos s.dev ∧
          rd d oMinVsys [] = ofSigned 16 l.vsys ∧ first d 8 1 0 ∧ d.cad = s.dev.cad ∧
          (bitOf (rd s.dev oSlateSrcEn []) 6 = true → ⟨6, s.dev.now + 2, 0⟩ ∈ d.slate.triggers) ∧
          (∀ n : Ch, (d.ch n).loop = (s.dev.ch n).loop ∧ (d.ch n).src = (s.dev.ch n).src ∧ (d.ch n).mons = (s.dev.ch n).mons ∧
            (d.ch n).vm = (s.dev.ch n).vm ∧ (d.ch n).im = (s.dev.ch n).im ∧ (d.ch n).track = (s.dev.ch n).track ∧
            (d.ch n).seq = { (s.dev.ch n).seq with holdSupply := true }) ∧
          ∀ (p : Port) (i : Nat), 1 ≤ i → i ≤ 16 → ((portTxn s.dev p i).st = .preparing → (portTxn d p i).st = .aborted) ∧
            ((portTxn s.dev p i).st = .committed → (portTxn s.dev p i).commitAt = s.dev.now → (portTxn d p i).st = .aborted) ∧
            ((portTxn s.dev p i).st = .committed → (portTxn s.dev p i).commitAt ≠ s.dev.now → portTxn d p i = portTxn s.dev p i)) ∧
        ((u.st = .warning ∨ u.st = .recovering) → ∃ d, Completes c s d ∧ d = { s.dev with objs := d.objs, supply := d.supply } ∧
          d.supply = { u with st := .warning, recoverFrom := none, below := inputs ||| bits l } ∧ objsKept [keyOf oMinVsys [] 0] s.dev d ∧
          rd d oMinVsys [] = min (rd s.dev oMinVsys []) (ofSigned 16 l.vsys) % 2 ^ 16) ∧
        (u.st = .reset → Completes c s s.dev)) ∧
      (∀ (l : Levels) (b : Bool),
        let c := Instr.supplyRecovering b l
        ((u.st = .starting ∨ u.st = .running ∨ u.st = .reset) → Completes c s s.dev) ∧
        ((u.st = .warning ∨ u.st = .recovering) → ∃ d, Completes c s d ∧ d = { s.dev with objs := d.objs, supply := d.supply } ∧
          objsKept [keyOf oMinVsys [] 0] s.dev d ∧ d.supply = { u with below := bits l, st := d.supply.st, recoverFrom := d.supply.recoverFrom } ∧
          d.supply.st = (if b = true then .recovering else .warning) ∧
          (u.st = .warning → b = true → d.supply.recoverFrom = some s.dev.now) ∧ (u.st = .recovering → b = false → d.supply.recoverFrom = none) ∧
          ((u.st = .recovering ↔ b = true) → d.supply.recoverFrom = u.recoverFrom))) ∧
      ((u.st ≠ .recovering ∨ u.recoverFrom = none) → Completes .supplyRecoveryComplete s s.dev) ∧
      (∀ t, u.st = .recovering → u.recoverFrom = some t → (∀ x, s.dev.portN.sdo = some x → x.waits = none) → ∃ d, Completes .supplyRecoveryComplete s d ∧ d.now = max s.dev.now (t + 245760) ∧
        d.supply.st = (if s.dev.control.booted = true then .running else .starting) ∧ d.supply.warning = false ∧ d.supply.below = 0 ∧
        d.supply.recoverFrom = none ∧ rd d oSlipTotalMs [] = min (2 ^ 32 - 1) (rd s.dev oSlipTotalMs [] + (d.now - u.warnAt) / 245760) ∧
        rd d oRecoverPos [] = ctlPos d ∧ first d 8 0 0 ∧ (∀ n : Ch, (d.ch n).loop = (s.dev.ch n).loop ∧ (d.ch n).src = (s.dev.ch n).src ∧
          (d.ch n).seq = { (s.dev.ch n).seq with holdSupply := false }) ∧
        d.control.due = s.dev.control.due.map fun e => if e.2 ≤ d.now then (e.1, d.now + 2457600) else e) ∧
      (∀ c, (c = Instr.supplyReset ∨ c = Instr.dieRailFault) → ∃ d, Completes c s d ∧ d.now = s.dev.now ∧ d.objs = [] ∧ d.supply.released = false ∧
        d.supply.st = .reset ∧ d.supply.resetAt = some s.dev.now ∧ d.control.running = false ∧ d.portN.al = .init ∧
        d.portN.alias_ = s.dev.portN.alias_ ∧
        (s.dev.ledger.scanDone = true → programmed s.dev = none → d.ledger.program = none) ∧
        (∀ a, s.dev.ledger.scanDone = true → programmed s.dev = some a → ∃ q k, d.ledger.program = some (q, k) ∧ q.type = a.type ∧ q.payload = a.payload ∧
          q.prevHash = headHash s.nv ∧ q.seq = (headSeq s.nv + 1) % 2 ^ 32) ∧
        (∀ n : Ch, d.ch n = { Chan.atReset with src := (d.ch n).src } ∧ (d.ch n).src.st = .off ∧ (d.ch n).src.forceEn = false ∧
          (d.ch n).src.rangeSel = 0 ∧ ((d.ch n).src.gndClamp = true ↔ rd s.dev oSrcMode [n] = 0) ∧
          ((d.ch n).src.hizClamp = true ↔ rd s.dev oSrcMode [n] ≠ 0)) ∧
        ∀ i : Fin 4,
          let x := s.dev.fw.slots[i]
          let lost : Prop := x.st = .receiving ∨ (x.st = .verifying ∧ flashOwed x = true)
          (¬ lost → d.fw.slots[i] = x) ∧ (lost → d.fw.slots[i] = { x with st := .invalid, cause := 6, data := [], erase := 0 })) ∧
      (∀ n : Ch,
        let k := (s.dev.ch n).track
        let x := (s.dev.ch n).src
        let mode := rd s.dev oTrkMode [n]
        let floor := rd s.dev oTrkFloor [n]
        let span := rd s.dev oTrkSpan [n]
        let t := max ((k.period + 1) * 2048) ((s.dev.now + 2047) / 2048 * 2048)
        let now := max s.dev.now t
        let falls (target duty : Nat) : Nat := if duty ≤ target then target else max target (duty - rd s.dev oTrkDecay [n])
        let runs (dutyP dutyN : Nat) : Prop := Completes (.trkPwmPeriod n) s
          { s.dev with now := now, chans := s.dev.chans.set n { s.dev.ch n with track := ⟨dutyP, dutyN, x.code, x.code, t / 2048⟩ } }
        (mode = 0 → runs 0 0) ∧ (mode = 1 → runs (floor + span) (floor + span)) ∧
        (mode = 2 → (x.st = .off ∨ x.st = .tripped) → runs (falls (min 2047 floor) k.dutyP) (falls (min 2047 floor) k.dutyN)) ∧
        (mode = 2 → x.st ≠ .off → x.st ≠ .tripped → ∃ hi lo : Int,
          (∀ c, (c = k.hi ∨ c = x.code ∨ c ∈ trackAhead x now) → c ≤ hi) ∧ (hi = k.hi ∨ hi = x.code ∨ hi ∈ trackAhead x now) ∧
          (∀ c, (c = k.lo ∨ c = x.code ∨ c ∈ trackAhead x now) → lo ≤ c) ∧ (lo = k.lo ∨ lo = x.code ∨ lo ∈ trackAhead x now) ∧
          runs (falls (min 2047 (floor + (span * hi.toNat + 2 ^ 38 - 1) / 2 ^ 38)) k.dutyP)
            (falls (min 2047 (floor + (span * (-lo).toNat + 2 ^ 38 - 1) / 2 ^ 38)) k.dutyN))))

/-- O55. The Slate (R386 to R392); e is the device after what R51 puts before the capture, the positions reached on its tick among it. A die whose Slate agent DS4 has stopped takes no part (Table 1.3). Choices of the model: the delay of SLATE_IN (log 62), when a Slate is dropped (log 63), DIE_MASK and empty indices first (log 64), SLATE_AT reading 0 once reached (log 81). -/
def Obligations.Slates : Prop :=
  ∀ (s : Sys2Proof.Machine.State), Live s →
    let x := s.dev.slate
    let on (b : Nat) : Prop := bitOf (rd s.dev oSlateSrcEn []) b = true
    let fires (b t : Nat) (d : Dev) : Dev := { d with slate := { d.slate with triggers := d.slate.triggers ++ [⟨b, t, 0⟩] } }
    (∀ falling : Bool,
      let c := Instr.slateInEdge falling
      (bitOf (rd s.dev oSlateInEdge []) 0 ≠ falling → Completes c s s.dev) ∧
      (bitOf (rd s.dev oSlateInEdge []) 0 = falling → ¬ on 0 → Completes c s { s.dev with free := s.dev.free + 1 }) ∧
      (bitOf (rd s.dev oSlateInEdge []) 0 = falling → on 0 → ∃ t, s.dev.now ≤ t ∧ t ≤ s.dev.now + 4 ∧
        Completes c s (fires 0 t { s.dev with free := s.dev.free + 1 }))) ∧
    (∀ (p : Port) (v : BitVec 8), Served s p oSlateNow →
      (on 1 → Completes (.slateNow p v) s (done p (fires 1 (s.dev.now + 2) s.dev))) ∧ (¬ on 1 → Completes (.slateNow p v) s (done p s.dev))) ∧
    (∀ (p : Port) (pos : Pos), Served s p oSlateAt →
      let ahead : Prop := posLater pos.toNat (ctlPos s.dev) = true
      ((pos = 0 ∨ ahead) → Completes (.slateAt p pos) s (done p (wr s.dev oSlateAt pos.toNat []))) ∧
      (pos ≠ 0 → ¬ ahead → Completes (.slateAt p pos) s (setAnswer p (.refused 0x0F100003) s.dev))) ∧
    (let v := rd s.dev oSlateAt [];
      ((v = 0 ∨ reachTick s.dev.cad.recs v = none) → Completes .slateAtReached s s.dev) ∧
      ∀ t, v ≠ 0 → reachTick s.dev.cad.recs v = some t →
        let used : Dev := wr { s.dev with now := max s.dev.now t } oSlateAt 0 []
        (on 2 → Completes .slateAtReached s (fires 2 (max s.dev.now t) used)) ∧ (¬ on 2 → Completes .slateAtReached s used)) ∧
    (∀ (p : Port) (pos : Pos), Served s p oSlateChain →
      let soon : Prop := posLater pos.toNat (ctlPos s.dev) = false ∨ tickNear s.dev.cad.recs pos.toNat < s.dev.now + 245760
      let barred : Prop := hopOf s.dev ≠ 0 ∨ soon ∨ s.dev.zh.slate.isSome = true
      (barred → Completes (.slateChain p pos) s (setAnswer p (.refused 0x0F100003) s.dev)) ∧
      (¬ barred → Completes (.slateChain p pos) s (done p { s.dev with zh := { s.dev.zh with slate := some ⟨pos.toNat, 0⟩ } }))) ∧
    (s.dev.zh.slate = none → Completes .chainSlateReached s s.dev) ∧
    (∀ g, s.dev.zh.slate = some g → reachTick s.dev.cad.recs g.pos = none → Completes .chainSlateReached s s.dev) ∧
    (∀ g t, s.dev.zh.slate = some g → reachTick s.dev.cad.recs g.pos = some t →
      let used : Dev := { s.dev with now := max s.dev.now t, zh := { s.dev.zh with slate := none } }
      (on 7 → Completes .chainSlateReached s (fires 7 (max s.dev.now t) used)) ∧ (¬ on 7 → Completes .chainSlateReached s used)) ∧
    (x.triggers = [] → Completes .slateCapture s s.dev) ∧
    (∀ (t : Nat) (e : Dev) (g : Trigger), nextCapture x.triggers = some t → e = settleDue s.nv ⟨t, 0, 1⟩ [] s.dev →
      g ∈ e.slate.triggers → (∀ h ∈ e.slate.triggers, g.tick ≤ h.tick) →
      let z := e.slate
      let now := max e.now g.tick
      let lock := rd e oSlateLock []
      let left : List Trigger := z.triggers.filter fun h => h.tick != g.tick
      ((2 ≤ z.held.length ∨ (∃ k : Die, 2 ≤ z.held.length + (z.parts.filter fun e => e.2.1 == k.val).length) ∨
          ((∀ i, i < 16 → bitOf lock i = true) ∧ ∀ y ∈ z.ring, y.1 < 16)) → ∃ d, Completes .slateCapture s d ∧
        d = { e with now := now, objs := d.objs, slate := { z with triggers := left, seq := (z.seq + 1) % 2 ^ 32, missed := true } } ∧
        objsKept [keyOf oSlateDropped [] 0] e d ∧ rd d oSlateDropped [] = min (2 ^ 32 - 1) (rd e oSlateDropped [] + 1)) ∧
      (z.held.length < 2 → z.parts = [] → (∃ i, i < 16 ∧ bitOf lock i = false) → ∃ d c, Completes .slateCapture s d ∧
        d = { e with now := now, arb := d.arb, slate := { z with triggers := left, seq := (z.seq + 1) % 2 ^ 32, missed := false, held := z.held ++ [c], ecc := d.slate.ecc } } ∧
        c.seq = z.seq ∧ c.tick = now ∧ c.pos = posOf e.cad.recs (now * 256) ∧ c.body.length = 4344 ∧
        bitOf c.flags 0 = z.missed ∧ bitOf c.flags 1 = false ∧ bitOf c.flags 3 = e.control.restart.isSome ∧
        (∀ k : Die, bitOf c.mask (k.val + 1) = serviceRuns e k 4) ∧
        ∀ b, bitOf c.triggers b = true ↔ ∃ h ∈ z.triggers, h.tick = g.tick ∧ h.bit = b)) ∧
    ((x.held = [] ∨ s.dev.control.running = false ∨ ∀ g ∈ (sharedOf s.dev 0x90).grants, clsOf g.id ≠ 10) → Completes .slateRingTransfer s s.dev) ∧
    (∀ e rest, x.held = e :: rest → s.dev.control.running = true → (∃ g ∈ (sharedOf s.dev 0x90).grants, clsOf g.id = 10) →
      let open_ (i : Nat) : Prop := i < 16 ∧ bitOf (rd s.dev oSlateLock []) i = false
      let used : List Nat := x.ring.map Prod.fst
      ((∀ i, ¬ open_ i) → (∀ i ∈ used, i < 16) → ∃ d, Completes .slateRingTransfer s d ∧ d.slate = { x with held := rest, missed := true } ∧
        rd d oSlateDropped [] = min (2 ^ 32 - 1) (rd s.dev oSlateDropped [] + 1)) ∧
      (∀ j, open_ j → (∀ i ∈ used, i < 16) → ∃ d i y, Completes .slateRingTransfer s d ∧ d = { s.dev with arb := d.arb, objs := d.objs, slate := d.slate } ∧
        open_ i ∧ (j ∉ used → i ∉ used) ∧ d.slate.held = rest ∧ d.slate.ring = (x.ring.filter fun z => z.1 != i) ++ [(i, y)] ∧
        (i ∈ used → ∃ before after, used = before ++ i :: after ∧ ∀ k ∈ before, ¬ open_ k) ∧
        bitOf (rd d oIrqStatus []) 5 = true ∧ objsKept [keyOf oIrqStatus [] 0] s.dev d ∧
        y.seq = e.seq ∧ y.triggers = e.triggers ∧ y.pos = e.pos ∧ y.tick = e.tick ∧
        (rest ≠ [] → (∃ q ∈ (sharedOf d 0x90).grants, clsOf q.id = 10) ∨ ∃ q ∈ (sharedOf d 0x90).waiters, clsOf q.id = 10) ∧
        ((∀ k : Die, (s.dev.dies[k]).link.st = .active ∧ bitOf e.mask (k.val + 1) = true) → y.body = e.body ∧ y.flags = e.flags ∧ d.slate.parts = x.parts) ∧
        (∀ k : Die, bitOf e.mask (k.val + 1) = false → e.body.length = 4344 → bitOf y.mask (k.val + 1) = false ∧
          (y.body.drop (64 + 384 * k.val)).take 384 = List.replicate 384 0) ∧
        (∀ k : Die, (s.dev.dies[k]).link.st ≠ .active → bitOf e.mask (k.val + 1) = true → e.body.length = 4344 → bitOf y.flags 1 = true ∧ bitOf y.mask (k.val + 1) = false ∧
          (e.seq, k.val, (e.body.drop (64 + 384 * k.val)).take 384) ∈ d.slate.parts ∧
          (y.body.drop (64 + 384 * k.val)).take 384 = List.replicate 384 0)))

/-- O56. ECC, telemetry and restarts (R393 to R399). Choices of the model: the record of a fallback (log 38), announced losses (log 42), the place of an error (log 65), retained errors and SCRUB_POS (log 66), OVERTEMP (log 67), what a restart keeps and when it reports (logs 68, 69), a restart into the confirmed slot (log 70), causes in an episode (log 71), the verification at boot (log 89), the scrub pass of the Control die (log 123), stopped services (log 143). -/
def Obligations.ContinuousService : Prop :=
  ∀ (s : Sys2Proof.Machine.State), Live s →
    let control := s.dev.control
    let w := s.dev.fw
    let counted (d : Dev) (row : Row) (places : List Nat) (k : Nat) : Prop := rd s.dev row places < 2 ^ 32 → rd d row places = min (2 ^ 32 - 1) (rd s.dev row places + k)
    let due (cause at_ : Nat) (d : Dev) : Dev := { d with control := { d.control with due := d.control.due ++ [(cause, at_)] } }
    let told (d : Dev) (type : Nat) (payload : List Byte) : Prop := ∃ e ∈ d.ledger.queue, e.type = type ∧ e.payload = payload ∧ e.cause = d.now
    (∀ k : Die, serviceRuns s.dev k 1 = false → ∀ c pool, Completes (.scrubPass (some k) c pool) s s.dev) ∧
    (∀ (k : Die) (c : BitVec 32), serviceRuns s.dev k 1 = true → ∃ d, Completes (.scrubPass (some k) c []) s d ∧
      d = { s.dev with objs := d.objs, arb := d.arb, dies := s.dev.dies.set k { s.dev.dies[k] with corr := (d.dies[k]).corr, scrubAt := (d.dies[k]).scrubAt } } ∧
      ((s.dev.dies[k]).corr < 2 ^ 32 → (d.dies[k]).corr = min (2 ^ 32 - 1) ((s.dev.dies[k]).corr + c.toNat)) ∧
      objsKept [keyOf oScrubPos [k] 0, keyOf oHintMisses [] 0] s.dev d ∧
      (s.dev.arb.units = [] → LinkUp s k → rd d oScrubPos [k] = ctlPos s.dev ∧ (d.dies[k]).scrubAt = s.dev.now) ∧
      (s.dev.arb.units = [] → s.dev.dies[k].link.st = .lost → d.objs = s.dev.objs ∧ ∃ q ∈ (sharedOf d (0xB0 + k.val)).waiters,
        q.id = 0xB000 + k.val ∧ q.entry = s.dev.now ∧ q.deadline = posOf s.dev.cad.recs (scrubDue s.dev k * 256) % 2 ^ 64)) ∧
    (∀ (k : Die) (c v : BitVec 32) (i : Fin 4), serviceRuns s.dev k 1 = true → ∃ d, Completes (.scrubPass (some k) c [(i, v)]) s d ∧
      counted d oEccCorrected [4 * k.val + i.val] v.toNat ∧
      objsKept [keyOf oScrubPos [k] 0, keyOf oEccCorrected [4 * k.val + i.val] 0, keyOf oHintMisses [] 0] s.dev d ∧ d.chans = s.dev.chans) ∧
    (∀ c : BitVec 32, ∃ d, Completes (.scrubPass none c []) s d ∧ d = { s.dev with objs := d.objs, arb := d.arb, control := { control with scrubAt := s.dev.now } } ∧
      objsKept [keyOf oCtrlEccCorr [] 0, keyOf oCtrlScrubPos [] 0] s.dev d ∧ counted d oCtrlEccCorr [] c.toNat ∧ rd d oCtrlScrubPos [] = ctlPos s.dev) ∧
    (∀ (k : Die) (cls : Fin 5) (addr : BitVec 24),
      let noted (d : Dev) : Prop := (d.dies[k]).eccLast = cls.val * 2 ^ 24 + addr.toNat ∧ (d.dies[k]).uncorr = min (2 ^ 32 - 1) ((s.dev.dies[k]).uncorr + 1)
      let runs (where_ : Nat) (P : Dev → Prop) : Prop := ∃ d, Completes (.eccUncorrectable (some k) cls addr where_) s d ∧ d.now = s.dev.now ∧ noted d ∧ P d
      (∀ (n : Ch) (q i : Nat), cls = 0 → n.die = k → 1 ≤ q → q < 512 → i < 2 ^ 16 → descDepth (qFind (s.dev.ch n).queues q).desc ≠ 0 → i < (qFind (s.dev.ch n).queues q).recs.length →
        runs ((512 * n.val + q) * 2 ^ 16 + i) fun d => ∃ a r b, (qFind (s.dev.ch n).queues q).recs = a ++ r :: b ∧ a.length = i ∧
          (qFind (d.ch n).queues q).recs = a ++ b ∧ bitOf (rd d oChFault [n]) 9 = true ∧ (∀ m, m ≠ n → d.ch m = s.dev.ch m) ∧
          rd d oEccDrops [n] = min (2 ^ 32 - 1) (rd s.dev oEccDrops [n] + 1)) ∧
      (∀ bank : Fin 2, cls = 1 → runs bank.val fun d => ∃ found, d.objs = s.dev.objs ∧ d.chans = s.dev.chans ∧
        d.fw.rams[k] = { w.rams[k] with marked := w.rams[k].marked ++ [(decide (bank = 1), addr.toNat, found)] } ∧
        (found = true ↔ ∃ b, (if bank = 1 then w.rams[k].bank1 else w.rams[k].bank0) = some b ∧
          ((w.slots[2].st = .valid ∧ w.slots[2].hash = b.hash) ∨ (w.slots[3].st = .valid ∧ w.slots[3].hash = b.hash)))) ∧
      (∀ (i : Fin 4) (bank : Fin 2) (e : Nat), cls = 2 → e < 8192 →
        ∀ n : Ch, n.val = 4 * k.val + i.val → bankState (s.dev.ch n).seq bank.val ≠ .playing →
        runs (2 ^ 16 + i.val * 2 ^ 14 + bank.val * 2 ^ 13 + e) fun d => courseOf (d.ch n).seq bank.val e = 0 ∧ bankState (d.ch n).seq bank.val = .idle ∧
          (∀ f, f ≠ e → courseOf (d.ch n).seq bank.val f = courseOf (s.dev.ch n).seq bank.val f) ∧ (∀ m, m ≠ n → d.ch m = s.dev.ch m) ∧ d.objs = s.dev.objs) ∧
      (∀ (e : SlateEntry) (at_ : Nat), cls = 3 → s.dev.slate.held = [e] → at_ < e.body.length → e.body.length = 4344 → runs at_ fun d => ∃ y, d.slate = { s.dev.slate with held := [y] } ∧
        bitOf y.flags 2 = true ∧ y.body.length = 4344 ∧ y.body[at_]? = some 0 ∧ d.objs = s.dev.objs ∧ d.chans = s.dev.chans) ∧
      (∀ (seq : Nat) (j : Die) (l : List Byte) (at_ : Nat), cls = 3 → s.dev.slate.held = [] → s.dev.slate.parts = [(seq, j.val, l)] → l.length = 384 →
        at_ < 384 → runs (64 + 384 * j.val + at_) fun d => ∃ m, d.slate = { s.dev.slate with
            parts := [(seq, j.val, m)]
            ring := s.dev.slate.ring.map fun y => if y.2.seq = seq then (y.1, { y.2 with flags := setBit y.2.flags 2 }) else y } ∧
          m.length = 384 ∧ m[at_]? = some 0 ∧ d.objs = s.dev.objs ∧ d.chans = s.dev.chans) ∧
      (∀ where_, cls = 4 → runs where_ fun d => d.objs = s.dev.objs ∧ d.chans = s.dev.chans)) ∧
    (∀ (addr : BitVec 24), (control.running = true ∨ control.booted = false) → control.restart = none → ∃ d, Completes (.eccUncorrectable none 4 addr 0) s d ∧
      d = { due 5 s.dev.now s.dev with objs := d.objs } ∧ objsKept [keyOf oCtrlEccUncorr [] 0, keyOf oCtrlEccLast [] 0] s.dev d ∧
      rd d oCtrlEccUncorr [] = min (2 ^ 32 - 1) (rd s.dev oCtrlEccUncorr [] + 1) ∧ rd d oCtrlEccLast [] = 4 * 2 ^ 24 + addr.toNat) ∧
    (∀ (cls : Fin 5) (addr : BitVec 24) (where_ : Nat), cls ≠ 4 → ∃ d, Completes (.eccUncorrectable none cls addr where_) s d ∧ d.now = s.dev.now ∧
      d.chans = s.dev.chans ∧ d.control = control ∧ objsKept [keyOf oCtrlEccUncorr [] 0, keyOf oCtrlEccLast [] 0] s.dev d ∧
      rd d oCtrlEccUncorr [] = min (2 ^ 32 - 1) (rd s.dev oCtrlEccUncorr [] + 1) ∧ rd d oCtrlEccLast [] = cls.val * 2 ^ 24 + addr.toNat) ∧
    (∀ k : Die,
      ((∀ e ∈ w.rams[k].marked, e.2.2 = false) → Completes (.mcReloadComplete k) s s.dev) ∧
      (∀ a e b, w.rams[k].marked = a ++ e :: b → (∀ f ∈ a, f.2.2 = false) → e.2.2 = true → ∃ d, Completes (.mcReloadComplete k) s d ∧
        d.fw.rams[k] = { w.rams[k] with marked := a ++ b } ∧ d.chans = s.dev.chans ∧ objsKept [keyOf oMcReloads [k] 0] s.dev d ∧
        rd d oMcReloads [k] = min (2 ^ 32 - 1) (rd s.dev oMcReloads [k] + 1))) ∧
    (∀ (k : Die) (temp : Int) (core anaP anaN : BitVec 16),
      let c := Instr.telemetryReport k temp core anaP anaN
      let report := (temp, core.toNat, anaP.toNat, anaN.toNat)
      let idle : Prop := s.dev.arb.units = []
      (serviceRuns s.dev k 5 = false → Completes c s s.dev) ∧
      (serviceRuns s.dev k 5 = true → idle → s.dev.dies[k].link.st = .lost → ∃ d, Completes c s d ∧ d.objs = s.dev.objs ∧ (d.dies[k]).report = some report ∧
        ∃ q ∈ (sharedOf d (0xB0 + k.val)).waiters, q.id = 0xC000 + k.val ∧ q.entry = s.dev.now ∧ q.deadline = posOf s.dev.cad.recs (reportDue s.dev k * 256) % 2 ^ 64) ∧
      (serviceRuns s.dev k 5 = true → idle → s.dev.dies[k].link.st = .retraining → ∃ d, Completes c s d ∧ (d.dies[k]).report = none ∧
        (d.dies[k]).link.held = (s.dev.dies[k]).link.held ++ [.telemetry temp core.toNat anaP.toNat anaN.toNat] ∧ d.supply = s.dev.supply) ∧
      (serviceRuns s.dev k 5 = true → idle → LinkUp s k → ∃ d, Completes c s d ∧
        d = { s.dev with objs := d.objs, arb := d.arb, supply := { s.dev.supply with overtemp := d.supply.overtemp }, dies := s.dev.dies.set k { s.dev.dies[k] with report := none, reportAt := s.dev.now } } ∧
        rd d oDieTemp [k] = ofSigned 16 temp ∧ rd d oVCore [k] = core.toNat ∧ rd d oVAnaP [k] = anaP.toNat ∧ rd d oVAnaN [k] = anaN.toNat ∧
        rd d oEccCorr [k] = (s.dev.dies[k]).corr % 2 ^ 32 ∧ rd d oEccUncorr [k] = (s.dev.dies[k]).uncorr % 2 ^ 32 ∧ rd d oEccLast [k] = (s.dev.dies[k]).eccLast % 2 ^ 32 ∧
        (d.supply.overtemp = true ↔ ∃ j : Die, 15000 < rdI d oDieTemp [j]))) ∧
    (bitOf (supplyStatus s.dev) 16 = true ↔ s.dev.supply.overtemp = true ∨ 15000 < toSigned 16 (ofSigned 16 (Config.supplyReading 4 (s.dev.now / 245760))) ∨
      15000 < rdI s.dev oRefDieTemp []) ∧
    (∀ (p : Port) (v : BitVec 16), Served s p oRestartReq →
      (v ≠ 0xA55A → Completes (.restartReq p v) s (setAnswer p (.refused 0x0F100003) s.dev)) ∧
      (v = 0xA55A → Completes (.restartReq p v) s (done p (due 6 s.dev.now s.dev)))) ∧
    (∀ cause : RestartCause,
      let code := causeCode cause
      ((∀ e ∈ control.due, e.1 ≠ code) → Completes (.controlDieRestart cause) s s.dev) ∧
      ((s.dev.supply.warning = true ∨ control.stuck = true ∨ control.restart.isSome = true) → Completes (.controlDieRestart cause) s s.dev) ∧
      (∀ a t b, control.due = a ++ (code, t) :: b → (∀ e ∈ a, e.1 ≠ code) → s.dev.supply.warning = false → control.stuck = false → control.restart = none → ∃ d,
        Completes (.controlDieRestart cause) s d ∧ d.now = max s.dev.now t ∧
        d.control = { control with running := false, restart := some ⟨code, d.now⟩, due := a ++ b } ∧
        rd d oRestarts [] = min (2 ^ 32 - 1) (rd s.dev oRestarts [] + 1) ∧ rd d oRestartPos [] = ctlPos d ∧
        d.fw.running = (if code = 2 then rd s.dev oFwCtrlSelect [] else if code = 3 then w.confirmed else w.running) ∧
        (∀ k : Die, (LinkUp s k ∨ s.dev.dies[k].link.st = .retraining) → (d.dies[k]).link.st = .lost ∧ (d.dies[k]).link.announced = true ∧ (d.dies[k]).extending = true) ∧
        (s.dev.ref.comparison = none → d.chans = s.dev.chans) ∧ d.cad = s.dev.cad ∧ d.slate.ring = s.dev.slate.ring ∧ d.arb.now = s.dev.arb.now ∧
        d.portN.sdo = none ∧ (∀ e ∈ d.ctrlQueues, e.2.recs = []) ∧ (∀ p : Port, (d.ports[p.idx]).response = none ∧ (d.ports[p.idx]).busy = none) ∧
        ((∀ k : Die, (s.dev.dies[k]).link.st ≠ .active ∧ (s.dev.dies[k]).link.st ≠ .retraining) → d.events = s.dev.events) ∧
        (∀ k : Die, (LinkUp s k ∨ s.dev.dies[k].link.st = .retraining) → ∃ e ∈ d.events, e.code = 4 ∧ e.arg0 = k.val ∧ e.arg1 = 4) ∧
        ∀ (p : Port) (i : Nat), 1 ≤ i → i ≤ 16 → (((portTxn s.dev p i).st = .opened ∨ (portTxn s.dev p i).st = .preparing) → (portTxn d p i).st = .free) ∧
          ((portTxn s.dev p i).st = .committed → portTxn d p i = portTxn s.dev p i))) ∧
    (control.restart = none → Completes .restartTimeout s s.dev) ∧
    (∀ r, control.restart = some r →
      let now := max s.dev.now (r.since + 368640000)
      let ends : Dev := { s.dev with now := now, control := { control with restart := none } }
      (w.running = w.confirmed → r.cause = 7 → Completes .restartTimeout s { ends with control := { ends.control with stuck := true } }) ∧
      (w.running = w.confirmed → r.cause ≠ 7 → Completes .restartTimeout s (due 7 now ends)) ∧
      (w.running ≠ w.confirmed → ∃ d, Completes .restartTimeout s d ∧ d.now = now ∧ d.control = (due 3 now ends).control ∧ d.chans = s.dev.chans ∧
        d.fw = { w with trial := none } ∧ rd d oFwCtrlSelect [] = w.confirmed % 2 ^ 8 ∧ ∃ l, told d 3 l ∧ l.take 3 = leBytes 1 1 ++ leBytes 1 (if w.confirmed = 0 then 0 else 1) ++ leBytes 1 5)) ∧
    (∀ r, control.restart = some r →
      let x : ImageSlot := if w.running = 0 then w.slots[0] else w.slots[1]
      let passes : Prop := ((x.key = 0 ∧ bitOf s.nv.fuses 3 = false) ∨ (x.key = 1 ∧ Config.provKey1 = true)) ∧ w.floor ≤ x.rollback
      let boots : Prop := control.stuck = false ∧ x.st = .valid ∧ (control.booted = false → passes)
      ((x.st ≠ .valid ∨ control.stuck = true) → Completes .controlImageRunning s s.dev) ∧
      (x.st = .valid → control.stuck = false → control.booted = false → ¬ passes → ∃ d, Completes .controlImageRunning s d ∧ d.control = control ∧
        d.chans = s.dev.chans ∧ (if w.running = 0 then d.fw.slots[0] else d.fw.slots[1]).st = .invalid) ∧
      (boots → ∃ d, Completes .controlImageRunning s d ∧ d.now = s.dev.now ∧ d.control.running = true ∧ d.control.booted = true ∧ d.control.restart = none ∧ d.control.restarted = true ∧
        (∀ k : Die, (s.dev.dies[k]).link.announced = true → (d.dies[k]).link.st = .active ∧ (d.dies[k]).link.announced = false) ∧
        rd d oRestartCause [] = r.cause % 2 ^ 8 ∧ (s.dev.ledger.scanDone = true → told d 7 (leBytes 8 r.cause)) ∧
        (s.dev.ledger.scanDone = false → d.control.starts = control.starts ++ [r.cause]) ∧ bitOf (rd d oFaultLatch []) 2 = true ∧
        (∃ e l, d.events = e :: l ∧ e.code = 3 ∧ e.arg0 = r.cause) ∧ (s.dev.zh.sync = none → d.chans = s.dev.chans) ∧
        (r.cause ≠ 2 → d.fw = { w with image := x }) ∧
        (r.cause = 2 → d.fw = { w with image := x, trial := if w.running = w.confirmed then none else some s.dev.now } ∧
          ∃ l, told d 3 l ∧ l.take 3 = leBytes 1 1 ++ leBytes 1 (if w.running = 0 then 0 else 1) ++ leBytes 1 3)))

/-- O57. Counter clears of every block, and CH_FAULT (R347). A reserved bit is refused by name (R8, log 3). -/
def Obligations.CounterClears : Prop :=
  ∀ (s : Sys2Proof.Machine.State) (p : Port),
    let clears (c : Instr) (v : Nat) (l : List (Nat × Row × List Nat)) : Prop := ∃ d, Completes c s (done p d) ∧ d = { s.dev with objs := d.objs } ∧
      objsKept (l.map fun e => keyOf e.2.1 e.2.2 0) s.dev d ∧ ∀ e ∈ l, rd d e.2.1 e.2.2 = (if bitOf v e.1 = true then 0 else rd s.dev e.2.1 e.2.2)
    (∀ v : BitVec 8, Served s p oFabricClear → v.toNat < 64 →
      let f : Die → DieState := fun k =>
        let d := s.dev.dies[k]
        if bitOf v.toNat k = true then { d with link := { d.link with retries := 0, retrains := 0 } } else d
      Completes (.fabricCounterClear p v) s (done p { s.dev with dies := Vector.ofFn f })) ∧
    (∀ v : BitVec 8, Served s p oReelCounterClear → v.toNat < 8 → ∃ d, Completes (.reelCounterClear p v) s (done p d) ∧
      d = { s.dev with objs := d.objs, cad := { s.dev.cad with slipBase := d.cad.slipBase } } ∧
      objsKept [keyOf oHoldoverCount [] 0, keyOf oSlipTotal [] 0, keyOf oLastHoldover [] 0] s.dev d ∧
      rd d oHoldoverCount [] = (if bitOf v.toNat 0 = true then 0 else rd s.dev oHoldoverCount []) ∧
      rd d oSlipTotal [] = (if bitOf v.toNat 1 = true then 0 else rd s.dev oSlipTotal []) ∧
      rd d oLastHoldover [] = (if bitOf v.toNat 2 = true then 0 else rd s.dev oLastHoldover [])) ∧
    (∀ (n : Ch) (v : BitVec 8), LinkUp s n.die →
      (Served s p oSrcCounterClear → v.toNat < 128 → clears (.srcCounterClear p n v) v.toNat [(0, oUnderruns, [n]), (1, oOverflows, [n]),
        (2, oClamps, [n]), (3, oStepHolds, [n]), (4, oHoldForced, [n]), (5, oRateClips, [n]), (6, oPeekMiss, [n])]) ∧
      (∀ a : ArrId, Served s p oArrCounterClear → s.dev.ref.comparison = none → v.toNat < 32 → clears (.arrayCounterClear p n a v) v.toNat
        [(0, oOvrCount, [n, a.idx]), (1, oAbortCount, [n, a.idx]), (2, oShortApertures, [n, a.idx]), (3, oRotations, [n, a.idx]),
          (4, oUrgentCount, [n, a.idx]), (4, oUrgentMerged, [n, a.idx]), (4, oUrgentDropped, [n, a.idx])]) ∧
      (Served s p oTakeCounterClear → v.toNat < 16 →
        (bitOf v.toNat 3 = false → clears (.takeCounterClear p n v) v.toNat [(0, oUncorrected, [n]), (1, oEccCorrected, [n]), (2, oEccDrops, [n])]) ∧
        (v = 8 → Completes (.takeCounterClear p n v) s
          (done p (updCh n (fun c => { c with queues := c.queues.map fun e => (e.1, { e.2 with overflows := 0, high := 0 }) }) s.dev)))) ∧
      (Served s p oLoopCounterClear → v.toNat < 32 → clears (.loopCounterClear p n v) v.toNat [(0, oOverruns, [n]), (1, oWorstTicks, [n]),
        (2, oXovers, [n]), (3, oCoastPeriods, [n]), (4, oEccRetries, [n])]) ∧
      (Served s p oSeqCounterClear → v.toNat < 16 → clears (.seqCounterClear p n v) v.toNat [(0, oCuts, [n]), (1, oCutsMerged, [n]),
        (2, oCutsDropped, [n]), (3, oBankLates, [n])]) ∧
      (Served s p oGuardCounterClear → v.toNat < 16 → clears (.guardCounterClear p n v) v.toNat [(0, oTrips, [n, 0]), (1, oTrips, [n, 1]),
        (2, oTrips, [n, 2]), (3, oTrips, [n, 3])]) ∧
      (∀ w : BitVec 16, Served s p oChFault → w.toNat < 1024 → ∃ d, Completes (.chFaultClear p n w) s (done p d) ∧
        d = { s.dev with objs := d.objs, refault := d.refault } ∧ objsKept [keyOf oChFault [n] 0] s.dev d ∧
        (∀ i, i < 10 → bitOf (rd d oChFault [n]) i = (bitOf (rd s.dev oChFault [n]) i && !bitOf w.toNat i)) ∧
        (standing s.dev n = 0 → d.refault = s.dev.refault) ∧ (standing s.dev n ≠ 0 → d.refault = s.dev.refault ++ [(n.val, s.dev.now + 1)]))) ∧
    (∀ v : BitVec 8, Served s p oArbClear → v.toNat < 16 → ∃ d, Completes (.arbClear p v) s (done p d) ∧ d = { s.dev with objs := d.objs } ∧
      (∀ c, c < 15 → rdJ d oLates [] c = (if bitOf v.toNat 0 = true then 0 else rdJ s.dev oLates [] c)) ∧
      rd d oBreaks [] = (if bitOf v.toNat 1 = true then 0 else rd s.dev oBreaks []) ∧
      rd d oHintMisses [] = (if bitOf v.toNat 2 = true then 0 else rd s.dev oHintMisses []) ∧
      rd d oHoldOverruns [] = (if bitOf v.toNat 3 = true then 0 else rd s.dev oHoldOverruns [])) ∧
    (∀ v : BitVec 8,
      (Served s p oPortnCounterClear → v.toNat < 8 → clears (.portnCounterClear p v) v.toNat [(0, oRxRepeats, []), (1, oRxRejects, []),
        (2, oWatchdogExpiries, [])]) ∧
      (Served s p oSlateCounterClear → v.toNat < 2 → clears (.slateCounterClear p v) v.toNat [(0, oSlateDropped, [])]) ∧
      (Served s p oSupplyCounterClear → v.toNat < 4 → clears (.supplyCounterClear p v) v.toNat [(0, oEpisodes, []), (1, oSlipTotalMs, [])]) ∧
      (∀ k : Die, Served s p oDieCounterClear → v.toNat < 8 → ∃ d x, Completes (.dieCounterClear p k v) s (done p d) ∧
        d = { s.dev with objs := d.objs, dies := s.dev.dies.set k x } ∧
        x = { s.dev.dies[k] with corr := if bitOf v.toNat 0 = true then 0 else (s.dev.dies[k]).corr, uncorr := if bitOf v.toNat 1 = true then 0 else (s.dev.dies[k]).uncorr } ∧
        rd d oEccCorr [k] = (if bitOf v.toNat 0 = true then 0 else rd s.dev oEccCorr [k]) ∧
        rd d oEccUncorr [k] = (if bitOf v.toNat 1 = true then 0 else rd s.dev oEccUncorr [k]) ∧
        rd d oMcReloads [k] = (if bitOf v.toNat 2 = true then 0 else rd s.dev oMcReloads [k])))

/-- O58. The queue of commands, first in, first out. That a tick passes on an empty queue is a choice of the model (log 1). -/
def Obligations.StepRunsFront : Prop :=
  (∀ (s : Sys2Proof.Machine.State) (c : Instr) (rest : List Instr), step { s with pending := c :: rest } = exec c { s with pending := rest }) ∧
  (∀ s : Sys2Proof.Machine.State, s.pending = [] → step s = .next (s.acts { s.dev with now := s.dev.now + 1 }))

/-- O59. A reserved bit is refused by name (R8, log 3). The ledger is append-only and chained (R289, R290) and a blown fuse stays blown (R360), whatever command runs. -/
def Obligations.StepKeeps : Prop :=
  (∀ (i : Instr) (s : Sys2Proof.Machine.State), (mayReserve i = false → ∃ t, exec i s = .next t) ∧
    ((∃ t, exec i s = .next t) ∨ exec i s = .refused .reservedBit)) ∧
  ∀ s t : Sys2Proof.Machine.State, step s = .next t →
    (ledgerInv s.nv → ledgerInv t.nv) ∧ fusesKept s.nv.fuses t.nv.fuses ∧ s.nv.used ≤ t.nv.used ∧
    (s.nv.recs.map LRecord.unmarked) <+: (t.nv.recs.map LRecord.unmarked) ∧
    (∀ (i : Nat) (a b : LRecord), s.nv.recs[i]? = some a → t.nv.recs[i]? = some b → b.mark = a.mark ∨ (a.mark = 0xFF ∧ b.mark = 0)) ∧
    t.pending = s.pending.tail

/-- O60. The state after reset (Table 13.4): held in reset, where no command but the release of the dies and what follows a reset tick (R381, Table 3.3) acts (R375). Choices of the model: internal state without a reset value (log 8), commands held in reset (log 10), the images shipped (log 6) and the shipped ledger (log 99). -/
def Obligations.ResetMeets : Prop :=
  let r := Sys2Proof.Machine.State.reset
  ledgerInv r.nv ∧ contiguous r.dev.cad.recs ∧ r.pending = [] ∧ r.nv.fuses = 0 ∧ r.dev.supply.released = false ∧ r.dev.supply.st = .reset ∧
    r.dev.control.running = false ∧ (∀ (row : Row) (places : List Nat) (j : Nat), rdJ r.dev row places j = dfltOf row places j) ∧
    ∀ i : Instr, i ≠ .powerUpRelease → i ≠ .dieRailRemoval → (∀ n, i ≠ .resetGndClamp n) → exec i r = .next r

end
end

