-- ==== Sys2Proof/Laws/State.lean ====
section
/-! SUPPORT. What each operation over the device leaves as it was: one lemma per field and operation. -/

namespace Sys2Proof.Machine

@[simp] theorem advance_objs (t : Nat) (s : Dev) : (advance t s).objs = s.objs := rfl
@[simp] theorem advance_free (t : Nat) (s : Dev) : (advance t s).free = s.free := rfl
@[simp] theorem advance_cad (t : Nat) (s : Dev) : (advance t s).cad = s.cad := rfl
@[simp] theorem advance_zh (t : Nat) (s : Dev) : (advance t s).zh = s.zh := rfl
@[simp] theorem advance_dies (t : Nat) (s : Dev) : (advance t s).dies = s.dies := rfl
@[simp] theorem advance_chans (t : Nat) (s : Dev) : (advance t s).chans = s.chans := rfl
@[simp] theorem advance_ctrlQueues (t : Nat) (s : Dev) : (advance t s).ctrlQueues = s.ctrlQueues := rfl
@[simp] theorem advance_ref (t : Nat) (s : Dev) : (advance t s).ref = s.ref := rfl
@[simp] theorem advance_ledger (t : Nat) (s : Dev) : (advance t s).ledger = s.ledger := rfl
@[simp] theorem advance_arb (t : Nat) (s : Dev) : (advance t s).arb = s.arb := rfl
@[simp] theorem advance_groups (t : Nat) (s : Dev) : (advance t s).groups = s.groups := rfl
@[simp] theorem advance_ports (t : Nat) (s : Dev) : (advance t s).ports = s.ports := rfl
@[simp] theorem advance_admitted (t : Nat) (s : Dev) : (advance t s).admitted = s.admitted := rfl
@[simp] theorem advance_portN (t : Nat) (s : Dev) : (advance t s).portN = s.portN := rfl
@[simp] theorem advance_events (t : Nat) (s : Dev) : (advance t s).events = s.events := rfl
@[simp] theorem advance_eventSeq (t : Nat) (s : Dev) : (advance t s).eventSeq = s.eventSeq := rfl
@[simp] theorem advance_fw (t : Nat) (s : Dev) : (advance t s).fw = s.fw := rfl
@[simp] theorem advance_sec (t : Nat) (s : Dev) : (advance t s).sec = s.sec := rfl
@[simp] theorem advance_supply (t : Nat) (s : Dev) : (advance t s).supply = s.supply := rfl
@[simp] theorem advance_control (t : Nat) (s : Dev) : (advance t s).control = s.control := rfl
@[simp] theorem advance_slate (t : Nat) (s : Dev) : (advance t s).slate = s.slate := rfl
@[simp] theorem advance_refault (t : Nat) (s : Dev) : (advance t s).refault = s.refault := rfl

@[simp] theorem updCh_now (n : Ch) (f : Chan → Chan) (s : Dev) : (updCh n f s).now = s.now := rfl
@[simp] theorem updCh_objs (n : Ch) (f : Chan → Chan) (s : Dev) : (updCh n f s).objs = s.objs := rfl
@[simp] theorem updCh_free (n : Ch) (f : Chan → Chan) (s : Dev) : (updCh n f s).free = s.free := rfl
@[simp] theorem updCh_cad (n : Ch) (f : Chan → Chan) (s : Dev) : (updCh n f s).cad = s.cad := rfl
@[simp] theorem updCh_zh (n : Ch) (f : Chan → Chan) (s : Dev) : (updCh n f s).zh = s.zh := rfl
@[simp] theorem updCh_dies (n : Ch) (f : Chan → Chan) (s : Dev) : (updCh n f s).dies = s.dies := rfl
@[simp] theorem updCh_ctrlQueues (n : Ch) (f : Chan → Chan) (s : Dev) : (updCh n f s).ctrlQueues = s.ctrlQueues := rfl
@[simp] theorem updCh_ref (n : Ch) (f : Chan → Chan) (s : Dev) : (updCh n f s).ref = s.ref := rfl
@[simp] theorem updCh_ledger (n : Ch) (f : Chan → Chan) (s : Dev) : (updCh n f s).ledger = s.ledger := rfl
@[simp] theorem updCh_arb (n : Ch) (f : Chan → Chan) (s : Dev) : (updCh n f s).arb = s.arb := rfl
@[simp] theorem updCh_groups (n : Ch) (f : Chan → Chan) (s : Dev) : (updCh n f s).groups = s.groups := rfl
@[simp] theorem updCh_ports (n : Ch) (f : Chan → Chan) (s : Dev) : (updCh n f s).ports = s.ports := rfl
@[simp] theorem updCh_admitted (n : Ch) (f : Chan → Chan) (s : Dev) : (updCh n f s).admitted = s.admitted := rfl
@[simp] theorem updCh_portN (n : Ch) (f : Chan → Chan) (s : Dev) : (updCh n f s).portN = s.portN := rfl
@[simp] theorem updCh_events (n : Ch) (f : Chan → Chan) (s : Dev) : (updCh n f s).events = s.events := rfl
@[simp] theorem updCh_eventSeq (n : Ch) (f : Chan → Chan) (s : Dev) : (updCh n f s).eventSeq = s.eventSeq := rfl
@[simp] theorem updCh_fw (n : Ch) (f : Chan → Chan) (s : Dev) : (updCh n f s).fw = s.fw := rfl
@[simp] theorem updCh_sec (n : Ch) (f : Chan → Chan) (s : Dev) : (updCh n f s).sec = s.sec := rfl
@[simp] theorem updCh_supply (n : Ch) (f : Chan → Chan) (s : Dev) : (updCh n f s).supply = s.supply := rfl
@[simp] theorem updCh_control (n : Ch) (f : Chan → Chan) (s : Dev) : (updCh n f s).control = s.control := rfl
@[simp] theorem updCh_slate (n : Ch) (f : Chan → Chan) (s : Dev) : (updCh n f s).slate = s.slate := rfl
@[simp] theorem updCh_refault (n : Ch) (f : Chan → Chan) (s : Dev) : (updCh n f s).refault = s.refault := rfl

@[simp] theorem updDie_now (k : Die) (f : DieState → DieState) (s : Dev) : (updDie k f s).now = s.now := rfl
@[simp] theorem updDie_objs (k : Die) (f : DieState → DieState) (s : Dev) : (updDie k f s).objs = s.objs := rfl
@[simp] theorem updDie_free (k : Die) (f : DieState → DieState) (s : Dev) : (updDie k f s).free = s.free := rfl
@[simp] theorem updDie_cad (k : Die) (f : DieState → DieState) (s : Dev) : (updDie k f s).cad = s.cad := rfl
@[simp] theorem updDie_zh (k : Die) (f : DieState → DieState) (s : Dev) : (updDie k f s).zh = s.zh := rfl
@[simp] theorem updDie_chans (k : Die) (f : DieState → DieState) (s : Dev) : (updDie k f s).chans = s.chans := rfl
@[simp] theorem updDie_ctrlQueues (k : Die) (f : DieState → DieState) (s : Dev) : (updDie k f s).ctrlQueues = s.ctrlQueues := rfl
@[simp] theorem updDie_ref (k : Die) (f : DieState → DieState) (s : Dev) : (updDie k f s).ref = s.ref := rfl
@[simp] theorem updDie_ledger (k : Die) (f : DieState → DieState) (s : Dev) : (updDie k f s).ledger = s.ledger := rfl
@[simp] theorem updDie_arb (k : Die) (f : DieState → DieState) (s : Dev) : (updDie k f s).arb = s.arb := rfl
@[simp] theorem updDie_groups (k : Die) (f : DieState → DieState) (s : Dev) : (updDie k f s).groups = s.groups := rfl
@[simp] theorem updDie_ports (k : Die) (f : DieState → DieState) (s : Dev) : (updDie k f s).ports = s.ports := rfl
@[simp] theorem updDie_admitted (k : Die) (f : DieState → DieState) (s : Dev) : (updDie k f s).admitted = s.admitted := rfl
@[simp] theorem updDie_portN (k : Die) (f : DieState → DieState) (s : Dev) : (updDie k f s).portN = s.portN := rfl
@[simp] theorem updDie_events (k : Die) (f : DieState → DieState) (s : Dev) : (updDie k f s).events = s.events := rfl
@[simp] theorem updDie_eventSeq (k : Die) (f : DieState → DieState) (s : Dev) : (updDie k f s).eventSeq = s.eventSeq := rfl
@[simp] theorem updDie_fw (k : Die) (f : DieState → DieState) (s : Dev) : (updDie k f s).fw = s.fw := rfl
@[simp] theorem updDie_sec (k : Die) (f : DieState → DieState) (s : Dev) : (updDie k f s).sec = s.sec := rfl
@[simp] theorem updDie_supply (k : Die) (f : DieState → DieState) (s : Dev) : (updDie k f s).supply = s.supply := rfl
@[simp] theorem updDie_control (k : Die) (f : DieState → DieState) (s : Dev) : (updDie k f s).control = s.control := rfl
@[simp] theorem updDie_slate (k : Die) (f : DieState → DieState) (s : Dev) : (updDie k f s).slate = s.slate := rfl
@[simp] theorem updDie_refault (k : Die) (f : DieState → DieState) (s : Dev) : (updDie k f s).refault = s.refault := rfl

@[simp] theorem updPort_now (p : Port) (f : PortState → PortState) (s : Dev) : (updPort p f s).now = s.now := rfl
@[simp] theorem updPort_objs (p : Port) (f : PortState → PortState) (s : Dev) : (updPort p f s).objs = s.objs := rfl
@[simp] theorem updPort_free (p : Port) (f : PortState → PortState) (s : Dev) : (updPort p f s).free = s.free := rfl
@[simp] theorem updPort_cad (p : Port) (f : PortState → PortState) (s : Dev) : (updPort p f s).cad = s.cad := rfl
@[simp] theorem updPort_zh (p : Port) (f : PortState → PortState) (s : Dev) : (updPort p f s).zh = s.zh := rfl
@[simp] theorem updPort_dies (p : Port) (f : PortState → PortState) (s : Dev) : (updPort p f s).dies = s.dies := rfl
@[simp] theorem updPort_chans (p : Port) (f : PortState → PortState) (s : Dev) : (updPort p f s).chans = s.chans := rfl
@[simp] theorem updPort_ctrlQueues (p : Port) (f : PortState → PortState) (s : Dev) : (updPort p f s).ctrlQueues = s.ctrlQueues := rfl
@[simp] theorem updPort_ref (p : Port) (f : PortState → PortState) (s : Dev) : (updPort p f s).ref = s.ref := rfl
@[simp] theorem updPort_ledger (p : Port) (f : PortState → PortState) (s : Dev) : (updPort p f s).ledger = s.ledger := rfl
@[simp] theorem updPort_arb (p : Port) (f : PortState → PortState) (s : Dev) : (updPort p f s).arb = s.arb := rfl
@[simp] theorem updPort_groups (p : Port) (f : PortState → PortState) (s : Dev) : (updPort p f s).groups = s.groups := rfl
@[simp] theorem updPort_admitted (p : Port) (f : PortState → PortState) (s : Dev) : (updPort p f s).admitted = s.admitted := rfl
@[simp] theorem updPort_portN (p : Port) (f : PortState → PortState) (s : Dev) : (updPort p f s).portN = s.portN := rfl
@[simp] theorem updPort_events (p : Port) (f : PortState → PortState) (s : Dev) : (updPort p f s).events = s.events := rfl
@[simp] theorem updPort_eventSeq (p : Port) (f : PortState → PortState) (s : Dev) : (updPort p f s).eventSeq = s.eventSeq := rfl
@[simp] theorem updPort_fw (p : Port) (f : PortState → PortState) (s : Dev) : (updPort p f s).fw = s.fw := rfl
@[simp] theorem updPort_sec (p : Port) (f : PortState → PortState) (s : Dev) : (updPort p f s).sec = s.sec := rfl
@[simp] theorem updPort_supply (p : Port) (f : PortState → PortState) (s : Dev) : (updPort p f s).supply = s.supply := rfl
@[simp] theorem updPort_control (p : Port) (f : PortState → PortState) (s : Dev) : (updPort p f s).control = s.control := rfl
@[simp] theorem updPort_slate (p : Port) (f : PortState → PortState) (s : Dev) : (updPort p f s).slate = s.slate := rfl
@[simp] theorem updPort_refault (p : Port) (f : PortState → PortState) (s : Dev) : (updPort p f s).refault = s.refault := rfl

@[simp] theorem setAnswer_now (p : Port) (a : Answer) (s : Dev) : (setAnswer p a s).now = s.now := rfl
@[simp] theorem setAnswer_objs (p : Port) (a : Answer) (s : Dev) : (setAnswer p a s).objs = s.objs := rfl
@[simp] theorem setAnswer_free (p : Port) (a : Answer) (s : Dev) : (setAnswer p a s).free = s.free := rfl
@[simp] theorem setAnswer_cad (p : Port) (a : Answer) (s : Dev) : (setAnswer p a s).cad = s.cad := rfl
@[simp] theorem setAnswer_zh (p : Port) (a : Answer) (s : Dev) : (setAnswer p a s).zh = s.zh := rfl
@[simp] theorem setAnswer_dies (p : Port) (a : Answer) (s : Dev) : (setAnswer p a s).dies = s.dies := rfl
@[simp] theorem setAnswer_chans (p : Port) (a : Answer) (s : Dev) : (setAnswer p a s).chans = s.chans := rfl
@[simp] theorem setAnswer_ctrlQueues (p : Port) (a : Answer) (s : Dev) : (setAnswer p a s).ctrlQueues = s.ctrlQueues := rfl
@[simp] theorem setAnswer_ref (p : Port) (a : Answer) (s : Dev) : (setAnswer p a s).ref = s.ref := rfl
@[simp] theorem setAnswer_ledger (p : Port) (a : Answer) (s : Dev) : (setAnswer p a s).ledger = s.ledger := rfl
@[simp] theorem setAnswer_arb (p : Port) (a : Answer) (s : Dev) : (setAnswer p a s).arb = s.arb := rfl
@[simp] theorem setAnswer_groups (p : Port) (a : Answer) (s : Dev) : (setAnswer p a s).groups = s.groups := rfl
@[simp] theorem setAnswer_admitted (p : Port) (a : Answer) (s : Dev) : (setAnswer p a s).admitted = s.admitted := rfl
@[simp] theorem setAnswer_portN (p : Port) (a : Answer) (s : Dev) : (setAnswer p a s).portN = s.portN := rfl
@[simp] theorem setAnswer_events (p : Port) (a : Answer) (s : Dev) : (setAnswer p a s).events = s.events := rfl
@[simp] theorem setAnswer_eventSeq (p : Port) (a : Answer) (s : Dev) : (setAnswer p a s).eventSeq = s.eventSeq := rfl
@[simp] theorem setAnswer_fw (p : Port) (a : Answer) (s : Dev) : (setAnswer p a s).fw = s.fw := rfl
@[simp] theorem setAnswer_sec (p : Port) (a : Answer) (s : Dev) : (setAnswer p a s).sec = s.sec := rfl
@[simp] theorem setAnswer_supply (p : Port) (a : Answer) (s : Dev) : (setAnswer p a s).supply = s.supply := rfl
@[simp] theorem setAnswer_control (p : Port) (a : Answer) (s : Dev) : (setAnswer p a s).control = s.control := rfl
@[simp] theorem setAnswer_slate (p : Port) (a : Answer) (s : Dev) : (setAnswer p a s).slate = s.slate := rfl
@[simp] theorem setAnswer_refault (p : Port) (a : Answer) (s : Dev) : (setAnswer p a s).refault = s.refault := rfl

@[simp] theorem wrJ_now (s : Dev) (r : Row) (v : Nat) (l : List Nat) (j : Nat) : (wrJ s r v l j).now = s.now := rfl
@[simp] theorem wrJ_free (s : Dev) (r : Row) (v : Nat) (l : List Nat) (j : Nat) : (wrJ s r v l j).free = s.free := rfl
@[simp] theorem wrJ_cad (s : Dev) (r : Row) (v : Nat) (l : List Nat) (j : Nat) : (wrJ s r v l j).cad = s.cad := rfl
@[simp] theorem wrJ_zh (s : Dev) (r : Row) (v : Nat) (l : List Nat) (j : Nat) : (wrJ s r v l j).zh = s.zh := rfl
@[simp] theorem wrJ_dies (s : Dev) (r : Row) (v : Nat) (l : List Nat) (j : Nat) : (wrJ s r v l j).dies = s.dies := rfl
@[simp] theorem wrJ_chans (s : Dev) (r : Row) (v : Nat) (l : List Nat) (j : Nat) : (wrJ s r v l j).chans = s.chans := rfl
@[simp] theorem wrJ_ctrlQueues (s : Dev) (r : Row) (v : Nat) (l : List Nat) (j : Nat) : (wrJ s r v l j).ctrlQueues = s.ctrlQueues := rfl
@[simp] theorem wrJ_ref (s : Dev) (r : Row) (v : Nat) (l : List Nat) (j : Nat) : (wrJ s r v l j).ref = s.ref := rfl
@[simp] theorem wrJ_ledger (s : Dev) (r : Row) (v : Nat) (l : List Nat) (j : Nat) : (wrJ s r v l j).ledger = s.ledger := rfl
@[simp] theorem wrJ_arb (s : Dev) (r : Row) (v : Nat) (l : List Nat) (j : Nat) : (wrJ s r v l j).arb = s.arb := rfl
@[simp] theorem wrJ_groups (s : Dev) (r : Row) (v : Nat) (l : List Nat) (j : Nat) : (wrJ s r v l j).groups = s.groups := rfl
@[simp] theorem wrJ_ports (s : Dev) (r : Row) (v : Nat) (l : List Nat) (j : Nat) : (wrJ s r v l j).ports = s.ports := rfl
@[simp] theorem wrJ_admitted (s : Dev) (r : Row) (v : Nat) (l : List Nat) (j : Nat) : (wrJ s r v l j).admitted = s.admitted := rfl
@[simp] theorem wrJ_portN (s : Dev) (r : Row) (v : Nat) (l : List Nat) (j : Nat) : (wrJ s r v l j).portN = s.portN := rfl
@[simp] theorem wrJ_events (s : Dev) (r : Row) (v : Nat) (l : List Nat) (j : Nat) : (wrJ s r v l j).events = s.events := rfl
@[simp] theorem wrJ_eventSeq (s : Dev) (r : Row) (v : Nat) (l : List Nat) (j : Nat) : (wrJ s r v l j).eventSeq = s.eventSeq := rfl
@[simp] theorem wrJ_fw (s : Dev) (r : Row) (v : Nat) (l : List Nat) (j : Nat) : (wrJ s r v l j).fw = s.fw := rfl
@[simp] theorem wrJ_sec (s : Dev) (r : Row) (v : Nat) (l : List Nat) (j : Nat) : (wrJ s r v l j).sec = s.sec := rfl
@[simp] theorem wrJ_supply (s : Dev) (r : Row) (v : Nat) (l : List Nat) (j : Nat) : (wrJ s r v l j).supply = s.supply := rfl
@[simp] theorem wrJ_control (s : Dev) (r : Row) (v : Nat) (l : List Nat) (j : Nat) : (wrJ s r v l j).control = s.control := rfl
@[simp] theorem wrJ_slate (s : Dev) (r : Row) (v : Nat) (l : List Nat) (j : Nat) : (wrJ s r v l j).slate = s.slate := rfl
@[simp] theorem wrJ_refault (s : Dev) (r : Row) (v : Nat) (l : List Nat) (j : Nat) : (wrJ s r v l j).refault = s.refault := rfl

@[simp] theorem wr_now (s : Dev) (r : Row) (v : Nat) (l : List Nat) : (wr s r v l).now = s.now := rfl
@[simp] theorem wr_free (s : Dev) (r : Row) (v : Nat) (l : List Nat) : (wr s r v l).free = s.free := rfl
@[simp] theorem wr_cad (s : Dev) (r : Row) (v : Nat) (l : List Nat) : (wr s r v l).cad = s.cad := rfl
@[simp] theorem wr_zh (s : Dev) (r : Row) (v : Nat) (l : List Nat) : (wr s r v l).zh = s.zh := rfl
@[simp] theorem wr_dies (s : Dev) (r : Row) (v : Nat) (l : List Nat) : (wr s r v l).dies = s.dies := rfl
@[simp] theorem wr_chans (s : Dev) (r : Row) (v : Nat) (l : List Nat) : (wr s r v l).chans = s.chans := rfl
@[simp] theorem wr_ctrlQueues (s : Dev) (r : Row) (v : Nat) (l : List Nat) : (wr s r v l).ctrlQueues = s.ctrlQueues := rfl
@[simp] theorem wr_ref (s : Dev) (r : Row) (v : Nat) (l : List Nat) : (wr s r v l).ref = s.ref := rfl
@[simp] theorem wr_ledger (s : Dev) (r : Row) (v : Nat) (l : List Nat) : (wr s r v l).ledger = s.ledger := rfl
@[simp] theorem wr_arb (s : Dev) (r : Row) (v : Nat) (l : List Nat) : (wr s r v l).arb = s.arb := rfl
@[simp] theorem wr_groups (s : Dev) (r : Row) (v : Nat) (l : List Nat) : (wr s r v l).groups = s.groups := rfl
@[simp] theorem wr_ports (s : Dev) (r : Row) (v : Nat) (l : List Nat) : (wr s r v l).ports = s.ports := rfl
@[simp] theorem wr_admitted (s : Dev) (r : Row) (v : Nat) (l : List Nat) : (wr s r v l).admitted = s.admitted := rfl
@[simp] theorem wr_portN (s : Dev) (r : Row) (v : Nat) (l : List Nat) : (wr s r v l).portN = s.portN := rfl
@[simp] theorem wr_events (s : Dev) (r : Row) (v : Nat) (l : List Nat) : (wr s r v l).events = s.events := rfl
@[simp] theorem wr_eventSeq (s : Dev) (r : Row) (v : Nat) (l : List Nat) : (wr s r v l).eventSeq = s.eventSeq := rfl
@[simp] theorem wr_fw (s : Dev) (r : Row) (v : Nat) (l : List Nat) : (wr s r v l).fw = s.fw := rfl
@[simp] theorem wr_sec (s : Dev) (r : Row) (v : Nat) (l : List Nat) : (wr s r v l).sec = s.sec := rfl
@[simp] theorem wr_supply (s : Dev) (r : Row) (v : Nat) (l : List Nat) : (wr s r v l).supply = s.supply := rfl
@[simp] theorem wr_control (s : Dev) (r : Row) (v : Nat) (l : List Nat) : (wr s r v l).control = s.control := rfl
@[simp] theorem wr_slate (s : Dev) (r : Row) (v : Nat) (l : List Nat) : (wr s r v l).slate = s.slate := rfl
@[simp] theorem wr_refault (s : Dev) (r : Row) (v : Nat) (l : List Nat) : (wr s r v l).refault = s.refault := rfl

@[simp] theorem wrP_now (s : Dev) (r : Row) (p : Port) (v : Nat) (l : List Nat) : (wrP s r p v l).now = s.now := rfl
@[simp] theorem wrP_free (s : Dev) (r : Row) (p : Port) (v : Nat) (l : List Nat) : (wrP s r p v l).free = s.free := rfl
@[simp] theorem wrP_cad (s : Dev) (r : Row) (p : Port) (v : Nat) (l : List Nat) : (wrP s r p v l).cad = s.cad := rfl
@[simp] theorem wrP_zh (s : Dev) (r : Row) (p : Port) (v : Nat) (l : List Nat) : (wrP s r p v l).zh = s.zh := rfl
@[simp] theorem wrP_dies (s : Dev) (r : Row) (p : Port) (v : Nat) (l : List Nat) : (wrP s r p v l).dies = s.dies := rfl
@[simp] theorem wrP_chans (s : Dev) (r : Row) (p : Port) (v : Nat) (l : List Nat) : (wrP s r p v l).chans = s.chans := rfl
@[simp] theorem wrP_ctrlQueues (s : Dev) (r : Row) (p : Port) (v : Nat) (l : List Nat) : (wrP s r p v l).ctrlQueues = s.ctrlQueues := rfl
@[simp] theorem wrP_ref (s : Dev) (r : Row) (p : Port) (v : Nat) (l : List Nat) : (wrP s r p v l).ref = s.ref := rfl
@[simp] theorem wrP_ledger (s : Dev) (r : Row) (p : Port) (v : Nat) (l : List Nat) : (wrP s r p v l).ledger = s.ledger := rfl
@[simp] theorem wrP_arb (s : Dev) (r : Row) (p : Port) (v : Nat) (l : List Nat) : (wrP s r p v l).arb = s.arb := rfl
@[simp] theorem wrP_groups (s : Dev) (r : Row) (p : Port) (v : Nat) (l : List Nat) : (wrP s r p v l).groups = s.groups := rfl
@[simp] theorem wrP_ports (s : Dev) (r : Row) (p : Port) (v : Nat) (l : List Nat) : (wrP s r p v l).ports = s.ports := rfl
@[simp] theorem wrP_admitted (s : Dev) (r : Row) (p : Port) (v : Nat) (l : List Nat) : (wrP s r p v l).admitted = s.admitted := rfl
@[simp] theorem wrP_portN (s : Dev) (r : Row) (p : Port) (v : Nat) (l : List Nat) : (wrP s r p v l).portN = s.portN := rfl
@[simp] theorem wrP_events (s : Dev) (r : Row) (p : Port) (v : Nat) (l : List Nat) : (wrP s r p v l).events = s.events := rfl
@[simp] theorem wrP_eventSeq (s : Dev) (r : Row) (p : Port) (v : Nat) (l : List Nat) : (wrP s r p v l).eventSeq = s.eventSeq := rfl
@[simp] theorem wrP_fw (s : Dev) (r : Row) (p : Port) (v : Nat) (l : List Nat) : (wrP s r p v l).fw = s.fw := rfl
@[simp] theorem wrP_sec (s : Dev) (r : Row) (p : Port) (v : Nat) (l : List Nat) : (wrP s r p v l).sec = s.sec := rfl
@[simp] theorem wrP_supply (s : Dev) (r : Row) (p : Port) (v : Nat) (l : List Nat) : (wrP s r p v l).supply = s.supply := rfl
@[simp] theorem wrP_control (s : Dev) (r : Row) (p : Port) (v : Nat) (l : List Nat) : (wrP s r p v l).control = s.control := rfl
@[simp] theorem wrP_slate (s : Dev) (r : Row) (p : Port) (v : Nat) (l : List Nat) : (wrP s r p v l).slate = s.slate := rfl
@[simp] theorem wrP_refault (s : Dev) (r : Row) (p : Port) (v : Nat) (l : List Nat) : (wrP s r p v l).refault = s.refault := rfl

@[simp] theorem bumpBy_now (r : Row) (k : Nat) (l : List Nat) (s : Dev) : (bumpBy r k l s).now = s.now := rfl
@[simp] theorem bumpBy_free (r : Row) (k : Nat) (l : List Nat) (s : Dev) : (bumpBy r k l s).free = s.free := rfl
@[simp] theorem bumpBy_cad (r : Row) (k : Nat) (l : List Nat) (s : Dev) : (bumpBy r k l s).cad = s.cad := rfl
@[simp] theorem bumpBy_zh (r : Row) (k : Nat) (l : List Nat) (s : Dev) : (bumpBy r k l s).zh = s.zh := rfl
@[simp] theorem bumpBy_dies (r : Row) (k : Nat) (l : List Nat) (s : Dev) : (bumpBy r k l s).dies = s.dies := rfl
@[simp] theorem bumpBy_chans (r : Row) (k : Nat) (l : List Nat) (s : Dev) : (bumpBy r k l s).chans = s.chans := rfl
@[simp] theorem bumpBy_ctrlQueues (r : Row) (k : Nat) (l : List Nat) (s : Dev) : (bumpBy r k l s).ctrlQueues = s.ctrlQueues := rfl
@[simp] theorem bumpBy_ref (r : Row) (k : Nat) (l : List Nat) (s : Dev) : (bumpBy r k l s).ref = s.ref := rfl
@[simp] theorem bumpBy_ledger (r : Row) (k : Nat) (l : List Nat) (s : Dev) : (bumpBy r k l s).ledger = s.ledger := rfl
@[simp] theorem bumpBy_arb (r : Row) (k : Nat) (l : List Nat) (s : Dev) : (bumpBy r k l s).arb = s.arb := rfl
@[simp] theorem bumpBy_groups (r : Row) (k : Nat) (l : List Nat) (s : Dev) : (bumpBy r k l s).groups = s.groups := rfl
@[simp] theorem bumpBy_ports (r : Row) (k : Nat) (l : List Nat) (s : Dev) : (bumpBy r k l s).ports = s.ports := rfl
@[simp] theorem bumpBy_admitted (r : Row) (k : Nat) (l : List Nat) (s : Dev) : (bumpBy r k l s).admitted = s.admitted := rfl
@[simp] theorem bumpBy_portN (r : Row) (k : Nat) (l : List Nat) (s : Dev) : (bumpBy r k l s).portN = s.portN := rfl
@[simp] theorem bumpBy_events (r : Row) (k : Nat) (l : List Nat) (s : Dev) : (bumpBy r k l s).events = s.events := rfl
@[simp] theorem bumpBy_eventSeq (r : Row) (k : Nat) (l : List Nat) (s : Dev) : (bumpBy r k l s).eventSeq = s.eventSeq := rfl
@[simp] theorem bumpBy_fw (r : Row) (k : Nat) (l : List Nat) (s : Dev) : (bumpBy r k l s).fw = s.fw := rfl
@[simp] theorem bumpBy_sec (r : Row) (k : Nat) (l : List Nat) (s : Dev) : (bumpBy r k l s).sec = s.sec := rfl
@[simp] theorem bumpBy_supply (r : Row) (k : Nat) (l : List Nat) (s : Dev) : (bumpBy r k l s).supply = s.supply := rfl
@[simp] theorem bumpBy_control (r : Row) (k : Nat) (l : List Nat) (s : Dev) : (bumpBy r k l s).control = s.control := rfl
@[simp] theorem bumpBy_slate (r : Row) (k : Nat) (l : List Nat) (s : Dev) : (bumpBy r k l s).slate = s.slate := rfl
@[simp] theorem bumpBy_refault (r : Row) (k : Nat) (l : List Nat) (s : Dev) : (bumpBy r k l s).refault = s.refault := rfl

@[simp] theorem bump_now (r : Row) (l : List Nat) (s : Dev) : (bump r l s).now = s.now := rfl
@[simp] theorem bump_free (r : Row) (l : List Nat) (s : Dev) : (bump r l s).free = s.free := rfl
@[simp] theorem bump_cad (r : Row) (l : List Nat) (s : Dev) : (bump r l s).cad = s.cad := rfl
@[simp] theorem bump_zh (r : Row) (l : List Nat) (s : Dev) : (bump r l s).zh = s.zh := rfl
@[simp] theorem bump_dies (r : Row) (l : List Nat) (s : Dev) : (bump r l s).dies = s.dies := rfl
@[simp] theorem bump_chans (r : Row) (l : List Nat) (s : Dev) : (bump r l s).chans = s.chans := rfl
@[simp] theorem bump_ctrlQueues (r : Row) (l : List Nat) (s : Dev) : (bump r l s).ctrlQueues = s.ctrlQueues := rfl
@[simp] theorem bump_ref (r : Row) (l : List Nat) (s : Dev) : (bump r l s).ref = s.ref := rfl
@[simp] theorem bump_ledger (r : Row) (l : List Nat) (s : Dev) : (bump r l s).ledger = s.ledger := rfl
@[simp] theorem bump_arb (r : Row) (l : List Nat) (s : Dev) : (bump r l s).arb = s.arb := rfl
@[simp] theorem bump_groups (r : Row) (l : List Nat) (s : Dev) : (bump r l s).groups = s.groups := rfl
@[simp] theorem bump_ports (r : Row) (l : List Nat) (s : Dev) : (bump r l s).ports = s.ports := rfl
@[simp] theorem bump_admitted (r : Row) (l : List Nat) (s : Dev) : (bump r l s).admitted = s.admitted := rfl
@[simp] theorem bump_portN (r : Row) (l : List Nat) (s : Dev) : (bump r l s).portN = s.portN := rfl
@[simp] theorem bump_events (r : Row) (l : List Nat) (s : Dev) : (bump r l s).events = s.events := rfl
@[simp] theorem bump_eventSeq (r : Row) (l : List Nat) (s : Dev) : (bump r l s).eventSeq = s.eventSeq := rfl
@[simp] theorem bump_fw (r : Row) (l : List Nat) (s : Dev) : (bump r l s).fw = s.fw := rfl
@[simp] theorem bump_sec (r : Row) (l : List Nat) (s : Dev) : (bump r l s).sec = s.sec := rfl
@[simp] theorem bump_supply (r : Row) (l : List Nat) (s : Dev) : (bump r l s).supply = s.supply := rfl
@[simp] theorem bump_control (r : Row) (l : List Nat) (s : Dev) : (bump r l s).control = s.control := rfl
@[simp] theorem bump_slate (r : Row) (l : List Nat) (s : Dev) : (bump r l s).slate = s.slate := rfl
@[simp] theorem bump_refault (r : Row) (l : List Nat) (s : Dev) : (bump r l s).refault = s.refault := rfl

@[simp] theorem chFault_now (n : Ch) (b : Nat) (s : Dev) : (chFault n b s).now = s.now := rfl
@[simp] theorem chFault_free (n : Ch) (b : Nat) (s : Dev) : (chFault n b s).free = s.free := rfl
@[simp] theorem chFault_cad (n : Ch) (b : Nat) (s : Dev) : (chFault n b s).cad = s.cad := rfl
@[simp] theorem chFault_zh (n : Ch) (b : Nat) (s : Dev) : (chFault n b s).zh = s.zh := rfl
@[simp] theorem chFault_dies (n : Ch) (b : Nat) (s : Dev) : (chFault n b s).dies = s.dies := rfl
@[simp] theorem chFault_chans (n : Ch) (b : Nat) (s : Dev) : (chFault n b s).chans = s.chans := rfl
@[simp] theorem chFault_ctrlQueues (n : Ch) (b : Nat) (s : Dev) : (chFault n b s).ctrlQueues = s.ctrlQueues := rfl
@[simp] theorem chFault_ref (n : Ch) (b : Nat) (s : Dev) : (chFault n b s).ref = s.ref := rfl
@[simp] theorem chFault_ledger (n : Ch) (b : Nat) (s : Dev) : (chFault n b s).ledger = s.ledger := rfl
@[simp] theorem chFault_arb (n : Ch) (b : Nat) (s : Dev) : (chFault n b s).arb = s.arb := rfl
@[simp] theorem chFault_groups (n : Ch) (b : Nat) (s : Dev) : (chFault n b s).groups = s.groups := rfl
@[simp] theorem chFault_ports (n : Ch) (b : Nat) (s : Dev) : (chFault n b s).ports = s.ports := rfl
@[simp] theorem chFault_admitted (n : Ch) (b : Nat) (s : Dev) : (chFault n b s).admitted = s.admitted := rfl
@[simp] theorem chFault_portN (n : Ch) (b : Nat) (s : Dev) : (chFault n b s).portN = s.portN := rfl
@[simp] theorem chFault_events (n : Ch) (b : Nat) (s : Dev) : (chFault n b s).events = s.events := rfl
@[simp] theorem chFault_eventSeq (n : Ch) (b : Nat) (s : Dev) : (chFault n b s).eventSeq = s.eventSeq := rfl
@[simp] theorem chFault_fw (n : Ch) (b : Nat) (s : Dev) : (chFault n b s).fw = s.fw := rfl
@[simp] theorem chFault_sec (n : Ch) (b : Nat) (s : Dev) : (chFault n b s).sec = s.sec := rfl
@[simp] theorem chFault_supply (n : Ch) (b : Nat) (s : Dev) : (chFault n b s).supply = s.supply := rfl
@[simp] theorem chFault_control (n : Ch) (b : Nat) (s : Dev) : (chFault n b s).control = s.control := rfl
@[simp] theorem chFault_slate (n : Ch) (b : Nat) (s : Dev) : (chFault n b s).slate = s.slate := rfl
@[simp] theorem chFault_refault (n : Ch) (b : Nat) (s : Dev) : (chFault n b s).refault = s.refault := rfl

@[simp] theorem logEventAt_now (c a b q : Nat) (s : Dev) : (logEventAt c a b q s).now = s.now := rfl
@[simp] theorem logEventAt_free (c a b q : Nat) (s : Dev) : (logEventAt c a b q s).free = s.free := rfl
@[simp] theorem logEventAt_cad (c a b q : Nat) (s : Dev) : (logEventAt c a b q s).cad = s.cad := rfl
@[simp] theorem logEventAt_zh (c a b q : Nat) (s : Dev) : (logEventAt c a b q s).zh = s.zh := rfl
@[simp] theorem logEventAt_dies (c a b q : Nat) (s : Dev) : (logEventAt c a b q s).dies = s.dies := rfl
@[simp] theorem logEventAt_chans (c a b q : Nat) (s : Dev) : (logEventAt c a b q s).chans = s.chans := rfl
@[simp] theorem logEventAt_ctrlQueues (c a b q : Nat) (s : Dev) : (logEventAt c a b q s).ctrlQueues = s.ctrlQueues := rfl
@[simp] theorem logEventAt_ref (c a b q : Nat) (s : Dev) : (logEventAt c a b q s).ref = s.ref := rfl
@[simp] theorem logEventAt_ledger (c a b q : Nat) (s : Dev) : (logEventAt c a b q s).ledger = s.ledger := rfl
@[simp] theorem logEventAt_arb (c a b q : Nat) (s : Dev) : (logEventAt c a b q s).arb = s.arb := rfl
@[simp] theorem logEventAt_groups (c a b q : Nat) (s : Dev) : (logEventAt c a b q s).groups = s.groups := rfl
@[simp] theorem logEventAt_ports (c a b q : Nat) (s : Dev) : (logEventAt c a b q s).ports = s.ports := rfl
@[simp] theorem logEventAt_admitted (c a b q : Nat) (s : Dev) : (logEventAt c a b q s).admitted = s.admitted := rfl
@[simp] theorem logEventAt_portN (c a b q : Nat) (s : Dev) : (logEventAt c a b q s).portN = s.portN := rfl
@[simp] theorem logEventAt_fw (c a b q : Nat) (s : Dev) : (logEventAt c a b q s).fw = s.fw := rfl
@[simp] theorem logEventAt_sec (c a b q : Nat) (s : Dev) : (logEventAt c a b q s).sec = s.sec := rfl
@[simp] theorem logEventAt_supply (c a b q : Nat) (s : Dev) : (logEventAt c a b q s).supply = s.supply := rfl
@[simp] theorem logEventAt_control (c a b q : Nat) (s : Dev) : (logEventAt c a b q s).control = s.control := rfl
@[simp] theorem logEventAt_slate (c a b q : Nat) (s : Dev) : (logEventAt c a b q s).slate = s.slate := rfl
@[simp] theorem logEventAt_refault (c a b q : Nat) (s : Dev) : (logEventAt c a b q s).refault = s.refault := rfl

@[simp] theorem logEvent_now (c a b : Nat) (s : Dev) : (logEvent c a b s).now = s.now := rfl
@[simp] theorem logEvent_free (c a b : Nat) (s : Dev) : (logEvent c a b s).free = s.free := rfl
@[simp] theorem logEvent_cad (c a b : Nat) (s : Dev) : (logEvent c a b s).cad = s.cad := rfl
@[simp] theorem logEvent_zh (c a b : Nat) (s : Dev) : (logEvent c a b s).zh = s.zh := rfl
@[simp] theorem logEvent_dies (c a b : Nat) (s : Dev) : (logEvent c a b s).dies = s.dies := rfl
@[simp] theorem logEvent_chans (c a b : Nat) (s : Dev) : (logEvent c a b s).chans = s.chans := rfl
@[simp] theorem logEvent_ctrlQueues (c a b : Nat) (s : Dev) : (logEvent c a b s).ctrlQueues = s.ctrlQueues := rfl
@[simp] theorem logEvent_ref (c a b : Nat) (s : Dev) : (logEvent c a b s).ref = s.ref := rfl
@[simp] theorem logEvent_ledger (c a b : Nat) (s : Dev) : (logEvent c a b s).ledger = s.ledger := rfl
@[simp] theorem logEvent_arb (c a b : Nat) (s : Dev) : (logEvent c a b s).arb = s.arb := rfl
@[simp] theorem logEvent_groups (c a b : Nat) (s : Dev) : (logEvent c a b s).groups = s.groups := rfl
@[simp] theorem logEvent_ports (c a b : Nat) (s : Dev) : (logEvent c a b s).ports = s.ports := rfl
@[simp] theorem logEvent_admitted (c a b : Nat) (s : Dev) : (logEvent c a b s).admitted = s.admitted := rfl
@[simp] theorem logEvent_portN (c a b : Nat) (s : Dev) : (logEvent c a b s).portN = s.portN := rfl
@[simp] theorem logEvent_fw (c a b : Nat) (s : Dev) : (logEvent c a b s).fw = s.fw := rfl
@[simp] theorem logEvent_sec (c a b : Nat) (s : Dev) : (logEvent c a b s).sec = s.sec := rfl
@[simp] theorem logEvent_supply (c a b : Nat) (s : Dev) : (logEvent c a b s).supply = s.supply := rfl
@[simp] theorem logEvent_control (c a b : Nat) (s : Dev) : (logEvent c a b s).control = s.control := rfl
@[simp] theorem logEvent_slate (c a b : Nat) (s : Dev) : (logEvent c a b s).slate = s.slate := rfl
@[simp] theorem logEvent_refault (c a b : Nat) (s : Dev) : (logEvent c a b s).refault = s.refault := rfl

@[simp] theorem nextFree_now (s : Dev) : (nextFree s).now = s.now := rfl
@[simp] theorem nextFree_objs (s : Dev) : (nextFree s).objs = s.objs := rfl
@[simp] theorem nextFree_cad (s : Dev) : (nextFree s).cad = s.cad := rfl
@[simp] theorem nextFree_zh (s : Dev) : (nextFree s).zh = s.zh := rfl
@[simp] theorem nextFree_dies (s : Dev) : (nextFree s).dies = s.dies := rfl
@[simp] theorem nextFree_chans (s : Dev) : (nextFree s).chans = s.chans := rfl
@[simp] theorem nextFree_ctrlQueues (s : Dev) : (nextFree s).ctrlQueues = s.ctrlQueues := rfl
@[simp] theorem nextFree_ref (s : Dev) : (nextFree s).ref = s.ref := rfl
@[simp] theorem nextFree_ledger (s : Dev) : (nextFree s).ledger = s.ledger := rfl
@[simp] theorem nextFree_arb (s : Dev) : (nextFree s).arb = s.arb := rfl
@[simp] theorem nextFree_groups (s : Dev) : (nextFree s).groups = s.groups := rfl
@[simp] theorem nextFree_ports (s : Dev) : (nextFree s).ports = s.ports := rfl
@[simp] theorem nextFree_admitted (s : Dev) : (nextFree s).admitted = s.admitted := rfl
@[simp] theorem nextFree_portN (s : Dev) : (nextFree s).portN = s.portN := rfl
@[simp] theorem nextFree_events (s : Dev) : (nextFree s).events = s.events := rfl
@[simp] theorem nextFree_eventSeq (s : Dev) : (nextFree s).eventSeq = s.eventSeq := rfl
@[simp] theorem nextFree_fw (s : Dev) : (nextFree s).fw = s.fw := rfl
@[simp] theorem nextFree_sec (s : Dev) : (nextFree s).sec = s.sec := rfl
@[simp] theorem nextFree_supply (s : Dev) : (nextFree s).supply = s.supply := rfl
@[simp] theorem nextFree_control (s : Dev) : (nextFree s).control = s.control := rfl
@[simp] theorem nextFree_slate (s : Dev) : (nextFree s).slate = s.slate := rfl
@[simp] theorem nextFree_refault (s : Dev) : (nextFree s).refault = s.refault := rfl

@[simp] theorem updLink_now (k : Die) (f : Link → Link) (s : Dev) : (updLink k f s).now = s.now := rfl
@[simp] theorem updLink_objs (k : Die) (f : Link → Link) (s : Dev) : (updLink k f s).objs = s.objs := rfl
@[simp] theorem updLink_free (k : Die) (f : Link → Link) (s : Dev) : (updLink k f s).free = s.free := rfl
@[simp] theorem updLink_cad (k : Die) (f : Link → Link) (s : Dev) : (updLink k f s).cad = s.cad := rfl
@[simp] theorem updLink_zh (k : Die) (f : Link → Link) (s : Dev) : (updLink k f s).zh = s.zh := rfl
@[simp] theorem updLink_chans (k : Die) (f : Link → Link) (s : Dev) : (updLink k f s).chans = s.chans := rfl
@[simp] theorem updLink_ctrlQueues (k : Die) (f : Link → Link) (s : Dev) : (updLink k f s).ctrlQueues = s.ctrlQueues := rfl
@[simp] theorem updLink_ref (k : Die) (f : Link → Link) (s : Dev) : (updLink k f s).ref = s.ref := rfl
@[simp] theorem updLink_ledger (k : Die) (f : Link → Link) (s : Dev) : (updLink k f s).ledger = s.ledger := rfl
@[simp] theorem updLink_arb (k : Die) (f : Link → Link) (s : Dev) : (updLink k f s).arb = s.arb := rfl
@[simp] theorem updLink_groups (k : Die) (f : Link → Link) (s : Dev) : (updLink k f s).groups = s.groups := rfl
@[simp] theorem updLink_ports (k : Die) (f : Link → Link) (s : Dev) : (updLink k f s).ports = s.ports := rfl
@[simp] theorem updLink_admitted (k : Die) (f : Link → Link) (s : Dev) : (updLink k f s).admitted = s.admitted := rfl
@[simp] theorem updLink_portN (k : Die) (f : Link → Link) (s : Dev) : (updLink k f s).portN = s.portN := rfl
@[simp] theorem updLink_events (k : Die) (f : Link → Link) (s : Dev) : (updLink k f s).events = s.events := rfl
@[simp] theorem updLink_eventSeq (k : Die) (f : Link → Link) (s : Dev) : (updLink k f s).eventSeq = s.eventSeq := rfl
@[simp] theorem updLink_fw (k : Die) (f : Link → Link) (s : Dev) : (updLink k f s).fw = s.fw := rfl
@[simp] theorem updLink_sec (k : Die) (f : Link → Link) (s : Dev) : (updLink k f s).sec = s.sec := rfl
@[simp] theorem updLink_supply (k : Die) (f : Link → Link) (s : Dev) : (updLink k f s).supply = s.supply := rfl
@[simp] theorem updLink_control (k : Die) (f : Link → Link) (s : Dev) : (updLink k f s).control = s.control := rfl
@[simp] theorem updLink_slate (k : Die) (f : Link → Link) (s : Dev) : (updLink k f s).slate = s.slate := rfl
@[simp] theorem updLink_refault (k : Die) (f : Link → Link) (s : Dev) : (updLink k f s).refault = s.refault := rfl

@[simp] theorem updServices_now (k : Die) (f : Services → Services) (s : Dev) : (updServices k f s).now = s.now := rfl
@[simp] theorem updServices_objs (k : Die) (f : Services → Services) (s : Dev) : (updServices k f s).objs = s.objs := rfl
@[simp] theorem updServices_free (k : Die) (f : Services → Services) (s : Dev) : (updServices k f s).free = s.free := rfl
@[simp] theorem updServices_cad (k : Die) (f : Services → Services) (s : Dev) : (updServices k f s).cad = s.cad := rfl
@[simp] theorem updServices_zh (k : Die) (f : Services → Services) (s : Dev) : (updServices k f s).zh = s.zh := rfl
@[simp] theorem updServices_chans (k : Die) (f : Services → Services) (s : Dev) : (updServices k f s).chans = s.chans := rfl
@[simp] theorem updServices_ctrlQueues (k : Die) (f : Services → Services) (s : Dev) : (updServices k f s).ctrlQueues = s.ctrlQueues := rfl
@[simp] theorem updServices_ref (k : Die) (f : Services → Services) (s : Dev) : (updServices k f s).ref = s.ref := rfl
@[simp] theorem updServices_ledger (k : Die) (f : Services → Services) (s : Dev) : (updServices k f s).ledger = s.ledger := rfl
@[simp] theorem updServices_arb (k : Die) (f : Services → Services) (s : Dev) : (updServices k f s).arb = s.arb := rfl
@[simp] theorem updServices_groups (k : Die) (f : Services → Services) (s : Dev) : (updServices k f s).groups = s.groups := rfl
@[simp] theorem updServices_ports (k : Die) (f : Services → Services) (s : Dev) : (updServices k f s).ports = s.ports := rfl
@[simp] theorem updServices_admitted (k : Die) (f : Services → Services) (s : Dev) : (updServices k f s).admitted = s.admitted := rfl
@[simp] theorem updServices_portN (k : Die) (f : Services → Services) (s : Dev) : (updServices k f s).portN = s.portN := rfl
@[simp] theorem updServices_events (k : Die) (f : Services → Services) (s : Dev) : (updServices k f s).events = s.events := rfl
@[simp] theorem updServices_eventSeq (k : Die) (f : Services → Services) (s : Dev) : (updServices k f s).eventSeq = s.eventSeq := rfl
@[simp] theorem updServices_fw (k : Die) (f : Services → Services) (s : Dev) : (updServices k f s).fw = s.fw := rfl
@[simp] theorem updServices_sec (k : Die) (f : Services → Services) (s : Dev) : (updServices k f s).sec = s.sec := rfl
@[simp] theorem updServices_supply (k : Die) (f : Services → Services) (s : Dev) : (updServices k f s).supply = s.supply := rfl
@[simp] theorem updServices_control (k : Die) (f : Services → Services) (s : Dev) : (updServices k f s).control = s.control := rfl
@[simp] theorem updServices_slate (k : Die) (f : Services → Services) (s : Dev) : (updServices k f s).slate = s.slate := rfl
@[simp] theorem updServices_refault (k : Die) (f : Services → Services) (s : Dev) : (updServices k f s).refault = s.refault := rfl

@[simp] theorem updRef_now (f : RefDie → RefDie) (s : Dev) : (updRef f s).now = s.now := rfl
@[simp] theorem updRef_objs (f : RefDie → RefDie) (s : Dev) : (updRef f s).objs = s.objs := rfl
@[simp] theorem updRef_free (f : RefDie → RefDie) (s : Dev) : (updRef f s).free = s.free := rfl
@[simp] theorem updRef_cad (f : RefDie → RefDie) (s : Dev) : (updRef f s).cad = s.cad := rfl
@[simp] theorem updRef_zh (f : RefDie → RefDie) (s : Dev) : (updRef f s).zh = s.zh := rfl
@[simp] theorem updRef_dies (f : RefDie → RefDie) (s : Dev) : (updRef f s).dies = s.dies := rfl
@[simp] theorem updRef_chans (f : RefDie → RefDie) (s : Dev) : (updRef f s).chans = s.chans := rfl
@[simp] theorem updRef_ctrlQueues (f : RefDie → RefDie) (s : Dev) : (updRef f s).ctrlQueues = s.ctrlQueues := rfl
@[simp] theorem updRef_ledger (f : RefDie → RefDie) (s : Dev) : (updRef f s).ledger = s.ledger := rfl
@[simp] theorem updRef_arb (f : RefDie → RefDie) (s : Dev) : (updRef f s).arb = s.arb := rfl
@[simp] theorem updRef_groups (f : RefDie → RefDie) (s : Dev) : (updRef f s).groups = s.groups := rfl
@[simp] theorem updRef_ports (f : RefDie → RefDie) (s : Dev) : (updRef f s).ports = s.ports := rfl
@[simp] theorem updRef_admitted (f : RefDie → RefDie) (s : Dev) : (updRef f s).admitted = s.admitted := rfl
@[simp] theorem updRef_portN (f : RefDie → RefDie) (s : Dev) : (updRef f s).portN = s.portN := rfl
@[simp] theorem updRef_events (f : RefDie → RefDie) (s : Dev) : (updRef f s).events = s.events := rfl
@[simp] theorem updRef_eventSeq (f : RefDie → RefDie) (s : Dev) : (updRef f s).eventSeq = s.eventSeq := rfl
@[simp] theorem updRef_fw (f : RefDie → RefDie) (s : Dev) : (updRef f s).fw = s.fw := rfl
@[simp] theorem updRef_sec (f : RefDie → RefDie) (s : Dev) : (updRef f s).sec = s.sec := rfl
@[simp] theorem updRef_supply (f : RefDie → RefDie) (s : Dev) : (updRef f s).supply = s.supply := rfl
@[simp] theorem updRef_control (f : RefDie → RefDie) (s : Dev) : (updRef f s).control = s.control := rfl
@[simp] theorem updRef_slate (f : RefDie → RefDie) (s : Dev) : (updRef f s).slate = s.slate := rfl
@[simp] theorem updRef_refault (f : RefDie → RefDie) (s : Dev) : (updRef f s).refault = s.refault := rfl

@[simp] theorem updLedger_now (f : Ledger → Ledger) (s : Dev) : (updLedger f s).now = s.now := rfl
@[simp] theorem updLedger_objs (f : Ledger → Ledger) (s : Dev) : (updLedger f s).objs = s.objs := rfl
@[simp] theorem updLedger_free (f : Ledger → Ledger) (s : Dev) : (updLedger f s).free = s.free := rfl
@[simp] theorem updLedger_cad (f : Ledger → Ledger) (s : Dev) : (updLedger f s).cad = s.cad := rfl
@[simp] theorem updLedger_zh (f : Ledger → Ledger) (s : Dev) : (updLedger f s).zh = s.zh := rfl
@[simp] theorem updLedger_dies (f : Ledger → Ledger) (s : Dev) : (updLedger f s).dies = s.dies := rfl
@[simp] theorem updLedger_chans (f : Ledger → Ledger) (s : Dev) : (updLedger f s).chans = s.chans := rfl
@[simp] theorem updLedger_ctrlQueues (f : Ledger → Ledger) (s : Dev) : (updLedger f s).ctrlQueues = s.ctrlQueues := rfl
@[simp] theorem updLedger_ref (f : Ledger → Ledger) (s : Dev) : (updLedger f s).ref = s.ref := rfl
@[simp] theorem updLedger_arb (f : Ledger → Ledger) (s : Dev) : (updLedger f s).arb = s.arb := rfl
@[simp] theorem updLedger_groups (f : Ledger → Ledger) (s : Dev) : (updLedger f s).groups = s.groups := rfl
@[simp] theorem updLedger_ports (f : Ledger → Ledger) (s : Dev) : (updLedger f s).ports = s.ports := rfl
@[simp] theorem updLedger_admitted (f : Ledger → Ledger) (s : Dev) : (updLedger f s).admitted = s.admitted := rfl
@[simp] theorem updLedger_portN (f : Ledger → Ledger) (s : Dev) : (updLedger f s).portN = s.portN := rfl
@[simp] theorem updLedger_events (f : Ledger → Ledger) (s : Dev) : (updLedger f s).events = s.events := rfl
@[simp] theorem updLedger_eventSeq (f : Ledger → Ledger) (s : Dev) : (updLedger f s).eventSeq = s.eventSeq := rfl
@[simp] theorem updLedger_fw (f : Ledger → Ledger) (s : Dev) : (updLedger f s).fw = s.fw := rfl
@[simp] theorem updLedger_sec (f : Ledger → Ledger) (s : Dev) : (updLedger f s).sec = s.sec := rfl
@[simp] theorem updLedger_supply (f : Ledger → Ledger) (s : Dev) : (updLedger f s).supply = s.supply := rfl
@[simp] theorem updLedger_control (f : Ledger → Ledger) (s : Dev) : (updLedger f s).control = s.control := rfl
@[simp] theorem updLedger_slate (f : Ledger → Ledger) (s : Dev) : (updLedger f s).slate = s.slate := rfl
@[simp] theorem updLedger_refault (f : Ledger → Ledger) (s : Dev) : (updLedger f s).refault = s.refault := rfl

@[simp] theorem updPower_now (f : Power → Power) (s : Dev) : (updPower f s).now = s.now := rfl
@[simp] theorem updPower_objs (f : Power → Power) (s : Dev) : (updPower f s).objs = s.objs := rfl
@[simp] theorem updPower_free (f : Power → Power) (s : Dev) : (updPower f s).free = s.free := rfl
@[simp] theorem updPower_cad (f : Power → Power) (s : Dev) : (updPower f s).cad = s.cad := rfl
@[simp] theorem updPower_zh (f : Power → Power) (s : Dev) : (updPower f s).zh = s.zh := rfl
@[simp] theorem updPower_dies (f : Power → Power) (s : Dev) : (updPower f s).dies = s.dies := rfl
@[simp] theorem updPower_chans (f : Power → Power) (s : Dev) : (updPower f s).chans = s.chans := rfl
@[simp] theorem updPower_ctrlQueues (f : Power → Power) (s : Dev) : (updPower f s).ctrlQueues = s.ctrlQueues := rfl
@[simp] theorem updPower_ref (f : Power → Power) (s : Dev) : (updPower f s).ref = s.ref := rfl
@[simp] theorem updPower_ledger (f : Power → Power) (s : Dev) : (updPower f s).ledger = s.ledger := rfl
@[simp] theorem updPower_arb (f : Power → Power) (s : Dev) : (updPower f s).arb = s.arb := rfl
@[simp] theorem updPower_groups (f : Power → Power) (s : Dev) : (updPower f s).groups = s.groups := rfl
@[simp] theorem updPower_ports (f : Power → Power) (s : Dev) : (updPower f s).ports = s.ports := rfl
@[simp] theorem updPower_admitted (f : Power → Power) (s : Dev) : (updPower f s).admitted = s.admitted := rfl
@[simp] theorem updPower_portN (f : Power → Power) (s : Dev) : (updPower f s).portN = s.portN := rfl
@[simp] theorem updPower_events (f : Power → Power) (s : Dev) : (updPower f s).events = s.events := rfl
@[simp] theorem updPower_eventSeq (f : Power → Power) (s : Dev) : (updPower f s).eventSeq = s.eventSeq := rfl
@[simp] theorem updPower_fw (f : Power → Power) (s : Dev) : (updPower f s).fw = s.fw := rfl
@[simp] theorem updPower_sec (f : Power → Power) (s : Dev) : (updPower f s).sec = s.sec := rfl
@[simp] theorem updPower_control (f : Power → Power) (s : Dev) : (updPower f s).control = s.control := rfl
@[simp] theorem updPower_slate (f : Power → Power) (s : Dev) : (updPower f s).slate = s.slate := rfl
@[simp] theorem updPower_refault (f : Power → Power) (s : Dev) : (updPower f s).refault = s.refault := rfl

@[simp] theorem updControl_now (f : Control → Control) (s : Dev) : (updControl f s).now = s.now := rfl
@[simp] theorem updControl_objs (f : Control → Control) (s : Dev) : (updControl f s).objs = s.objs := rfl
@[simp] theorem updControl_free (f : Control → Control) (s : Dev) : (updControl f s).free = s.free := rfl
@[simp] theorem updControl_cad (f : Control → Control) (s : Dev) : (updControl f s).cad = s.cad := rfl
@[simp] theorem updControl_zh (f : Control → Control) (s : Dev) : (updControl f s).zh = s.zh := rfl
@[simp] theorem updControl_dies (f : Control → Control) (s : Dev) : (updControl f s).dies = s.dies := rfl
@[simp] theorem updControl_chans (f : Control → Control) (s : Dev) : (updControl f s).chans = s.chans := rfl
@[simp] theorem updControl_ctrlQueues (f : Control → Control) (s : Dev) : (updControl f s).ctrlQueues = s.ctrlQueues := rfl
@[simp] theorem updControl_ref (f : Control → Control) (s : Dev) : (updControl f s).ref = s.ref := rfl
@[simp] theorem updControl_ledger (f : Control → Control) (s : Dev) : (updControl f s).ledger = s.ledger := rfl
@[simp] theorem updControl_arb (f : Control → Control) (s : Dev) : (updControl f s).arb = s.arb := rfl
@[simp] theorem updControl_groups (f : Control → Control) (s : Dev) : (updControl f s).groups = s.groups := rfl
@[simp] theorem updControl_ports (f : Control → Control) (s : Dev) : (updControl f s).ports = s.ports := rfl
@[simp] theorem updControl_admitted (f : Control → Control) (s : Dev) : (updControl f s).admitted = s.admitted := rfl
@[simp] theorem updControl_portN (f : Control → Control) (s : Dev) : (updControl f s).portN = s.portN := rfl
@[simp] theorem updControl_events (f : Control → Control) (s : Dev) : (updControl f s).events = s.events := rfl
@[simp] theorem updControl_eventSeq (f : Control → Control) (s : Dev) : (updControl f s).eventSeq = s.eventSeq := rfl
@[simp] theorem updControl_fw (f : Control → Control) (s : Dev) : (updControl f s).fw = s.fw := rfl
@[simp] theorem updControl_sec (f : Control → Control) (s : Dev) : (updControl f s).sec = s.sec := rfl
@[simp] theorem updControl_supply (f : Control → Control) (s : Dev) : (updControl f s).supply = s.supply := rfl
@[simp] theorem updControl_slate (f : Control → Control) (s : Dev) : (updControl f s).slate = s.slate := rfl
@[simp] theorem updControl_refault (f : Control → Control) (s : Dev) : (updControl f s).refault = s.refault := rfl

@[simp] theorem updPortN_now (f : PortN → PortN) (s : Dev) : (updPortN f s).now = s.now := rfl
@[simp] theorem updPortN_objs (f : PortN → PortN) (s : Dev) : (updPortN f s).objs = s.objs := rfl
@[simp] theorem updPortN_free (f : PortN → PortN) (s : Dev) : (updPortN f s).free = s.free := rfl
@[simp] theorem updPortN_cad (f : PortN → PortN) (s : Dev) : (updPortN f s).cad = s.cad := rfl
@[simp] theorem updPortN_zh (f : PortN → PortN) (s : Dev) : (updPortN f s).zh = s.zh := rfl
@[simp] theorem updPortN_dies (f : PortN → PortN) (s : Dev) : (updPortN f s).dies = s.dies := rfl
@[simp] theorem updPortN_chans (f : PortN → PortN) (s : Dev) : (updPortN f s).chans = s.chans := rfl
@[simp] theorem updPortN_ctrlQueues (f : PortN → PortN) (s : Dev) : (updPortN f s).ctrlQueues = s.ctrlQueues := rfl
@[simp] theorem updPortN_ref (f : PortN → PortN) (s : Dev) : (updPortN f s).ref = s.ref := rfl
@[simp] theorem updPortN_ledger (f : PortN → PortN) (s : Dev) : (updPortN f s).ledger = s.ledger := rfl
@[simp] theorem updPortN_arb (f : PortN → PortN) (s : Dev) : (updPortN f s).arb = s.arb := rfl
@[simp] theorem updPortN_groups (f : PortN → PortN) (s : Dev) : (updPortN f s).groups = s.groups := rfl
@[simp] theorem updPortN_ports (f : PortN → PortN) (s : Dev) : (updPortN f s).ports = s.ports := rfl
@[simp] theorem updPortN_admitted (f : PortN → PortN) (s : Dev) : (updPortN f s).admitted = s.admitted := rfl
@[simp] theorem updPortN_events (f : PortN → PortN) (s : Dev) : (updPortN f s).events = s.events := rfl
@[simp] theorem updPortN_eventSeq (f : PortN → PortN) (s : Dev) : (updPortN f s).eventSeq = s.eventSeq := rfl
@[simp] theorem updPortN_fw (f : PortN → PortN) (s : Dev) : (updPortN f s).fw = s.fw := rfl
@[simp] theorem updPortN_sec (f : PortN → PortN) (s : Dev) : (updPortN f s).sec = s.sec := rfl
@[simp] theorem updPortN_supply (f : PortN → PortN) (s : Dev) : (updPortN f s).supply = s.supply := rfl
@[simp] theorem updPortN_control (f : PortN → PortN) (s : Dev) : (updPortN f s).control = s.control := rfl
@[simp] theorem updPortN_slate (f : PortN → PortN) (s : Dev) : (updPortN f s).slate = s.slate := rfl
@[simp] theorem updPortN_refault (f : PortN → PortN) (s : Dev) : (updPortN f s).refault = s.refault := rfl

@[simp] theorem updFw_now (f : Firmware → Firmware) (s : Dev) : (updFw f s).now = s.now := rfl
@[simp] theorem updFw_objs (f : Firmware → Firmware) (s : Dev) : (updFw f s).objs = s.objs := rfl
@[simp] theorem updFw_free (f : Firmware → Firmware) (s : Dev) : (updFw f s).free = s.free := rfl
@[simp] theorem updFw_cad (f : Firmware → Firmware) (s : Dev) : (updFw f s).cad = s.cad := rfl
@[simp] theorem updFw_zh (f : Firmware → Firmware) (s : Dev) : (updFw f s).zh = s.zh := rfl
@[simp] theorem updFw_dies (f : Firmware → Firmware) (s : Dev) : (updFw f s).dies = s.dies := rfl
@[simp] theorem updFw_chans (f : Firmware → Firmware) (s : Dev) : (updFw f s).chans = s.chans := rfl
@[simp] theorem updFw_ctrlQueues (f : Firmware → Firmware) (s : Dev) : (updFw f s).ctrlQueues = s.ctrlQueues := rfl
@[simp] theorem updFw_ref (f : Firmware → Firmware) (s : Dev) : (updFw f s).ref = s.ref := rfl
@[simp] theorem updFw_ledger (f : Firmware → Firmware) (s : Dev) : (updFw f s).ledger = s.ledger := rfl
@[simp] theorem updFw_arb (f : Firmware → Firmware) (s : Dev) : (updFw f s).arb = s.arb := rfl
@[simp] theorem updFw_groups (f : Firmware → Firmware) (s : Dev) : (updFw f s).groups = s.groups := rfl
@[simp] theorem updFw_ports (f : Firmware → Firmware) (s : Dev) : (updFw f s).ports = s.ports := rfl
@[simp] theorem updFw_admitted (f : Firmware → Firmware) (s : Dev) : (updFw f s).admitted = s.admitted := rfl
@[simp] theorem updFw_portN (f : Firmware → Firmware) (s : Dev) : (updFw f s).portN = s.portN := rfl
@[simp] theorem updFw_events (f : Firmware → Firmware) (s : Dev) : (updFw f s).events = s.events := rfl
@[simp] theorem updFw_eventSeq (f : Firmware → Firmware) (s : Dev) : (updFw f s).eventSeq = s.eventSeq := rfl
@[simp] theorem updFw_sec (f : Firmware → Firmware) (s : Dev) : (updFw f s).sec = s.sec := rfl
@[simp] theorem updFw_supply (f : Firmware → Firmware) (s : Dev) : (updFw f s).supply = s.supply := rfl
@[simp] theorem updFw_control (f : Firmware → Firmware) (s : Dev) : (updFw f s).control = s.control := rfl
@[simp] theorem updFw_slate (f : Firmware → Firmware) (s : Dev) : (updFw f s).slate = s.slate := rfl
@[simp] theorem updFw_refault (f : Firmware → Firmware) (s : Dev) : (updFw f s).refault = s.refault := rfl

@[simp] theorem updZh_now (f : Zhewick → Zhewick) (s : Dev) : (updZh f s).now = s.now := rfl
@[simp] theorem updZh_objs (f : Zhewick → Zhewick) (s : Dev) : (updZh f s).objs = s.objs := rfl
@[simp] theorem updZh_free (f : Zhewick → Zhewick) (s : Dev) : (updZh f s).free = s.free := rfl
@[simp] theorem updZh_cad (f : Zhewick → Zhewick) (s : Dev) : (updZh f s).cad = s.cad := rfl
@[simp] theorem updZh_dies (f : Zhewick → Zhewick) (s : Dev) : (updZh f s).dies = s.dies := rfl
@[simp] theorem updZh_chans (f : Zhewick → Zhewick) (s : Dev) : (updZh f s).chans = s.chans := rfl
@[simp] theorem updZh_ctrlQueues (f : Zhewick → Zhewick) (s : Dev) : (updZh f s).ctrlQueues = s.ctrlQueues := rfl
@[simp] theorem updZh_ref (f : Zhewick → Zhewick) (s : Dev) : (updZh f s).ref = s.ref := rfl
@[simp] theorem updZh_ledger (f : Zhewick → Zhewick) (s : Dev) : (updZh f s).ledger = s.ledger := rfl
@[simp] theorem updZh_arb (f : Zhewick → Zhewick) (s : Dev) : (updZh f s).arb = s.arb := rfl
@[simp] theorem updZh_groups (f : Zhewick → Zhewick) (s : Dev) : (updZh f s).groups = s.groups := rfl
@[simp] theorem updZh_ports (f : Zhewick → Zhewick) (s : Dev) : (updZh f s).ports = s.ports := rfl
@[simp] theorem updZh_admitted (f : Zhewick → Zhewick) (s : Dev) : (updZh f s).admitted = s.admitted := rfl
@[simp] theorem updZh_portN (f : Zhewick → Zhewick) (s : Dev) : (updZh f s).portN = s.portN := rfl
@[simp] theorem updZh_events (f : Zhewick → Zhewick) (s : Dev) : (updZh f s).events = s.events := rfl
@[simp] theorem updZh_eventSeq (f : Zhewick → Zhewick) (s : Dev) : (updZh f s).eventSeq = s.eventSeq := rfl
@[simp] theorem updZh_fw (f : Zhewick → Zhewick) (s : Dev) : (updZh f s).fw = s.fw := rfl
@[simp] theorem updZh_sec (f : Zhewick → Zhewick) (s : Dev) : (updZh f s).sec = s.sec := rfl
@[simp] theorem updZh_supply (f : Zhewick → Zhewick) (s : Dev) : (updZh f s).supply = s.supply := rfl
@[simp] theorem updZh_control (f : Zhewick → Zhewick) (s : Dev) : (updZh f s).control = s.control := rfl
@[simp] theorem updZh_slate (f : Zhewick → Zhewick) (s : Dev) : (updZh f s).slate = s.slate := rfl
@[simp] theorem updZh_refault (f : Zhewick → Zhewick) (s : Dev) : (updZh f s).refault = s.refault := rfl

@[simp] theorem updSec_now (f : Security → Security) (s : Dev) : (updSec f s).now = s.now := rfl
@[simp] theorem updSec_objs (f : Security → Security) (s : Dev) : (updSec f s).objs = s.objs := rfl
@[simp] theorem updSec_free (f : Security → Security) (s : Dev) : (updSec f s).free = s.free := rfl
@[simp] theorem updSec_cad (f : Security → Security) (s : Dev) : (updSec f s).cad = s.cad := rfl
@[simp] theorem updSec_zh (f : Security → Security) (s : Dev) : (updSec f s).zh = s.zh := rfl
@[simp] theorem updSec_dies (f : Security → Security) (s : Dev) : (updSec f s).dies = s.dies := rfl
@[simp] theorem updSec_chans (f : Security → Security) (s : Dev) : (updSec f s).chans = s.chans := rfl
@[simp] theorem updSec_ctrlQueues (f : Security → Security) (s : Dev) : (updSec f s).ctrlQueues = s.ctrlQueues := rfl
@[simp] theorem updSec_ref (f : Security → Security) (s : Dev) : (updSec f s).ref = s.ref := rfl
@[simp] theorem updSec_ledger (f : Security → Security) (s : Dev) : (updSec f s).ledger = s.ledger := rfl
@[simp] theorem updSec_arb (f : Security → Security) (s : Dev) : (updSec f s).arb = s.arb := rfl
@[simp] theorem updSec_groups (f : Security → Security) (s : Dev) : (updSec f s).groups = s.groups := rfl
@[simp] theorem updSec_ports (f : Security → Security) (s : Dev) : (updSec f s).ports = s.ports := rfl
@[simp] theorem updSec_admitted (f : Security → Security) (s : Dev) : (updSec f s).admitted = s.admitted := rfl
@[simp] theorem updSec_portN (f : Security → Security) (s : Dev) : (updSec f s).portN = s.portN := rfl
@[simp] theorem updSec_events (f : Security → Security) (s : Dev) : (updSec f s).events = s.events := rfl
@[simp] theorem updSec_eventSeq (f : Security → Security) (s : Dev) : (updSec f s).eventSeq = s.eventSeq := rfl
@[simp] theorem updSec_fw (f : Security → Security) (s : Dev) : (updSec f s).fw = s.fw := rfl
@[simp] theorem updSec_supply (f : Security → Security) (s : Dev) : (updSec f s).supply = s.supply := rfl
@[simp] theorem updSec_control (f : Security → Security) (s : Dev) : (updSec f s).control = s.control := rfl
@[simp] theorem updSec_slate (f : Security → Security) (s : Dev) : (updSec f s).slate = s.slate := rfl
@[simp] theorem updSec_refault (f : Security → Security) (s : Dev) : (updSec f s).refault = s.refault := rfl

end Sys2Proof.Machine
end

