-- ==== Sys2Proof/Laws/After.lean ====
section
/-! SUPPORT. What follows every command touches the objects IRQ_STATUS and CH_FAULT, the emergencies raised and the bits to set again, and
nothing else of the device. -/

namespace Sys2Proof.Machine

/-- A fold that keeps a component at every element keeps it. -/
theorem foldl_keeps {α β γ : Type} (g : β → γ) (f : β → α → β) (h : ∀ b a, g (f b a) = g b) (l : List α) (b : β) : g (l.foldl f b) = g b := by
  induction l generalizing b with
  | nil => rfl
  | cons a l ih => rw [List.foldl_cons, ih, h]

theorem settle_now (s : Dev) : (settle s).now = s.now :=
  foldl_keeps Dev.now resetFault (fun b _ => wr_now b _ _ _) _ _

theorem noteRisen_now (l : List Nat) (b : Dev) : (noteRisen l b).now = b.now := by
  cases l <;> rfl

theorem watch_now (a b : Dev) : (watch a b).now = b.now := noteRisen_now _ b

@[simp] theorem after_now (a b : Dev) : (after a b).now = b.now := (watch_now a (settle b)).trans (settle_now b)

theorem settle_free (s : Dev) : (settle s).free = s.free :=
  foldl_keeps Dev.free resetFault (fun b _ => wr_free b _ _ _) _ _

theorem noteRisen_free (l : List Nat) (b : Dev) : (noteRisen l b).free = b.free := by
  cases l <;> rfl

theorem watch_free (a b : Dev) : (watch a b).free = b.free := noteRisen_free _ b

@[simp] theorem after_free (a b : Dev) : (after a b).free = b.free := (watch_free a (settle b)).trans (settle_free b)

theorem settle_cad (s : Dev) : (settle s).cad = s.cad :=
  foldl_keeps Dev.cad resetFault (fun b _ => wr_cad b _ _ _) _ _

theorem noteRisen_cad (l : List Nat) (b : Dev) : (noteRisen l b).cad = b.cad := by
  cases l <;> rfl

theorem watch_cad (a b : Dev) : (watch a b).cad = b.cad := noteRisen_cad _ b

@[simp] theorem after_cad (a b : Dev) : (after a b).cad = b.cad := (watch_cad a (settle b)).trans (settle_cad b)

theorem settle_zh (s : Dev) : (settle s).zh = s.zh :=
  foldl_keeps Dev.zh resetFault (fun b _ => wr_zh b _ _ _) _ _

theorem noteRisen_zh (l : List Nat) (b : Dev) : (noteRisen l b).zh = b.zh := by
  cases l <;> rfl

theorem watch_zh (a b : Dev) : (watch a b).zh = b.zh := noteRisen_zh _ b

@[simp] theorem after_zh (a b : Dev) : (after a b).zh = b.zh := (watch_zh a (settle b)).trans (settle_zh b)

theorem settle_dies (s : Dev) : (settle s).dies = s.dies :=
  foldl_keeps Dev.dies resetFault (fun b _ => wr_dies b _ _ _) _ _

theorem noteRisen_dies (l : List Nat) (b : Dev) : (noteRisen l b).dies = b.dies := by
  cases l <;> rfl

theorem watch_dies (a b : Dev) : (watch a b).dies = b.dies := noteRisen_dies _ b

@[simp] theorem after_dies (a b : Dev) : (after a b).dies = b.dies := (watch_dies a (settle b)).trans (settle_dies b)

theorem settle_chans (s : Dev) : (settle s).chans = s.chans :=
  foldl_keeps Dev.chans resetFault (fun b _ => wr_chans b _ _ _) _ _

theorem noteRisen_chans (l : List Nat) (b : Dev) : (noteRisen l b).chans = b.chans := by
  cases l <;> rfl

theorem watch_chans (a b : Dev) : (watch a b).chans = b.chans := noteRisen_chans _ b

@[simp] theorem after_chans (a b : Dev) : (after a b).chans = b.chans := (watch_chans a (settle b)).trans (settle_chans b)

theorem settle_ctrlQueues (s : Dev) : (settle s).ctrlQueues = s.ctrlQueues :=
  foldl_keeps Dev.ctrlQueues resetFault (fun b _ => wr_ctrlQueues b _ _ _) _ _

theorem noteRisen_ctrlQueues (l : List Nat) (b : Dev) : (noteRisen l b).ctrlQueues = b.ctrlQueues := by
  cases l <;> rfl

theorem watch_ctrlQueues (a b : Dev) : (watch a b).ctrlQueues = b.ctrlQueues := noteRisen_ctrlQueues _ b

@[simp] theorem after_ctrlQueues (a b : Dev) : (after a b).ctrlQueues = b.ctrlQueues := (watch_ctrlQueues a (settle b)).trans (settle_ctrlQueues b)

theorem settle_ref (s : Dev) : (settle s).ref = s.ref :=
  foldl_keeps Dev.ref resetFault (fun b _ => wr_ref b _ _ _) _ _

theorem noteRisen_ref (l : List Nat) (b : Dev) : (noteRisen l b).ref = b.ref := by
  cases l <;> rfl

theorem watch_ref (a b : Dev) : (watch a b).ref = b.ref := noteRisen_ref _ b

@[simp] theorem after_ref (a b : Dev) : (after a b).ref = b.ref := (watch_ref a (settle b)).trans (settle_ref b)

theorem settle_ledger (s : Dev) : (settle s).ledger = s.ledger :=
  foldl_keeps Dev.ledger resetFault (fun b _ => wr_ledger b _ _ _) _ _

theorem noteRisen_ledger (l : List Nat) (b : Dev) : (noteRisen l b).ledger = b.ledger := by
  cases l <;> rfl

theorem watch_ledger (a b : Dev) : (watch a b).ledger = b.ledger := noteRisen_ledger _ b

@[simp] theorem after_ledger (a b : Dev) : (after a b).ledger = b.ledger := (watch_ledger a (settle b)).trans (settle_ledger b)

theorem settle_arb (s : Dev) : (settle s).arb = s.arb :=
  foldl_keeps Dev.arb resetFault (fun b _ => wr_arb b _ _ _) _ _

theorem noteRisen_arb (l : List Nat) (b : Dev) : (noteRisen l b).arb = b.arb := by
  cases l <;> rfl

theorem watch_arb (a b : Dev) : (watch a b).arb = b.arb := noteRisen_arb _ b

@[simp] theorem after_arb (a b : Dev) : (after a b).arb = b.arb := (watch_arb a (settle b)).trans (settle_arb b)

theorem settle_groups (s : Dev) : (settle s).groups = s.groups :=
  foldl_keeps Dev.groups resetFault (fun b _ => wr_groups b _ _ _) _ _

theorem noteRisen_groups (l : List Nat) (b : Dev) : (noteRisen l b).groups = b.groups := by
  cases l <;> rfl

theorem watch_groups (a b : Dev) : (watch a b).groups = b.groups := noteRisen_groups _ b

@[simp] theorem after_groups (a b : Dev) : (after a b).groups = b.groups := (watch_groups a (settle b)).trans (settle_groups b)

theorem settle_ports (s : Dev) : (settle s).ports = s.ports :=
  foldl_keeps Dev.ports resetFault (fun b _ => wr_ports b _ _ _) _ _

theorem noteRisen_ports (l : List Nat) (b : Dev) : (noteRisen l b).ports = b.ports := by
  cases l <;> rfl

theorem watch_ports (a b : Dev) : (watch a b).ports = b.ports := noteRisen_ports _ b

@[simp] theorem after_ports (a b : Dev) : (after a b).ports = b.ports := (watch_ports a (settle b)).trans (settle_ports b)

theorem settle_admitted (s : Dev) : (settle s).admitted = s.admitted :=
  foldl_keeps Dev.admitted resetFault (fun b _ => wr_admitted b _ _ _) _ _

theorem noteRisen_admitted (l : List Nat) (b : Dev) : (noteRisen l b).admitted = b.admitted := by
  cases l <;> rfl

theorem watch_admitted (a b : Dev) : (watch a b).admitted = b.admitted := noteRisen_admitted _ b

@[simp] theorem after_admitted (a b : Dev) : (after a b).admitted = b.admitted := (watch_admitted a (settle b)).trans (settle_admitted b)

theorem settle_events (s : Dev) : (settle s).events = s.events :=
  foldl_keeps Dev.events resetFault (fun b _ => wr_events b _ _ _) _ _

theorem noteRisen_events (l : List Nat) (b : Dev) : (noteRisen l b).events = b.events := by
  cases l <;> rfl

theorem watch_events (a b : Dev) : (watch a b).events = b.events := noteRisen_events _ b

@[simp] theorem after_events (a b : Dev) : (after a b).events = b.events := (watch_events a (settle b)).trans (settle_events b)

theorem settle_eventSeq (s : Dev) : (settle s).eventSeq = s.eventSeq :=
  foldl_keeps Dev.eventSeq resetFault (fun b _ => wr_eventSeq b _ _ _) _ _

theorem noteRisen_eventSeq (l : List Nat) (b : Dev) : (noteRisen l b).eventSeq = b.eventSeq := by
  cases l <;> rfl

theorem watch_eventSeq (a b : Dev) : (watch a b).eventSeq = b.eventSeq := noteRisen_eventSeq _ b

@[simp] theorem after_eventSeq (a b : Dev) : (after a b).eventSeq = b.eventSeq := (watch_eventSeq a (settle b)).trans (settle_eventSeq b)

theorem settle_fw (s : Dev) : (settle s).fw = s.fw :=
  foldl_keeps Dev.fw resetFault (fun b _ => wr_fw b _ _ _) _ _

theorem noteRisen_fw (l : List Nat) (b : Dev) : (noteRisen l b).fw = b.fw := by
  cases l <;> rfl

theorem watch_fw (a b : Dev) : (watch a b).fw = b.fw := noteRisen_fw _ b

@[simp] theorem after_fw (a b : Dev) : (after a b).fw = b.fw := (watch_fw a (settle b)).trans (settle_fw b)

theorem settle_sec (s : Dev) : (settle s).sec = s.sec :=
  foldl_keeps Dev.sec resetFault (fun b _ => wr_sec b _ _ _) _ _

theorem noteRisen_sec (l : List Nat) (b : Dev) : (noteRisen l b).sec = b.sec := by
  cases l <;> rfl

theorem watch_sec (a b : Dev) : (watch a b).sec = b.sec := noteRisen_sec _ b

@[simp] theorem after_sec (a b : Dev) : (after a b).sec = b.sec := (watch_sec a (settle b)).trans (settle_sec b)

theorem settle_supply (s : Dev) : (settle s).supply = s.supply :=
  foldl_keeps Dev.supply resetFault (fun b _ => wr_supply b _ _ _) _ _

theorem noteRisen_supply (l : List Nat) (b : Dev) : (noteRisen l b).supply = b.supply := by
  cases l <;> rfl

theorem watch_supply (a b : Dev) : (watch a b).supply = b.supply := noteRisen_supply _ b

@[simp] theorem after_supply (a b : Dev) : (after a b).supply = b.supply := (watch_supply a (settle b)).trans (settle_supply b)

theorem settle_control (s : Dev) : (settle s).control = s.control :=
  foldl_keeps Dev.control resetFault (fun b _ => wr_control b _ _ _) _ _

theorem noteRisen_control (l : List Nat) (b : Dev) : (noteRisen l b).control = b.control := by
  cases l <;> rfl

theorem watch_control (a b : Dev) : (watch a b).control = b.control := noteRisen_control _ b

@[simp] theorem after_control (a b : Dev) : (after a b).control = b.control := (watch_control a (settle b)).trans (settle_control b)

theorem settle_slate (s : Dev) : (settle s).slate = s.slate :=
  foldl_keeps Dev.slate resetFault (fun b _ => wr_slate b _ _ _) _ _

theorem noteRisen_slate (l : List Nat) (b : Dev) : (noteRisen l b).slate = b.slate := by
  cases l <;> rfl

theorem watch_slate (a b : Dev) : (watch a b).slate = b.slate := noteRisen_slate _ b

@[simp] theorem after_slate (a b : Dev) : (after a b).slate = b.slate := (watch_slate a (settle b)).trans (settle_slate b)

end Sys2Proof.Machine
end

