-- ==== Sys2Proof/Laws/Tables.lean ====
section
/-! SUPPORT. The sparse tables: a read after a write, and the canonical form that every write keeps. -/

namespace Sys2Proof.Machine

theorem tabFind_drop_same (t : List (Nat × Nat)) (k : Nat) : tabFind (tabDrop t k) k = none := by
  induction t with
  | nil => rfl
  | cons e t ih =>
    obtain ⟨a, b⟩ := e
    unfold tabDrop at ih ⊢
    by_cases h : a = k
    · simp [h, ih]
    · simp [h, tabFind, ih]

theorem tabFind_drop_other (t : List (Nat × Nat)) {k q : Nat} (hq : q ≠ k) : tabFind (tabDrop t k) q = tabFind t q := by
  induction t with
  | nil => rfl
  | cons e t ih =>
    obtain ⟨a, b⟩ := e
    unfold tabDrop at ih ⊢
    by_cases h : a = k
    · subst h; simp [tabFind, Ne.symm hq, ih]
    · simp [h, tabFind, ih]

theorem tabFind_insert_same (t : List (Nat × Nat)) (k v : Nat) : tabFind (tabInsert t k v) k = some v := by
  induction t with
  | nil => simp [tabInsert, tabFind]
  | cons e t ih =>
    obtain ⟨a, b⟩ := e
    unfold tabInsert
    split
    · simp [tabFind]
    · split
      · simp [tabFind]
      · next hne _ => simp [tabFind, hne, ih]

theorem tabFind_insert_other (t : List (Nat × Nat)) {k q : Nat} (v : Nat) (hq : q ≠ k) : tabFind (tabInsert t k v) q = tabFind t q := by
  induction t with
  | nil => simp [tabInsert, tabFind, Ne.symm hq]
  | cons e t ih =>
    obtain ⟨a, b⟩ := e
    unfold tabInsert
    split
    · next heq => subst heq; simp [tabFind, Ne.symm hq]
    · split
      · simp [tabFind, Ne.symm hq]
      · simp [tabFind, ih]

/-- A read of another key is not touched by a write. -/
theorem tabGet_put_other (t : List (Nat × Nat)) {k q : Nat} (d e v : Nat) (hq : q ≠ k) : tabGet (tabPut t d k v) e q = tabGet t e q := by
  unfold tabGet tabPut
  split
  · rw [tabFind_drop_other t hq]
  · rw [tabFind_insert_other t v hq]

/-- A read of the key written gives the value. -/
theorem tabGet_put_same (t : List (Nat × Nat)) (d k v : Nat) : tabGet (tabPut t d k v) d k = v := by
  unfold tabGet tabPut
  split
  · next heq => rw [tabFind_drop_same t k, heq]; rfl
  · rw [tabFind_insert_same]; rfl

theorem mem_tabDrop {t : List (Nat × Nat)} {k : Nat} {e : Nat × Nat} (h : e ∈ tabDrop t k) : e ∈ t := (List.mem_filter.mp h).1

theorem mem_tabInsert {t : List (Nat × Nat)} {k v : Nat} {e : Nat × Nat} (h : e ∈ tabInsert t k v) : e = (k, v) ∨ e ∈ t := by
  induction t with
  | nil => exact .inl (by simpa [tabInsert] using h)
  | cons a t ih =>
    obtain ⟨a, b⟩ := a
    unfold tabInsert at h
    split at h
    · rcases List.mem_cons.mp h with h | h
      · exact .inl h
      · exact .inr (List.mem_cons_of_mem _ h)
    · split at h
      · rcases List.mem_cons.mp h with h | h
        · exact .inl h
        · exact .inr h
      · rcases List.mem_cons.mp h with h | h
        · exact .inr (h ▸ List.mem_cons_self ..)
        · exact (ih h).imp id (List.mem_cons_of_mem _)

theorem tabSorted_drop (t : List (Nat × Nat)) (k : Nat) (h : tabSorted t = true) : tabSorted (tabDrop t k) = true := by
  induction t with
  | nil => rfl
  | cons a t ih =>
    obtain ⟨a, b⟩ := a
    simp only [tabSorted, Bool.and_eq_true] at h
    by_cases he : a = k
    · simpa [tabDrop, he] using ih h.2
    · have hd : tabDrop ((a, b) :: t) k = (a, b) :: tabDrop t k := by simp [tabDrop, he]
      rw [hd]
      simp only [tabSorted, Bool.and_eq_true]
      exact ⟨List.all_eq_true.mpr fun e he => List.all_eq_true.mp h.1 e (mem_tabDrop he), ih h.2⟩

theorem tabSorted_insert (t : List (Nat × Nat)) (k v : Nat) (h : tabSorted t = true) : tabSorted (tabInsert t k v) = true := by
  induction t with
  | nil => rfl
  | cons a t ih =>
    obtain ⟨a, b⟩ := a
    have h' := h
    simp only [tabSorted, Bool.and_eq_true] at h
    unfold tabInsert
    split
    · next heq => subst heq; simpa [tabSorted] using h
    · split
      · next hlt =>
        simp only [tabSorted, Bool.and_eq_true, List.all_cons, decide_eq_true_eq]
        refine ⟨⟨hlt, List.all_eq_true.mpr fun e he => ?_⟩, h⟩
        have := List.all_eq_true.mp h.1 e he
        simp only [decide_eq_true_eq] at this ⊢
        omega
      · next hne hlt =>
        simp only [tabSorted, Bool.and_eq_true]
        refine ⟨List.all_eq_true.mpr fun e he => ?_, ih h.2⟩
        rcases mem_tabInsert he with he | he
        · subst he; simp only [decide_eq_true_eq]; omega
        · exact List.all_eq_true.mp h.1 e he

/-- A write keeps the keys strictly rising. -/
theorem tabSorted_put (t : List (Nat × Nat)) (d k v : Nat) (h : tabSorted t = true) : tabSorted (tabPut t d k v) = true := by
  unfold tabPut
  split
  · exact tabSorted_drop t k h
  · exact tabSorted_insert t k v h

/-- A write keeps the canonical form. -/
theorem tabWf_put (d : Nat → Nat) (t : List (Nat × Nat)) (k v : Nat) (h : tabWf d t = true) : tabWf d (tabPut t (d k) k v) = true := by
  simp only [tabWf, Bool.and_eq_true] at h ⊢
  refine ⟨tabSorted_put t (d k) k v h.1, List.all_eq_true.mpr fun e he => ?_⟩
  have old := List.all_eq_true.mp h.2
  unfold tabPut at he
  split at he
  · exact old e (mem_tabDrop he)
  · next hne =>
    rcases mem_tabInsert he with he | he
    · subst he; simpa using hne
    · exact old e he

end Sys2Proof.Machine
end

