-- ==== Sys2Proof/Laws/Objects.lean ====
section
/-! SUPPORT. The object store: what a read of an object gives after a write of it, and of another. -/

namespace Sys2Proof.Machine

/-- A read of an object gives the value written, at the size of its type. -/
theorem rdJ_wrJ_same (s : Dev) (r : Row) (v j : Nat) (l : List Nat) :
    rdJ (wrJ s r v l j) r l j = v % 2 ^ (8 * r.size) := by
  unfold rdJ wrJ
  exact tabGet_put_same _ _ _ _

/-- A write of an object leaves every object with another key. -/
theorem rdJ_wrJ_other (s : Dev) (r q : Row) (v j i : Nat) (l m : List Nat) (h : keyOf q m i ≠ keyOf r l j) :
    rdJ (wrJ s r v l j) q m i = rdJ s q m i := by
  unfold rdJ wrJ
  exact tabGet_put_other _ _ _ _ h

/-- The value of the object written. -/
theorem rd_wr_same (s : Dev) (r : Row) (v : Nat) (l : List Nat) : rd (wr s r v l) r l = v % 2 ^ (8 * r.size) :=
  rdJ_wrJ_same s r v 0 l

/-- An object with another key keeps its value. -/
theorem rd_wr_other (s : Dev) (r q : Row) (v : Nat) (l m : List Nat) (h : keyOf q m 0 ≠ keyOf r l 0) : rd (wr s r v l) q m = rd s q m :=
  rdJ_wrJ_other s r q v 0 0 l m h

/-- A read depends on the store alone. -/
theorem rd_of_objs (s t : Dev) (r : Row) (l : List Nat) (h : s.objs = t.objs) : rd s r l = rd t r l := by
  unfold rd rdJ
  rw [h]

theorem sorted_wr (s : Dev) (r : Row) (v : Nat) (l : List Nat) (h : tabSorted s.objs = true) : tabSorted (wr s r v l).objs = true :=
  tabSorted_put _ _ _ _ h

end Sys2Proof.Machine
end

