-- ==== Sys2Proof/Laws/Rows.lean ====
section
/-! SUPPORT. The dictionary row of every object whose write has a row of its own in spec/opcode_table.json. -/

namespace Sys2Proof.Machine

/-- A request for an object of a row names that row at a port with any right to it (R332, check 1). -/
theorem nameOf_of_rowOf (p : Port) {i j : Nat} {r : Row} (h : rowOf i j = some r) (hr : rightOf r p ≠ Right.none) : nameOf p i j = .row r := by
  unfold rowOf at h
  unfold nameOf
  cases hl : rowsAt i with
  | nil => simp [hl] at h
  | cons a t => rw [hl] at h; simp [h, hr]

/-- A port that may write a row has a right to it. -/
theorem right_of_mayWrite {r : Row} {p : Port} (h : mayWrite r p = .ok) : rightOf r p ≠ Right.none := by
  intro hn
  simp [mayWrite, hn] at h

theorem rowOf_fabricClear : rowOf (oFabricClear.ix + dimsOff oFabricClear.dims []) oFabricClear.sub = some oFabricClear := rfl

theorem rowOf_reelCounterClear : rowOf (oReelCounterClear.ix + dimsOff oReelCounterClear.dims []) oReelCounterClear.sub = some oReelCounterClear := rfl

theorem rowOf_syncIssue : rowOf (oSyncIssue.ix + dimsOff oSyncIssue.dims []) oSyncIssue.sub = some oSyncIssue := rfl

theorem rowOf_srcCode (n : Ch) : rowOf (oSrcCode.ix + dimsOff oSrcCode.dims [n]) oSrcCode.sub = some oSrcCode := by
  fin_cases n <;> rfl

theorem rowOf_srcQData (n : Ch) : rowOf (oSrcQData.ix + dimsOff oSrcQData.dims [n]) oSrcQData.sub = some oSrcQData := by
  fin_cases n <;> rfl

theorem rowOf_srcCounterClear (n : Ch) : rowOf (oSrcCounterClear.ix + dimsOff oSrcCounterClear.dims [n]) oSrcCounterClear.sub = some oSrcCounterClear := by
  fin_cases n <;> rfl

theorem rowOf_urgentReq (n : Ch) (a : ArrId) : rowOf (oUrgentReq.ix + dimsOff oUrgentReq.dims [n, a.idx]) oUrgentReq.sub = some oUrgentReq := by
  fin_cases n <;> cases a <;> rfl

theorem rowOf_arrCounterClear (n : Ch) (a : ArrId) : rowOf (oArrCounterClear.ix + dimsOff oArrCounterClear.dims [n, a.idx]) oArrCounterClear.sub = some oArrCounterClear := by
  fin_cases n <;> cases a <;> rfl

theorem rowOf_mcfgTable (n : Ch) : rowOf (oMcfgTable.ix + dimsOff oMcfgTable.dims [n]) oMcfgTable.sub = some oMcfgTable := by
  fin_cases n <;> rfl

theorem rowOf_queueConfig (n : Ch) : rowOf (oQueueConfig.ix + dimsOff oQueueConfig.dims [n]) oQueueConfig.sub = some oQueueConfig := by
  fin_cases n <;> rfl

theorem rowOf_ctrlQueueConfig : rowOf (oCtrlQueueConfig.ix + dimsOff oCtrlQueueConfig.dims []) oCtrlQueueConfig.sub = some oCtrlQueueConfig := rfl

theorem rowOf_queueFlush (n : Ch) : rowOf (oQueueFlush.ix + dimsOff oQueueFlush.dims [n]) oQueueFlush.sub = some oQueueFlush := by
  fin_cases n <;> rfl

theorem rowOf_takeCounterClear (n : Ch) : rowOf (oTakeCounterClear.ix + dimsOff oTakeCounterClear.dims [n]) oTakeCounterClear.sub = some oTakeCounterClear := by
  fin_cases n <;> rfl

theorem rowOf_peRestart (n : Ch) (pe : Fin 2) : rowOf (oPeRestart.ix + dimsOff oPeRestart.dims [n, pe]) oPeRestart.sub = some oPeRestart := by
  fin_cases n <;> fin_cases pe <;> rfl

theorem rowOf_xoverRelease (n : Ch) : rowOf (oXoverRelease.ix + dimsOff oXoverRelease.dims [n]) oXoverRelease.sub = some oXoverRelease := by
  fin_cases n <;> rfl

theorem rowOf_loopSp (n : Ch) : rowOf (oLoopSp.ix + dimsOff oLoopSp.dims [n]) oLoopSp.sub = some oLoopSp := by
  fin_cases n <;> rfl

theorem rowOf_loopFault (n : Ch) : rowOf (oLoopFault.ix + dimsOff oLoopFault.dims [n]) oLoopFault.sub = some oLoopFault := by
  fin_cases n <;> rfl

theorem rowOf_loopCounterClear (n : Ch) : rowOf (oLoopCounterClear.ix + dimsOff oLoopCounterClear.dims [n]) oLoopCounterClear.sub = some oLoopCounterClear := by
  fin_cases n <;> rfl

theorem rowOf_bankA (n : Ch) : rowOf (oBankA.ix + dimsOff oBankA.dims [n]) oBankA.sub = some oBankA := by
  fin_cases n <;> rfl

theorem rowOf_bankB (n : Ch) : rowOf (oBankB.ix + dimsOff oBankB.dims [n]) oBankB.sub = some oBankB := by
  fin_cases n <;> rfl

theorem rowOf_bankEnd (n : Ch) (b : Fin 2) : rowOf (oBankEnd.ix + dimsOff oBankEnd.dims [n, b]) oBankEnd.sub = some oBankEnd := by
  fin_cases n <;> fin_cases b <;> rfl

theorem rowOf_loopStart (n : Ch) (b : Fin 2) : rowOf (oLoopStart.ix + dimsOff oLoopStart.dims [n, b]) oLoopStart.sub = some oLoopStart := by
  fin_cases n <;> fin_cases b <;> rfl

theorem rowOf_bankFlags (n : Ch) (b : Fin 2) : rowOf (oBankFlags.ix + dimsOff oBankFlags.dims [n, b]) oBankFlags.sub = some oBankFlags := by
  fin_cases n <;> fin_cases b <;> rfl

theorem rowOf_cutReq (n : Ch) : rowOf (oCutReq.ix + dimsOff oCutReq.dims [n]) oCutReq.sub = some oCutReq := by
  fin_cases n <;> rfl

theorem rowOf_chainCut : rowOf (oChainCut.ix + dimsOff oChainCut.dims []) oChainCut.sub = some oChainCut := rfl

theorem rowOf_seqCounterClear (n : Ch) : rowOf (oSeqCounterClear.ix + dimsOff oSeqCounterClear.dims [n]) oSeqCounterClear.sub = some oSeqCounterClear := by
  fin_cases n <;> rfl

theorem rowOf_guardLatch (n : Ch) : rowOf (oGuardLatch.ix + dimsOff oGuardLatch.dims [n]) oGuardLatch.sub = some oGuardLatch := by
  fin_cases n <;> rfl

theorem rowOf_verifyReq (n : Ch) : rowOf (oVerifyReq.ix + dimsOff oVerifyReq.dims [n]) oVerifyReq.sub = some oVerifyReq := by
  fin_cases n <;> rfl

theorem rowOf_guardCounterClear (n : Ch) : rowOf (oGuardCounterClear.ix + dimsOff oGuardCounterClear.dims [n]) oGuardCounterClear.sub = some oGuardCounterClear := by
  fin_cases n <;> rfl

theorem rowOf_cmpStart : rowOf (oCmpStart.ix + dimsOff oCmpStart.dims []) oCmpStart.sub = some oCmpStart := rfl

theorem rowOf_srcSelfcal (n : Ch) : rowOf (oSrcSelfcal.ix + dimsOff oSrcSelfcal.dims [n]) oSrcSelfcal.sub = some oSrcSelfcal := by
  fin_cases n <;> rfl

theorem rowOf_baselineReq : rowOf (oBaselineReq.ix + dimsOff oBaselineReq.dims []) oBaselineReq.sub = some oBaselineReq := rfl

theorem rowOf_driftRun : rowOf (oDriftRun.ix + dimsOff oDriftRun.dims []) oDriftRun.sub = some oDriftRun := rfl

theorem rowOf_hostRelease : rowOf (oHostRelease.ix + dimsOff oHostRelease.dims []) oHostRelease.sub = some oHostRelease := rfl

theorem rowOf_arbCommit : rowOf (oArbCommit.ix + dimsOff oArbCommit.dims []) oArbCommit.sub = some oArbCommit := rfl

theorem rowOf_arbClear : rowOf (oArbClear.ix + dimsOff oArbClear.dims []) oArbClear.sub = some oArbClear := rfl

theorem rowOf_txnOpen : rowOf (oTxnOpen.ix + dimsOff oTxnOpen.dims []) oTxnOpen.sub = some oTxnOpen := rfl

theorem rowOf_keystone : rowOf (oKeystone.ix + dimsOff oKeystone.dims []) oKeystone.sub = some oKeystone := rfl

theorem rowOf_txnAbort : rowOf (oTxnAbort.ix + dimsOff oTxnAbort.dims []) oTxnAbort.sub = some oTxnAbort := rfl

theorem rowOf_chFault (n : Ch) : rowOf (oChFault.ix + dimsOff oChFault.dims [n]) oChFault.sub = some oChFault := by
  fin_cases n <;> rfl

theorem rowOf_portnCounterClear : rowOf (oPortnCounterClear.ix + dimsOff oPortnCounterClear.dims []) oPortnCounterClear.sub = some oPortnCounterClear := rfl

theorem rowOf_peerCmd : rowOf (oPeerCmd.ix + dimsOff oPeerCmd.dims []) oPeerCmd.sub = some oPeerCmd := rfl

theorem rowOf_fuseBlow : rowOf (oFuseBlow.ix + dimsOff oFuseBlow.dims []) oFuseBlow.sub = some oFuseBlow := rfl

theorem rowOf_attestNonce : rowOf (oAttestNonce.ix + dimsOff oAttestNonce.dims []) oAttestNonce.sub = some oAttestNonce := rfl

theorem rowOf_fwUpload : rowOf (oFwUpload.ix + dimsOff oFwUpload.dims []) oFwUpload.sub = some oFwUpload := rfl

theorem rowOf_fwConfirm : rowOf (oFwConfirm.ix + dimsOff oFwConfirm.dims []) oFwConfirm.sub = some oFwConfirm := rfl

theorem rowOf_fwChLoad : rowOf (oFwChLoad.ix + dimsOff oFwChLoad.dims []) oFwChLoad.sub = some oFwChLoad := rfl

theorem rowOf_fwFloorRaise : rowOf (oFwFloorRaise.ix + dimsOff oFwFloorRaise.dims []) oFwFloorRaise.sub = some oFwFloorRaise := rfl

theorem rowOf_slateNow : rowOf (oSlateNow.ix + dimsOff oSlateNow.dims []) oSlateNow.sub = some oSlateNow := rfl

theorem rowOf_slateAt : rowOf (oSlateAt.ix + dimsOff oSlateAt.dims []) oSlateAt.sub = some oSlateAt := rfl

theorem rowOf_slateChain : rowOf (oSlateChain.ix + dimsOff oSlateChain.dims []) oSlateChain.sub = some oSlateChain := rfl

theorem rowOf_slateCounterClear : rowOf (oSlateCounterClear.ix + dimsOff oSlateCounterClear.dims []) oSlateCounterClear.sub = some oSlateCounterClear := rfl

theorem rowOf_dieCounterClear (k : Die) : rowOf (oDieCounterClear.ix + dimsOff oDieCounterClear.dims [k]) oDieCounterClear.sub = some oDieCounterClear := by
  fin_cases k <;> rfl

theorem rowOf_supplyCounterClear : rowOf (oSupplyCounterClear.ix + dimsOff oSupplyCounterClear.dims []) oSupplyCounterClear.sub = some oSupplyCounterClear := rfl

theorem rowOf_restartReq : rowOf (oRestartReq.ix + dimsOff oRestartReq.dims []) oRestartReq.sub = some oRestartReq := rfl

theorem rowOf_queueDrain (n : Ch) : rowOf (oQueueDrain.ix + dimsOff oQueueDrain.dims [n]) oQueueDrain.sub = some oQueueDrain := by
  fin_cases n <;> rfl

theorem rowOf_ctrlQueueDrain : rowOf (oCtrlQueueDrain.ix + dimsOff oCtrlQueueDrain.dims []) oCtrlQueueDrain.sub = some oCtrlQueueDrain := rfl

end Sys2Proof.Machine
end

