-- ==== Sys2Proof/Laws/Step.lean ====
section
/-! SUPPORT. What each frame of a command answers: the ledger, the fuses and the queue pass through every command that does not write them; a
request that passes its checks is done. -/

namespace Sys2Proof.Machine

theorem onDies_next {s t : State} {f : Dev → Host.Outcome Dev Fault Refusal} (h : onDies s f = .next t) : t.nv = s.nv ∧ t.pending = s.pending := by
  unfold onDies at h
  split at h
  · cases h; exact ⟨rfl, rfl⟩
  · cases h
  · cases h

theorem onDev_next {s t : State} {f : Dev → Host.Outcome Dev Fault Refusal} (h : onDev s f = .next t) : t.nv = s.nv ∧ t.pending = s.pending := by
  unfold onDev at h
  split at h
  · exact onDies_next h
  · cases h; exact ⟨rfl, rfl⟩

theorem onBoth_next {s t : State} {f : Nv → Dev → Nv × Dev} (h : onBoth s f = .next t) :
    t.pending = s.pending ∧ (t.nv = s.nv ∨ t.nv = (f s.nv s.dev).1) := by
  unfold onBoth at h
  split at h <;> cases h
  · exact ⟨rfl, .inr rfl⟩
  · exact ⟨rfl, .inl rfl⟩

/-- A command on a released device whose meaning answers `d` completes with `d`. -/
theorem onDev_acts {s : State} {f : Dev → Host.Outcome Dev Fault Refusal} {d : Dev} (h : Live s) (hf : f s.dev = .next d) :
    onDev s f = .next (s.acts d) := by
  unfold Live at h
  simp [onDev, onDies, h, hf, State.acts]

/-- A command on dies held in reset changes nothing (R375, R381). -/
theorem onDev_held {s : State} {f : Dev → Host.Outcome Dev Fault Refusal} (h : s.dev.supply.released = false) : onDev s f = .next s := by
  simp [onDev, h]

/-! ### Commands that complete in every state -/

theorem onDies_total (s : State) {f : Dev → Host.Outcome Dev Fault Refusal} (h : ∀ d, ∃ e, f d = .next e) : ∃ t, onDies s f = .next t := by
  obtain ⟨e, he⟩ := h s.dev
  exact ⟨_, by unfold onDies; rw [he]⟩

theorem onDev_total (s : State) {f : Dev → Host.Outcome Dev Fault Refusal} (h : ∀ d, ∃ e, f d = .next e) : ∃ t, onDev s f = .next t := by
  unfold onDev; split
  · exact onDies_total s h
  · exact ⟨_, rfl⟩

theorem onBoth_total (s : State) (f : Nv → Dev → Nv × Dev) : ∃ t, onBoth s f = .next t := by
  unfold onBoth; split <;> exact ⟨_, rfl⟩

theorem mailServed_total (s : State) {f : Nv → Dev → Host.Outcome Dev Fault Refusal} (h : ∀ nv d, ∃ e, f nv d = .next e) :
    ∃ t, mailServed f s = .next t := by
  apply onDev_total; intro d; dsimp only; split
  · exact h _ _
  · exact ⟨_, rfl⟩

theorem readRequest_total (p : Port) (index sub : Nat) (nv : Nv) (s : Dev) : ∃ e, readRequest p index sub nv s = .next e := by
  unfold readRequest; dsimp only
  repeat' split
  all_goals exact ⟨_, rfl⟩

theorem mayWrite_open (r : Row) (p : Port) : mayWrite r p ≠ .reserved := by
  unfold mayWrite; repeat' split
  all_goals simp

theorem firstBad_open {l : List Verdict} (h : ∀ v ∈ l, v ≠ .reserved) : firstBad l ≠ .reserved := by
  induction l with
  | nil => simp [firstBad]
  | cons v t ih =>
    have hv := h v (by simp)
    have ht := ih fun w hw => h w (by simp [hw])
    cases v <;> simp_all [firstBad]

theorem seqNeeds_open (s : Dev) (n : Ch) (v : Nat) : seqNeeds s n v ≠ .reserved := by
  unfold seqNeeds; repeat' split
  all_goals simp

theorem reachCheck_open (s : Dev) (ix : Nat) : reachCheck s ix ≠ .reserved := by unfold reachCheck; split <;> simp

theorem seqWrite_open (p : Port) (n : Ch) (v : Nat) (nv : Nv) (s : Dev) : (seqWrite p n v nv s).1 ≠ .reserved := by
  unfold seqWrite; split
  · simp
  · refine firstBad_open fun w hw => ?_
    simp only [List.mem_cons, List.not_mem_nil, or_false] at hw
    obtain rfl | rfl | rfl | rfl := hw
    · split <;> simp
    · exact mayWrite_open _ _
    · exact reachCheck_open _ _
    · exact seqNeeds_open _ _ _

/-- A verdict other than a reserved bit is answered. -/
theorem answered_total {p : Port} {r : Verdict × Dev} (h : r.1 ≠ .reserved) : ∃ e, answered p r = .next e := by
  unfold answered; split
  · exact ⟨_, rfl⟩
  · exact ⟨_, rfl⟩
  · exact absurd ‹_› h

theorem seqCommand_total (p : Port) (n : Ch) (v : Nat) (nv : Nv) (s : Dev) : ∃ e, seqCommand p n v nv s = .next e := by
  unfold seqCommand; dsimp only
  repeat' split
  · exact ⟨_, rfl⟩
  · exact answered_total (seqWrite_open p n v nv s)
  · exact answered_total (seqWrite_open p n v nv s)
  · exact ⟨_, rfl⟩

/-- A direct write that passes the checks of R332 is done, over a link that does not hold it. -/
theorem request_done {nv : Nv} {p : Port} {ix sub : Nat} {data : List Byte} {s t : Dev} {r : Row} (hrow : rowOf ix sub = some r)
    (hserve : serves s p = true) (hopen : portShut nv s p = false) (hmay : mayWrite r p = .ok) (hlen : lengthOk r data.length = true)
    (hreach : dieReachable s (objDie ix) = true) (hacc : r.acc ≠ .rk) (hval : valueCheck r ix sub data = .ok)
    (hdir : directCheck r s data = .ok) (hw : directWrite p r ix sub data nv s = (.ok, t)) (hlink : writeWaits s p ix sub = none)
    (hnow : t.fw.held = s.fw.held) :
    request p ix sub data nv s = .next (setAnswer p (.done []) t) := by
  simp [request, hserve, writeObj, hopen, writeOpen, nameOf_of_rowOf p hrow (right_of_mayWrite hmay), firstBad, hmay, hlen, reachCheck, hreach,
    hacc, hval, hdir, hw, hlink, answered, hnow]

end Sys2Proof.Machine
end

