-- ==== Sys2Proof/WellFormed.lean ====
section
/-! DEFINITION. Which commands can reach the device at all: lengths and ranges that the manual gives the frames, images and readings a
command carries. A command that is not well formed is none of the outside's. -/

namespace Sys2Proof

/-- A Zhewick frame has 48 bytes (Table 2.4). -/
def zhewickLength : Nat := 48

/-- A return frame has 19 bytes (R356). -/
def returnLength : Nat := 19

/-- Every input lies above its warning level plus hysteresis (Table 13.1). -/
def Levels.recovered (l : Levels) : Bool := 10300 < l.vsys && 14100 < l.avp && l.avn < -14100 && 3100 < l.vio

/-- A 40-bit code as a signed number. -/
def codeInRange (v : Int) : Bool := -549755813888 ≤ v && v < 549755813888

/-- One take's modulator clocks and its overload. -/
def Conv.wf (c : Conv) : Bool := !c.ys.isEmpty

/-- An RxPDO image holds the eight codes Q_CODE_0 to Q_CODE_7 (Table 11.5). -/
def RxImage.wf (r : RxImage) : Bool := r.qCodes.length == 8

/-- Byte 0 of a request frame is the command's OP, or none of Table 12.1. -/
def Frame.wf (f : Frame) : Bool := f.byte0.all fun b => 5 ≤ b.toNat

/-- Whether the command is well formed. -/
def Instr.wf : Instr → Bool
  | .zhewickFrameRx _ bytes => bytes.length == zhewickLength
  | .returnFrameRx _ bytes => bytes.length == returnLength
  | .inputBoundaryEvent _ mv => mv < 65536
  | .apertureEnd _ _ c => c.wf
  | .urgentApertureEnd _ _ c => c.wf
  | .calPhaseComplete _ _ r => codeInRange r.value
  | .monitorFirstDecision _ _ x => codeInRange x
  | .monitorStateChange _ _ x => codeInRange x
  | .blankingEnd _ _ x => codeInRange x
  | .rxpdoLatch images _ => images.all fun e => e.2.wf
  | .sdoDownload _ _ _ _ data => decide (data.length ≤ 1008)
  | .sdoSegment _ _ data => decide (data.length ≤ 1015)
  | .supplyWarning inputs _ => inputs != 0
  | .supplyRecovering b l => b == l.recovered
  | .eccUncorrectable k cls _ _ => if k.isSome then cls != 4 else cls != 1 && cls != 2
  | .fetch p => p == .s || p == .c
  | .read p f => (p == .s || p == .c) && f.wf
  | .write p f => (p == .s || p == .c) && f.wf
  | .drain p f => (p == .s || p == .c) && f.wf
  | .cancel p f => (p == .s || p == .c) && f.wf
  | .objAccess _ f => f.byte0.isNone
  | .responseReady p => p == .s || p == .c || p == .d
  | _ => true

end Sys2Proof
end

