-- ==== Sys2Proof/Tests/Slice0.lean ====
section
/-! SUPPORT. Tests of the model: ill-formed commands that the check refuses, single commands against values of the manual, and for every
obligation states and operands that meet the hypotheses of its clauses, at the boundary of a range where a clause has one. -/

namespace Sys2Proof.Tests

set_option Elab.async false
open Sys2Proof Sys2Proof.Machine

/-! ### States -/

/-- A Channel die whose link is ACTIVE. -/
def upDie : DieState := { DieState.atReset with link := { DieState.atReset.link with st := .active } }

/-- A released, RUNNING device, links ACTIVE, Port N in OP. -/
def live : State := { State.reset with dev := { State.reset.dev with
  supply := { State.reset.dev.supply with released := true, st := .running, tree := true, phy := true }
  control := { State.reset.dev.control with running := true, booted := true }
  dies := Vector.replicate 6 upDie
  portN := { State.reset.dev.portN with al := .op } } }

/-- `live` with another device. -/
def on (d : Dev) : State := { live with dev := d }

def onDie (k : Die) (f : DieState → DieState) : State := on (updDie k f live.dev)
def onLink (k : Die) (f : Link → Link) : State := onDie k fun d => { d with link := f d.link }
def onCad (f : Cadence → Cadence) : State := on { live.dev with cad := f live.dev.cad }
def onZh (f : Zhewick → Zhewick) : State := on { live.dev with zh := f live.dev.zh }
def onSrc (f : Src → Src) : State := on (updCh 5 (fun c => { c with src := f c.src }) live.dev)
def onArr (f : Arr → Arr) : State := on (updCh 5 (fun c => { c with vm := f c.vm }) live.dev)
def onLoop (f : Loop → Loop) : State := on (updCh 5 (fun c => { c with loop := f c.loop }) live.dev)
def onSeq (f : Seq → Seq) : State := on (updCh 5 (fun c => { c with seq := f c.seq }) live.dev)
def onMon (f : Monitor → Monitor) : State := on (updCh 5 (fun c => { c with mons := c.mons.set 0 (f c.mons[0]) }) live.dev)
def onRef (f : RefDie → RefDie) : State := on { live.dev with ref := f live.dev.ref }
def onN (f : PortN → PortN) : State := on { live.dev with portN := f live.dev.portN }
def onSec (f : Security → Security) : State := on { live.dev with sec := f live.dev.sec }
def onSup (f : Power → Power) : State := on { live.dev with supply := f live.dev.supply }

/-- `s` with a value in an object. -/
def put (r : Row) (v : Nat) (places : List Nat) (s : State) : State := { s with dev := wr s.dev r v places }

/-- What `Served` asks, computed. -/
theorem served {s : State} {p : Port} {r : Row} (h : s.dev.supply.released = true ∧ serves s.dev p = true ∧ portShut s.nv s.dev p = false ∧
    mayWrite r p = .ok ∧ portHolds s.dev p = none) : Served s p r := h

/-! ### Ill-formed commands -/

theorem test_wf_frame_length : (Instr.zhewickFrameRx 0 []).wf = false := by decide
theorem test_wf_return_length : (Instr.returnFrameRx 0 (List.replicate 18 0)).wf = false := by decide
theorem test_wf_input_level : (Instr.inputBoundaryEvent 0 65536).wf = false := by decide
theorem test_wf_aperture : (Instr.apertureEnd 0 .vm ⟨[], none⟩).wf = false := by decide
theorem test_wf_urgent_aperture : (Instr.urgentApertureEnd 0 .vm ⟨[], none⟩).wf = false := by decide
theorem test_wf_cal_value : (Instr.calPhaseComplete 0 .vm ⟨549755813888⟩).wf = false := by decide
theorem test_wf_monitor_first : (Instr.monitorFirstDecision 0 0 (-549755813889)).wf = false := by decide
theorem test_wf_monitor_change : (Instr.monitorStateChange 0 0 549755813888).wf = false := by decide
theorem test_wf_blanking : (Instr.blankingEnd 0 0 549755813888).wf = false := by decide
theorem test_wf_rxpdo : (Instr.rxpdoLatch [(0, ⟨0, 0, 0, 0, 0, []⟩)] true).wf = false := by decide
theorem test_wf_sdo : (Instr.sdoDownload 0 0 false 1009 (List.replicate 1009 0)).wf = false ∧
    (Instr.sdoSegment false true (List.replicate 1016 0)).wf = false := by decide +kernel
theorem test_wf_supply : (Instr.supplyWarning 0 ⟨0, 0, 0, 0⟩).wf = false := by decide
theorem test_wf_recovering : (Instr.supplyRecovering true ⟨10300, 15000, -15000, 3300⟩).wf = false := by decide
theorem test_wf_ecc : (Instr.eccUncorrectable (some 0) 4 0 0).wf = false ∧ (Instr.eccUncorrectable none 1 0 0).wf = false := by decide
theorem test_wf_fetch : (Instr.fetch .n).wf = false := by decide
theorem test_wf_frame_port (f : Frame) : (Instr.read .d f).wf = false ∧ (Instr.write .x f).wf = false ∧ (Instr.drain .n f).wf = false ∧
    (Instr.cancel .d f).wf = false := ⟨rfl, rfl, rfl, rfl⟩
theorem test_wf_response : (Instr.responseReady .n).wf = false := by decide
theorem test_wf_good : (Instr.inputBoundaryEvent 0 65535).wf = true ∧ (Instr.supplyRecovering true ⟨12000, 15000, -15000, 3300⟩).wf = true := by
  decide

/-- No row of the table gives bits. -/
theorem test_decode : decodeTableWord 16 0 = none := rfl

/-! ### What meets the hypotheses of each obligation -/

theorem wit_LinkTraining :
    (let s := onLink 0 fun l => { l with st := .lost };
      Live s ∧
        (¬ LinkUp s 0) ∧
        (s.dev.dies[(0 : Die)]).link.announced = false) ∧
    (let s := onLink 0 fun l => { l with msgRetry := 2 };
      LinkUp s 0 ∧
        (s.dev.dies[(0 : Die)]).link.msgRetry < 3) ∧
    (let s := onLink 0 fun l => { l with msgRetry := 3 };
      LinkUp s 0 ∧
        3 ≤ (s.dev.dies[(0 : Die)]).link.msgRetry) ∧
    (let s := onLink 0 fun l => { l with st := .retraining, fails := 1 };
      let l := (s.dev.dies[(0 : Die)]).link;
      l.st = .retraining ∧
        (1 : BitVec 2) ≠ 0 ∧
        serviceGone s.dev 0 0 = false ∧
        l.held = [] ∧
        (s.dev.dies[(0 : Die)]).events = [] ∧
        s.dev.slate.parts = [] ∧
        s.dev.zh.sync = none ∧
        (∀ e ∈ allTxns s.dev, e.2.2.st ≠ .split) ∧
        l.fails < 2) ∧
    (let data := leBytes 8 1;
      let s := onLink 0 fun l => { l with st := .retraining, held := [.request .n (.write false false oEmcyMask.ix oEmcyMask.sub data)] };
      let l := (s.dev.dies[(0 : Die)]).link;
      l.st = .retraining ∧
        l.held = [.request .n (.write false false oEmcyMask.ix oEmcyMask.sub data)] ∧
        portShut s.nv s.dev .n = false ∧
        mayWrite oEmcyMask .n = .ok ∧
        data.length = oEmcyMask.size ∧
        limitCheck oEmcyMask (ofBytes data) = .ok) ∧
    (let s := onLink 0 fun l => { l with st := .lost, retrying := true };
      (s.dev.dies[(0 : Die)]).link.st = .lost ∧
        (s.dev.dies[(0 : Die)]).link.retrying = true) ∧
    (let s := onLink 0 fun l => { l with st := .retraining, fails := 2 };
      (s.dev.dies[(0 : Die)]).link.st = .retraining ∧
        (s.dev.dies[(0 : Die)]).link.fails = 2) := by
  repeat' apply And.intro
  all_goals first | decide +kernel | rfl | (unfold LinkUp; decide +kernel)

theorem wit_FabricDelivery :
    (let s := live;
      Live s ∧
        Ch.die 23 = 5 ∧
        LinkUp s 5 ∧
        (s.dev.ch 23).loop.xover = none ∧
        (0 : Fin 512).val < 512) ∧
    (let s := onLink 5 fun l => { l with st := .retraining };
      (s.dev.dies[(5 : Die)]).link.st = .retraining) ∧
    (let s := onLink 5 fun l => { l with st := .lost };
      (s.dev.dies[(5 : Die)]).link.st = .lost) := by
  repeat' apply And.intro
  all_goals first | decide +kernel | rfl

/-- A comparison of channel 5, one pair of one take. -/
def cmp (begun reversed : Bool) (used : Nat) : Comparison :=
  ⟨5, 2 ^ 30, 1, 1, 0, 1, 0, 0, 0, begun, 0, [], 0, 1, reversed, used, 0, 0, 0, 0, if reversed then [(0, 0)] else [], 0⟩


theorem wit_EngineFailures :
    (let s := live;
      let x := (s.dev.dies[(0 : Die)]).services;
      Live s ∧
        (6 : Fin 8).val < 7 ∧
        x.spare = none ∧
        x.loading = none ∧
        x.spareDead = false ∧
        s.dev.control.running = true ∧
        s.dev.control.restart = none ∧
        s.dev.ref.linkFault = false ∧
        s.dev.ref.comparison = none ∧
        s.dev.ref.heldEvents = []) ∧
    (let s := onDie 0 fun d => { d with services := { d.services with spare := some 1 } };
      (s.dev.dies[(0 : Die)]).services.spare ≠ none) ∧
    (let s := onDie 0 fun d => { d with services := { d.services with loading := some 6 } };
      (s.dev.dies[(0 : Die)]).services.loading = some 6 ∧
        (6 : Fin 8) ≠ 2) ∧
    (let s := on (updDie 1 (fun d => { d with services := { d.services with loading := some 2 } }) (updCh 5 (fun c => { c with vm := { c.vm with cal := some ⟨6, 0, .zero, 7, 0, 0⟩ } }) { live.dev with now := 100 }));
      (s.dev.dies[(1 : Die)]).services.loading = some 2) ∧
    (let s := on (updCh 5 (fun c => { c with mons := c.mons.set 0 { c.mons[0] with verifyAt := some 3 } }) (updDie 1 (fun d => { d with services := { d.services with loading := some 2 } }) { live.dev with now := 100 }));
      (s.dev.dies[(1 : Die)]).services.loading = some 2 ∧
        ((s.dev.ch 5).mons[0]).verifyAt = some 3) ∧
    (let s := on { live.dev with control := { live.dev.control with running := false, booted := false } };
      (s.dev.control.running = true ∨ s.dev.control.booted = false) ∧
        s.dev.control.restart = none) ∧
    (let s := on { live.dev with control := { live.dev.control with running := false } };
      s.dev.control.running = false ∧
        s.dev.control.booted = true ∧
        s.dev.control.restart = none) ∧
    (let s := on { live.dev with control := { live.dev.control with restart := some ⟨4, 0⟩ } };
      s.dev.control.restart ≠ none) ∧
    (let s := onRef fun r => { r with linkFault := true };
      s.dev.ref.linkFault = true ∧
        s.dev.ref.comparison = none ∧
        s.dev.ref.heldEvents = []) ∧
    (let s := onRef fun r => { r with comparison := some (cmp true false 0) };
      s.dev.ref.comparison ≠ none) ∧
    (let s := onRef fun r => { r with comparison := some (cmp false false 0) };
      s.dev.ref.comparison ≠ none) ∧
    (let s := onRef fun r => { r with heldEvents := [[1, 2], [3]], linkFault := true };
      s.dev.ref.heldEvents ≠ [] ∧
        s.dev.control.running = true) := by
  repeat' apply And.intro
  all_goals first | decide +kernel | rfl

/-- An input of 50 Hz whose phase error is the threshold, and one unit of 1/256 tick above it. -/
def input (st : CadState) (bad : Nat) : State := onCad fun c => { c with src := 0, st := st, lastEvent := some 0, badPhase := bad, run := [1, 2], runPhase := [] }


theorem wit_InputTests :
    (let s := put oLockThresh 0xFFFFFFF [] (input .locked 0);
      let stamp := 1258291200;
      Live s ∧
        s.dev.cad.src ≤ 2 ∧
        s.dev.cad.lastEvent = some 0 ∧
        0 < stamp ∧
        s.dev.cad.st = .locked ∧
        inputInRange s.dev (stamp - 0) = true ∧
        reelInRange s.dev (stamp - 0) = true ∧
        ((s.dev.cad.src ≠ 0 ∨ 100 ≤ 100)) ∧
        (phaseError s.dev stamp).natAbs ≤ 16 * rd s.dev oLockThresh []) ∧
    (let s := put oLockThresh 1 [] (input .locked 0);
      let stamp := 1300000000;
      s.dev.cad.badPhase = 0 ∧
        16 * rd s.dev oLockThresh [] < (phaseError s.dev stamp).natAbs ∧
        inputInRange s.dev (stamp - 0) = true ∧
        reelInRange s.dev (stamp - 0) = true) ∧
    (let s := put oLockThresh 1 [] (input .locked 1);
      let stamp := 1300000000;
      1 ≤ s.dev.cad.badPhase ∧
        16 * rd s.dev oLockThresh [] < (phaseError s.dev stamp).natAbs ∧
        inputInRange s.dev (stamp - 0) = true ∧
        reelInRange s.dev (stamp - 0) = true) ∧
    (let s := onCad fun c => { c with src := 0, st := .relock, lastEvent := some 0, badFreq := 3 };
      s.dev.cad.st = .relock ∧
        inputInRange s.dev (1 - 0) = false ∧
        (if s.dev.cad.src = 2 then 1 else 3) ≤ s.dev.cad.badFreq) ∧
    (let s := onCad fun c => { c with src := 2, st := .locked, lastEvent := some 0, badFreq := 1 };
      s.dev.cad.st = .locked ∧
        inputInRange s.dev (1 - 0) = false ∧
        (if s.dev.cad.src = 2 then 1 else 3) ≤ s.dev.cad.badFreq) ∧
    (let s := input .acquire 0;
      ((s.dev.cad.st = .acquire ∨ s.dev.cad.st = .holdover)) ∧
        (¬ (inputInRange s.dev (1 - 0) = true ∧ reelInRange s.dev (1 - 0) = true))) ∧
    (let s := onCad fun c => { c with src := 3 };
      2 < s.dev.cad.src) ∧
    (let s := input .relock 0;
      s.dev.cad.src ≤ 2 ∧
        s.dev.cad.lastEvent = some 0 ∧
        ((s.dev.cad.st = .locked ∨ s.dev.cad.st = .relock))) := by
  repeat' apply And.intro
  all_goals first | decide +kernel | rfl

/-- Sixteen events of a 50 Hz input. -/
def qualified : State := onCad fun c => { c with
  src := 0, st := .acquire, lastEvent := some (1258291200 * 16), run := (List.range 16).reverse.map fun i => 1258291200 * (i + 1)
  runPhase := List.replicate 16 0 }


theorem wit_Qualification :
    (let s := qualified;
      let l := 1258291200 * 16;
      let stamp := 1258291200 * 17;
      Live s ∧
        s.dev.cad.src ≤ 2 ∧
        s.dev.cad.lastEvent = some l ∧
        l < stamp ∧
        ((s.dev.cad.st = .acquire ∨ s.dev.cad.st = .holdover)) ∧
        inputInRange s.dev (stamp - l) = true ∧
        reelInRange s.dev (stamp - l) = true ∧
        ((s.dev.cad.src ≠ 0 ∨ 200 ≤ 200)) ∧
        s.dev.cad.run.length = 16 ∧
        runSteady (stamp :: s.dev.cad.run) = true) := by
  repeat' apply And.intro
  all_goals first | decide +kernel | rfl

theorem wit_BoundaryRecord :
    (let s := live;
      let e := settleDue s.nv ⟨max s.dev.now (cycleTick s.dev), 2, 0⟩ [] s.dev;
      let r := (⟨1, resetLength, resetLength⟩ : Rec);
      let t := [(⟨0, 0, resetLength⟩ : Rec)];
      Live s ∧
        e.cad.recs = r :: t ∧
        (∀ w ∈ e.cad.waiting, r.base < w.since) ∧
        e.cad.preset = none ∧
        e.cad.st = .freerun) ∧
    (let s := onCad fun c => { c with st := .acquire };
      let e := settleDue s.nv ⟨max s.dev.now (cycleTick s.dev), 2, 0⟩ [] s.dev;
      e.cad.st = .acquire) ∧
    (let s := onCad fun c => { c with st := .holdover, lHold := 1000 };
      let e := settleDue s.nv ⟨max s.dev.now (cycleTick s.dev), 2, 0⟩ [] s.dev;
      e.cad.st = .holdover) ∧
    (let s := onCad fun c => { c with st := .locked };
      let e := settleDue s.nv ⟨max s.dev.now (cycleTick s.dev), 2, 0⟩ [] s.dev;
      e.cad.st = .locked) ∧
    (let s := onCad fun c => { c with st := .relock, preset := some (7, resetLength + 1) };
      let e := settleDue s.nv ⟨max s.dev.now (cycleTick s.dev), 2, 0⟩ [] s.dev;
      let r := (⟨1, resetLength, resetLength⟩ : Rec);
      e.cad.st = .relock ∧
        e.cad.preset = some (7, resetLength + 1) ∧
        r.base < resetLength + 1) ∧
    (let s := onCad fun c => { c with preset := some (2 ^ 32 - 1, resetLength) };
      let e := settleDue s.nv ⟨max s.dev.now (cycleTick s.dev), 2, 0⟩ [] s.dev;
      let r := (⟨1, resetLength, resetLength⟩ : Rec);
      let t := [(⟨0, 0, resetLength⟩ : Rec)];
      e.cad.preset = some (2 ^ 32 - 1, resetLength) ∧
        resetLength ≤ r.base ∧
        r.c < 2 ^ 32 ∧
        2 ^ 32 - 1 < 2 ^ 32 ∧
        (∀ q ∈ t, q.base < r.base)) ∧
    (let s := onCad fun c => { c with recs := [] };
      let e := settleDue s.nv ⟨max s.dev.now (cycleTick s.dev), 2, 0⟩ [] s.dev;
      e.cad.recs = []) := by
  repeat' apply And.intro
  all_goals first | decide +kernel | rfl

theorem wit_RelockRuns :
    (let d := (onCad fun c => { c with lSrc := 1258290000, corrLeft := -251658 }).dev;
      (slewStep d : Int) ≤ d.cad.lSrc ∧
        (relockRecord d).1.cad.corrLeft = 0) ∧
    (let d := (onCad fun c => { c with lSrc := 1258290000, corrLeft := -900000, slipBase := 3, err := 8 }).dev;
      (relockRecord d).1.cad.corrLeft ≠ 0) := by
  repeat' apply And.intro
  all_goals decide +kernel

theorem wit_RecordsContiguous : Live live ∧ (let e := settleDue live.nv ⟨max live.dev.now (cycleTick live.dev), 2, 0⟩ [] live.dev;
    e.cad.recs ≠ [] ∧ e.cad.preset = none ∧ e.cad.recs = resetRecs) ∧ contiguous resetRecs := by
  refine ⟨rfl, by decide +kernel, ?_⟩
  exact ⟨by decide, by decide, trivial⟩

theorem wit_StampRule :
    (2 ^ 64 - 1 < 2 ^ 64 ∧ resetRecs.length ≤ (1 + 2 ^ 32 - (2 ^ 64 - 1) / 2 ^ 32) % 2 ^ 32) ∧
    (resetRecs = [⟨1, resetLength, resetLength⟩] ++ ⟨0, 0, resetLength⟩ :: [] ∧ 1 = (1 + 2 ^ 32 - (2 ^ 32 - 1) / 2 ^ 32) % 2 ^ 32 ∧
      0 + (2 ^ 32 - 1) * resetLength / 2 ^ 32 < resetLength) := by
  decide

/-- What the position clause of O10 asks of a record, a fraction and a stamp, at the last of a cycle. -/
theorem wit_DieRecords_positions :
    2 ^ 32 - 1 < 2 ^ 32 ∧ 2 ^ 32 - 1 < 2 ^ 32 ∧ 0 < resetLength ∧ resetLength ≤ 2 * resetLength - 1 ∧ 2 * resetLength - 1 < resetLength + resetLength := by
  decide


theorem wit_DieRecords :
    (let s := onCad fun c => { c with st := .holdover, holdCycles := 1000000000 };
      Live s ∧
        LinkUp s 0 ∧
        s.dev.cad.recs = ⟨1, resetLength, resetLength⟩ :: [⟨0, 0, resetLength⟩] ∧
        (s.dev.dies[(0 : Die)]).extending = false ∧
        (s.dev.dies[(0 : Die)]).recs = [⟨0, 0, resetLength⟩] ∧
        (∀ q ∈ [(⟨0, 0, resetLength⟩ : Rec)], q.base < resetLength) ∧
        s.dev.cad.st = .holdover ∧
        rd s.dev oHoldoverAlarm [] ≤ s.dev.cad.holdCycles) ∧
    (let s := onLink 0 fun l => { l with st := .retraining };
      (s.dev.dies[(0 : Die)]).link.st = .retraining) ∧
    (let s := onDie 0 fun d => { d with extending := true };
      (s.dev.dies[(0 : Die)]).extending = true ∧
        (s.dev.dies[(0 : Die)]).recs = ⟨0, 0, resetLength⟩ :: [] ∧
        LinkUp s 0) ∧
    (let s := on (updDie 0 (fun d => { d with extending := true, recs := [⟨0, 0, resetLength + 9⟩] }) (onCad fun c => { c with recs := [⟨2, 2 * resetLength, resetLength⟩, ⟨1, resetLength, resetLength⟩, ⟨0, 0, resetLength⟩] }).dev);
      let r := (⟨1, resetLength, resetLength⟩ : Rec);
      let from_ := (s.dev.dies[(0 : Die)]).link.activeAt * 256;
      (s.dev.dies[(0 : Die)]).extending = true ∧
        s.dev.cad.recs = ⟨2, 2 * resetLength, resetLength⟩ :: ([] ++ r :: [⟨0, 0, resetLength⟩]) ∧
        from_ < r.base ∧
        (∀ q ∈ [(⟨0, 0, resetLength⟩ : Rec)], q.base ≤ from_)) := by
  repeat' apply And.intro
  all_goals first | decide +kernel | rfl

/-- A frame from a hop-0 master with no peer message. -/
def goodFrame : List Byte := 0xA7 :: List.replicate 45 0 ++ leBytes 2 (crc16 (List.replicate 45 0))

/-- A return frame that marks, with no peer message. -/
def goodReturn : List Byte := 0x5D :: List.replicate 16 0 ++ leBytes 2 (crc16 (List.replicate 16 0))


theorem wit_ZhewickSends :
    (let s := put oDownstreamEn 1 [] (onZh fun z => { z with cutChange := some 0xFFF });
      Live s ∧
        sendsFrames s.dev = true ∧
        hopSent s.dev = some 0 ∧
        s.dev.zh.cutChange = some 0xFFF) ∧
    (let s := put oDownstreamEn 1 [] (onZh fun z => { z with retDue := some (1, true) });
      sendsFrames s.dev = true ∧
        s.dev.zh.cutChange = none ∧
        s.dev.zh.retDue = some (1, true)) := by
  repeat' apply And.intro
  all_goals first | decide +kernel | rfl

theorem wit_ZhewickReceives :
    (let s := onZh fun z => { z with validEdge := some 0, txEdge := some 0 };
      Live s ∧
        frameValid [] = false ∧
        frameValid goodFrame = true ∧
        getField (frameField goodFrame 30 16) 4 4 = 0 ∧
        s.dev.cad.src ≠ 3 ∧
        s.dev.zh.validEdge = some 0 ∧
        returnValid goodReturn = true ∧
        frameField goodReturn 0 1 = 0x5D ∧
        getField (frameField goodReturn 1 16) 4 4 = 0 ∧
        s.dev.zh.txEdge = some 0) ∧
    (let s := on { live.dev with cad := { live.dev.cad with src := 3, st := .locked }, zh := { live.dev.zh with validEdge := some 9 } };
      s.dev.cad.src = 3 ∧
        s.dev.cad.st = .locked ∧
        bitOf (frameField goodFrame 1 1) 2 = false ∧
        bitOf (frameField goodFrame 1 1) 1 = false) := by
  repeat' apply And.intro
  all_goals first | decide +kernel | rfl

theorem wit_Syncs :
    (let s := put oSyncPos (2 ^ 33) [] live;
      Served s .n oSyncIssue ∧
        hopOf s.dev = 0 ∧
        within1ms s.dev (rd s.dev oSyncPos []) = false ∧
        s.dev.zh.sync = none) ∧
    (let s := onCad fun c => { c with src := 3 };
      hopOf s.dev ≠ 0) ∧
    (let s := live;
      within1ms s.dev (rd s.dev oSyncPos []) = true) ∧
    (let s := onZh fun z => { z with sync := some ⟨2 ^ 33 - 1, 2 ^ 16 - 1⟩ };
      let e := settleDue s.nv ⟨max s.dev.now (knownTick s (s.dev.zh.sync.bind fun t => reachTick s.dev.cad.recs t.pos)), 2, 0⟩ [] s.dev;
      s.dev.zh.sync ≠ none ∧
        e.zh.sync = some ⟨2 ^ 33 - 1, 2 ^ 16 - 1⟩ ∧
        (reachTick e.cad.recs (2 ^ 33 - 1)).isSome = true ∧
        2 ^ 16 - 1 < 2 ^ 16 ∧
        2 ^ 33 - 1 < 2 ^ 64) ∧
    (let s := onZh fun z => { z with sync := some ⟨2 ^ 40, 2 ^ 16 - 1⟩ };
      let e := settleDue s.nv ⟨max s.dev.now (knownTick s (s.dev.zh.sync.bind fun t => reachTick s.dev.cad.recs t.pos)), 2, 0⟩ [] s.dev;
      e.zh.sync = some ⟨2 ^ 40, 2 ^ 16 - 1⟩ ∧
        reachTick e.cad.recs (2 ^ 40) = none) := by
  repeat' apply And.intro
  all_goals first | decide +kernel | rfl

/-- A RUNNING source path at the slot of record 0, of the given origin, queue and last slot. -/
def sampling (origin : Nat) (q : List QEntry) (last : Option Nat) : State :=
  put oSrcOrigin origin [5] (onSrc fun x => { x with st := .running, queue := q, lastSlot := last })

/-- The device after what R51 puts before the next slot of the source of channel 5. -/
def atSlot (s : State) : Dev := settleDue s.nv ⟨max s.dev.now (knownTick s (sampleTick s.dev 5)), 3, 0⟩ [5] s.dev

/-- The device after what R51 puts before the next modulator clock of channel 5. -/
def atClock (s : State) : Dev := settleDue s.nv ⟨max s.dev.now (modulatorTick s.dev 5), 3, 0⟩ [5] s.dev


theorem wit_SourceSlots :
    (let s := put oSrcStart (2 ^ 40) [5] live;
      let e := atSlot s;
      Live s ∧
        sampleTick e 5 = none) ∧
    (let s := live;
      let e := atSlot s;
      sampleTick e 5 = some 0 ∧
        (e.ch 5).src.st ≠ .running) ∧
    (let s := sampling 1 [⟨12345, none⟩] none;
      let e := atSlot s;
      sampleTick e 5 = some 0 ∧
        (e.ch 5).src.st = .running ∧
        rd e oSrcOrigin [5] = 1 ∧
        (e.ch 5).src.queue = ⟨12345, none⟩ :: [] ∧
        (e.ch 5).src.lastSlot = none) ∧
    (let s := sampling 1 [] none;
      let e := atSlot s;
      rd e oSrcOrigin [5] = 1 ∧
        (e.ch 5).src.queue = [] ∧
        (e.ch 5).src.st = .running ∧
        (e.ch 5).src.lastSlot = none) ∧
    (let s := sampling 1 [⟨12345, none⟩] (some 0);
      let e := atSlot s;
      (e.ch 5).src.queue = ⟨12345, none⟩ :: [] ∧
        (e.ch 5).src.lastSlot = some 0 ∧
        0 < 0 + 160) ∧
    (let s := put oSrcCode 0xFFFFFFFFFE [5] (sampling 0 [⟨3, none⟩] none);
      let e := atSlot s;
      rd e oSrcOrigin [5] = 0) := by
  repeat' apply And.intro
  all_goals first | decide +kernel | rfl

theorem wit_ModulatorClocks :
    (let s := put oStepHoldUs 1 [5] (put oStepThresh 0 [5] (put oSrcCode 100 [5] (onSrc fun x => { x with st := .running, static := 100 })));
      let e := atClock s;
      let t := max ((e.ch 5).src.clock + 10) ((e.now + 9) / 10 * 10);
      let code := clampInt (-(rd e oCodeLimit [5] : Int)) (rd e oCodeLimit [5] : Int) (originSum (sineClock 5 (advance t e)) 5 t);
      Live s ∧
        (e.ch 5).src.safe = none ∧
        (e.ch 5).src.hold = none ∧
        (e.ch 5).src.forcedAt = none ∧
        rd e oStepHoldUs [5] ≠ 0 ∧
        rd e oSrcOrigin [5] ≠ 4 ∧
        rd e oStepThresh [5] < (code - (e.ch 5).src.code).natAbs) ∧
    (let s := put oStepHoldUs 0 [5] (onSrc fun x => { x with safe := some ⟨1, 0, 5, 1⟩, clock := 7 });
      let e := atClock s;
      rd e oStepHoldUs [5] = 0 ∧
        (e.ch 5).src.safe = some ⟨1, 0, 5, 1⟩) ∧
    (let s := onSrc fun x => { x with hold := some ⟨0, 0, 245760⟩, recon := [1, 2, 3], gndClamp := false, hizClamp := false };
      (s.dev.ch 5).src.hold = some ⟨0, 0, 245760⟩ ∧
        245760 ≤ 0 + 245760) ∧
    (let s := onSrc fun x => { x with hold := some ⟨0, 0, 245761⟩ };
      (s.dev.ch 5).src.hold = some ⟨0, 0, 245761⟩ ∧
        0 + 245760 < 245761) := by
  repeat' apply And.intro
  all_goals first | decide +kernel | rfl

theorem wit_EnableSequence :
    (let s := onSrc fun x => { x with st := .enabling, enableT := some 0 };
      Live s ∧
        (s.dev.ch 5).src.st = .enabling ∧
        (s.dev.ch 5).src.enableT = some 0) ∧
    (let s := put oSrcRamp 0 [5] (onSrc fun x => { x with st := .disabling, rampFrom := some (0, 1) });
      (s.dev.ch 5).src.st = .disabling ∧
        (s.dev.ch 5).src.rampDone = none ∧
        (s.dev.ch 5).src.safe = none ∧
        (s.dev.ch 5).src.rampFrom = some (0, 1) ∧
        rd s.dev oSrcRamp [5] = 0) ∧
    (let s := put oSrcRamp 1 [5] (onSrc fun x => { x with st := .disabling, rampFrom := some (5, 10001) });
      0 < rd s.dev oSrcRamp [5] ∧
        (s.dev.ch 5).src.rampFrom = some (5, 10001)) ∧
    (let s := onSrc fun x => { x with st := .disabling, rampDone := some 9, queue := [⟨1, none⟩], primed := true, hold := some ⟨0, 0, 245760⟩ };
      (s.dev.ch 5).src.st = .disabling ∧
        (s.dev.ch 5).src.rampDone = some 9 ∧
        (s.dev.ch 5).src.safe = none ∧
        (s.dev.ch 5).src.enablePending = false) := by
  repeat' apply And.intro
  all_goals first | decide +kernel | rfl

theorem wit_RangeSequence :
    (let s := onSrc fun x => { x with range := some ⟨0, 1, 0, 100, true⟩, hold := some ⟨0, 0, 100⟩, settleAt := some 0, resetGndAt := some 0 };
      Live s ∧
        (s.dev.ch 5).src.range = some ⟨0, 1, 0, 100, true⟩ ∧
        (s.dev.ch 5).src.hold = some ⟨0, 0, 100⟩ ∧
        (s.dev.ch 5).src.settleAt = some 0 ∧
        (s.dev.ch 5).src.resetGndAt = some 0) := by
  repeat' apply And.intro
  all_goals first | decide +kernel | rfl

theorem wit_SourceWrites :
    (let s := live;
      LinkUp s (Ch.die 5) ∧
        Served s .n oSrcCode) ∧
    (let s := put oSrcQOwner 0 [5] (onSrc fun x => { x with queue := List.replicate 4095 ⟨0, none⟩ });
      let data := List.replicate 5 (0xFF : Byte);
      let codes := (List.range (data.length / 5)).map fun i => toSigned 40 (ofBytes ((data.drop (5 * i)).take 5));
      Served s .n oSrcQData ∧
        data ≠ [] ∧
        data.length % 5 = 0 ∧
        data.length ≤ 20480 ∧
        (Port.n = .n ∧ rd s.dev oSrcQOwner [5] = 0) ∧
        (s.dev.ch 5).src.queue.length + codes.length ≤ 4096) ∧
    (let s := onSrc fun x => { x with queue := List.replicate 4096 ⟨0, none⟩ };
      4096 < (s.dev.ch 5).src.queue.length + 1) ∧
    (let s := put oSrcQOwner 1 [5] live;
      rd s.dev oSrcQOwner [5] = 1) := by
  repeat' apply And.intro
  all_goals first | decide +kernel | rfl

/-- A RUNNING array of the given roles and aperture. -/
def arrRun (roles : List (Option (Fin 7))) (aperture : Nat) : State :=
  onArr fun x => { x with st := .running, roles := roles, aperture := aperture, ready := true }

def sixRoles : List (Option (Fin 7)) := [some 0, some 1, some 2, some 3, some 4, some 5]


theorem wit_SlotStarts :
    (let s := on (updCh 5 (fun c => { c with vm := { c.vm with st := .running, p0 := 2 ^ 40 } }) live.dev);
      Live s ∧
        (arrOf s.dev 5 .vm).st = .running ∧
        stampOf (dieRecs s.dev 5) (slotStart (arrOf s.dev 5 .vm) (arrOf s.dev 5 .vm).nextK) = none) ∧
    (let s := arrRun sixRoles 0x40000000;
      let x := arrOf s.dev 5 .vm;
      let len := actStamp (s.dev.dies[Ch.die 5]) (stampNear (dieRecs s.dev 5) (slotEnd x 0)) - 0;
      (stampOf (dieRecs s.dev 5) (slotStart x x.nextK)).map (actStamp (s.dev.dies[Ch.die 5])) = some 0 ∧
        x.dropRole = false ∧
        x.rotRole = none ∧
        246 * 256 ≤ len ∧
        none ∉ x.roles ∧
        restartTick s.dev 5 .vm = none ∧
        x.roles.getD 0 (some 0) ≠ none ∧
        x.roles.getD 0 none = some 0 ∧
        urgentHolds x 0 0 = false ∧
        (x.slices[(0 : Fin 7)]).freeAt = 0 ∧
        x.mode = 0) ∧
    (let s := on (updArr 5 .vm (fun x => { x with urgent := some ⟨0, 100, 2000⟩ }) (arrRun sixRoles 0x40000000).dev);
      let x := arrOf s.dev 5 .vm;
      urgentHolds x 0 0 = true) ∧
    (let s := on (updArr 5 .vm (fun x => { x with slices := x.slices.set 6 { x.slices[6] with st := .verify } }) (arrRun [none, some 1] 0x40000000).dev);
      let x := arrOf s.dev 5 .vm;
      x.roles.getD 0 none = none ∧
        noSpare x = false ∧
        ((∀ sp, x.spare = some sp → (x.slices[sp]).st ≠ .spareIdle))) ∧
    (let s := on (updArr 5 .vm (fun x => { x with spare := some 6, slices := x.slices.set 6 { x.slices[6] with st := .spareIdle } }) (arrRun [none, some 1] 0x40000000).dev);
      let x := arrOf s.dev 5 .vm;
      x.roles.getD 0 (some 0) = none ∧
        x.spare = some 6 ∧
        (x.slices[(6 : Fin 7)]).st = .spareIdle ∧
        urgentHolds x 6 0 = false ∧
        max 246 ((532 + (x.roles.length - 1) - 1) / max 1 (x.roles.length - 1)) * 256 ≤ actStamp (s.dev.dies[Ch.die 5]) (stampNear (dieRecs s.dev 5) (slotEnd x 0)) - 0 ∧
        none ∉ listSet x.roles 0 (some 6)) ∧
    (let s := on (updArr 5 .vm (fun x => { x with spare := some 6, slices := (Vector.replicate 7 { x.slices[6] with st := .retired }).set 6 { x.slices[6] with st := .spareIdle } }) (arrRun [none, none, some 1] 0x40000000).dev);
      let x := arrOf s.dev 5 .vm;
      x.roles.getD 0 (some 0) = none ∧
        x.spare = some 6 ∧
        none ∈ listSet x.roles 0 (some 6) ∧
        (∀ i : Fin 7, i ≠ 6 → (x.slices[i]).st ≠ .spareIdle ∧ (x.slices[i]).st ≠ .verify ∧ (x.slices[i]).st ≠ .calibrating) ∧
        s.dev.ref.comparison = none) ∧
    (let s := on (updArr 5 .vm (fun x => { x with mode := 1, spare := some 6, slices := (Vector.replicate 7 { x.slices[6] with st := .retired }).set 6 { x.slices[6] with st := .spareIdle } }) (arrRun [none, none, some 1] 0x40000000).dev);
      let x := arrOf s.dev 5 .vm;
      x.mode ≠ 0 ∧
        none ∈ listSet x.roles 0 (some 6) ∧
        (∀ i : Fin 7, i ≠ 6 → (x.slices[i]).st ≠ .spareIdle ∧ (x.slices[i]).st ≠ .verify ∧ (x.slices[i]).st ≠ .calibrating)) ∧
    (let s := arrRun sixRoles 1;
      let x := arrOf s.dev 5 .vm;
      actStamp (s.dev.dies[Ch.die 5]) (stampNear (dieRecs s.dev 5) (slotEnd x 0)) - 0 < 246 * 256 ∧
        (stampOf (dieRecs s.dev 5) (slotStart x 0)).map (actStamp (s.dev.dies[Ch.die 5])) = some 0) := by
  repeat' apply And.intro
  all_goals first | decide +kernel | rfl

/-- A slot that runs on slice 0 from position 0 to one quarter of cycle 0, and a conversion that has ended. -/
def slot0 : Slot := ⟨0, 0, 0, 2 ^ 30, 0, 0, 0, 0, none, (0, 0), (0, 0), false, false, false, false, false, ⟨0, 0, 0, 0⟩, none⟩
def done0 (aborted : Bool) (ovr : Option Bool) : Done := ⟨0, 0, 25600, 5, aborted, ovr, none, false, ⟨0, 0, 0, 0⟩, none⟩


theorem wit_AperturesAndTakes :
    (let s := onArr fun x => { x with st := .running, slots := [slot0] };
      Live s ∧
        (arrOf s.dev 5 .vm).slots = slot0 :: [] ∧
        ((stampOf (dieRecs s.dev 5) slot0.endPos).map (actStamp (s.dev.dies[Ch.die 5]))).isSome = true ∧
        slot0.idle = false ∧
        ({ slot0 with idle := true } : Slot).idle = true ∧
        (⟨[1], none⟩ : Conv).ovr = none ∧
        (⟨[1], some (true, 7)⟩ : Conv).ovr = some (true, 7)) ∧
    (let s := onArr fun x => { x with st := .running, slots := [slot0], done := [{ done0 false none with ord := 1 }] };
      (∃ y ∈ (arrOf s.dev 5 .vm).slots, y.ord < 1)) ∧
    (let s := onArr fun x => { x with st := .running, done := [done0 false none], seq := 65535 };
      let q := done0 false none;
      let e := settleDue s.nv ⟨max s.dev.now (if q.aborted = true then s.dev.now else (q.stop + 255) / 256 + 369), 3, 0⟩ [5] s.dev;
      (arrOf s.dev 5 .vm).done = q :: [] ∧
        (arrOf e 5 .vm).done = q :: [] ∧
        (∀ y ∈ (arrOf e 5 .vm).slots, q.ord ≤ y.ord) ∧
        e.ref.comparison = none ∧
        (arrOf e 5 .vm).seq < 65536 ∧
        q.aborted = false ∧
        (∀ y ∈ (arrOf s.dev 5 .vm).slots, q.ord ≤ y.ord)) ∧
    (let s := onArr fun x => { x with st := .running, slots := [{ slot0 with idle := true }] };
      (arrOf s.dev 5 .vm).slots = { slot0 with idle := true } :: []) ∧
    (let q := done0 true none;
      q.aborted = true ∧
        (done0 false (some true)).ovr.isSome = true ∧
        -(2 ^ 39) ≤ q.value ∧
        q.value < 2 ^ 39) := by
  repeat' apply And.intro
  all_goals first | decide +kernel | rfl

/-- The calibration sequence of slice 6 of an array, holding the path, in a phase. -/
def calib (ph : CalPhase) (st : ArrState) (aperture : Nat) : State :=
  on (holdUnits (updCh 5 (fun c => { c with vm := { c.vm with st := st, cal := some ⟨6, 0, ph, 0, 0, 0⟩, roles := sixRoles, aperture := aperture } }) live.dev))
where
  /-- The multiplexer held by the sequence. -/
  holdUnits (d : Dev) : Dev := { d with arb := { d.arb with units := [⟨muxUnit 5, [⟨sliceCalId 5 .vm, 0, 0, 0, false, false, none⟩], [], 0⟩] } }

def cal6 (ph : CalPhase) : Cal := ⟨6, 0, ph, 0, 0, 0⟩


theorem wit_SliceCalibration :
    (let s := put oRotEnable 1 [5, 0] (onArr fun x => { x with st := .running, roles := sixRoles, spare := some 6, slices := x.slices.set 6 { x.slices[6] with st := .spareIdle } });
      let x := arrOf s.dev 5 .vm;
      let t := advance (x.rotTick + rd s.dev oRotInterval [5, 0] * 245760) s.dev;
      Live s ∧
        s.dev.ref.comparison = none ∧
        rotationDue t 5 .vm = true ∧
        serviceRuns s.dev (Ch.die 5) 2 = true ∧
        x.roles.getD (x.nextRole % max 1 x.roles.length) none = some 0 ∧
        x.cal = none) ∧
    (let s := put oRotEnable 0 [5, 0] live;
      let x := arrOf s.dev 5 .vm;
      let t := advance (x.rotTick + rd s.dev oRotInterval [5, 0] * 245760) s.dev;
      rotationDue t 5 .vm = false) ∧
    (let s := onDie 1 fun d => { d with services := { d.services with stopped := 4, map := 0xFB } };
      serviceRuns s.dev (Ch.die 5) 2 = false) ∧
    (let s := onArr fun x => { x with cal := some (cal6 .zero) };
      (arrOf s.dev 5 .vm).cal = some (cal6 .zero) ∧
        calMayRun s.dev 5 .vm (cal6 .zero) = false) ∧
    (let s := calib .zero .running 0x40000000;
      let c := cal6 .zero;
      (arrOf s.dev 5 .vm).cal = some c ∧
        calMayRun s.dev 5 .vm c = true ∧
        offsetWithin 13743895 = true ∧
        offsetWithin 13743896 = false) ∧
    (let s := calib .plus .running 0x40000000;
      let c := cal6 .plus;
      calMayRun s.dev 5 .vm c = true) ∧
    (let s := calib .minus .running 0x40000000;
      let c := cal6 .minus;
      let later := max s.dev.now (c.since + usTicks 500 + rd s.dev oCalAperture [5, 0] * 245760);
      let a := advance (c.since + usTicks 500 + rd s.dev oCalAperture [5, 0] * 245760) s.dev;
      calMayRun s.dev 5 .vm c = true ∧
        gainWithin 549755813 = true ∧
        gainWithin 549755814 = false ∧
        neighbourSkipped a 5 .vm { c with gain := 549755813, since := later } = false) ∧
    (let s := calib .minus .off 0x40000000;
      let c := cal6 .minus;
      let later := max s.dev.now (c.since + usTicks 500 + rd s.dev oCalAperture [5, 0] * 245760);
      let a := advance (c.since + usTicks 500 + rd s.dev oCalAperture [5, 0] * 245760) s.dev;
      (arrOf s.dev 5 .vm).roles.all Option.isSome = true ∧
        (arrOf s.dev 5 .vm).rotRole = none ∧
        neighbourSkipped a 5 .vm { c with gain := 549755813, since := later } = true) ∧
    (let s := calib .neighbour .running 0x40000000;
      let c := cal6 .neighbour;
      calMayRun s.dev 5 .vm c = true ∧
        neighbourSkipped s.dev 5 .vm c = false ∧
        (0 : Int).natAbs ≤ rd s.dev oNbrLimit [5, 0] ∧
        rd s.dev oNbrLimit [5, 0] < ((rd s.dev oNbrLimit [5, 0] + 1 : Nat) : Int).natAbs ∧
        ((arrOf s.dev 5 .vm).slices[c.slice]).nbrFails = 0) ∧
    (let s := on (updArr 5 .vm (fun x => { x with slices := x.slices.set 6 { x.slices[6] with nbrFails := 1 } }) (calib .neighbour .running 0x40000000).dev);
      let c := cal6 .neighbour;
      1 ≤ ((arrOf s.dev 5 .vm).slices[c.slice]).nbrFails) ∧
    (let s := calib .neighbour .draining 0x40000000;
      let c := cal6 .neighbour;
      calMayRun s.dev 5 .vm c = true ∧
        neighbourSkipped s.dev 5 .vm c = true) := by
  repeat' apply And.intro
  all_goals first | decide +kernel | rfl

theorem wit_SlicesInService :
    (let s := onArr fun x => { x with st := .running, refSettleAt := some 0, roles := sixRoles, slots := [{ slot0 with slice := 1 }], slices := x.slices.set 1 { x.slices[1] with st := .active } };
      Live s ∧
        s.dev.ref.comparison = none ∧
        ((arrOf s.dev 5 .vm).slices[(1 : Fin 7)]).st = .active ∧
        (arrOf s.dev 5 .vm).st = .running ∧
        some 1 ∈ (arrOf s.dev 5 .vm).roles ∧
        (∀ j : Fin 7, some j ∈ (arrOf s.dev 5 .vm).roles → ((arrOf s.dev 5 .vm).slices[(1 : Fin 7)]).calTick ≤ ((arrOf s.dev 5 .vm).slices[j]).calTick) ∧
        (arrOf s.dev 5 .vm).refSettleAt = some 0) ∧
    (let s := live;
      ((∀ m : Ch, m.die = 0 → (s.dev.ch m).vm.ready = false))) := by
  repeat' apply And.intro
  all_goals first | decide +kernel | rfl

theorem wit_UrgentTapTable :
    (let s := onArr fun x => { x with st := .running, urgentReqs := [.object], slots := [slot0] };
      let x := arrOf s.dev 5 .vm;
      Live s ∧
        s.dev.ref.comparison = none ∧
        Served s .n oUrgentReq ∧
        LinkUp s (Ch.die 5) ∧
        (¬ (x.st = .off ∨ x.st = .fault)) ∧
        x.urgentReqs = .object :: [] ∧
        bitOf (rd s.dev oUrgentSrc [5, 0]) (urgentBit .object) = true ∧
        x.urgent = none ∧
        earliestSlot x = some slot0) ∧
    (let s := onArr fun x => { x with urgentReqs := [.object] };
      let x := arrOf s.dev 5 .vm;
      x.st = .off ∧
        x.ready = false ∧
        x.urgentReqs = .object :: []) ∧
    (let s := put oUrgentSrc 0 [5, 0] (onArr fun x => { x with st := .running, urgentReqs := [.object] });
      bitOf (rd s.dev oUrgentSrc [5, 0]) (urgentBit .object) = false) ∧
    (let s := onArr fun x => { x with st := .running, urgentReqs := [.object], urgent := some ⟨0, 0, 512⟩ };
      let e := settleDue s.nv ⟨max s.dev.now (512 / 256 + 369), 3, 0⟩ [5] s.dev;
      (arrOf e 5 .vm).urgent = some ⟨0, 0, 512⟩ ∧
        (arrOf s.dev 5 .vm).urgent.isSome = true ∧
        (arrOf s.dev 5 .vm).urgent = some ⟨0, 0, 512⟩) ∧
    (let s := onArr fun x => { x with st := .running, roles := sixRoles, urgentReqs := [.object], nextK := 5 };
      let x := arrOf s.dev 5 .vm;
      earliestSlot x = none ∧
        x.urgent = none ∧
        x.roles.getD (x.nextK % max 1 x.roles.length) none = some 5) ∧
    (let s := onArr fun x => { x with st := .running, roles := [none, some 1], urgentReqs := [.object] };
      let x := arrOf s.dev 5 .vm;
      earliestSlot x = none ∧
        x.roles.getD (x.nextK % max 1 x.roles.length) none = none) ∧
    (let s := onArr fun x => { x with tap := { x.tap with tick := 321 } };
      (arrOf s.dev 5 .vm).ready = false) ∧
    (let l := [mcfgDefault];
      let data := leBytes 2 255 ++ leBytes 16 mcfgDefault;
      Served live .n oMcfgTable ∧
        l ≠ [] ∧
        255 < 256 ∧
        data.length = 2 + 16 * l.length ∧
        ofBytes (data.take 2) = 255 ∧
        mcfgEntries (data.drop 2) = l ∧
        255 + l.length ≤ 256 ∧
        (∀ e ∈ l, ∀ h ∈ [e % 2 ^ 64, e / 2 ^ 64], mcfgHalfReserved h = false ∧ mcfgHalfOk live.dev h = true)) ∧
    (256 < 255 + [mcfgDefault, mcfgDefault].length) := by
  repeat' apply And.intro
  all_goals first | decide +kernel | rfl

/-- A queue of 16 entries. -/
def desc (discardOld : Bool) (consumer target : Nat) : BitVec 64 :=
  BitVec.ofNat 64 (2 ^ 48 + (if discardOld then 2 ^ 42 else 0) + consumer * 2 ^ 40 + target * 2 ^ 28)

theorem wit_QueueRule :
    descDepth emptyQueue.desc = 0 ∧
    (let q : Queue := ⟨desc false 0 0, [List.replicate 15 0], 0, 0⟩;
      descDepth q.desc ≠ 0 ∧ queueFill q + [(0 : Word64)].length ≤ descDepth q.desc ∧ descDepth q.desc < queueFill q + [(0 : Word64), 0].length ∧
        descDiscardOld q.desc = false ∧ queueFill q ≤ descDepth q.desc) ∧
    (let q : Queue := ⟨desc true 0 0, [List.replicate 16 0], 2 ^ 24 - 2, 0⟩;
      descDepth q.desc ≠ 0 ∧ descDepth q.desc < queueFill q + [(0 : Word64)].length ∧ descDiscardOld q.desc = true ∧
        [(0 : Word64)].length ≤ descDepth q.desc ∧ q.overflows + q.recs.length < 2 ^ 24) := by
  repeat' apply And.intro
  all_goals decide +kernel

/-- Queue 511 of channel 5 and Control-die queue 1. -/
def queued (consumer : Nat) : State :=
  on { updCh 5 (fun c => { c with queues := [(511, ⟨desc false consumer 1, [[0], [1]], 0, 2⟩)] }) live.dev with
    ctrlQueues := [(1, ⟨desc false consumer 0, [[0]], 0, 1⟩)] }


theorem wit_QueueCommands :
    (let s := queued 2;
      let x := qFind (s.dev.ch 5).queues (511 : BitVec 16).toNat;
      Live s ∧
        x.recs = [0] :: [[1]] ∧
        descConsumer x.desc = 2 ∧
        s.dev.ctlRunning = true ∧
        LinkUp s (Ch.die 5)) ∧
    ((¬ (onLink 1 fun l => { l with st := .lost }).dev.dies[(1 : Die)].link.st = .active) ∧
        Served live .n oQueueFlush ∧
        1 ≤ (511 : BitVec 16).toNat ∧
        (511 : BitVec 16).toNat ≤ 511) ∧
    (let s := queued 0;
      serves s.dev .n = true ∧
        portShut s.nv s.dev .n = false ∧
        portHolds s.dev .n = none ∧
        Port.n ≠ .c ∧
        Port.n ≠ .x ∧
        descDepth (qFind (s.dev.ch 5).queues (rdP s.dev oQueueSel .n [5])).desc = 0 ∧
        descDepth (qFind s.dev.ctrlQueues (rdP s.dev oCtrlQueueSel .n [])).desc = 0) ∧
    (let s := ({ queued 0 with dev := wrP (wrP (queued 0).dev oQueueSel .n 511 [5]) oCtrlQueueSel .n 1 [] } : State);
      let q := qFind (s.dev.ch 5).queues (rdP s.dev oQueueSel .n [5]);
      descDepth q.desc ≠ 0 ∧
        consumerOf .n = some (descConsumer q.desc) ∧
        descDepth (qFind s.dev.ctrlQueues (rdP s.dev oCtrlQueueSel .n [])).desc ≠ 0 ∧
        consumerOf .n = some (descConsumer (qFind s.dev.ctrlQueues (rdP s.dev oCtrlQueueSel .n [])).desc)) ∧
    (let s := ({ queued 0 with dev := wrP (queued 0).dev oQueueSel .s 511 [5] } : State);
      consumerOf .s ≠ some (descConsumer (qFind (s.dev.ch 5).queues (rdP s.dev oQueueSel .s [5])).desc) ∧
        descDepth (qFind (s.dev.ch 5).queues (rdP s.dev oQueueSel .s [5])).desc ≠ 0) := by
  repeat' apply And.intro
  all_goals first | decide +kernel | rfl

theorem wit_PostProcessing :
    (let s := on (updCh 5 (fun c => { c with pes := c.pes.set 1 { c.pes[1] with ready := [([1], 0)], used := 1 }, queues := [(3, ⟨BitVec.ofNat 64 (2 ^ 48 + 6 * 2 ^ 44), [], 0, 0⟩)] }) live.dev);
      let b := settleDue s.nv ⟨s.dev.now, 3, 0⟩ [5] s.dev;
      Live s ∧
        ((s.dev.ch 5).pes[(1 : Fin 2)]).ready ≠ [] ∧
        ((b.ch 5).pes[(1 : Fin 2)]).ready = ([1], 0) :: [] ∧
        ((s.dev.ch 5).pes[(0 : Fin 2)]).ready = [] ∧
        Served s .n oPeRestart ∧
        LinkUp s (Ch.die 5)) := by
  repeat' apply And.intro
  all_goals first | decide +kernel | rfl

/-- A loop in a state with samples of both taps. -/
def loopIn (st : LoopState) (f : Loop → Loop) : State := put oLoopRate 0 [5] (onLoop fun l => f { l with st := st, tapV := [(some 1, false)], tapI := [(some 1, false)] })

/-- The device after what R51 puts before the next period boundary of channel 5. -/
def atBoundary (s : State) : Dev := settleDue s.nv ⟨max s.dev.now (boundaryTick s.dev 5), 3, 0⟩ [5] s.dev

/-- The boundary of `wit_LoopPeriods`: tick 160. -/
def boundary5 (e : Dev) : Nat := max ((e.ch 5).loop.boundary / 160 * 160 + 160) ((e.now + 160 - 1) / 160 * 160)


theorem wit_LoopPeriods :
    (let s := live;
      let e := atBoundary s;
      Live s ∧
        (e.ch 5).loop.st = .openState ∧
        (e.ch 5).loopBefore = none) ∧
    (let s := put oLoopRate 0 [5] (on (updCh 5 (fun c => { c with loopBefore := some (160, { c.loop with st := .primary, frozenFound := true }) }) live.dev));
      let e := atBoundary s;
      rd e oLoopRate [5] = 0 ∧
        boundary5 e = 160 ∧
        (e.ch 5).loop.st = .openState ∧
        (e.ch 5).loopBefore = some (160, { (e.ch 5).loop with st := .primary, frozenFound := true }) ∧
        loopClosed LoopState.primary = true) ∧
    (let s := put oCoastMax 1 [5] (loopIn .rangeXover fun l => { l with xover := some ⟨161, 320, 1, 0, false, .primary, []⟩, integ := 5, uOut := 9 });
      let e := atBoundary s;
      let l := (e.ch 5).loop;
      l.st = .rangeXover ∧
        l.xover = some ⟨161, 320, 1, 0, false, .primary, []⟩ ∧
        l.owed = false ∧
        l.frozenFound = false ∧
        (1 ≤ l.tapV.length ∧ 1 ≤ l.tapI.length ∧ ∀ q ∈ l.tapV.take 1 ++ l.tapI.take 1, q.1 ≠ none) ∧
        l.setWaits = false ∧
        l.coastRun < rd e oCoastMax [5] ∧
        boundary5 e < 161 ∧
        (e.ch 5).loopBefore = none) ∧
    (let s := put oCoastMax 1 [5] (loopIn .rangeXover fun l => { l with xover := some ⟨160, 320, 1, 101, false, .primary, []⟩, integ := 5, uOut := 9, uPrev := 11 });
      let e := atBoundary s;
      let l := (e.ch 5).loop;
      let x := (⟨160, 320, 1, 101, false, .primary, []⟩ : LoopXover);
      l.xover = some x ∧
        x.scaleAt ≤ boundary5 e ∧
        x.writes = []) ∧
    (let s := on (updLoop 5 (fun l => { l with tapV := [(none, false)] }) (loopIn .rangeXover fun l => { l with xover := some ⟨160, 320, 1, 101, false, .primary, []⟩, uOut := 9 }).dev);
      let e := atBoundary s;
      let l := (e.ch 5).loop;
      (¬ (1 ≤ l.tapV.length ∧ 1 ≤ l.tapI.length ∧ ∀ q ∈ l.tapV.take 1 ++ l.tapI.take 1, q.1 ≠ none)) ∧
        l.st = .rangeXover) ∧
    (let s := loopIn .rangeXover fun l => { l with xover := some ⟨1, 160, 1, 100, true, .primary, []⟩, coastRun := 3, integ := 8 };
      let e := atBoundary s;
      let l := (e.ch 5).loop;
      let x := (⟨1, 160, 1, 100, true, .primary, []⟩ : LoopXover);
      l.st = .rangeXover ∧
        l.xover = some x ∧
        x.scaled = true ∧
        x.resumeAt ≤ boundary5 e ∧
        (x.back = .primary ∨ x.back = .limit) ∧
        rd e oLoopMode [5] % 2 = 0 ∧
        (∀ q ∈ l.tapV.take 1, q.2 = false) ∧
        l.softWaits = none ∧
        l.decided = none) ∧
    (let s := loopIn .primary fun l => { l with setWaits := true };
      let e := atBoundary s;
      (e.ch 5).loop.st = .primary ∧
        (e.ch 5).loop.setWaits = true ∧
        (e.ch 5).loop.xover = none) ∧
    (let s := loopIn .primary fun l => { l with owed := true, handed := some 3, consec := 1 };
      let e := atBoundary s;
      (e.ch 5).loop.owed = true ∧
        (e.ch 5).loop.handed = some 3 ∧
        (e.ch 5).loop.frozenFound = false) ∧
    (let s := loopIn .primary fun l => { l with owed := true, consec := 1 };
      let e := atBoundary s;
      (e.ch 5).loop.handed = none ∧
        (e.ch 5).loop.frozenFound = false ∧
        (e.ch 5).loop.consec < 2) ∧
    (let s := loopIn .primary fun l => { l with owed := true, consec := 2 };
      let e := atBoundary s;
      (e.ch 5).loop.consec = 2) ∧
    (let s := loopIn .primary fun l => { l with owed := true, frozenFound := true };
      let e := atBoundary s;
      (e.ch 5).loop.frozenFound = true ∧
        (e.ch 5).loop.handed = none) ∧
    (let s := on (updLoop 5 (fun l => { l with tapV := [] }) (loopIn .primary id).dev);
      let e := atBoundary s;
      (e.ch 5).loop.owed = false ∧
        (¬ 1 ≤ (e.ch 5).loop.tapV.length)) ∧
    (let s := put oCoastMax 1 [5] (on (updLoop 5 (fun l => { l with tapV := [(some 1, true)] }) (loopIn .primary id).dev));
      let e := atBoundary s;
      let l := (e.ch 5).loop;
      (∃ q ∈ l.tapV.take 1, q.2 = true) ∧
        l.coastRun < rd e oCoastMax [5]) ∧
    (let s := loopIn .primary id;
      let e := atBoundary s;
      let l := (e.ch 5).loop;
      (∀ q ∈ l.tapV.take 1, q.2 = false) ∧
        l.softWaits = none ∧
        l.decided = none ∧
        l.setWaits = false) ∧
    (let s := loopIn .primary fun l => { l with decided := some none, decidedY := 5, uPrev := 3 };
      let e := atBoundary s;
      let l := (e.ch 5).loop;
      l.decided = some none ∧
        l.softWaits = none) ∧
    (let s := loopIn .primary fun l => { l with softWaits := some true, uPrev := 3 };
      let e := atBoundary s;
      let l := (e.ch 5).loop;
      l.softWaits = some true) ∧
    (let s := loopIn .limit fun l => { l with owed := true, handed := some 3, consec := 1, sideLow := true };
      let e := atBoundary s;
      (e.ch 5).loop.st = .limit ∧
        (e.ch 5).loop.owed = true ∧
        (e.ch 5).loop.handed = some 3) ∧
    (let s := loopIn .limit fun l => { l with owed := true, consec := 2 };
      let e := atBoundary s;
      (e.ch 5).loop.st = .limit ∧
        (e.ch 5).loop.handed = none ∧
        (e.ch 5).loop.frozenFound = false ∧
        (e.ch 5).loop.consec = 2) ∧
    (let s := on (updLoop 5 (fun l => { l with tapV := [] }) (loopIn .limit id).dev);
      let e := atBoundary s;
      (e.ch 5).loop.st = .limit ∧
        (¬ 1 ≤ (e.ch 5).loop.tapV.length)) ∧
    (let s := put oCoastMax 1 [5] (on (updLoop 5 (fun l => { l with tapV := [(some 1, true)] }) (loopIn .limit id).dev));
      let e := atBoundary s;
      (e.ch 5).loop.st = .limit ∧
        (∃ q ∈ (e.ch 5).loop.tapV.take 1, q.2 = true)) ∧
    (let s := loopIn .limit fun l => { l with sideLow := true };
      let e := atBoundary s;
      (e.ch 5).loop.st = .limit ∧
        (e.ch 5).loop.softWaits = none ∧
        (e.ch 5).loop.decided = none) ∧
    (let s := loopIn .limit fun l => { l with softWaits := some false, sideLow := true, count := 2, integ := 7 };
      let e := atBoundary s;
      let low := false;
      let l := (e.ch 5).loop;
      l.st = .limit ∧
        l.softWaits = some low ∧
        l.setWaits = false ∧
        (∀ q ∈ l.tapV.take 1, q.2 = false)) ∧
    (let s := loopIn .rangeXover fun l => { l with xover := some ⟨1, 160, 1, 100, true, .limit, []⟩, coastRun := 3, integ := 8 };
      let e := atBoundary s;
      let x := (⟨1, 160, 1, 100, true, .limit, []⟩ : LoopXover);
      (e.ch 5).loop.xover = some x ∧
        (x.back = .primary ∨ x.back = .limit)) := by
  repeat' apply And.intro
  all_goals first | decide +kernel | rfl

/-- A law of period 0. -/
def law0 (yv yi : Int) : Law := ⟨0, yv, yi, 1, 10, 100, -100, 0, none, none⟩


theorem wit_LoopLaw :
    (let s := loopIn .primary fun l => { l with law := some (law0 0 0), set := { l.set with uMax := 5, uMin := 5 } };
      let l := (s.dev.ch 5).loop;
      let w := law0 0 0;
      Live s ∧
        l.law = some w ∧
        costedNeed w.costs l.set.bqCount + w.extra + 6 * 16 ≤ 160 * 2 ^ rd s.dev oLoopRate [5] ∧
        160 * 2 ^ rd s.dev oLoopRate [5] < costedNeed w.costs l.set.bqCount + w.extra + 6 * 17 ∧
        l.st = .primary ∧
        0 ≤ l.set.slewP ∧
        l.set.uMin ≤ l.set.uMax ∧
        frozenTest (rd s.dev oFrozenPeriods [5]) (rd s.dev oFrozenMove [5]) (((w.last, 5) :: l.window).take (rd s.dev oFrozenPeriods [5])) = false) ∧
    (let s := put oFrozenPeriods 2 [5] (put oFrozenMove 0 [5] (loopIn .primary fun l => { l with law := some (law0 0 0), set := { l.set with uMax := 5, uMin := 5 }, window := [(1, 0)] }));
      let l := (s.dev.ch 5).loop;
      let w := law0 0 0;
      frozenTest (rd s.dev oFrozenPeriods [5]) (rd s.dev oFrozenMove [5]) (((w.last, 5) :: l.window).take (rd s.dev oFrozenPeriods [5])) = true) ∧
    (let s := loopIn .limit fun l => { l with law := some (law0 7 3), sideLow := true, set := { l.set with kpL := 3, kiL := 5, kdL := 1, shiftL := 4, uMax := 2 ^ 30, uMin := -(2 ^ 30) } };
      let l := (s.dev.ch 5).loop;
      let w := law0 7 3;
      (l.st = .primary ∨ l.st = .limit) ∧
        l.law = some w ∧
        costedNeed w.costs l.set.bqCount + w.extra + 6 * 16 ≤ 160 * 2 ^ rd s.dev oLoopRate [5] ∧
        l.set.uMin ≤ l.set.uMax) ∧
    (let s := put oLoopMode 1 [5] (loopIn .limit fun l => { l with law := some (law0 7 3), set := { l.set with kpL := 3, uMax := 2 ^ 30, uMin := -(2 ^ 30) } });
      let l := (s.dev.ch 5).loop;
      let w := law0 7 3;
      (l.st = .primary ∨ l.st = .limit) ∧
        l.law = some w) ∧
    (let l := (loopIn .primary id).dev.ch 5 |>.loop;
      l.decided = none ∧
        l.st = .primary ∧
        (law0 0 101).limHi < (law0 0 101).yi ∧
        (law0 0 (-101)).yi ≤ (law0 0 (-101)).limHi ∧
        (law0 0 (-101)).yi < (law0 0 (-101)).limLo ∧
        (law0 0 100).yi ≤ (law0 0 100).limHi ∧
        (law0 0 100).limLo ≤ (law0 0 100).yi) ∧
    (let l := (loopIn .limit fun l => { l with released := true, sideLow := true }).dev.ch 5 |>.loop;
      l.st = .limit ∧
        l.released = true ∧
        (if l.sideLow then (law0 10 0).yv ≤ (law0 10 0).r else (law0 10 0).r ≤ (law0 10 0).yv)) ∧
    (((loopIn .limit id).dev.ch 5).loop.released = false ∧
        ((16 : Nat) ≤ 16 ∧ -(2 ^ 39) ≤ (2 ^ 39 - 1 : Int) ∧ (2 ^ 39 - 1 : Int) < 2 ^ 39)) := by
  repeat' apply And.intro
  all_goals first | decide +kernel | rfl

theorem wit_LoopCommands :
    (let s := live;
      Live s ∧
        Served s .n oXoverRelease ∧
        Served s .n oLoopSp ∧
        Served s .n oLoopFault ∧
        LinkUp s (Ch.die 5) ∧
        (15 : BitVec 8).toNat < 16 ∧
        (s.dev.ch 5).loop.st = .openState ∧
        (s.dev.ch 5).loop.xover = none) ∧
    (let s := loopIn .rangeXover fun l => { l with xover := some ⟨160, 320, 1, 0, false, .primary, [(1, 2)]⟩ };
      (s.dev.ch 5).loop.xover ≠ none) ∧
    (let s := loopIn .safeHold id;
      (s.dev.ch 5).loop.st = .safeHold) ∧
    (let s := loopIn .primary fun l => { l with softSent := [(1, some true)] };
      (s.dev.ch 5).loop.softSent.find? (fun e => e.1 == 1) = some (1, some true) ∧
        rd s.dev oLoopMode [5] % 2 = 0 ∧
        (s.dev.ch 5).loop.st = .primary) ∧
    (let s := loopIn .primary fun l => { l with softSent := [(0, none)] };
      (s.dev.ch 5).loop.softSent.find? (fun e => e.1 == 0) = some (0, none)) ∧
    (let s := on (updCh 5 (fun c => { c with loop := { c.loop with st := .safeRamp }, src := { c.src with st := .running, safe := some ⟨1, 0, 5, 1⟩ } }) live.dev);
      (s.dev.ch 5).src.safe = some ⟨1, 0, 5, 1⟩ ∧
        (s.dev.ch 5).loop.st = .safeRamp ∧
        (s.dev.ch 5).loop.xover = none ∧
        (s.dev.ch 5).src.st = .running) := by
  repeat' apply And.intro
  all_goals first | decide +kernel | rfl

/-- Bits of a Course entry: SEGLEN, REPEAT, WAIT. -/
def entry (segLen repeat_ wait : Nat) : Nat := segLen * 2 ^ 148 + repeat_ * 2 ^ 124 + wait * 2 ^ 81

/-- A Sequencer that plays entry 0 of bank 0. -/
def playing (c : Nat) (f : Seq → Seq) : State := onSeq fun q => f { q with st := .playing, stateA := .playing, bankA := [(0, c)] }

/-- The device after what R51 puts before the next decision point of channel 5. -/
def atDecision (s : State) : Dev := settleDue s.nv ⟨max s.dev.now (knownTick s (decisionTick s.dev 5)), 2, 1⟩ [5] s.dev

/-- The device after what R51 puts before an event of the present tick. -/
def atNow (s : State) : Dev := settleDue s.nv ⟨max s.dev.now 0, 2, 0⟩ [] s.dev

/-- The device after what R51 puts before the next Course start of channel 5. -/
def atCourse (s : State) : Dev := settleDue s.nv ⟨max s.dev.now (knownTick s (courseTick s.dev 5)), 2, 0⟩ [] s.dev


theorem wit_DecisionPoints :
    (let s := put oSrcStart (2 ^ 40) [5] live;
      let e := atDecision s;
      Live s ∧
        decisionTick e 5 = none) ∧
    (let s := live;
      let e := atDecision s;
      decisionTick e 5 = some 0 ∧
        (e.ch 5).seq.st = .stopped) ∧
    (let s := onSeq fun q => { q with st := .held, holdHost := true };
      let e := atDecision s;
      (e.ch 5).seq.st = .held ∧
        holdCause (e.ch 5).seq = true) ∧
    (let s := playing (entry 1 1 1) fun q => { q with st := .waiting, wait := some ⟨0, 2, none⟩ };
      let e := atDecision s;
      let q := (e.ch 5).seq;
      q.st = .waiting ∧
        q.cut = none ∧
        holdCause q = false ∧
        q.wait = some ⟨0, 2, none⟩) ∧
    (let s := playing (entry 1 1 1) fun q => { q with st := .endHold };
      let e := atDecision s;
      let q := (e.ch 5).seq;
      q.st = .endHold ∧
        q.cut = none ∧
        bankState q (1 - q.bank) ≠ .ready) ∧
    (let s := put oSrcQOwner 2 [5] (put oSrcOrigin 1 [5] (on (updCh 5 (fun c => { c with src := { c.src with st := .running } }) (playing (entry 1 1 0) id).dev)));
      let e := atDecision s;
      let q := (e.ch 5).seq;
      q.st = .playing ∧
        q.i < coSegLen (courseOf q 0 0) ∧
        rd e oSrcQOwner [5] = 2 ∧
        rd e oSrcOrigin [5] = 1 ∧
        (e.ch 5).src.st = .running ∧
        (e.ch 5).src.queue.length < 4096) ∧
    (let s := playing (entry 0 2 0) id;
      let e := atDecision s;
      let q := (e.ch 5).seq;
      coSegLen (courseOf q 0 0) ≤ q.i ∧
        q.landing = false ∧
        q.patch = none ∧
        coRepeat (courseOf q 0 0) ≠ 0 ∧
        q.seg + 1 < coRepeat (courseOf q 0 0)) ∧
    (let s := put oBankEnd 1 [5, 0] (playing (entry 0 1 0) id);
      let e := atDecision s;
      let q := (e.ch 5).seq;
      coRepeat (courseOf q 0 0) ≤ q.seg + 1 ∧
        q.idx ≠ rd e oBankEnd [5, 0] ∧
        q.idx ≠ 8191 ∧
        holdCause q = false ∧
        coWait (courseOf q 0 1) = 0 ∧
        coDelay (courseOf q 0 1) = 0 ∧
        coDunit (courseOf q 0 1) = false) ∧
    (let s := put oBankEnd 1 [5, 0] (playing (entry 0 1 0) fun q => { q with holdHost := true });
      let e := atDecision s;
      holdCause (e.ch 5).seq = true) ∧
    (let s := put oBankEnd 0 [5, 0] (playing (entry 0 1 0) fun q => { q with stateB := .ready, swaps := 2 ^ 32 - 1 });
      let e := atDecision s;
      let q := (e.ch 5).seq;
      q.idx = rd e oBankEnd [5, 0] ∧
        bankState q 1 = .ready ∧
        q.bank < 2) ∧
    (let s := put oBankEnd 0 [5, 0] (put oBankFlags 2 [5, 0] (playing (entry 0 1 0) id));
      let e := atDecision s;
      let q := (e.ch 5).seq;
      bankState q 1 ≠ .ready ∧
        bitOf (rd e oBankFlags [5, 0]) 0 = false ∧
        bitOf (rd e oBankFlags [5, 0]) 1 = true) ∧
    (let s := playing (entry 0 1 0) fun q => { q with landing := true, cut := some ⟨7, some 8191⟩ };
      let e := atDecision s;
      let q := (e.ch 5).seq;
      q.landing = true ∧
        q.cut = some ⟨7, some 8191⟩ ∧
        coSegLen (courseOf q 0 0) ≤ q.i ∧
        7 < 8 ∧
        8191 < 8192) := by
  repeat' apply And.intro
  all_goals first | decide +kernel | rfl

theorem wit_SequencerCommands :
    (let s := put oSrcQOwner 2 [5] (onSeq fun q => { q with stateA := .ready });
      Live s ∧
        Served s .n oSeqCmd ∧
        LinkUp s (Ch.die 5) ∧
        (s.dev.ch 5).seq.st = .stopped ∧
        bankState (s.dev.ch 5).seq (rd s.dev oStartBank [5]) = .ready ∧
        rd s.dev oStartBank [5] < 2) ∧
    (let s := playing 0 id;
      let q := (s.dev.ch 5).seq;
      q.st ≠ .stopped ∧
        q.bank < 2 ∧
        q.st ≠ .held ∧
        q.holdHost = false ∧
        q.holdLink = false ∧
        q.holdSupply = false ∧
        bankState q 0 = .playing ∧
        q.cut = none) ∧
    (let s := onSeq fun q => { q with holdHost := true };
      (s.dev.ch 5).seq.holdHost = true) ∧
    (let s := onLink 1 fun l => { l with st := .lost };
      (s.dev.dies[(1 : Die)]).link.st = .lost ∧
        Served s .n oSeqCmd) ∧
    (let s := onLink 1 fun l => { l with st := .retraining };
      (s.dev.dies[(1 : Die)]).link.st = .retraining ∧
        Served s .n oSeqCmd) ∧
    (Served live .n oBankA ∧
        Served live .n oBankB ∧
        LinkUp live (Ch.die 5) ∧
        [(0 : Nat)] ≠ [] ∧
        8191 + [(0 : Nat)].length ≤ 8192 ∧
        (∀ c ∈ [(0 : Nat)], c < 2 ^ 256 ∧ courseReserved c = false) ∧
        bankState (live.dev.ch 5).seq 1 = .idle) ∧
    (let s := onSeq fun q => { q with stateA := .ready };
      bankState (s.dev.ch 5).seq 0 = .ready) ∧
    (Served live .n oBankEnd ∧
        (8191 : BitVec 16).toNat ≤ 8191 ∧
        (3 : BitVec 16).toNat < 4) ∧
    (let s := put oCutSrc 16 [5] (playing 0 fun q => { q with cut := some ⟨0, none⟩ });
      Served s .n oCutReq ∧
        getField (0x9FFF : BitVec 16).toNat 13 2 = 0 ∧
        (s.dev.ch 5).seq.st ≠ .stopped ∧
        bitOf (rd s.dev oCutSrc [5]) 4 = true ∧
        (s.dev.ch 5).seq.cut.isSome = true) := by
  repeat' apply And.intro
  all_goals first | decide +kernel | rfl

theorem wit_CutsAndGroups :
    (let s := put oTrigFilter 255 [5] (put oCutSrc (32 + 3 * 64) [5] (on { (playing (entry 0 0 1 + 3 * 2 ^ 49) fun q => { q with st := .waiting, wait := some ⟨0, 2, none⟩ }).dev with now := 1 }));
      let e := atNow s;
      let q := (e.ch 5).seq;
      Live s ∧
        rd e oTrigFilter [5] = (255 : BitVec 8).toNat ∧
        bitOf (rd e oCutSrc [5]) 5 = true ∧
        getField (rd e oCutSrc [5]) 6 2 = 3 ∧
        bitOf (rd e oCutSrc [5]) 8 = false ∧
        q.wait = some ⟨0, 2, none⟩ ∧
        coWait (courseOf q 0 0) = 1 ∧
        coArg (courseOf q 0 0) % 4 = 3 ∧
        bitOf (coArg (courseOf q 0 0)) 2 = false ∧
        0 < e.now ∧
        q.st ≠ .stopped ∧
        q.cut = none) ∧
    (let s := put oCutSrc (32 + 3 * 64) [5] (playing 0 fun q => { q with cut := some ⟨0, none⟩ });
      let e := atNow s;
      rd e oTrigFilter [5] ≠ (255 : BitVec 8).toNat ∧
        (e.ch 5).seq.cut.isSome = true) ∧
    (Served live .n oChainCut ∧
        (4095 : BitVec 16).toNat < 4096) ∧
    (let s := put oSeqGroups 128 [5] (on { live.dev with groups := ⟨[(5, 7, true)], [], [(5, 7, 65536)]⟩ });
      LinkUp s (Ch.die 5) ∧
        s.dev.ctlRunning = true ∧
        takeMsg 5 7 s.dev.groups.msgs = some (true, []) ∧
        (∀ k ∈ (List.finRange 24).filter (fun (k : Ch) => bitOf (rd s.dev oSeqGroups [k]) 7 || [(5 : Ch)].contains k), k ∈ [(5 : Ch)]) ∧
        posOf s.dev.cad.recs ((s.dev.now + 12288) * 256) + 65535 < posMod ∧
        s.dev.groups.releases.find? (fun e => e.1 == 5) = some (5, 7, 65536)) ∧
    (let s := put oSeqGroups 128 [6] (on { live.dev with groups := ⟨[(5, 7, true)], [], []⟩ });
      (∃ k ∈ (List.finRange 24).filter (fun (k : Ch) => bitOf (rd s.dev oSeqGroups [k]) 7 || [(5 : Ch)].contains k), k ∉ [(5 : Ch)])) ∧
    (let s := on { (playing (entry 0 0 4 + 7 * 2 ^ 49) fun q => { q with wait := some ⟨0, 2, none⟩ }).dev with groups := ⟨[], [], [(5, 7, 65536)]⟩ };
      let q := (s.dev.ch 5).seq;
      q.wait = some ⟨0, 2, none⟩ ∧
        coWait (courseOf q 0 0) = 4 ∧
        coArg (courseOf q 0 0) % 8 = 7) ∧
    (let s := on { live.dev with groups := ⟨[], [], [(5, 7, 65536)]⟩ };
      (s.dev.ch 5).seq.wait = none) := by
  repeat' apply And.intro
  all_goals first | decide +kernel | rfl

theorem wit_VectorsAndMarkers :
    (let s := live;
      let e := atCourse s;
      Live s ∧
        courseTick e 5 = none) ∧
    (let s := onSeq fun q => { q with starts := [⟨0, 0, 0, 0⟩], drives := [⟨0, 0, 0, none, false⟩] };
      let e := atCourse s;
      (e.ch 5).seq.starts = ⟨0, 0, 0, 0⟩ :: [] ∧
        courseTick e 5 = some 0 ∧
        bitOf (mcfgHalf e 5 0 .vm) 52 = true) ∧
    (let s := put oSched 1 [5, 0] (on (updCh 5 (fun c => { c with mcfg := [(0, 7 + 2 ^ 45 + 2 ^ 51)] }) (onSeq fun q => { q with starts := [⟨0, 0, 0, 0⟩] }).dev));
      let e := atCourse s;
      bitOf (mcfgHalf e 5 0 .vm) 52 = false ∧
        rd e oSched [5, 0] ≠ 0) ∧
    (let s := put oSched 0 [5, 0] (on (updCh 5 (fun c => { c with mcfg := [(0, 0)] }) (onSeq fun q => { q with starts := [⟨0, 0, 0, 0⟩] }).dev));
      let e := atCourse s;
      rd e oSched [5, 0] = 0) ∧
    (let s := put oVecDeglitch 3 [5] (put oVecMap 0 [5] (on { (onSeq fun q => { q with compare := [(⟨0, 0, 1, none, false⟩, 0, 0)] }).dev with now := 100000 }));
      (s.dev.ch 5).seq.compare = [(⟨0, 0, 1, none, false⟩, 0, 0)] ∧
        rd s.dev oVecDeglitch [5] ≤ (3 : BitVec 8).toNat ∧
        0 + usTicks (rd s.dev oVecCmpDelay [5]) + rd s.dev oVecDeglitch [5] ≤ s.dev.now + 1 ∧
        (getField 1 (2 * (0 : Fin 8).val) 2 = 1) ∧
        bitOf 0 (0 : Fin 8).val = false ∧
        rdJ s.dev oVecMap [5] 0 ≠ 0xFF ∧
        bitOf (rd s.dev oCutSrc [5]) 9 = false) ∧
    (let s := on { (onSeq fun q => { q with compare := [(⟨1, 0, 2, none, false⟩, 50000, 0), (⟨0, 0, 1, some 1, false⟩, 0, 2)], drives := [⟨1, 0, 2, none, true⟩] }).dev with now := 100000 };
      (s.dev.ch 5).seq.compare ≠ [] ∧
        (s.dev.ch 5).seq.drives ≠ []) ∧
    ((live.dev.ch 5).seq.compare = []) ∧
    (let s := onSeq fun q => { q with markA := { q.markA with items := [⟨0, true, .pulse⟩] } };
      (markOf (s.dev.ch 5).seq 0).items = [⟨0, true, .pulse⟩] ∧
        (∀ c : Ch, bitOf (rd s.dev oCutSrc [c]) 15 = false)) ∧
    (let q := ((onSeq fun q => { q with markB := ⟨⟨false, some 3⟩, ⟨false, some 4⟩, []⟩ }).dev.ch 5).seq;
      (markOf q 1).nominal.pulse = some 3 ∧
        (markOf q 1).ball.pulse = some 4) := by
  repeat' apply And.intro
  all_goals first | decide +kernel | rfl

/-- Monitor 0 of channel 5, RUNNING, inside. -/
def mon (f : Monitor → Monitor) : State := onMon fun y => f { y with st := .running, decided := .inside }

/-- The device after what R51 puts before an event of monitor 0 of channel 5 whose tick is `t`. -/
def atEvent (s : State) (t : Option Nat) : Dev := settleDue s.nv ⟨max s.dev.now (knownTick s t), 2, 0⟩ [] s.dev


theorem wit_MonitorDecisions :
    (let s := put oThHi 10 [5, 0] (put oThLo 5 [5, 0] (onMon fun y => { y with st := .starting, decided := .undecided, blankTo := some 2459 }));
      let e := atEvent s (firstTick s.dev 5 0);
      Live s ∧
        (monOf e 5 0).st = .starting ∧
        (monOf e 5 0).decided = .undecided) ∧
    (let s := put oThHi 10 [5, 0] (put oThLo 5 [5, 0] (mon id));
      let e := atNow s;
      (monOf e 5 0).st = .running ∧
        (monOf e 5 0).blankTo = none ∧
        (monOf e 5 0).decided ≠ .undecided ∧
        (¬ ((rd e oThHi [5, 0] * 65536 : Nat) : Int) < 655360) ∧
        (¬ (655360 : Int) < (rd e oThLo [5, 0] * 65536 : Nat)) ∧
        ((rd e oThHi [5, 0] * 65536 : Nat) : Int) < 655361) ∧
    (let s := live;
      let e := atNow s;
      (monOf e 5 0).st ≠ .running) ∧
    (let s := put oTripCond 3 [5, 0] (put oThHi 4095 [5, 0] (mon fun y => { y with blankTo := some 7, escOver := true }));
      let e := atEvent s (blankTick s.dev 5 0);
      (monOf e 5 0).st = .running ∧
        (monOf e 5 0).blankTo = some 7 ∧
        (monOf e 5 0).decided ≠ .undecided ∧
        (monOf e 5 0).escOver = true ∧
        condMet (rd e oTripCond [5, 0]) .inside = true) ∧
    (let s := put oTripFilter 7 [5, 0] (put oTripCond 3 [5, 0] (put oThHi 4095 [5, 0] (mon fun y => { y with blankTo := some 7, condSince := some 0 })));
      let e := atEvent s (blankTick s.dev 5 0);
      (monOf e 5 0).escOver = false ∧
        (monOf e 5 0).acted = false ∧
        (e.ch 5).loop.xover = none ∧
        (monOf e 5 0).condSince = some 0 ∧
        0 + rd e oTripFilter [5, 0] ≤ 7) ∧
    (let s := put oTripCond 0 [5, 0] (put oThHi 4095 [5, 0] (onMon fun y => { y with st := .running, decided := .above, blankTo := some 7, esc := some 9 }));
      let e := atEvent s (blankTick s.dev 5 0);
      (monOf e 5 0).decided = .above ∧
        condMet (rd e oTripCond [5, 0]) .inside = false) := by
  repeat' apply And.intro
  all_goals first | decide +kernel | rfl

theorem wit_MonitorTrips :
    (let s := put oAction 7 [5, 0] (put oEscUs 0 [5, 0] (mon fun y => { y with condSince := some 1 }));
      let e := atEvent s (qualifyTick s.dev 5 0);
      Live s ∧
        (monOf e 5 0).condSince = some 1 ∧
        (monOf e 5 0).st = .running ∧
        (monOf e 5 0).blankTo = none ∧
        (monOf e 5 0).acted = false ∧
        (e.ch 5).loop.xover = none ∧
        bitOf (rd e oAction [5, 0]) 0 = true ∧
        bitOf (rd e oAction [5, 0]) 1 = true ∧
        bitOf (rd e oAction [5, 0]) 2 = true ∧
        usTicks (rd e oEscUs [5, 0]) = 0 ∧
        geFailed e 5 = false) ∧
    (let s := mon fun y => { y with condSince := some 1, acted := true };
      let e := atEvent s (qualifyTick s.dev 5 0);
      (monOf e 5 0).acted = true) ∧
    (let s := put oAction 3 [5, 0] (put oEscUs 1 [5, 0] (mon fun y => { y with condSince := some 1 }));
      let e := atEvent s (qualifyTick s.dev 5 0);
      usTicks (rd e oEscUs [5, 0]) ≠ 0) ∧
    (let s := put oAction 1 [5, 0] (mon fun y => { y with condSince := some 1 });
      let e := atEvent s (qualifyTick s.dev 5 0);
      bitOf (rd e oAction [5, 0]) 1 = false) ∧
    (let s := put oEngineFault 32 [5] (put oAction 7 [5, 0] (mon fun y => { y with condSince := some 1 }));
      let e := atEvent s (qualifyTick s.dev 5 0);
      geFailed e 5 = true) ∧
    (let s := mon fun y => { y with esc := some 9 };
      let e := atEvent s (escTick s.dev 5 0);
      (monOf e 5 0).esc = some 9 ∧
        (monOf e 5 0).escOver = false ∧
        (monOf e 5 0).blankTo = none) ∧
    (let s := mon fun y => { y with esc := some 9, blankTo := some 9 };
      let e := atEvent s (escTick s.dev 5 0);
      (monOf e 5 0).blankTo.isSome = true) ∧
    (let s := on { (put oTripCond 3 [5, 0] (put oLatchMode 0 [5, 0] (mon fun y => { y with soft := some 0, hard := some 0 }))).dev with now := 1 };
      Served s .n oGuardLatch ∧
        LinkUp s (Ch.die 5) ∧
        rd s.dev oLatchMode [5, 0] = 0 ∧
        bitOf (0x11 : BitVec 8).toNat 0 = true ∧
        (monOf s.dev 5 0).soft.isSome = true ∧
        (monOf s.dev 5 0).soft ≠ some s.dev.now ∧
        bitOf (0x11 : BitVec 8).toNat (4 + 0) = true ∧
        (monOf s.dev 5 0).hard.isSome = true ∧
        (monOf s.dev 5 0).hard ≠ some s.dev.now) ∧
    (let s := put oLatchMode 1 [5, 0] (mon fun y => { y with soft := some 0, hard := some 0 });
      rd s.dev oLatchMode [5, 0] ≠ 0 ∧
        (monOf s.dev 5 0).soft = some s.dev.now ∧
        (monOf s.dev 5 0).hard = some s.dev.now) := by
  repeat' apply And.intro
  all_goals first | decide +kernel | rfl

/-- Both arrays of channel 5 READY, monitor 0 RUNNING. -/
def verifying (f : Monitor → Monitor) (g : Arr → Arr) : State :=
  on (updCh 5 (fun c => { c with vm := g { c.vm with ready := true }, mons := c.mons.set 0 (f { c.mons[0] with st := .running }) }) live.dev)


theorem wit_ThresholdVerify :
    (let s := put oVerifyCtrl 2 [5] (verifying id id);
      Live s ∧
        Served s .n oVerifyReq ∧
        LinkUp s (Ch.die 5) ∧
        noSpare (s.dev.ch 5).vm = false ∧
        noSpare (s.dev.ch 5).im = false ∧
        ((∀ k : Mon, (monOf s.dev 5 k).st ≠ .off → (hintTick s.dev (pathUnit 5 (verifyArr k)) (wouldRequest s.dev (verifyId 5 k) (deadlineIn s.dev (dlOffset s.dev Port.n.idx)))).isSome = true)) ∧
        (monOf s.dev 5 0).st ≠ .off ∧
        (arrOf s.dev 5 (verifyArr 0)).ready = true ∧
        (monOf s.dev 5 0).verifyAt = none ∧
        geFailed s.dev 5 = false ∧
        s.dev.arb.units = [] ∧
        s.dev.supply.warning = false ∧
        bitOf (rd s.dev oVerifyCtrl [5]) 1 = true) ∧
    (let s := verifying id fun x => { x with slices := Vector.replicate 7 { Slice.atReset with st := .retired } };
      noSpare (s.dev.ch 5).vm = true) ∧
    (let s := put oVerifyCtrl 0 [5] live;
      bitOf (rd s.dev oVerifyCtrl [5]) 1 = false ∧
        (∀ k : Mon, (monOf s.dev 5 k).st = .off)) ∧
    ((onSup fun p => { p with warning := true }).dev.supply.warning = true) ∧
    (let s := put oThHi 100 [5, 0] (put oThLo 50 [5, 0] (on { (verifying (fun y => { y with verifyAt := some 0 }) fun x => { x with spare := some 6, slices := x.slices.set 6 { x.slices[6] with st := .verify } }).dev with arb := { live.dev.arb with units := [⟨pathUnit 5 .vm, [⟨verifyId 5 0, 0, 0, 0, false, false, none⟩], [], 0⟩] } }));
      let r := (⟨verifyId 5 0, 0, 0, 0, false, false, none⟩ : Grant);
      (monOf s.dev 5 0).verifyAt = some 0 ∧
        (monOf s.dev 5 0).verifyWant = none ∧
        (monOf s.dev 5 0).st ≠ .off ∧
        serviceRuns s.dev (Ch.die 5) 2 = true ∧
        (arrOf s.dev 5 (verifyArr 0)).roles.all Option.isSome = true ∧
        (arrOf s.dev 5 .vm).spare = some 6 ∧
        ((arrOf s.dev 5 .vm).slices[(6 : Fin 7)]).st = .verify ∧
        (monOf s.dev 5 0).verifyVoid = false ∧
        s.dev.arb.units = [⟨pathUnit 5 (verifyArr 0), [r], [], 0⟩] ∧
        r.id = verifyId 5 0 ∧
        r.drop = none ∧
        (s.dev.ch 5).loop.xover = none) ∧
    (let s := on (updDie 1 (fun d => { d with services := { d.services with stopped := 4, map := 0xFB } }) (verifying (fun y => { y with verifyAt := some 0 }) id).dev);
      serviceRuns s.dev (Ch.die 5) 2 = false) ∧
    (let s := verifying (fun y => { y with verifyVoid := true, verifyAt := some 0 }) id;
      (monOf s.dev 5 0).verifyVoid = true) := by
  repeat' apply And.intro
  all_goals first | decide +kernel | rfl

theorem wit_Oven :
    (let s := live;
      Live s ∧
        s.dev.ref.oven = .warmup ∧
        s.dev.ref.linkFault = false ∧
        s.dev.control.running = true ∧
        rd s.dev oRefSwitch [] ≠ 1 ∧
        rd s.dev oRefSwitch [] ≠ 3 ∧
        -5000000 ≤ s.dev.ref.trim ∧
        s.dev.ref.trim ≤ 5000000) ∧
    (let s := onRef fun r => { r with oven := .regulating, comparison := some (cmp true false 0), linkFault := true };
      s.dev.ref.oven = .regulating ∧
        s.dev.ref.comparison = some (cmp true false 0) ∧
        (cmp true false 0).begun = true ∧
        s.dev.ref.linkFault = true ∧
        s.dev.ref.heldEvents.length < 16) ∧
    (let s := onRef fun r => { r with oven := .out, heater := false };
      s.dev.ref.oven = .out) ∧
    (let s := onRef fun r => { r with oven := .fault, dieSensorFailed := true, heater := false };
      s.dev.ref.oven = .fault ∧
        s.dev.ref.dieSensorFailed = true) ∧
    (let s := put oRefSwitch 3 [] live;
      rd s.dev oRefSwitch [] = 3 ∧
        (8999999 : Int) < 9000000 ∧
        (10500000 : Int) < 10500001) := by
  repeat' apply And.intro
  all_goals first | decide +kernel | rfl

/-- Channel 5 free to be compared. -/
def comparable (f : Dev → Dev) : State := put oStdU 1 [] (put oCmpChannel 5 [] (on (f (onArr fun x => { x with ready := true }).dev)))

/-- A comparison in progress, the switch held by it. -/
def comparing (c : Comparison) : State :=
  on { live.dev with ref := { live.dev.ref with comparison := some c }, arb := { live.dev.arb with units := [⟨0x20, [⟨0x8000, 0, 0, 0, false, false, none⟩], [], 0⟩] } }


theorem wit_ComparisonRuns :
    (Live live ∧
        Served live .n oCmpStart ∧
        rd (put oStdU 0 [] live).dev oStdU [] = 0 ∧
        live.dev.ref.comparison = none) ∧
    (let s := comparable id;
      let S := nextMultiple s.dev (s.dev.now + 245760) 32;
      (¬ (rd s.dev oStdU [] = 0 ∨ s.dev.ref.comparison.isSome = true ∨ rd s.dev oRefSwitch [] = 3 ∨ s.dev.ref.linkFault = true ∨ ∀ n : Ch, n.val = rd s.dev oCmpChannel [] % 24 → (s.dev.ch n).vm.st ≠ .off ∨ (s.dev.ch n).vm.ready = false)) ∧
        (hintTick s.dev 0x20 (wouldRequest s.dev 0x8000 S)).isSome = true ∧
        s.dev.arb.units = []) ∧
    (let s := comparable fun d => { d with arb := { d.arb with units := [⟨0x20, [⟨0, 0, 0, 0, true, false, none⟩], [], 0⟩] } };
      (hintTick s.dev 0x20 (wouldRequest s.dev 0x8000 (nextMultiple s.dev (s.dev.now + 245760) 32))).isNone = true) ∧
    (let s := comparing (cmp false false 0);
      s.dev.ref.comparison = some (cmp false false 0) ∧
        (cmp false false 0).channel < 24 ∧
        (cmp false false 0).begun = false ∧
        holds s.dev 0x8000 0x20 = true ∧
        (cmp false false 0).skipped ≤ 4 * (cmp false false 0).takes ∧
        ((∀ n : Ch, n.val = (cmp false false 0).channel → servable 0 ((cmp false false 0).aperture % 2 ^ 40) (curRec (dieRecs (advance (tickNear s.dev.cad.recs 0) s.dev) n) (advance (tickNear s.dev.cad.recs 0) s.dev).now).len (inService (s.dev.ch n).vm) = true)) ∧
        rd s.dev oRefSel [6, 0] ≠ 1 ∧
        rd s.dev oRefSel [6, 1] ≠ 1 ∧
        srcPair s.dev 6 ≠ 1) ∧
    (let s := on (updArr 5 .vm (fun x => { x with roles := [some 0], spare := none, slices := Vector.replicate 7 { Slice.atReset with st := .retired } }) (comparing (cmp false false 0)).dev);
      let c := cmp false false 0;
      s.dev.ref.comparison = some c ∧
        holds s.dev 0x8000 0x20 = true ∧
        rd s.dev oRefSwitch [] < 4 ∧
        (¬ (∀ n : Ch, n.val = c.channel → servable 0 (c.aperture % 2 ^ 40) (curRec (dieRecs (advance (tickNear s.dev.cad.recs 0) s.dev) n) (advance (tickNear s.dev.cad.recs 0) s.dev).now).len (inService (s.dev.ch n).vm) = true))) ∧
    (let s := onRef fun r => { r with comparison := some (cmp false false 0) };
      holds s.dev 0x8000 0x20 = false) ∧
    (let c := cmp true false 1;
      let s := comparing c;
      s.dev.ref.comparison = some c ∧
        c.begun = true ∧
        c.before < 4 ∧
        Served s .n oCmpStart ∧
        c.used = c.takes ∧
        (cmpMoveStamp s.dev c).isSome = true ∧
        (¬ (c.reversed = true ∧ c.pair = c.pairs))) ∧
    (let c := { cmp true false 1 with before := 2, saved := [(keyOf oArrEnable [5, 0] 0, 1), (keyOf oRange [5, 0] 0, 1), (keyOf oAperture [5, 0] 0, 77)] };
      let s := put oArrEnable 1 [5, 0] (put oRange 2 [5, 0] (comparing c));
      s.dev.ref.comparison = some c ∧
        c.begun = true ∧
        c.before < 4 ∧
        c.channel < 24) ∧
    (let c := { cmp true true 1 with before := 2, saved := [(keyOf oArrEnable [5, 0] 0, 1), (keyOf oRange [5, 0] 0, 1), (keyOf oAperture [5, 0] 0, 77)] };
      let s := put oArrEnable 1 [5, 0] (put oRange 2 [5, 0] (comparing c));
      s.dev.ref.comparison = some c ∧
        (cmpMoveStamp s.dev c).isSome = true ∧
        c.reversed = true ∧
        c.pair = c.pairs ∧
        c.channel < 24 ∧
        c.before < 4) ∧
    (let c := cmp true true 1;
      let s := comparing c;
      s.dev.ref.comparison = some c ∧
        c.begun = true ∧
        c.used = c.takes ∧
        c.reversed = true ∧
        c.pair = c.pairs ∧
        c.channel < 24 ∧
        (cmpMoveStamp s.dev c).isSome = true ∧
        (c.sum, c.sumSq) :: c.phases = [(((0 : Int), 0), ((0 : Int), 0))].flatMap (fun e => [e.2, e.1]) ∧
        0 < c.takes ∧
        0 < c.pairs) ∧
    (let c := cmp true false 1;
      let s := on (updArr 5 .vm (fun x => { x with p0 := 2 ^ 40 }) (comparing c).dev);
      s.dev.ref.comparison = some c ∧
        cmpMoveStamp s.dev c = none) ∧
    ((cmp true false 0).used ≠ (cmp true false 0).takes ∧
        rd (put oCmpInterval 0 [] live).dev oCmpInterval [] = 0) ∧
    (let s := put oCmpInterval 1 [] (comparable id);
      rd s.dev oCmpInterval [] ≠ 0) := by
  repeat' apply And.intro
  all_goals first | decide +kernel | rfl

/-- A CAL_SET record of entry 1 of VM_CORR of channel 0. -/
def calRec (mark powerUps : Nat) : LRecord := ⟨1, 0, 1, 0, powerUps, 0, 0, 0, leBytes 2 0x30C0 ++ leBytes 1 1 ++ leBytes 1 16 ++ leBytes 16 7, 0, mark, 0, 0, 0⟩

/-- A device whose ledger has been scanned. -/
def scanned (recs : List LRecord) (f : Ledger → Ledger) : State :=
  { live with nv := { live.nv with recs := recs }, dev := { live.dev with ledger := f { live.dev.ledger with scanDone := true } } }


theorem wit_Calibration :
    (let s := live;
      Live s ∧
        Served s .n oSrcSelfcal ∧
        LinkUp s (Ch.die 5) ∧
        (3 : BitVec 8).toNat < 4 ∧
        (¬ (((s.dev.ch 5).src.st ≠ .off ∧ (s.dev.ch 5).src.st ≠ .tripped) ∨ noSpare (s.dev.ch 5).vm = true)) ∧
        (hintTick s.dev (0x40 + 2 * 5) (wouldRequest s.dev (0x6000 + 5) (deadlineIn s.dev (dlOffset s.dev Port.n.idx)))).isSome = true ∧
        (0 : BitVec 8).toNat = 0 ∧
        (3 : BitVec 8).toNat ≠ 0 ∧
        s.dev.arb.units = [] ∧
        s.dev.sec.sealOpen = false ∧
        s.dev.ledger.scanDone = false ∧
        rd s.dev oSelfcalStatus [5] < 128) ∧
    (let s := onSrc fun x => { x with st := .running };
      (s.dev.ch 5).src.st ≠ .off ∧ (s.dev.ch 5).src.st ≠ .tripped) ∧
    (let s := on { updCh 5 (fun c => { c with selfcal := ⟨true, false, true, 1⟩ }) live.dev with arb := { live.dev.arb with units := [⟨muxUnit 5, [⟨0x6000 + 5, 0, 0, 0, false, false, none⟩], [], 0⟩] } };
      (s.dev.ch 5).selfcal.voltage = true ∧
        holds s.dev (0x6000 + 5) (muxUnit 5) = true ∧
        (s.dev.ch 5).selfcal.current = false ∧
        1000000 * (-13743895 : Int).natAbs ≤ 50 * 2 ^ 38 ∧
        1000 * (549755813 : Int).natAbs ≤ 2 ^ 39 ∧
        (¬ 1000000 * (13743896 : Int).natAbs ≤ 50 * 2 ^ 38) ∧
        serviceRuns s.dev (Ch.die 5) 2 = true) ∧
    ((onSec fun x => { x with sealOpen := true }).dev.sec.sealOpen = true ∧
        (onRef fun r => { r with calLoaded := true }).dev.ref.calLoaded = true) ∧
    (let s := scanned [] id;
      s.dev.ref.calLoaded = false ∧
        s.dev.ledger.scanDone = true ∧
        s.dev.ledger.broken = none ∧
        s.nv.recs = []) ∧
    (let s := scanned [] fun x => { x with broken := some 0 };
      s.dev.ledger.broken = some 0) ∧
    (let s := scanned [calRec 0 0] id;
      let q := calRec 0 0;
      s.nv.recs = [q] ∧
        q.type = 1 ∧
        q.payload = leBytes 2 0x30C0 ++ leBytes 1 1 ++ leBytes 1 (leBytes 16 7).length ++ (leBytes 16 7 ++ leBytes 16 0).take 16 ∧
        (leBytes 16 7).length ≤ 16 ∧
        q.mark = 0 ∧
        isCalObject 0x30C0 1 = true) ∧
    (let s := scanned [calRec 0 0, { calRec 0 0 with payload := leBytes 2 0x30C0 ++ leBytes 1 1 ++ leBytes 1 16 ++ leBytes 16 9 }, calRec 0xFF 0] id;
      let before_ := [calRec 0 0];
      let q := { calRec 0 0 with payload := leBytes 2 0x30C0 ++ leBytes 1 1 ++ leBytes 1 16 ++ leBytes 16 9 };
      let after_ := [calRec 0xFF 0];
      let index := 0x30C0;
      let sub := 1;
      let data := leBytes 16 9;
      let row := oVmCorr;
      s.nv.recs = before_ ++ q :: after_ ∧
        q.type = 1 ∧
        q.mark = 0 ∧
        q.payload = leBytes 2 index ++ leBytes 1 sub ++ leBytes 1 data.length ++ (data ++ leBytes 16 0).take 16 ∧
        data.length ≤ 16 ∧
        isCalObject index sub = true ∧
        rowOf index sub = some row ∧
        row.size = data.length ∧
        ((∀ x ∈ after_, x.type = 1 → x.mark = 0 → objKey index sub 0 ∉ (calItems x.payload.length x.payload).map Prod.fst))) ∧
    ((0x30C0 : Nat) < 65536 ∧
        (1 : Nat) < 256) ∧
    (let s := scanned [calRec 0xFF 0] fun x => { x with powerUps := 1 };
      (calRec 0xFF 0).mark = 0xFF ∧
        (calRec 0xFF 0).powerUps < s.dev.ledger.powerUps ∧
        Served live .n oDriftRun) := by
  repeat' apply And.intro
  all_goals first | decide +kernel | rfl

/-- A record that waits, its requester holding the ledger. -/
def append0 : Append := ⟨9, [], 0, 0xFF, 0, 0, none, 0, none, none⟩
def appending (scan : Bool) : State := on { live.dev with
  ledger := { live.dev.ledger with queue := [append0], scanDone := scan }
  arb := { live.dev.arb with units := [⟨0xA0, [⟨appendId append0, 0, 0, 0, false, false, none⟩], [], 0⟩] } }

/-- A ledger of any size that is full of appended pages, and one with room wherever the part shipped with any. -/
theorem wit_LedgerAppends_room : Config.shippedFree - Config.shippedFree < 2 ∧ (2 ≤ Config.shippedFree → (176 + 114 + 255) / 256 + 0 ≤ Config.shippedFree - 0) :=
  ⟨by rw [Nat.sub_self]; decide, fun h => h⟩


theorem wit_LedgerAppends :
    (let s := appending true;
      Live s ∧
        programmed s.dev = some append0 ∧
        s.dev.ledger.scanDone = true ∧
        s.dev.ledger.queue ≠ []) ∧
    ((appending false).dev.ledger.scanDone = false) ∧
    (let s := live;
      programmed s.dev = none ∧
        s.dev.ledger.scanDone = false ∧
        s.dev.ledger.marks = [] ∧
        s.dev.ledger.queue = []) ∧
    (let s := on { live.dev with control := { live.dev.control with starts := [1, 5] } };
      s.dev.control.starts ≠ [] ∧
        live.dev.control.starts = []) ∧
    (let s := ({ scanned [calRec 0xFF 0] id with dev := { (scanned [] id).dev with ledger := { (scanned [] id).dev.ledger with marks := [(1, 0)] } } } : State);
      s.dev.ledger.marks = (1, 0) :: [] ∧
        s.nv.recs[0]? = some (calRec 0xFF 0)) ∧
    (let s := scanned [] id;
      s.dev.ledger.queue = [] ∧
        s.dev.ledger.scanDone = true ∧
        Served s .n oBaselineReq ∧
        s.dev.arb.units = []) ∧
    ((calRec 0xFF 0).prevHash = 0 ∧
        signatureBad 0 (calRec 0xFF 0) = false ∧
        (calRec 0xFF 0).prevHash ≠ 1 ∧
        { calRec 0 0 with type := 5 }.mark = 0) := by
  repeat' apply And.intro
  all_goals first | decide +kernel | rfl

/-- Slot 1 of Port N. -/
def txn (f : Txn → Txn) : State :=
  on { live.dev with ports := live.dev.ports.set Port.n.idx { live.dev.ports[Port.n.idx] with
    current := 1, txns := (live.dev.ports[Port.n.idx]).txns.set 0 (f txnFree) } }

/-- A write of STALE_LIMIT of channel 0, array V. -/
def stale : Staged := ⟨0x3031, 4, leBytes 4 120000⟩


theorem wit_Staging :
    (let s := txn fun t => { t with st := .opened };
      Live s ∧
        nameOf .n 0x3031 4 = .row oStaleLimit ∧
        oStaleLimit.acc = .rk ∧
        serves s.dev .n = true ∧
        portShut s.nv s.dev .n = false ∧
        mayWrite oStaleLimit .n = .ok ∧
        lengthOk oStaleLimit (leBytes 4 5).length = true ∧
        dieReachable s.dev (objDie 0x3031) = true ∧
        s.dev.ports[Port.n.idx].current ≠ 0 ∧
        (portTxn s.dev .n 1).st = .opened ∧
        (¬ (512 < [stale].length ∨ 65536 < ([stale].map fun w => w.data.length).sum)) ∧
        valueCheck oStaleLimit 0x3031 4 (leBytes 4 5) = .ok ∧
        stageRules s.dev oStaleLimit 0x3031 4 (leBytes 4 5) = .ok) ∧
    ((live.dev.ports[Port.n.idx]).current = 0 ∧
        512 < (List.replicate 512 stale ++ [stale]).length ∧
        valueCheck oUrgentAp 0x3032 2 (leBytes 2 10001) = .abort 0x0F100003 ∧
        valueCheck oUrgentAp 0x3032 2 (leBytes 2 10000) = .ok ∧
        isAuthority 0x2610 1 = true ∧
        live.dev.sec.sealOpen = false ∧
        Served live .n oTxnOpen ∧
        Served live .n oTxnAbort ∧
        16 < (17 : BitVec 8).toNat ∧
        (16 : BitVec 8).toNat ≤ 16 ∧
        (portTxn live.dev .n 16).st = .free ∧
        (portTxn (txn fun t => { t with st := .preparing }).dev .n 1).st = .preparing ∧
        (portTxn (txn fun t => { t with st := .committed }).dev .n 1).st = .committed) := by
  repeat' apply And.intro
  all_goals first | decide +kernel | rfl

/-- An OPEN slot of staged writes. -/
def opened (l : List Staged) : State := txn fun t => { t with st := .opened, staged := l }

/-- A write of VEC_MAP's object of channel 0, which takes the lanes. -/
def lanes : Staged := ⟨0x3090, 1, []⟩

/-- The position of the next multiple of 2¹⁶ that a Keystone of Port N with NEXT meets. -/
def nextOf (s : State) : Nat := nextMultiple s.dev (frameEnd s.dev .n + (122880 + stagedLeadMs (portTxn s.dev .n 1) * 245760)) 16


theorem wit_KeystoneAdmission :
    (let s := opened [stale];
      Served s .n oKeystone ∧
        (1 : BitVec 8).toNat < 2 ∧
        16 < (17 : BitVec 8).toNat ∧
        s.dev.ports[Port.n.idx].busy = none ∧
        frameEnd s.dev .n = s.dev.now ∧
        (portTxn s.dev .n 1).st = .opened ∧
        s.dev.supply.warning = false) ∧
    ((portTxn live.dev .n 1).st ≠ .opened ∧
        (onSup fun p => { p with warning := true }).dev.supply.warning = true ∧
        (¬ (0 + (122880 + stagedLeadMs (portTxn (opened [stale]).dev .n 1) * 245760) ≤ tickAhead live.dev.cad.recs live.dev.now 0))) ∧
    (let s := on (updPort .s (fun y => { y with busy := some ⟨7, 2, ⟨1, 0x2401, 1, 0, 10, 0, [], 0, none⟩, false, false⟩ }) live.dev);
      let x := (⟨7, 2, ⟨1, 0x2401, 1, 0, 10, 0, [], 0, none⟩, false, false⟩ : Serving);
      s.dev.ports[Port.s.idx].busy = some x ∧
        x.op = 2 ∧
        x.frame.index.toNat = 0x2401 ∧
        Served s .s oKeystone ∧
        frameEnd s.dev .s = x.since) ∧
    (let s := opened [stale];
      frameEnd s.dev .n + (122880 + stagedLeadMs (portTxn s.dev .n 1) * 245760) ≤ tickAhead s.dev.cad.recs s.dev.now (nextOf s) ∧
        posLater (nextOf s) (ctlPos s.dev) = true ∧
        txnUnits s.dev .n (portTxn s.dev .n 1) = [] ∧
        admitFailed s.nv s.dev .n (portTxn s.dev .n 1) (nextOf s) = none) ∧
    (let s := opened [lanes];
      txnUnits s.dev .n (portTxn s.dev .n 1) = [0x10] ∧
        s.dev.arb.units = [] ∧
        (hintTick s.dev 0x10 (wouldRequest s.dev 1 (2 ^ 32))).isSome = true) ∧
    (let s := on { (opened [lanes]).dev with arb := { live.dev.arb with units := [⟨0x10, [⟨0x1001, 0, 0, 0, true, false, none⟩], [], 0⟩] } };
      hintTick s.dev 0x10 (wouldRequest s.dev 1 (2 ^ 32)) = none ∧
        (∀ u ∈ txnUnits s.dev .n (portTxn s.dev .n 1), ∀ h ∈ unitsOfPort s.dev .n, h < u) ∧
        admitFailed s.nv s.dev .n (portTxn s.dev .n 1) (nextOf s) = none) ∧
    (let s := on { (opened [lanes]).dev with arb := { live.dev.arb with units := [⟨0x20, [⟨0x0002, 0, 0, 0, true, false, none⟩], [], 0⟩] } };
      (¬ ∀ u ∈ txnUnits s.dev .n (portTxn s.dev .n 1), ∀ h ∈ unitsOfPort s.dev .n, h < u)) ∧
    (let s := opened [⟨0x3030, 1, [1]⟩, ⟨0x3030, 3, leBytes 5 1⟩];
      (admitFailed s.nv s.dev .n (portTxn s.dev .n 1) (nextOf s)).isSome = true) := by
  repeat' apply And.intro
  all_goals first | decide +kernel | rfl

/-- A PREPARING slot that names dies 0 and 1. -/
def preparing (f : Txn → Txn) : State := txn fun t => f { t with st := .preparing, staged := [stale], mask := 2, pos := 2 ^ 31, order := 2 }

/-- A retraining link to Channel die 0. -/
def retraining (s : State) : State := on (updLink 0 (fun l => { l with st := .retraining }) s.dev)


theorem wit_PrepareAndDecide :
    (let s := preparing id;
      let t := portTxn s.dev .n 1;
      Live s ∧
        bitOf t.mask 1 = true ∧
        bitOf t.prepared 1 = false ∧
        t.veto = none ∧
        dieReachable s.dev 1 = true ∧
        prepareFailed s.dev t 1 = none ∧
        objDie stale.index = 1 ∧
        t.staged = [stale]) ∧
    (let s := on { (preparing id).dev with ports := (preparing id).dev.ports.set Port.s.idx { live.dev.ports[Port.s.idx] with txns := (live.dev.ports[Port.s.idx]).txns.set 0 { txnFree with st := .preparing, order := 1, staged := [stale] } } };
      (portTxn s.dev .s 1).st = .preparing ∧
        (portTxn s.dev .s 1).order < (portTxn s.dev .n 1).order ∧
        (∃ x ∈ (portTxn s.dev .s 1).staged, x.index = stale.index ∧ x.sub = stale.sub)) ∧
    (let s := on (updLink 0 (fun l => { l with st := .lost }) (preparing id).dev);
      dieReachable s.dev 1 = false ∧
        1 ≤ (1 : Fin 8).val ∧
        (1 : Fin 8).val ≤ 6 ∧
        s.dev.dies[dieNo (1 : Fin 8).val].link.st = .lost) ∧
    (let s := retraining (preparing id);
      let t := portTxn s.dev .n 1;
      bitOf t.prepared 1 = false ∧
        s.dev.dies[dieNo (1 : Fin 8).val].link.st = .retraining) ∧
    (let s := retraining (preparing fun t => { t with prepared := 2, toSend := 2 });
      s.dev.dies[dieNo (1 : Fin 8).val].link.st = .retraining) ∧
    (let s := preparing fun t => { t with prepared := 2, toSend := 2 };
      let t := portTxn s.dev .n 1;
      t.st = .preparing ∧
        bitOf t.prepared 1 = true ∧
        s.dev.now ≤ tickAhead s.dev.cad.recs s.dev.now t.pos - 49152 ∧
        bitOf t.toSend 1 = true ∧
        (∀ u ∈ t.units, holds s.dev 1 u = true) ∧
        (calRecord t).isNone = true ∧
        setBit t.voted 1 = t.mask) ∧
    (let s := preparing fun t => { t with prepared := 2, toSend := 2, mask := 6, units := [0x10] };
      let t := portTxn s.dev .n 1;
      setBit t.voted 1 ≠ t.mask ∧
        (t.units.find? fun u => !holds s.dev 1 u) = some 0x10 ∧
        arbiterDie 0x10 = 1) ∧
    (let s := preparing fun t => { t with prepared := 2, toSend := 2, units := [0xA0] };
      let t := portTxn s.dev .n 1;
      0xA0 ∈ t.units ∧
        holds s.dev 1 0xA0 = false) ∧
    (let s := preparing fun t => { t with prepared := 2, veto := some (1, 5) };
      let t := portTxn s.dev .n 1;
      bitOf t.toSend 1 = false ∧
        bitOf t.voted 1 = false ∧
        t.veto = some (1, 5) ∧
        t.record = none) ∧
    (let s := preparing id;
      let t := portTxn s.dev .n 1;
      (∀ u ∈ t.units, holds s.dev 1 u = true) ∧
        ((List.range 8).filter fun k => bitOf t.mask k && !bitOf t.voted k) = [1] ∧
        (∀ j ∈ [1], dieReachable s.dev j = true)) ∧
    (let s := preparing fun t => { t with st := .committed };
      let t := portTxn s.dev .n 1;
      t.st = .committed ∧
        bitOf t.mask 1 = true ∧
        bitOf t.presumed 1 = false ∧
        bitOf t.decided 1 = false) := by
  repeat' apply And.intro
  all_goals first | decide +kernel | rfl

/-- A COMMITTED slot of one staged write, the decision at every die of `told`. -/
def committed (w : Staged) (told : Nat) : State := txn fun t => { t with st := .committed, staged := [w], mask := 2 ^ objDie w.index, decided := told }

/-- The tick of the apply of slot 1 of Port N, and the device after what R51 puts before it. -/
def applyAt (s : State) : Nat := (applyTick s.dev (portTxn s.dev .n 1)).getD 0
def atApply (s : State) : Dev := settleDue s.nv ⟨applyAt s, 1, (portTxn s.dev .n 1).order⟩ [] s.dev

/-- What a slot whose dies all reach P on one tick meets. -/
def together (e : Dev) (t : Txn) : Bool :=
  decide (t.applied = 0 ∧ t.decided < 256 ∧ t.mask < 256 ∧ (applyTick e t).isSome = true ∧ ∀ k ∈ applyDies t, partTick e k t.pos = applyTick e t)

/-- What `only` asks of slot 1 of Port N. -/
def onlyOf (e : Dev) (w : Staged) : Bool :=
  let t := portTxn e .n 1
  decide (t.st = .committed ∧ t.decided = t.mask ∧ t.staged = [w] ∧ bitOf t.mask (objDie w.index) = true ∧ e.ref.comparison = none) && together e t


theorem wit_KeystoneApplies :
    (let s := live;
      Live s ∧
        (portTxn s.dev .n 1).st ≠ .committed ∧
        firstDue ⟨0, 0, 0⟩ (dueEvents s.dev []) = none) ∧
    (let s := committed stale 2;
      let e := atApply s;
      let t := portTxn e .n 1;
      applyTick s.dev (portTxn s.dev .n 1) = some (applyAt s) ∧
        onlyOf e stale = true ∧
        stale.index = oStaleLimit.ix + 0x100 * 0 + 0x10 * 0 ∧
        stale.data.length = oStaleLimit.size ∧
        e.arb.units = [] ∧
        firstDue ⟨2 ^ 40, 1, 1⟩ (dueEvents e []) = some (⟨applyAt s, 1, t.order⟩, Due.apply .n 1)) ∧
    (let s := on { live.dev with slate := { live.dev.slate with triggers := [⟨1, 5, 0⟩] } };
      nextCapture s.dev.slate.triggers = some 5 ∧
        (When.mk 5 0 1).before ⟨5, 1, 0⟩ = true) ∧
    (let s := put oSlateOnSplit 1 [] (put oSlateSrcEn 32 [] (committed stale 0));
      let e := atApply s;
      let t := portTxn e .n 1;
      t.decided ≠ t.mask ∧
        together e t = true ∧
        bitOf t.decided (objDie stale.index) = false ∧
        bitOf (rd e oSlateOnSplit []) 0 = true ∧
        bitOf (rd e oSlateSrcEn []) 5 = true) ∧
    (let s := put oSlateOnSplit 0 [] (committed stale 0);
      bitOf (rd (atApply s) oSlateOnSplit []) 0 = false) ∧
    (let s := committed ⟨0x3010, 1, [1]⟩ 2;
      let e := atApply s;
      onlyOf e ⟨0x3010, 1, [1]⟩ = true ∧
        (e.ch 0).src.st = .off ∧
        rd e oSrcOrigin [0] ≠ 4) ∧
    (let s := on (updSrc 0 (fun x => { x with st := .running }) (committed ⟨0x3010, 1, [0]⟩ 2).dev);
      let e := atApply s;
      onlyOf e ⟨0x3010, 1, [0]⟩ = true ∧
        (e.ch 0).src.st = .running ∧
        (e.ch 0).loop.st = .openState) ∧
    (let s := on (updArr 0 .vm (fun x => { x with ready := true }) (committed ⟨0x3030, 1, [1]⟩ 2).dev);
      let e := atApply s;
      onlyOf e ⟨0x3030, 1, [1]⟩ = true ∧
        (arrOf e 0 .vm).st = .off ∧
        (arrOf e 0 .vm).ready = true) ∧
    (let s := on (updArr 0 .vm (fun x => { x with st := .running, roles := sixRoles }) (put oArrEnable 1 [0, 0] (committed ⟨0x3030, 1, [0]⟩ 2)).dev);
      let e := atApply s;
      onlyOf e ⟨0x3030, 1, [0]⟩ = true ∧
        (arrOf e 0 .vm).st = .running) ∧
    (let s := on (updMon 0 0 (fun y => { y with st := .running, decided := .inside, hard := some 0 }) (put oMonMode 1 [0, 0] (committed ⟨0x30A0, 1, [0]⟩ 2)).dev);
      let e := atApply s;
      onlyOf e ⟨0x30A0, 1, [0]⟩ = true ∧
        (monOf e 0 0).st ≠ .off ∧
        rd e oMonMode [0, 0] ≠ 0) ∧
    (let s := put oMonMode 0 [0, 0] (committed ⟨0x30A0, 1, [1]⟩ 2);
      let e := atApply s;
      onlyOf e ⟨0x30A0, 1, [1]⟩ = true ∧
        (monOf e 0 0).st = .off ∧
        rd e oMonMode [0, 0] = 0 ∧
        1 ≤ (1 : BitVec 8).toNat) ∧
    (let w : Staged := ⟨0x2610, 1, List.replicate 126 7⟩;
      let s := committed w 1;
      let e := atApply s;
      onlyOf e w = true ∧
        w.data.length = 126) ∧
    (let s := put oRefSel 1 [5, 0] (on (updArr 5 .vm (fun x => { x with refSettled := true }) (committed ⟨0x2602, 1, [3]⟩ 128).dev));
      let e := atApply s;
      onlyOf e ⟨0x2602, 1, [3]⟩ = true ∧
        (3 : BitVec 8).toNat ≠ rd e oRefSwitch [] ∧
        (3 : BitVec 8).toNat < 4 ∧
        rd e oRefSel [5, 0] = 1 ∧
        rd e oRefSel [6, 0] ≠ 1) ∧
    (let s := on { (committed ⟨0x2404, 1, leBytes 32 (2 ^ 0x20)⟩ 1).dev with arb := { live.dev.arb with units := [⟨0x20, [⟨1, 0, 0, 0, false, false, none⟩], [], 0⟩] } };
      let e := atApply s;
      onlyOf e ⟨0x2404, 1, leBytes 32 (2 ^ 0x20)⟩ = true ∧
        (leBytes 32 (2 ^ 0x20)).length = 32 ∧
        bitOf (ofBytes (leBytes 32 (2 ^ 0x20))) 0x20 = true ∧
        e.arb.units = [⟨0x20, [⟨1, 0, 0, 0, false, false, none⟩], [], 0⟩]) ∧
    (let s := on { (committed ⟨oUrgentAp.ix, oUrgentAp.sub, leBytes 2 5⟩ 2).dev with arb := { live.dev.arb with units := [⟨0x20, [⟨1, 0, 0, 0, false, false, none⟩], [], 0⟩] } };
      let e := atApply s;
      onlyOf e ⟨oUrgentAp.ix, oUrgentAp.sub, leBytes 2 5⟩ = true ∧
        e.arb.units = [⟨0x20, [⟨1, 0, 0, 0, false, false, none⟩], [], 0⟩]) ∧
    (let s := txn fun t => { t with st := .committed, staged := [⟨oNbrLimit.ix, oNbrLimit.sub, leBytes oNbrLimit.size 7⟩, ⟨oUrgentAp.ix, oUrgentAp.sub, leBytes oUrgentAp.size 5⟩], mask := 2, decided := 2 };
      let e := atApply s;
      let t := portTxn e .n 1;
      together e t = true ∧
        e.ref.comparison = none ∧
        (∀ w ∈ t.staged, bitOf t.mask (objDie w.index) = true ∧ ∃ row ∈ [oNbrLimit, oUrgentAp], w.index = row.ix ∧ w.sub = row.sub ∧ w.data.length = row.size) ∧
        (t.staged.map fun w => (w.index, w.sub)).Nodup) ∧
    (let s := committed ⟨0x30B0, 1, [1]⟩ 2;
      let e := atApply s;
      onlyOf e ⟨0x30B0, 1, [1]⟩ = true ∧
        (1 : BitVec 8).toNat ≠ rd e oRangeActive [0] ∧
        (e.ch 0).src.st = .off ∧
        (e.ch 0).loop.st = .openState) ∧
    (let s := on (updSrc 0 (fun x => { x with st := .running, code := 9 }) (committed ⟨0x30B0, 1, [1]⟩ 2).dev);
      let e := atApply s;
      onlyOf e ⟨0x30B0, 1, [1]⟩ = true ∧
        (e.ch 0).src.st = .running ∧
        (e.ch 0).loop.st = .openState) ∧
    (let s := on (updLoop 0 (fun l => { l with st := .primary }) (updSrc 0 (fun x => { x with st := .running, code := 9 }) (committed ⟨0x30B0, 1, [1]⟩ 2).dev));
      let e := atApply s;
      onlyOf e ⟨0x30B0, 1, [1]⟩ = true ∧
        (e.ch 0).loop.st = .primary ∧
        (e.ch 0).loop.law = none) ∧
    (let s := committed ⟨0x3060, 8, leBytes 5 7⟩ 2;
      let e := atApply s;
      onlyOf e ⟨0x3060, 8, leBytes 5 7⟩ = true ∧
        (e.ch 0).loop.xover = none) ∧
    (let s := committed ⟨0x3060, 6, leBytes 5 7⟩ 2;
      let e := atApply s;
      onlyOf e ⟨0x3060, 6, leBytes 5 7⟩ = true) ∧
    (let s := committed ⟨0x3060, 3, [3]⟩ 2;
      let e := atApply s;
      onlyOf e ⟨0x3060, 3, [3]⟩ = true ∧
        (3 : BitVec 8).toNat ≠ rd e oCoefActive [0] ∧
        (e.ch 0).loop.st = .openState) ∧
    (let s := put oCoefSwitch 1 [0] (on (updLoop 0 (fun l => { l with st := .primary }) (committed ⟨0x3060, 3, [3]⟩ 2).dev));
      let e := atApply s;
      onlyOf e ⟨0x3060, 3, [3]⟩ = true ∧
        (e.ch 0).loop.st = .primary ∧
        rd e oCoefSwitch [0] = 1) ∧
    (let s := put oCoefSwitch 0 [0] (on (updLoop 0 (fun l => { l with st := .primary, uPrev := 44 }) (committed ⟨0x3060, 3, [3]⟩ 2).dev));
      let e := atApply s;
      onlyOf e ⟨0x3060, 3, [3]⟩ = true ∧
        rd e oCoefSwitch [0] ≠ 1 ∧
        (e.ch 0).loop.law = none) ∧
    (let s := on (updSrc 0 (fun x => { x with st := .running, code := 77 }) (committed ⟨0x3010, 3, [4]⟩ 2).dev);
      let e := atApply s;
      onlyOf e ⟨0x3010, 3, [4]⟩ = true ∧
        (4 : BitVec 8).toNat ≠ rd e oSrcOrigin [0] ∧
        (e.ch 0).loop.st = .openState ∧
        (e.ch 0).src.st = .running) ∧
    (let s := put oSrcOrigin 4 [0] (on (updLoop 0 (fun l => { l with st := .primary }) (updSrc 0 (fun x => { x with st := .running, code := 77 }) (committed ⟨0x3010, 3, [0]⟩ 2).dev)));
      let e := atApply s;
      onlyOf e ⟨0x3010, 3, [0]⟩ = true ∧
        (0 : BitVec 8).toNat ≠ rd e oSrcOrigin [0] ∧
        (e.ch 0).loop.st = .primary ∧
        (e.ch 0).loop.xover = none) ∧
    (let s := on (updCh 0 (fun c => { c with queues := [(3, ⟨desc false 0 0, [[0], [1]], 0, 2⟩), (9, ⟨desc false 0 0, [[5]], 0, 1⟩)] }) (committed ⟨0x3051, 1, leBytes 2 3 ++ leBytes 8 (desc true 1 0).toNat⟩ 2).dev);
      let e := atApply s;
      let v := desc true 1 0;
      onlyOf e ⟨0x3051, 1, leBytes 2 3 ++ leBytes 8 v.toNat⟩ = true ∧
        ((e.ch 0).queues.map Prod.fst).Pairwise (· < ·) ∧
        descStream v = descStream (qFind (e.ch 0).queues 3).desc ∧
        descCompanion v = descCompanion (qFind (e.ch 0).queues 3).desc ∧
        descDepth v = descDepth (qFind (e.ch 0).queues 3).desc) ∧
    (let s := on (updCh 0 (fun c => { c with queues := [(3, ⟨desc false 0 0, [[0], [1]], 0, 2⟩)] }) (committed ⟨0x3051, 1, leBytes 2 3 ++ leBytes 8 (2 ^ 48 + 2 ^ 44)⟩ 2).dev);
      let e := atApply s;
      let v := BitVec.ofNat 64 (2 ^ 48 + 2 ^ 44);
      onlyOf e ⟨0x3051, 1, leBytes 2 3 ++ leBytes 8 v.toNat⟩ = true ∧
        ((descStream v ≠ descStream (qFind (e.ch 0).queues 3).desc ∨ descCompanion v ≠ descCompanion (qFind (e.ch 0).queues 3).desc))) ∧
    (let s := committed ⟨0x3082, 4, [1]⟩ 2;
      let e := atApply s;
      onlyOf e ⟨0x3082, 4, [1]⟩ = true ∧
        bankState (e.ch 0).seq 1 = .idle) ∧
    (let s := txn fun t => { t with st := .committed, staged := [⟨0x3083, 1, leBytes 2 (8192 + 8191)⟩, ⟨0x3083, 2, leBytes 32 77⟩], mask := 2, decided := 2 };
      let e := atApply s;
      let t := portTxn e .n 1;
      t.st = .committed ∧
        together e t = true ∧
        e.ref.comparison = none ∧
        (e.ch 0).seq.st = .stopped ∧
        (e.ch 0).seq.crr = none ∧
        (e.ch 0).seq.starts = [] ∧
        t.staged = [⟨0x3083 + 0x100 * (0 : Ch).val, 1, leBytes 2 ((1 : Fin 2).val * 8192 + 8191)⟩, ⟨0x3083 + 0x100 * (0 : Ch).val, 2, leBytes 32 77⟩]) ∧
    (let s := on (updSeq 0 (fun q => { q with crr := some (8192 + 8191) }) (txn fun t => { t with st := .committed, staged := [⟨0x3083, 1, leBytes 2 (8192 + 8191)⟩, ⟨0x3083, 2, leBytes 32 77⟩], mask := 2, decided := 2 }).dev);
      let e := atApply s;
      (e.ch 0).seq.crr = some ((1 : Fin 2).val * 8192 + 8191) ∧
        together e (portTxn e .n 1) = true) ∧
    (let s := committed ⟨0x2100, 1, [1]⟩ 1;
      let e := atApply s;
      onlyOf e ⟨0x2100, 1, [1]⟩ = true) ∧
    (let s := committed ⟨0x2102, 1, leBytes 4 9⟩ 1;
      let e := atApply s;
      onlyOf e ⟨0x2102, 1, leBytes 4 9⟩ = true) := by
  repeat' apply And.intro
  all_goals first | decide +kernel | rfl

/-- A unit held by one identifier and waited on by others. -/
def unitOf (u : Nat) (g : List Nat) (w : List Nat) : Shared :=
  ⟨u, g.map fun i => ⟨i, 0, 0, 0, false, false, none⟩, w.map fun i => ⟨i, 2 ^ 32, 0, 0, none, false⟩, 0⟩
def units (l : List Shared) : State := on { live.dev with arb := { live.dev.arb with units := l } }

/-- The device as a grant of a unit is made. -/
def atGrant (s : State) (u : Nat) : Dev := commitDue (advance (grantTick s.dev u) s.dev)


theorem wit_ArbiterGrants :
    (let s := live;
      Live s ∧
        (¬ ((0x10 ≤ 0x16 ∧ 0x16 ≤ 0x15) ∨ 0x16 = 0x20)) ∧
        (0xB0 ≤ 0xB5 ∧ 0xB5 ≤ 0xB5) ∧
        holds s.dev 0x1000 0x15 = false ∧
        (sharedOf s.dev 0x15).waiters = [] ∧
        (sharedOf s.dev 0x15).grants = [] ∧
        unitsHeld s.dev 0x1000 = []) ∧
    (let s := units [unitOf 0x20 [0x1000] []];
      holds s.dev 0x1000 0x20 = true ∧
        0x20 ∈ unitsHeld s.dev 0x1000 ∧
        1 ≤ (sharedOf s.dev 0x20).grants.length) ∧
    (let s := units [unitOf 0x90 [] [0x8000]];
      let e := atGrant s 0x90;
      let r := (⟨0x8000, 2 ^ 32, 0, 0, none, false⟩ : Request);
      grantTick s.dev 0x90 = max s.dev.now (sharedOf s.dev 0x90).freeFrom ∧
        r ∈ (sharedOf e 0x90).waiters ∧
        grantable e 0x90 r = true ∧
        (sharedOf e 0x90).grants.length < 1 ∧
        8 ≤ r.id / 4096 ∧
        (sharedOf e 0x90).waiters = [r]) ∧
    (let s := units [unitOf 0xB3 [] [0xB003]];
      let e := atGrant s 0xB3;
      grantable e 0xB3 ⟨0xB003, 2 ^ 32, 0, 0, none, false⟩ = true ∧
        (sharedOf e 0xB3).waiters = [⟨0xB003, 2 ^ 32, 0, 0, none, false⟩]) ∧
    (let s := on (updLink 3 (fun l => { l with st := .lost }) (units [unitOf 0xB3 [] [0xB003]]).dev);
      let e := atGrant s 0xB3;
      unitLink 0xB3 = some 3 ∧
        (e.dies[(3 : Die)].link.st ≠ .active ∧ e.dies[(3 : Die)].link.st ≠ .retraining) ∧
        grantable e 0xB3 ⟨0xB003, 2 ^ 32, 0, 0, none, false⟩ = false) ∧
    (let s := units [⟨0x20, [⟨0x8000, 0, 0, 0, false, false, some 100⟩], [⟨0x1000, 5, 0, 0, none, false⟩], 0⟩];
      (sharedOf s.dev 0x20).grants = [⟨0x8000, 0, 0, 0, false, false, some 100⟩] ∧
        grantTick s.dev 0x20 = max 100 0) ∧
    (let s := on (updMon 5 0 (fun y => { y with st := .running }) (updArr 5 .vm (fun x => { x with ready := true, spare := some 6, slices := x.slices.set 6 { x.slices[6] with st := .spareIdle } }) (units [unitOf (pathUnit 5 .vm) [] [0x7000 + 4 * 5]]).dev));
      grantable (atGrant s (pathUnit 5 .vm)) (pathUnit 5 .vm) ⟨0x7000 + 4 * 5, 2 ^ 32, 0, 0, none, false⟩ = true) ∧
    (let s := units [unitOf 0x90 [0x7000] []];
      (sharedOf s.dev 0x90).grants = [⟨0x7000, 0, 0, 0, false, false, none⟩] ∧
        (0x7000 / 4096, 123864) ∈ [(7, 123864), (10, 98304)]) ∧
    (let s := units [unitOf 0x90 [] [0x8000]];
      (sharedOf s.dev 0x90).waiters = [⟨0x8000, 2 ^ 32, 0, 0, none, false⟩] ∧
        (5 ≤ (8 : Fin 15).val ∧ (8 : Fin 15).val ≤ 9)) ∧
    (let s := live;
      0xB003 ∉ s.dev.arb.lateWork ∧
        (3 : BitVec 12).toNat ≤ 6 ∧
        (7 : BitVec 12).toNat > 6 ∧
        (5 : BitVec 12).toNat < 6) ∧
    (rd (put oCmpInterval 1 [] live).dev oCmpInterval [] ≠ 0 ∧
        (∀ x ∈ live.dev.arb.units, x.waiters = [] ∨ x.grants = [])) ∧
    (let s := units [unitOf 0x10 [0x9001] [0xA002], unitOf 0x11 [0xA002] [0x9001]];
      s.dev.arb.units = [⟨0x10, [⟨0x9001, 0, 0, 0, false, false, none⟩], [⟨0xA002, 2 ^ 32, 0, 0, none, false⟩], 0⟩, ⟨0x11, [⟨0xA002, 0, 0, 0, false, false, none⟩], [⟨0x9001, 2 ^ 32, 0, 0, none, false⟩], 0⟩] ∧
        0x10 < 0x11 ∧
        0xA002 ≠ 0x9001 ∧
        8 < 0xA002 / 4096 ∧
        0xA002 < 65536) ∧
    (let s := units [⟨0x20, [⟨0x0001, 0, 0, 0, true, false, none⟩], [⟨0x8000, 2 ^ 32, 0, 0, none, false⟩], 0⟩];
      Served s .n oHostRelease ∧
        s.dev.arb.units = [⟨(0x20 : BitVec 8).toNat, [⟨0x0001, 0, 0, 0, true, false, none⟩], [⟨0x8000, 2 ^ 32, 0, 0, none, false⟩], 0⟩] ∧
        0x0001 / 4096 = Port.n.idx.val) ∧
    (Served live .n oArbCommit ∧
        live.dev.supply.warning = false ∧
        live.dev.arb.commit = none ∧
        posLater 1 (ctlPos live.dev) = true ∧
        tickNear live.dev.cad.recs 1 < live.dev.now + 61440 ∧
        (¬ (posLater (2 ^ 33) (ctlPos live.dev) = false ∨ tickNear live.dev.cad.recs (2 ^ 33) < live.dev.now + 61440))) ∧
    (let s := on { live.dev with arb := { live.dev.arb with commit := some (2 ^ 31, { ArbValues.dflt with mode := 1 }), units := [unitOf 0x20 [0x8000] [0x1000]] } };
      s.dev.arb.commit = some (2 ^ 31, { ArbValues.dflt with mode := 1 }) ∧
        (reachTick s.dev.cad.recs (2 ^ 31)).isSome = true) ∧
    (let s := on { live.dev with arb := { live.dev.arb with commit := some (2 ^ 40, ArbValues.dflt) } };
      reachTick s.dev.cad.recs (2 ^ 40) = none) := by
  repeat' apply And.intro
  all_goals first | decide +kernel | rfl

/-- A segmented SDO transfer in progress. -/
def sdoOf (x : Sdo) : State := onN fun y => { y with sdo := some x }

/-- `s` with Port N in a state. -/
def al (a : AlState) (s : State) : State := { s with dev := { s.dev with portN := { s.dev.portN with al := a } } }


theorem wit_ObjectRequests :
    (let s := live;
      Live s ∧
        serves s.dev .n = true ∧
        portShut s.nv s.dev .n = false ∧
        s.dev.control.running = true ∧
        s.dev.portN.al ≠ .init ∧
        s.dev.portN.sdo = none ∧
        serves State.reset.dev .n = false ∧
        portShut (put oPortsEnabled 0 [] live).nv (put oPortsEnabled 0 [] live).dev .s = true ∧
        rowsAt 0xFFFF = [] ∧
        nameOf .n 0x2000 0xFF = .missing 0x06090011 ∧
        nameOf .n 0x2302 0 = .count 15 ∧
        nameOf .n 0x2725 3 = .row oFwTrialS ∧
        oFwTrialS.acc ≠ .rk ∧
        mayWrite oFwTrialS .n = .ok ∧
        lengthOk oFwTrialS [(1 : Byte)].length = false ∧
        lengthOk oFwTrialS (leBytes 2 59).length = true ∧
        valueCheck oFwTrialS 0x2725 3 (leBytes 2 59) = .abort 0x0F100003 ∧
        rightOf oFwTrialS .s = .read ∧
        rightOf oFwTrialS .n = .full ∧
        (leBytes 2 60).length = oFwTrialS.size ∧
        limitCheck oFwTrialS (ofBytes (leBytes 2 60)) = .ok ∧
        nameOf .n 0x2201 5 = .row oSlateDir ∧
        oSlateDir.acc = .ro ∧
        dieReachable s.dev (objDie 0x2725) = true ∧
        portHolds s.dev .n = none) ∧
    (let s := onLink 0 fun l => { l with st := .lost };
      (¬ dieReachable s.dev (objDie 0x3031) = true) ∧
        nameOf .n 0x3031 4 = .row oStaleLimit ∧
        mayWrite oStaleLimit .n = .ok ∧
        lengthOk oStaleLimit (leBytes 4 120000).length = true) ∧
    (let s := onLink 0 fun l => { l with st := .retraining };
      portHolds s.dev .n = none ∧
        objDie 0x3010 = (0 : Die).val + 1 ∧
        (s.dev.dies[(0 : Die)]).link.st = .retraining ∧
        nameOf .n 0x3010 4 = .row oSrcCode ∧
        nameOf .s 0x3010 4 = .row oSrcCode ∧
        oSrcCode.acc ≠ .rk ∧
        (writeObj s.nv .s 0x3010 4 (leBytes 5 5) s.dev).1 = .ok ∧
        dieReachable s.dev (objDie 0x3010) = true ∧
        rowIs oSrcCode oRecord = false) ∧
    (let s := onLink 0 fun l => { l with st := .retraining, held := [.request .n (.read false false 0x3032 2)] };
      portHolds s.dev .n = some 0) ∧
    ((List.replicate 15 (15 : Byte)).length ≤ 15 ∧
        (∀ b ∈ List.replicate 15 (15 : Byte), b.toNat < 16) ∧
        rowsAt 0x2302 ≠ [] ∧
        1 < (2 : Byte).toNat ∧
        1 < 2 ∧
        noWholeWrite 0x2302 = false ∧
        noWholeWrite 0x5000 = true ∧
        (∃ r ∈ rowsAt 0x5000, r.size = 0) ∧
        (∀ r ∈ rowsAt 0x2302, r.size ≠ 0 ∧ rightOf r .n ≠ .none) ∧
        (∀ r ∈ rowsAt 0x2302, rightOf r .n ≠ .none) ∧
        dieReachable live.dev (objDie 0x2302) = true) ∧
    (rowIs oFwTrialS oQueueDrain = false ∧
        rowIs oFwTrialS oCtrlQueueDrain = false ∧
        rowIs oFwTrialS oRecord = false ∧
        rowIs oFwTrialS oSlateRead = false ∧
        (view live.nv live.dev .n oFwTrialS 0x2725 3).length ≤ 1008 ∧
        nameOf .n 0x2201 5 = .row oSlateDir ∧
        rowIs oSlateDir oQueueDrain = false) ∧
    (let x : Sdo := ⟨0x2725, 3, false, false, [60], 2, false, 7, none⟩;
      (sdoOf x).dev.portN.sdo = some x ∧
        true ≠ x.toggle ∧
        false = x.toggle ∧
        x.upload = false ∧
        (x.data ++ [(0 : Byte)]).length = x.total ∧
        (x.data ++ [(2 : Byte), 3]).length ≠ x.total ∧
        x.complete = false ∧
        x.waits = none) ∧
    (let x : Sdo := ⟨0x2724, 1, false, false, List.replicate 65536 1, 70000, false, 7, none⟩;
      let s := { sdoOf x with dev := { (sdoOf x).dev with supply := { live.dev.supply with warning := true } } };
      s.dev.portN.sdo = some x ∧
        s.dev.supply.warning = true ∧
        65536 < (x.data ++ [(1 : Byte)]).length) ∧
    (let x : Sdo := ⟨0x2724, 1, false, false, [1], 2, false, 7, some true⟩;
      (sdoOf x).dev.portN.sdo = some x ∧
        x.waits.isSome = true) ∧
    (let x : Sdo := ⟨0x2725, 3, false, true, List.replicate 1015 0, 1015, false, 0, none⟩;
      (sdoOf x).dev.portN.sdo = some x ∧
        x.upload = true ∧
        x.data.length ≤ 1015 ∧
        1015 < (0 :: x.data).length) ∧
    (rightOf oFwTrialS .n = .full ∧
        nameOf .n 0x2601 0x11 = .row oCompCount ∧
        rightOf oCompCount .n = .read ∧
        nameOf .n 0x3031 4 = .row oStaleLimit ∧
        oStaleLimit.acc = .rk) := by
  repeat' apply And.intro
  all_goals first | decide +kernel | rfl

theorem wit_PortNStates :
    (let s := live;
      Live s ∧
        s.dev.control.running = true ∧
        s.dev.portN.al = .op ∧
        s.dev.portN.raised = [] ∧
        State.reset.dev.control.running = false ∧
        (al .init live).dev.portN.al = .init) ∧
    (let s := put oOutSyncType 1 [] (al .preop live);
      s.dev.portN.al = .preop ∧
        mappingsOk s.dev true = true ∧
        mappingsOk s.dev false = true ∧
        rd s.dev oOutSyncType [] = 1) ∧
    (mappingsOk (putKey (objKey 0x1C12 1 0) 0x1600 (put oRxMap 0x12345678 [0] live).dev) true = false ∧
        mappingsOk (putKey (objKey 0x1C13 1 0) 0x1A00 (put oTxMap 0x12345678 [0] live).dev) true = true ∧
        mappingsOk (putKey (objKey 0x1C13 1 0) 0x1A00 (put oTxMap 0x12345678 [0] live).dev) false = false ∧
        2 < rd (put oOutSyncType 3 [] live).dev oOutSyncType []) ∧
    (let s := put oOutSyncType 0 [] (put oInCycle 124999 [] live);
      rd s.dev oOutSyncType [] = 0 ∧
        rd s.dev oInCycle [] < 125000) ∧
    (let s := put oOutSyncType 0 [] (put oInCycle 125000 [] live);
      125000 ≤ rd s.dev oInCycle [] ∧
        rd s.dev oInCycle [] ≤ 100000000) ∧
    (let s := put oOutSyncType 2 [] (put oOutCycle 100000000 [] (put oInShift 0 [] live));
      rd s.dev oOutSyncType [] = 2 ∧
        rd s.dev oInShift [] + 30000 < rd s.dev oOutCycle [] ∧
        125000 ≤ rd s.dev oOutCycle [] ∧
        rd s.dev oOutCycle [] ≤ 100000000 ∧
        rd s.dev oOutCycle [] % 1000 = 0 ∧
        rd (put oOutCycle 125001 [] live).dev oOutCycle [] % 1000 ≠ 0) ∧
    (let s := on { (onN fun x => { x with raised := [(3, 4, 0)] }).dev with events := [⟨7, 0, 0, 0, 0⟩] };
      s.dev.portN.raised = (3, 4, 0) :: [] ∧
        s.dev.portN.emcyAt = [] ∧
        (s.dev.portN.mails.filter isEmergency).length < 8 ∧
        s.dev.events = ⟨7, 0, 0, 0, 0⟩ :: []) ∧
    (let x := (onN fun x => { x with emcyAt := [(3, 0)] }).dev.portN;
      (3, 0) ∈ x.emcyAt ∧
        0 < 0 + 2457600 ∧
        8 ≤ ((onN fun x => { x with mails := List.replicate 8 (.emergency []) }).dev.portN.mails.filter isEmergency).length) := by
  repeat' apply And.intro
  all_goals first | decide +kernel | rfl

/-- An image of channel 5 with RX_SEQ 1 that asks for everything. -/
def image (count : BitVec 8) : RxImage := ⟨0x17, 1, 2, 3, count, List.replicate 8 4⟩

/-- An image of channel 5 that has yet to be acted on. -/
def fresh (count : BitVec 8) (seqs : List (Ch × BitVec 4)) : State :=
  onN fun x => { x with rx := [(5, image count)], fresh := [5], seqs := seqs }

/-- An assignment of one PDO to the inputs. -/
def assigns (i : Nat) (d : Dev) : Dev := (List.range 25).foldl (fun d j => putKey (objKey 0x1C13 (j + 1) 0) (if j = 0 then i else 0) d) d


theorem wit_ProcessData :
    (Live live ∧
        live.dev.portN.al = .op ∧
        (al .safeop live).dev.portN.al = .safeop ∧
        live.dev.control.running = true ∧
        (∀ e ∈ [((5 : Ch), image 0)], e.1 ≠ 6) ∧
        rd (put oOutSyncType 2 [] live).dev oOutSyncType [] = 2 ∧
        rd live.dev oOutSyncType [] ≠ 2 ∧
        (al .preop live).dev.portN.al ≠ .safeop ∧
        (al .preop live).dev.portN.al ≠ .op ∧
        5 ∉ live.dev.portN.fresh ∧
        [((5 : Ch), image 0)] = (5, image 0) :: []) ∧
    (let s := on (putKey (objKey 0x1C12 1 0) 0x1605 live.dev);
      0x1600 + (5 : Ch).val ∈ assigned s.dev true ∧
        (∀ j < 14, 1 ≤ j → ∃ m ∈ mapEntries s.dev 0x1605, m / 256 = (0x7000 + 0x10 * 5) * 256 + j) ∧
        (¬ 0x1600 + (5 : Ch).val ∈ assigned live.dev true)) ∧
    (let s := on (wrJ (putKey (objKey 0x1C12 1 0) 0x1605 live.dev) oRxMap 0 [5] 1);
      (¬ ∃ m ∈ mapEntries s.dev 0x1605, m / 256 = (0x7000 + 0x10 * 5) * 256 + 2)) ∧
    (let s := fresh 8 [];
      5 ∈ s.dev.portN.fresh ∧
        (∀ e ∈ s.dev.portN.owed, e.1 ≠ 5) ∧
        s.dev.portN.al = .op ∧
        (s.dev.dies[Ch.die 5]).link.st = .active ∧
        ((5 : Ch), (1 : BitVec 4)) ∉ s.dev.portN.seqs ∧
        BitVec.ofNat 4 ((rxImage s.dev 5).ctrl.toNat / 16) = 1 ∧
        dieReachable s.dev ((Ch.die 5).val + 1) = true ∧
        (rxImage s.dev 5).qCount.toNat ≤ 8 ∧
        rd s.dev oSrcQOwner [5] = 0 ∧
        (s.dev.ch 5).src.queue.length ≤ srcQueueDepth ∧
        bitOf (rxImage s.dev 5).ctrl.toNat 2 = true ∧
        (s.dev.ch 5).seq.st = .stopped ∧
        rd s.dev oRxRejects [] < 2 ^ 32 ∧
        (∀ k : Ch, k ≠ 5 → k.val ≠ 5)) ∧
    (let s := on { (fresh 0 []).dev with portN := { (fresh 0 []).dev.portN with al := .safeop, fresh := [], owed := [(5, image 2), (5, image 1)] } };
      s.dev.portN.owed.find? (fun e => e.1 == 5) = some (5, image 2) ∧
        s.dev.portN.al = .safeop) ∧
    (let s := on (updLink 1 (fun l => { l with st := .retraining }) (fresh 8 []).dev);
      (s.dev.dies[Ch.die 5]).link.st = .retraining ∧
        ((5 : Ch), (1 : BitVec 4)) ∉ s.dev.portN.seqs) ∧
    (let s := on { live.dev with portN := { live.dev.portN with al := .safeop, fresh := [5] } };
      s.dev.portN.al ≠ .op ∧
        s.dev.portN.owed = []) ∧
    ((5, 1) ∈ (fresh 0 [(5, 1)]).dev.portN.seqs ∧
        8 < (rxImage (fresh 9 []).dev 5).qCount.toNat ∧
        rd (put oSrcQOwner 1 [5] (fresh 8 [])).dev oSrcQOwner [5] ≠ 0 ∧
        dieReachable (onLink 1 fun l => { l with st := .lost }).dev ((Ch.die 5).val + 1) = false) ∧
    (let s := on (assigns 0x1A18 live.dev);
      assigned s.dev false = [0x1A18]) ∧
    (let s := on (assigns 0x1A05 (wrJ (updCh 5 (fun c => { c with queues := [(511, ⟨desc false 0 0, [[7]], 0, 1⟩)] }) live.dev) oHeadMap (512 * 5 + 511) [5] 0));
      assigned s.dev false = [0x1A00 + 5] ∧
        (s.dev.dies[Ch.die 5]).link.st = .active ∧
        (∀ k, k < 8 → k ≠ 0 → rdJ s.dev oHeadMap [5] k = 0xFFFF) ∧
        rdJ s.dev oHeadMap [5] 0 = 512 * 5 + 511 ∧
        (qFind (s.dev.ch 5).queues 511).recs = [7] :: [] ∧
        [(7 : Word64)].length ≤ 8) ∧
    (let s := al .preop live;
      rdJ live.dev oHeadMap [5] 0 = 0xFFFF ∧
        serves s.dev .n = true ∧
        s.dev.portN.al = .preop ∧
        1 ≤ (13 : Byte).toNat ∧
        (13 : Byte).toNat ≤ 13 ∧
        (0x70000008 : BitVec 32).toNat / 2 ^ 16 = 0x7000 + 0x10 * 0 ∧
        rowOf 0x7000 0 = none ∧
        (8 : BitVec 32).toNat / 2 ^ 8 = 0 ∧
        (8 : BitVec 32).toNat % 8 = 0 ∧
        mappedBytes (wrJ s.dev oRxMap 8 [0] 12) true ≤ 2048 ∧
        mappedBytes (wrJ s.dev oRxMap 8 [0] 12) false ≤ 6144 ∧
        0x1A00 ≤ (0x1A18 : BitVec 32).toNat ∧
        (0x1A18 : BitVec 32).toNat ≤ 0x1A18 ∧
        (0x1700 : BitVec 32).toNat < 2 ^ 16 ∧
        (0x1700 : BitVec 32).toNat ≠ 0 ∧
        (¬ (0x1600 ≤ (0x1700 : BitVec 32).toNat ∧ (0x1700 : BitVec 32).toNat < 0x1618)) ∧
        (¬ (0x1A00 ≤ (0x1700 : BitVec 32).toNat ∧ (0x1700 : BitVec 32).toNat ≤ 0x1A18)) ∧
        portHolds s.dev .n = none ∧
        1 ≤ (24 : Byte).toNat ∧
        (24 : Byte).toNat ≤ 24) := by
  repeat' apply And.intro
  all_goals first | decide +kernel | rfl

/-- A frame without its CRC right, and the state of Port S while it serves one. -/
def fr (index : BitVec 16) (sub flags : Byte) (len : BitVec 16) (data : List Byte) : Frame := ⟨1, index, sub, flags, len, 0, data, 0, none⟩
def serving (op : Nat) (shut : Bool) (f : Frame) (d : Dev) : State := on (updPort .s (fun y => { y with busy := some ⟨0, op, f, shut, false⟩ }) d)

/-- A request to read FW_TRIAL_S whose CRC is right. -/
def good (op : Nat) : Frame := { fr 0x2725 3 0 2 [] with crc := BitVec.ofNat 16 (crc16 (leBytes 1 op ++ [1] ++ leBytes 2 0x2725 ++ [3, 0] ++ leBytes 2 2 ++ leBytes 4 0)) }


theorem wit_PartnerFrames :
    (let s := live;
      let y := live.dev.ports[Port.s.idx];
      let f := good 1;
      Live s ∧
        y.busy = none ∧
        (¬ (y.busy.isSome = true ∨ s.dev.control.running = false)) ∧
        crc16 (leBytes 1 1 ++ [f.tag] ++ leBytes 2 f.index.toNat ++ [f.sub, f.flags] ++ leBytes 2 f.len.toNat ++ leBytes 4 f.offset.toNat ++ f.data) = f.crc.toNat ∧
        f.len.toNat ≤ 4096 ∧
        f.data.length = 0 ∧
        crc16 (leBytes 1 1 ++ [1] ++ leBytes 2 0x2725 ++ [3, 0] ++ leBytes 2 2 ++ leBytes 4 0) ≠ 0) ∧
    (let f := { good 1 with byte0 := some 9 };
      f.byte0 = some 9 ∧
        (¬ (9 : Byte).toNat ≤ 4) ∧
        ({ good 1 with byte0 := some 0 } : Frame).byte0 = some 0) ∧
    (let f := fr 0x3010 4 0 5 [];
      let s := serving 1 false f (onLink 0 fun l => { l with st := .retraining }).dev;
      (s.dev.ports[Port.s.idx]).busy = some ⟨0, 1, f, false, false⟩ ∧
        objDie f.index.toNat = (0 : Die).val + 1 ∧
        (s.dev.dies[(0 : Die)]).link.st = .retraining) ∧
    (let f := fr 511 0 0 512 [];
      let s := on (updPort .c (fun y => { y with busy := some ⟨0, 3, f, false, false⟩ }) live.dev);
      (s.dev.ports[Port.c.idx]).busy = some ⟨0, 3, f, false, false⟩) ∧
    (let f := fr 0x2725 3 0 2 [];
      let s := serving 1 true f live.dev;
      (s.dev.ports[Port.s.idx]).busy = some ⟨0, 1, f, true, false⟩ ∧
        bitOf f.flags.toNat 1 = false ∧
        nameOf .s 0x2725 3 = .row oFwTrialS ∧
        oFwTrialS.size ≠ 0 ∧
        dieReachable live.dev (objDie 0x2725) = true ∧
        nameOf .s 0xFFFF 0 = .missing 0x06020000 ∧
        nameOf .s 0x3031 4 = .row oStaleLimit ∧
        (¬ dieReachable (onLink 0 fun l => { l with st := .lost }).dev (objDie 0x3031) = true) ∧
        (fr 0x3031 4 0 4 []).offset.toNat = 0) ∧
    (nameOf .s 0x3052 1 = .row oQueueStatus ∧
        oQueueStatus.size = 0 ∧
        rowIs oQueueStatus oQueueDrain = false ∧
        rowIs oQueueStatus oCtrlQueueDrain = false ∧
        rowIs oQueueStatus oRecord = false ∧
        rowIs oQueueStatus oSlateRead = false ∧
        (fr 0x3052 1 0 2 []).offset.toNat = 0) ∧
    (let y := (on (updPort .s (fun y => { y with copy := some ⟨0x3052, 1, [1, 2]⟩, transfer := some ⟨0x5000, 0, []⟩ }) live.dev)).dev.ports[Port.s.idx];
      y.copy = some ⟨0x3052, 1, [1, 2]⟩ ∧
        y.transfer = some ⟨0x5000, 0, []⟩ ∧
        ({ fr 0x3052 1 0 2 [] with offset := 1 } : Frame).offset.toNat ≠ 0) ∧
    (nameOf .s 0x2725 3 = .row oFwTrialS ∧
        rightOf oSlateOnSplit .s = .full ∧
        [(1 : Byte)].length = oSlateOnSplit.size ∧
        limitCheck oSlateOnSplit (ofBytes [(1 : Byte)]) = .ok ∧
        mayWrite oSlateOnSplit .s = .ok ∧
        lengthOk oSlateOnSplit [(1 : Byte), 2].length = false ∧
        rightOf oFwTrialS .s = .read ∧
        oFwTrialS.acc ≠ .ro ∧
        nameOf .s 0x2201 5 = .row oSlateDir ∧
        oSlateDir.acc = .ro ∧
        nameOf .s 0x3032 2 = .row oUrgentAp ∧
        oUrgentAp.size ≠ 0 ∧
        mayWrite oUrgentAp .s = .ok ∧
        lengthOk oUrgentAp 2 = true) ∧
    (nameOf .s 0x5000 0 = .row oBankA ∧
        oBankA.size = 0 ∧
        rowIs oBankA oFwUpload = false ∧
        uploading live.dev .s = none ∧
        bitOf (1 : Byte).toNat 0 = true ∧
        bitOf (0 : Byte).toNat 0 = false ∧
        mayWrite oSlateDir .s = .abort 0x06010002 ∧
        oSlateDir.size = 0 ∧
        (⟨0x5000, 0, []⟩ : Transfer).data.length = (fr 0x5000 0 0 2 [1, 2]).offset.toNat) ∧
    (let s := on { live.dev with fw := { live.dev.fw with slots := live.dev.fw.slots.set 1 { live.dev.fw.slots[1] with st := .receiving, by_ := 1 } } };
      uploading s.dev .s = some 1) ∧
    (let s := serving 3 false (fr (512 * 5 + 511) 0 0 512 []) (queued 1).dev;
      (s.dev.ports[Port.s.idx]).busy = some ⟨0, 3, fr (512 * 5 + 511) 0 0 512 [], false, false⟩ ∧
        (5 : Ch).val = (512 * 5 + 511 : BitVec 16).toNat / 512 ∧
        dieReachable s.dev ((Ch.die 5).val + 1) = true ∧
        descDepth (qFind (s.dev.ch 5).queues ((512 * 5 + 511 : BitVec 16).toNat % 512)).desc ≠ 0 ∧
        descConsumer (qFind (s.dev.ch 5).queues 511).desc = 1 ∧
        1 ≤ (fr (512 * 5 + 511) 0 0 512 []).len.toNat ∧
        (fr (512 * 5 + 511) 0 0 512 []).len.toNat ≤ 512 ∧
        (¬ (fr (512 * 5 + 511) 0 0 513 []).len.toNat ≤ 512) ∧
        descDepth (qFind (live.dev.ch 5).queues 511).desc = 0 ∧
        descConsumer (qFind ((queued 0).dev.ch 5).queues 511).desc ≠ 1) := by
  repeat' apply And.intro
  all_goals first | decide +kernel | rfl

theorem wit_FetchResponse :
    (Live live ∧
        live.dev.control.running = true ∧
        live.dev.ports[Port.s.idx].response = none ∧
        ((on (updPort .s (fun y => { y with response := some ⟨0, 1, 0, [2]⟩ }) live.dev)).dev.ports[Port.s.idx]).response = some ⟨0, 1, 0, [2]⟩ ∧
        (on { live.dev with control := { live.dev.control with running := false } }).dev.control.running = false) := by
  repeat' apply And.intro
  all_goals first | decide +kernel | rfl

/-- A field of Table 12.3: TAG, KIND, HOP, TARGET, then OP or STATUS, LEN, INDEX, SUB. -/
def peerField (tag kind source target op len index sub : Nat) : BitVec 128 :=
  BitVec.ofNat 128 (tag + kind * 16 + source * 2 ^ 8 + target * 2 ^ 12 + op * 2 ^ 16 + len * 2 ^ 24 + index * 2 ^ 32 + sub * 2 ^ 48)

/-- A write of eight bytes to PEER_WORD 1 of hop 15. -/
def peerWrite : BitVec 128 := BitVec.ofNat 128 (15 + 2 * 2 ^ 8 + 8 * 2 ^ 16 + 0x2740 * 2 ^ 32 + 1 * 2 ^ 48)


theorem wit_PeerChannel :
    (let v := peerWrite;
      Live live ∧
        Served live .n oPeerCmd ∧
        getField v.toNat 0 8 = 15 ∧
        getField v.toNat 8 8 = 2 ∧
        getField v.toNat 16 8 = 8 ∧
        getField v.toNat 24 8 = 0 ∧
        getField v.toNat 56 8 = 0 ∧
        live.dev.sec.peer = none ∧
        hopOf live.dev = 0) ∧
    (let s := onCad fun c => { c with src := 3 };
      s.dev.cad.src = 3 ∧
        getField (peerField 0 1 0 0 0 0 0 0).toNat 4 4 = 1 ∧
        3 < getField (peerField 0 4 0 0 0 0 0 0).toNat 4 4 ∧
        getField (peerField 0 0 0 0 0 0 0 0).toNat 4 4 = 0) ∧
    (let x := (peerField 3 2 1 0 1 8 0x2740 16).toNat;
      getField x 4 4 = 2 ∧
        getField x 12 4 = hopOf live.dev ∧
        getField x 16 8 = 1 ∧
        getField x 24 8 = 8 ∧
        getField x 32 16 = 0x2740 ∧
        getField x 48 8 = 16 ∧
        portShut live.nv live.dev .x = false ∧
        portShut (put oPortsEnabled 0 [] live).nv (put oPortsEnabled 0 [] live).dev .x = true ∧
        nameOf .x 0xFFFF 0 = .missing 0x06020000 ∧
        getField (peerField 0 2 1 0 2 4 0x2740 1).toNat 24 8 = 4 ∧
        8 < getField (peerField 0 2 1 0 2 9 0x2740 1).toNat 24 8 ∧
        getField (peerField 0 3 1 7 0 0 0 0).toNat 12 4 ≠ hopOf live.dev ∧
        getField (peerField 0 2 1 0 3 4 0x2740 1).toNat 16 8 ≠ 1) ∧
    (let s := onSec fun x => { x with peer := some ⟨3, 0⟩ };
      s.dev.sec.peer = some ⟨3, 0⟩ ∧
        getField (peerField 3 3 1 0 0 0 0 0).toNat 4 4 = 3 ∧
        getField (peerField 3 3 1 0 0 0 0 0).toNat 0 4 = 3 ∧
        getField (peerField 4 3 1 0 0 0 0 0).toNat 0 4 ≠ 3) := by
  repeat' apply And.intro
  all_goals first | decide +kernel | rfl

/-- `live` with fuses blown. -/
def fused (f : Nat) : State := { live with nv := { live.nv with fuses := f } }


theorem wit_IdentityAndFuses :
    (let f := good 4;
      Live live ∧
        bitOf (fused 7).nv.fuses 0 = true ∧
        bitOf (fused 7).nv.fuses 1 = true ∧
        bitOf (fused 7).nv.fuses 2 = true ∧
        (¬ bitOf live.nv.fuses 0 = true) ∧
        (¬ bitOf live.nv.fuses 1 = true) ∧
        (¬ bitOf live.nv.fuses 2 = true) ∧
        live.dev.control.running = true ∧
        (live.dev.ports[Port.d.idx]).busy = none ∧
        (4 : BitVec 8).toNat ≤ 4 ∧
        (4 : BitVec 8) ≠ 0 ∧
        f.len.toNat ≤ 4096 ∧
        f.data.length = 0 ∧
        crc16 (leBytes 1 4 ++ [f.tag] ++ leBytes 2 f.index.toNat ++ [f.sub, f.flags] ++ leBytes 2 f.len.toNat ++ leBytes 4 f.offset.toNat ++ f.data) = f.crc.toNat ∧
        (¬ (5 : BitVec 8).toNat ≤ 4) ∧
        (onSec fun x => { x with tap := .extest }).dev.sec.tap = .extest ∧
        live.dev.sec.tap ≠ .samplePreload ∧
        live.dev.sec.tap ≠ .extest) ∧
    (let s := onSec fun x => { x with blowing := some (1, 0), tap := .debug };
      let v : BitVec 32 := 0xC1050007;
      Served live .n oFuseBlow ∧
        v.toNat / 65536 = 0xC105 ∧
        getField v.toNat 4 12 = 0 ∧
        bitOf (v.toNat % 16) 3 = false ∧
        live.dev.sec.blowing = none ∧
        live.dev.fw.image.key ≠ 1 ∧
        s.dev.sec.blowing = some (1, 0) ∧
        s.dev.sec.tap = .debug ∧
        bitOf (s.nv.fuses ||| 1) 0 = true ∧
        (¬ bitOf (s.nv.fuses ||| 2) 0 = true)) ∧
    (Served live .s oAttestNonce ∧
        (live.dev.ports[Port.s.idx]).attest = none ∧
        ((on (updPort .s (fun y => { y with attest := some ⟨0, [1]⟩ }) live.dev)).dev.ports[Port.s.idx]).attest = some ⟨0, [1]⟩ ∧
        Port.n ≠ Port.s) := by
  repeat' apply And.intro
  all_goals first | decide +kernel | rfl

/-- Image slot 1 in a state, and a header of format, part, steppings and key. -/
def slot1 (st : SlotState) (data : List Byte) : State :=
  on { live.dev with fw := { live.dev.fw with slots := live.dev.fw.slots.set 1 { live.dev.fw.slots[1] with st := st, data := data, erase := 0, pages := if st = .verifying then pagesOf data.length else 0 } } }
def header (magic part key : Nat) : List Byte :=
  leBytes 4 magic ++ leBytes 2 1 ++ leBytes 1 1 ++ leBytes 1 key ++ leBytes 8 0 ++ leBytes 2 part ++ leBytes 2 0xB0 ++ leBytes 4 8388608

/-- `live` with the flash queue held by the firmware service, and slot 1 receiving five pages. -/
def flashHeld (st : SlotState) : State := on { (slot1 st (List.replicate 1280 0)).dev with arb := { live.dev.arb with units := [⟨0xA0, [⟨0xE047, 0, 0, 0, false, false, none⟩], [], 0⟩] } }

/-- `live` with the firmware set. -/
def onFw (f : Firmware → Firmware) : State := on { live.dev with fw := f live.dev.fw }


theorem wit_FirmwareImages :
    (Live live ∧
        Served live .n oFwUpload ∧
        (live.dev.fw.slots[(1 : Fin 4)]).st ≠ .receiving ∧
        ((slot1 .receiving []).dev.fw.slots[(1 : Fin 4)]).st = .receiving ∧
        uploading live.dev .n = none ∧
        uploading (slot1 .receiving []).dev .n = some 1 ∧
        live.dev.control.running = true ∧
        live.dev.portN.al ≠ .init ∧
        live.dev.portN.foe = none ∧
        (onN fun x => { x with foe := some 1 }).dev.portN.foe = some 1 ∧
        [(1 : Byte)] ≠ [] ∧
        live.dev.arb.units = []) ∧
    (let s := flashHeld .receiving;
      let g : Grant := ⟨0xE047, 0, 0, 0, false, false, none⟩;
      let x := s.dev.fw.slots[(1 : Fin 4)];
      s.dev.arb.units = [⟨0xA0, [g], [], 0⟩] ∧
        g.id = 0xE047 ∧
        g.drop = none ∧
        flashWaits s.dev = some 1 ∧
        x.pages + 3 ≤ pagesReady x ∧
        flashWaits (flashHeld .empty).dev = none) ∧
    (let s := on { (flashHeld .receiving).dev with fw := { (flashHeld .receiving).dev.fw with slots := (flashHeld .receiving).dev.fw.slots.set 1 { (flashHeld .receiving).dev.fw.slots[1] with erase := 2048 } } };
      flashWaits s.dev = some 1 ∧
        0 < (s.dev.fw.slots[(1 : Fin 4)]).erase) ∧
    (let q : Request := ⟨0xE001, 5, 0, 0, none, false⟩;
      let g : Grant := ⟨0xE047, 0, 0, 0, false, false, none⟩;
      let s := on { (flashHeld .receiving).dev with arb := { live.dev.arb with units := [⟨0xA0, [g], [q], 0⟩] }, fw := { (flashHeld .receiving).dev.fw with slots := (flashHeld .receiving).dev.fw.slots.set 1 { (flashHeld .receiving).dev.fw.slots[1] with erase := 2048 } } };
      s.dev.arb.units = [⟨0xA0, [g], [q], 0⟩] ∧
        g.drop = none ∧
        q.id ≠ 0xE047 ∧
        flashWaits s.dev = some 1 ∧
        0 < (s.dev.fw.slots[(1 : Fin 4)]).erase) ∧
    (let s := slot1 .verifying (header 0x574D5243 0x2408 2);
      let l := (s.dev.fw.slots[(1 : Fin 4)]).data;
      (s.dev.fw.slots[(1 : Fin 4)]).st = .verifying ∧
        ofBytes ((l.drop 0).take 4) = 0x574D5243 ∧
        ofBytes ((l.drop 4).take 2) = 1 ∧
        ofBytes ((l.drop 6).take 1) = 1 ∧
        ofBytes ((l.drop 16).take 2) = 0x2408 ∧
        ofBytes ((l.drop 18).take 2) ≤ 0x00B0 ∧
        ofBytes ((l.drop 20).take 4) ≤ 8388608 ∧
        ofBytes ((l.drop 7).take 1) = 2 ∧
        ofBytes (((header 0 0x2408 0).drop 0).take 4) ≠ 0x574D5243 ∧
        ofBytes (((header 0x574D5243 0x2409 0).drop 16).take 2) ≠ 0x2408 ∧
        (live.dev.fw.slots[(1 : Fin 4)]).st ≠ .verifying) ∧
    (let s := onFw fun w => { w with trial := some 0 };
      Served live .n oFwConfirm ∧
        live.dev.fw.trial = none ∧
        s.dev.fw.trial ≠ none ∧
        s.dev.fw.trial = some 0 ∧
        Served s .n oFwConfirm) ∧
    (let s := onFw fun w => { w with slots := w.slots.set 3 { w.slots[3] with st := .valid } };
      Served live .n oFwChLoad ∧
        (63 : BitVec 8).toNat < 64 ∧
        (live.dev.fw.slots[(3 : Fin 4)]).st ≠ .valid ∧
        live.dev.fw.boot ≠ 3 ∧
        (s.dev.fw.slots[(3 : Fin 4)]).st = .valid ∧
        (∀ k : Die, (s.dev.fw.rams[k]).changing = []) ∧
        (∀ e ∈ allTxns s.dev, txnPending e.2.2 = false)) ∧
    (let s := onFw fun w => { w with rams := w.rams.set 0 { w.rams[0] with changing := [.channel 3 .le, .service 7], loading := some (0, 3) } };
      (s.dev.fw.rams[(0 : Die)]).changing ≠ [] ∧
        (s.dev.fw.rams[(0 : Die)]).loading ≠ none ∧
        (live.dev.fw.rams[(0 : Die)]).loading = none ∧
        bitOf (1 : BitVec 8).toNat (0 : Die).val = true) := by
  repeat' apply And.intro
  all_goals first | decide +kernel | rfl

/-- A device that takes an upload of port `p` in a supply warning, with one byte more than its buffer holds. -/
def overfull (p : Port) : State := on { live.dev with
  supply := { live.dev.supply with warning := true }
  fw := { live.dev.fw with slots := live.dev.fw.slots.set 1 { live.dev.fw.slots[1] with
    st := .receiving, by_ := p.idx, pages := 0, data := List.replicate 65537 0 } } }

theorem wit_overfull (p : Port) : uploading (overfull p).dev p = some 1 ∧ (overfull p).dev.supply.warning = true ∧
    65536 + 256 * (overfull p).dev.fw.slots[1].pages < (overfull p).dev.fw.slots[1].data.length + [(1 : Byte)].length := by
  refine ⟨by cases p <;> rfl, rfl, ?_⟩
  show 65536 + 256 * 0 < (List.replicate 65537 (0 : Byte)).length + 1
  rw [List.length_replicate]
  decide

/-- A whole upload of one byte more than the buffer, in a supply warning. -/
theorem wit_wholeUpload (p : Port) : uploading (onSup fun u => { u with warning := true }).dev p = none ∧
    (onSup fun u => { u with warning := true }).dev.supply.warning = true ∧ 65536 < (List.replicate 65537 (0 : Byte)).length := by
  refine ⟨by cases p <;> rfl, rfl, ?_⟩
  rw [List.length_replicate]
  decide

/-- `live` whose confirmed image has a rollback value, beside microcode of rollback 5. -/
def floors (r : Nat) : State := onFw fun w => { w with
  slots := w.slots.set 0 { w.slots[0] with rollback := r }
  rams := Vector.replicate 6 { w.rams[0] with bank0 := some ⟨2, 0, 5, 0, none⟩ } }


theorem wit_FirmwareFloor :
    (let s := floors 5;
      Served s .n oFwFloorRaise ∧
        s.dev.fw.confirmed = 0 ∧
        s.dev.fw.trial = none ∧
        (∀ k : Die, (s.dev.fw.rams[k]).bank0 = some ⟨2, 0, 5, 0, none⟩ ∧ bitOf (rd s.dev oFwChBank []) k.val = false) ∧
        (¬ 5 < (s.dev.fw.slots[(0 : Fin 4)]).rollback) ∧
        5 < ((floors 6).dev.fw.slots[(0 : Fin 4)]).rollback) := by
  repeat' apply And.intro
  all_goals first | decide +kernel | rfl

/-- The signature and the hash of an image are free values: where they verify, these clauses have an image that meets them. -/
theorem wit_FirmwareImages_signed (l : List Byte) (h : Config.edVerify (Config.firmwareKey 0) (l.take 256) (ofBytes ((l.drop 0).take 114)) = true) :
    (0 = 0 ∧ bitOf live.nv.fuses 3 = false) ∧ Config.edVerify (Config.firmwareKey 0) (l.take 256) (ofBytes ((l.drop 0).take 114)) = true :=
  ⟨by decide, h⟩


/-- A supply state of a live device. -/
def supply (st : PowerState) (f : Power → Power) : State := onSup fun u => f { u with st := st }

/-- A device whose Control die boots. -/
def booting : State := on { live.dev with
  control := { live.dev.control with running := false, booted := false }
  fw := { live.dev.fw with floor := 3, slots := live.dev.fw.slots.set 0 { live.dev.fw.slots[0] with rollback := 3 } }
  ledger := { live.dev.ledger with scanDone := true } }


theorem wit_SupplyStates :
    (State.reset.dev.supply.released = false ∧
        State.reset.dev.supply.resetAt = none ∧
        live.dev.supply.released = true ∧
        (onSup fun u => { u with resetAt := some 5 }).dev.supply.resetAt = some 5 ∧
        live.dev.supply.phy = true ∧
        (onSup fun u => { u with phy := false }).dev.supply.phy = false) ∧
    (let s := booting;
      Live s ∧
        s.dev.control.restart = none ∧
        s.dev.control.booted = false ∧
        (s.dev.fw.slots[(0 : Fin 4)]).st = .valid ∧
        s.dev.control.stuck = false ∧
        s.dev.control.due = [] ∧
        s.dev.fw.floor ≤ (s.dev.fw.slots[(0 : Fin 4)]).rollback ∧
        (s.dev.fw.slots[(0 : Fin 4)]).key = 0 ∧
        bitOf s.nv.fuses 3 = false ∧
        s.dev.fw.running = 0 ∧
        s.dev.ledger.scanDone = true ∧
        (onFw fun w => { w with running := 1 }).dev.fw.running ≠ 0 ∧
        (live.dev.fw.slots[(1 : Fin 4)]).st ≠ .valid) ∧
    (let s := on { booting.dev with fw := { booting.dev.fw with floor := 4 } };
      (s.dev.fw.slots[(0 : Fin 4)]).st = .valid ∧
        s.dev.control.due = [] ∧
        s.dev.control.stuck = false ∧
        (s.dev.fw.slots[(0 : Fin 4)]).key = 0 ∧
        bitOf s.nv.fuses 3 = false ∧
        (s.dev.fw.slots[(0 : Fin 4)]).rollback < s.dev.fw.floor) ∧
    (let s := ({ booting with nv := { booting.nv with fuses := 8 } } : State);
      (s.dev.fw.slots[(0 : Fin 4)]).st = .valid ∧
        (¬ ((s.dev.fw.slots[(0 : Fin 4)]).key = 0 ∧ bitOf s.nv.fuses 3 = false))) ∧
    (let s := on { booting.dev with control := { booting.dev.control with stuck := true } };
      s.dev.control.stuck = true) ∧
    (let s := on { booting.dev with control := { booting.dev.control with due := [(5, 0)] } };
      s.dev.control.due ≠ []) ∧
    (let s := on { booting.dev with ledger := { booting.dev.ledger with scanDone := false } };
      s.dev.ledger.scanDone = false) ∧
    (let s := on { live.dev with fw := { live.dev.fw with slots := (live.dev.fw.slots.set 1 { live.dev.fw.slots[1] with st := .verifying, data := List.replicate 300 1, erase := 0, pages := 1 }).set 3 { live.dev.fw.slots[3] with st := .verifying, data := [1], erase := 0, pages := 1 } } };
      (s.dev.fw.slots[(1 : Fin 4)]).st = .verifying ∧
        flashOwed (s.dev.fw.slots[(1 : Fin 4)]) = true ∧
        flashOwed (s.dev.fw.slots[(3 : Fin 4)]) = false) ∧
    (let s := supply .recovering fun u => { u with recoverFrom := some 7 };
      (supply .running id).dev.supply.st = .running ∧
        (supply .warning id).dev.supply.st = .warning ∧
        (supply .reset id).dev.supply.st = .reset ∧
        s.dev.supply.st = .recovering ∧
        s.dev.supply.recoverFrom = some 7 ∧
        (∀ x, s.dev.portN.sdo = some x → x.waits = none) ∧
        bitOf (rd live.dev oSlateSrcEn []) 6 = true ∧
        (portTxn (preparing id).dev .n 1).st = .preparing ∧
        (portTxn (committed stale 2).dev .n 1).st = .committed ∧
        (portTxn (committed stale 2).dev .n 1).commitAt = (committed stale 2).dev.now ∧
        (portTxn (txn fun t => { t with st := .committed, commitAt := 5 }).dev .n 1).st = .committed ∧
        (portTxn (txn fun t => { t with st := .committed, commitAt := 5 }).dev .n 1).commitAt ≠ (txn fun t => { t with st := .committed, commitAt := 5 }).dev.now) ∧
    (State.reset.dev.ledger.program = none ∧
        live.dev.ledger.scanDone = false ∧
        programmed live.dev = none ∧
        programmed (appending true).dev = some append0 ∧
        (appending true).dev.ledger.scanDone = true) ∧
    (let s := ({ State.reset with dev := { State.reset.dev with ledger := { State.reset.dev.ledger with program := some (calRec 0xFF 0, 1) } } } : State);
      s.dev.supply.released = false ∧
        s.dev.ledger.program = some (calRec 0xFF 0, 1)) ∧
    (rd (put oTrkMode 0 [5] live).dev oTrkMode [5] = 0 ∧
        rd (put oTrkMode 1 [5] live).dev oTrkMode [5] = 1 ∧
        rd (put oTrkMode 2 [5] live).dev oTrkMode [5] = 2 ∧
        (live.dev.ch 5).src.st = .off ∧
        ((onSrc fun x => { x with st := .running }).dev.ch 5).src.st ≠ .off ∧
        ((onSrc fun x => { x with st := .running }).dev.ch 5).src.st ≠ .tripped) := by
  repeat' apply And.intro
  all_goals first | decide +kernel | rfl

/-- A capture whose body is a list. -/
def entryOf (body : List Byte) : SlateEntry := ⟨1, 2, 3, 4, 0x7F, 0, 0, body⟩
def slate (f : Slate → Slate) : State := on { live.dev with slate := f live.dev.slate }
def ringGrant (s : State) : State := on { s.dev with arb := { s.dev.arb with units := [⟨0x90, [⟨0xA000, 0, 0, 0, false, false, none⟩], [], 0⟩] } }

/-- A trigger that waits, and the device at its capture. -/
def triggered (f : Slate → Slate) : State := slate fun x => f { x with triggers := [⟨1, 5, 0⟩] }
def atCapture (s : State) : Dev := settleDue s.nv ⟨5, 0, 1⟩ [] s.dev


theorem wit_Slates :
    (Live live ∧
        bitOf (rd live.dev oSlateInEdge []) 0 = false ∧
        bitOf (rd live.dev oSlateSrcEn []) 0 = true ∧
        bitOf (rd live.dev oSlateSrcEn []) 1 = true ∧
        bitOf (rd (put oSlateSrcEn 0 [] live).dev oSlateSrcEn []) 0 = false ∧
        Served live .n oSlateNow ∧
        Served live .n oSlateAt ∧
        Served live .n oSlateChain ∧
        posLater (1 : Pos).toNat (ctlPos live.dev) = true ∧
        posLater (0xFFFFFFFFFFFFFFFF : Pos).toNat (ctlPos live.dev) = false) ∧
    (let s := put oSlateAt 9 [] live;
      rd live.dev oSlateAt [] = 0 ∧
        rd s.dev oSlateAt [] ≠ 0 ∧
        (reachTick s.dev.cad.recs 9).isSome = true ∧
        (reachTick live.dev.cad.recs 0).isSome = true ∧
        reachTick (put oSlateAt (2 ^ 62) [] live).dev.cad.recs (2 ^ 62) = none) ∧
    (let s := onZh fun z => { z with slate := some ⟨9, 0⟩ };
      hopOf live.dev = 0 ∧
        (¬ (posLater (2 ^ 33) (ctlPos live.dev) = false ∨ tickNear live.dev.cad.recs (2 ^ 33) < live.dev.now + 245760)) ∧
        live.dev.zh.slate = none ∧
        s.dev.zh.slate = some ⟨9, 0⟩ ∧
        s.dev.zh.slate.isSome = true ∧
        (onZh fun z => { z with slate := some ⟨2 ^ 62, 0⟩ }).dev.zh.slate = some ⟨2 ^ 62, 0⟩ ∧
        reachTick live.dev.cad.recs (2 ^ 62) = none) ∧
    (let s := triggered id;
      let z := (atCapture (triggered id)).slate;
      nextCapture s.dev.slate.triggers = some 5 ∧
        (⟨1, 5, 0⟩ : Trigger) ∈ z.triggers ∧
        (∀ h ∈ z.triggers, 5 ≤ h.tick) ∧
        z.held.length < 2 ∧
        z.parts = [] ∧
        bitOf (rd (atCapture s) oSlateLock []) 0 = false) ∧
    (let s := triggered fun x => { x with held := [entryOf [], entryOf []] };
      2 ≤ (atCapture s).slate.held.length ∧
        nextCapture s.dev.slate.triggers = some 5 ∧
        (∀ i, i < 16 → bitOf (rd (put oSlateLock 0xFFFF [] live).dev oSlateLock []) i = true)) ∧
    (let s := ringGrant (slate fun x => { x with held := [entryOf (List.replicate 4344 0)] });
      s.dev.slate.held = entryOf (List.replicate 4344 0) :: [] ∧
        s.dev.control.running = true ∧
        (∃ g ∈ (sharedOf s.dev 0x90).grants, clsOf g.id = 10) ∧
        (∀ i ∈ s.dev.slate.ring.map Prod.fst, i < 16) ∧
        bitOf (rd s.dev oSlateLock []) 15 = false ∧
        (∀ k : Die, (s.dev.dies[k]).link.st = .active) ∧
        (∀ k : Die, bitOf (entryOf (List.replicate 4344 0)).mask (k.val + 1) = true) ∧
        (entryOf (List.replicate 4344 0)).body.length = 4344 ∧
        (onLink 5 fun l => { l with st := .lost }).dev.dies[(5 : Die)].link.st ≠ .active ∧
        bitOf ({ entryOf [] with mask := 1 } : SlateEntry).mask 1 = false) ∧
    (let s := ringGrant (slate fun x => { x with held := [entryOf [], { entryOf [] with seq := 2 }] });
      let e := entryOf [];
      let rest := [{ entryOf [] with seq := 2 }];
      s.dev.slate.held = e :: rest ∧
        rest ≠ [] ∧
        bitOf (rd s.dev oSlateLock []) 15 = false) := by
  repeat' apply And.intro
  all_goals first | decide +kernel | rfl

/-- `live` with dues of the Control die, and with a restart in progress. -/
def dues (l : List (Nat × Nat)) : State := on { live.dev with control := { live.dev.control with due := l } }
def restarting (cause : Nat) (f : Firmware → Firmware) : State := on { live.dev with
  control := { live.dev.control with restart := some ⟨cause, 0⟩, running := false }
  fw := f live.dev.fw }

/-- Marked words of a code RAM, one that reloads and one that cannot. -/
def marks : State := onFw fun w => { w with rams := w.rams.set 0 { w.rams[0] with marked := [(true, 1, false), (false, 2, true)] } }

/-- `live` without the services of die 5. -/
def noService : State := onDie 5 fun d => { d with services := { d.services with map := 0 } }


theorem wit_ContinuousService :
    (let s := live;
      Live s ∧
        LinkUp s 5 ∧
        serviceRuns s.dev 5 1 = true ∧
        serviceRuns s.dev 5 5 = true ∧
        (s.dev.dies[(5 : Die)]).corr < 2 ^ 32 ∧
        rd s.dev oEccCorrected [4 * 5 + 3] < 2 ^ 32 ∧
        rd s.dev oCtrlEccCorr [] < 2 ^ 32 ∧
        s.dev.arb.units = [] ∧
        (onLink 5 fun l => { l with st := .lost }).dev.dies[(5 : Die)].link.st = .lost ∧
        serviceRuns noService.dev 5 1 = false ∧
        serviceRuns noService.dev 5 5 = false) ∧
    (let s := queued 0;
      Ch.die 5 = 1 ∧
        511 < 512 ∧
        1 ≤ 511 ∧
        descDepth (qFind (s.dev.ch 5).queues 511).desc ≠ 0 ∧
        1 < (qFind (s.dev.ch 5).queues 511).recs.length) ∧
    (let s := live;
      (5 : Ch).val = 4 * (1 : Die).val + (1 : Fin 4).val ∧
        8191 < 8192 ∧
        bankState (s.dev.ch 5).seq (1 : Fin 2).val ≠ .playing ∧
        (3 : Fin 5) ≠ 4 ∧
        s.dev.control.running = true ∧
        s.dev.control.restart = none) ∧
    (let e := entryOf (List.replicate 4344 1);
      let s := slate fun x => { x with held := [e] };
      s.dev.slate.held = [e] ∧
        4343 < e.body.length ∧
        e.body.length = 4344) ∧
    (let l := List.replicate 384 (1 : Byte);
      let s := slate fun x => { x with parts := [(7, (5 : Die).val, l)], ring := [(3, { entryOf [] with seq := 7 }), (4, { entryOf [] with seq := 8 })] };
      s.dev.slate.held = [] ∧
        s.dev.slate.parts = [(7, (5 : Die).val, l)] ∧
        l.length = 384 ∧
        383 < 384) ∧
    (let s := on { live.dev with control := { live.dev.control with running := false, booted := false } };
      (s.dev.control.running = true ∨ s.dev.control.booted = false) ∧
        s.dev.control.restart = none) ∧
    (let s := onSup fun u => { u with overtemp := true };
      s.dev.supply.overtemp = true) ∧
    ((∀ e ∈ (live.dev.fw.rams[(0 : Die)]).marked, e.2.2 = false) ∧
        marks.dev.fw.rams[(0 : Die)].marked = [(true, 1, false)] ++ (false, 2, true) :: [] ∧
        (∀ f ∈ [(true, 1, false)], f.2.2 = false)) ∧
    (let s := dues [(6, 0), (5, 1)];
      Served live .n oRestartReq ∧
        live.dev.control.stuck = false ∧
        (dues [(6, 0)]).dev.control.restart = none ∧
        (0xA55B : BitVec 16) ≠ 0xA55A ∧
        s.dev.control.due = [(6, 0)] ++ (causeCode .ecc, 1) :: [] ∧
        (∀ e ∈ [((6 : Nat), 0)], e.1 ≠ causeCode .ecc) ∧
        s.dev.supply.warning = false ∧
        s.dev.control.restart = none ∧
        s.dev.ref.comparison = none ∧
        (∀ e ∈ s.dev.control.due, e.1 ≠ causeCode .core) ∧
        LinkUp s 0) ∧
    (let s := restarting 7 id;
      s.dev.control.restart = some ⟨7, 0⟩ ∧
        s.dev.fw.running = s.dev.fw.confirmed ∧
        (s.dev.fw.slots[(0 : Fin 4)]).st = .valid ∧
        (restarting 5 id).dev.control.restart = some ⟨5, 0⟩ ∧
        5 ≠ 7) ∧
    (let s := on { (restarting 5 id).dev with control := { (restarting 5 id).dev.control with stuck := true } };
      s.dev.control.stuck = true) ∧
    (let s := on { (restarting 5 fun w => { w with floor := 3, slots := w.slots.set 0 { w.slots[0] with rollback := 3 } }).dev with control := { (restarting 5 id).dev.control with booted := false } };
      s.dev.control.restart = some ⟨5, 0⟩ ∧
        s.dev.control.booted = false ∧
        (s.dev.fw.slots[(0 : Fin 4)]).key = 0 ∧ bitOf s.nv.fuses 3 = false ∧
        s.dev.fw.floor ≤ (s.dev.fw.slots[(0 : Fin 4)]).rollback) ∧
    (let s := on { (restarting 5 fun w => { w with floor := 4, slots := w.slots.set 0 { w.slots[0] with rollback := 3 } }).dev with control := { (restarting 5 id).dev.control with booted := false } };
      s.dev.control.booted = false ∧
        (¬ s.dev.fw.floor ≤ (s.dev.fw.slots[(0 : Fin 4)]).rollback)) ∧
    (let s := on { (restarting 5 id).dev with ledger := { live.dev.ledger with scanDone := true } };
      s.dev.ledger.scanDone = true ∧
        s.dev.control.restart = some ⟨5, 0⟩) ∧
    (let s := restarting 2 fun w => { w with running := 1 };
      s.dev.control.restart = some ⟨2, 0⟩ ∧
        s.dev.fw.running ≠ s.dev.fw.confirmed ∧
        (s.dev.fw.slots[(1 : Fin 4)]).st ≠ .valid ∧
        ((onLink 0 fun l => { l with st := .lost, announced := true }).dev.dies[(0 : Die)]).link.announced = true ∧
        (restarting 2 id).dev.control.restart = some ⟨2, 0⟩) := by
  repeat' apply And.intro
  all_goals first | decide +kernel | rfl

theorem wit_CounterClears :
    (Served live .n oFabricClear ∧
        (63 : BitVec 8).toNat < 64 ∧
        Served live .n oReelCounterClear ∧
        (7 : BitVec 8).toNat < 8 ∧
        LinkUp live (Ch.die 23) ∧
        Served live .n oSrcCounterClear ∧
        (127 : BitVec 8).toNat < 128 ∧
        Served live .n oArrCounterClear ∧
        live.dev.ref.comparison = none ∧
        (31 : BitVec 8).toNat < 32 ∧
        Served live .n oTakeCounterClear ∧
        bitOf (7 : BitVec 8).toNat 3 = false ∧
        Served live .n oLoopCounterClear ∧
        Served live .n oSeqCounterClear ∧
        Served live .n oGuardCounterClear ∧
        (15 : BitVec 8).toNat < 16 ∧
        Served live .n oChFault ∧
        (1023 : BitVec 16).toNat < 1024 ∧
        standing live.dev 5 = 0 ∧
        standing (onMon fun y => { y with hard := some 0 }).dev 5 ≠ 0 ∧
        Served live .n oArbClear ∧
        Served live .n oPortnCounterClear ∧
        Served live .n oSlateCounterClear ∧
        (1 : BitVec 8).toNat < 2 ∧
        Served live .n oSupplyCounterClear ∧
        (3 : BitVec 8).toNat < 4 ∧
        Served live .n oDieCounterClear) := by
  repeat' apply And.intro
  all_goals first | decide +kernel | rfl

theorem wit_StepRunsFront : State.reset.pending = [] := rfl

/-- One command of each class of O59: one that may not be refused, one that may. -/
theorem wit_StepKeeps : step live = .next (live.acts { live.dev with now := live.dev.now + 1 }) ∧ ledgerInv { live.nv with used := 0 } ∧
    mayReserve .idcode = false ∧ mayReserve .debug = false ∧ mayReserve (.chFaultClear .n 0 1024) = true :=
  ⟨rfl, ⟨trivial, Nat.zero_le _⟩, rfl, rfl, rfl⟩

theorem wit_ResetMeets : Instr.idcode ≠ .powerUpRelease ∧ Instr.idcode ≠ .dieRailRemoval ∧ ∀ n, Instr.idcode ≠ .resetGndClamp n :=
  ⟨by decide, by decide, by intro n h; cases h⟩


/-! ### Values of the manual's worked examples -/

/-- The next device, where a command completes. -/
def next? (i : Instr) (s : State) : Option Dev :=
  match exec i s with
  | .next t => some t.dev
  | .fault _ => none
  | .refused _ => none

/-- Chapter 0: 0.25 of a cycle of 50.000 Hz is 1228800 ticks. -/
theorem test_position_50Hz : stampOf [⟨1200, 0, 1258291200⟩] 0x000004B040000000 = some (1228800 * 256) := by decide +kernel

/-- Chapter 0: at 51.000 Hz it is 1204705 ticks and 225/256. -/
theorem test_position_51Hz : stampOf [⟨1200, 0, 1233618823⟩] 0x000004B040000000 = some (1204705 * 256 + 225) := by decide +kernel

/-- Chapter 2: the last slewed cycle is shortened by what is left, 14 units (here at a slew of a whole number of units, 251658). -/
theorem test_relock_last_cycle :
    (relockRecord (put oSlewLimit 200 [] (onCad fun c => { c with lSrc := 1258290000, corrLeft := 14 })).dev).2 = 1258290000 - 14 := by decide +kernel

/-- Chapter 3: the increment of a 1 kHz sine at H = 20. -/
theorem test_sine_increment : sineInc (put oSineMode 1 [6] (put oSineRatioNum 20 [6] (put oSineRatioDen 1 [6] live))).dev 6 = 11453246123 := by
  decide +kernel

/-- Chapter 4: a range change in Pipeline mode at A = 100 cycles marks 7 takes. -/
theorem test_invalid_takes :
    (let s := put oArrMode 1 [5, 0] (put oAperture (100 * 2 ^ 30) [5, 0] live);
      invalidRemain (arrOf (markRun 5 .vm (settleTicks .vm ⟨0, 2, 2, 0⟩ ⟨0, 1, 2, 0⟩ false) s.dev) 5 .vm) = 7) ∧
    (let s := put oArrMode 0 [5, 0] (put oAperture (100 * 2 ^ 30) [5, 0] live);
      invalidRemain (arrOf (markRun 5 .vm (settleTicks .vm ⟨0, 2, 2, 0⟩ ⟨0, 1, 2, 0⟩ false) s.dev) 5 .vm) = 2) := by decide +kernel

/-- Chapter 4: an urgent request at tick 99020 runs from 99532 to 104448. -/
theorem test_urgent_times :
    ((next? (.urgentRequestArrival 5 .vm) (on { (onArr fun x => { x with st := .running, urgentReqs := [.object], slots := [slot0] }).dev with now := 99020 })).map
      fun d => (arrOf d 5 .vm).urgent) = some (some ⟨0, 99532 * 256, 104448 * 256⟩) := by decide +kernel

/-- Chapter 5: the descriptor 0x0001_5400_0000_0000 is DEPTH 1 granule, STREAM 5, discard-old, CONSUMER 0, and queue 1 of channel 4 is 2049. -/
theorem test_descriptor :
    descDepth 0x0001540000000000 = 16 ∧ descStream 0x0001540000000000 = 5 ∧ descDiscardOld 0x0001540000000000 = true ∧
      descConsumer 0x0001540000000000 = 0 ∧ descCompanion 0x0001540000000000 = false := by decide +kernel

/-- Chapter 6: the slew of one period at m = 4, and the ticks of the law with six biquads. -/
theorem test_loop_numbers :
    (loopPeriod (put oLoopRate 4 [0] live).dev 0 = 2560 ∧ 134217728 * 2560 * 25 / 6144 = 1398101333) ∧ lawNeed 6 = 144 ∧
      usTicks 31 = 7619 ∧ usTicks 32 = 7865 := by decide +kernel

/-- Chapter 6: the ramp of 12359215838 at 134217728 a µs takes 22860 ticks. -/
theorem test_safe_ramp :
    ((next? (.loopPeriodBoundary 0) (put oSlewMax 134217728 [0, 0] (put oLoopRate 4 [0] (put oSafeHoldUs 1000 [0] (on (updCh 0 (fun c => { c with loop := { c.loop with st := .primary, owed := true, frozenFound := true, uOut := 12359215838 }, src := { c.src with st := .running } }) live.dev)))))).bind
      fun d => (d.ch 0).src.safe.map SafeRamp.clocks) = some 2286 := by decide +kernel

/-- Chapter 7: the code of −1 V is 0xF3_3333_3333 as V0 of a CONST entry. -/
theorem test_course_code : courseCode (1 * 2 ^ 253 + 0xF333333333 * 2 ^ 212) 0 0 0 = -54975581389 := by decide +kernel

/-- Chapter 8: code 3376 lies in the upper band of TH_HI 3381 and HYST 8. -/
theorem test_init_in_band :
    ((next? (.monitorFirstDecision 5 0 (3376 * 65536)) (put oThHi 3381 [5, 0] (put oThLo 715 [5, 0] (put oHyst 8 [5, 0]
        (onMon fun y => { y with st := .starting, decided := .undecided }))))).map
      fun d => ((monOf d 5 0).decided, (monOf d 5 0).inBand)) = some (.inside, true) := by decide +kernel

/-- Chapter 9: the drift of three comparisons, −0.75 ppm a year; Ledger object 0x33C0:04 is channel 3's. -/
theorem test_drift_slope :
    (driftFit [(15778800000, -1000, 1200), (31557600000, -4500, 1200), (47336400000, -8500, 1200)] 63115200000).1 = -750000 := by decide +kernel

/-- Chapter 11: 0x6800:12 is Q_FILL_13, and channel 13 stands on Channel die 3. -/
theorem test_addresses : objDie 0x3D00 = 4 ∧ pdoBits 0x6800 0x12 = some 16 ∧ pdoOf 0x160D = 0x70D0 ∧ pdoOf 0x1A0D = 0x60D0 ∧ Ch.die 13 = 3 := by
  decide +kernel

/-- Chapter 13: a dip from tick 492 to 1228800 slips 4 ms. -/
theorem test_slip_ms :
    ((next? .supplyRecoveryComplete (onSup fun u => { u with st := .recovering, warning := true, warnAt := 492, recoverFrom := some (1228800 - 245760) })).map
      fun d => rd d oSlipTotalMs []) = some 4 := by decide +kernel

/-! ### Balls (14 R403 to R407) -/

/-- The worked lookups of chapter 14. -/
theorem test_ball_lookups :
    (Signal.ch 13 .senseHi).ball = some ⟨25, 40⟩ ∧ (Ball.mk 25 40).name = "AF40" ∧
    (Signal.ch 22 (.rangeSel 5)).ball = some ⟨33, 20⟩ ∧ (Ball.mk 33 20).name = "AP20" ∧
    (Signal.vec 4 17).ball = some ⟨6, 28⟩ ∧ (Ball.mk 6 28).name = "F28" ∧
    (Signal.ch 0 .forceOut).ball = some ⟨2, 4⟩ ∧ (Ball.mk 2 4).name = "B4" := by decide +kernel

/-- The counts of Table 14.1: GND 316, AGND 388, DNC 9, VSYS 16, AVP and AVN 12, VIO 8. -/
theorem test_ball_counts :
    balls.length = 1600 ∧ balls.countP (fun b => decide (b.signal = .gnd)) = 316 ∧ balls.countP (fun b => decide (b.signal = .agnd)) = 388 ∧
    balls.countP (fun b => decide (b.signal = .dnc)) = 9 ∧ balls.countP (fun b => decide (b.signal = .supply .vsys)) = 16 ∧
    balls.countP (fun b => decide (b.signal = .supply .avp)) = 12 ∧ balls.countP (fun b => decide (b.signal = .supply .avn)) = 12 ∧
    balls.countP (fun b => decide (b.signal = .supply .vio)) = 8 := by decide +kernel

/-- The balls that carry a signal are as many as the counts of Table 14.1 give (R403): 839. -/
theorem test_ball_signals :
    (balls.map Ball.signal).countP (fun x => decide (x.direction ≠ .noDirection)) = 839 := by decide +kernel

end Sys2Proof.Tests
end

section
/-! SUPPORT. What one step does with the queue of commands (R12, log 1), and O58. -/

namespace Sys2Proof.Machine

/-- Waiting for a tick is the command whose only effect is that the tick passes: what follows every command (R345, R347) follows it too. -/
theorem idle_eq_acts (s : State) : idle s = s.acts { s.dev with now := s.dev.now + 1 } := rfl

theorem step_of_pending_nil {s : State} (h : s.pending = []) : step s = .next (s.acts { s.dev with now := s.dev.now + 1 }) := by
  unfold step
  rw [h, ← idle_eq_acts]

theorem step_of_pending_cons {s : State} {c : Instr} {rest : List Instr} (h : s.pending = c :: rest) : step s = exec c (s.behind rest) := by
  unfold step
  rw [h]

/-- The queue that a command runs behind does not depend on what the queue was before. -/
@[simp] theorem behind_withPending (s : State) (queue rest : List Instr) : State.behind { s with pending := queue } rest = { s with pending := rest } := rfl

/-- Settles O58: the front of the queue decides which of the two equations of `step` applies. -/
theorem stepRunsFront : Obligations.StepRunsFront := by
  refine ⟨fun s c rest => ?_, fun s hempty => step_of_pending_nil hempty⟩
  have hfront : ({ s with pending := c :: rest } : State).pending = c :: rest := rfl
  rw [step_of_pending_cons hfront, behind_withPending]

end Sys2Proof.Machine
end

section
/-! SUPPORT. Dies and channels rewritten: what a read of one finds after a rewrite, and rewrites in turn. -/

namespace Sys2Proof.Machine

/-- A command that acts on the released device completes with what it makes of the device. -/
theorem completes_of_onDev {i : Instr} {s : State} {f : Dev → Host.Outcome Dev Fault Refusal} {d : Dev} (hi : exec i s = onDev s f) (h : Live s)
    (hf : f s.dev = .next d) : Completes i s d := hi.trans (onDev_acts h hf)

/-! ### One die, one channel -/

theorem updDie_die_self (k : Die) (f : DieState → DieState) (s : Dev) : (updDie k f s).dies[k] = f s.dies[k] := by simp [updDie]

theorem updDie_die_of_ne {k j : Die} (f : DieState → DieState) (s : Dev) (h : j ≠ k) : (updDie k f s).dies[j] = s.dies[j] := by
  have hval : k.val ≠ j.val := fun e => h (Fin.ext e.symm)
  simp [updDie, Vector.getElem_set_ne, hval]

theorem updCh_ch_self (n : Ch) (f : Chan → Chan) (s : Dev) : (updCh n f s).ch n = f (s.ch n) := by simp [updCh, Dev.ch]

theorem updCh_ch_of_ne {n m : Ch} (f : Chan → Chan) (s : Dev) (h : m ≠ n) : (updCh n f s).ch m = s.ch m := by
  have hval : n.val ≠ m.val := fun e => h (Fin.ext e.symm)
  simp [updCh, Dev.ch, Vector.getElem_set_ne, hval]

/-- A rewrite that gives a die back as it was changes nothing. -/
theorem updDie_eq_self {k : Die} {f : DieState → DieState} {s : Dev} (h : f s.dies[k] = s.dies[k]) : updDie k f s = s := by
  unfold updDie
  rw [h]
  simp

theorem updCh_eq_self {n : Ch} {f : Chan → Chan} {s : Dev} (h : f (s.ch n) = s.ch n) : updCh n f s = s := by
  unfold Dev.ch at h
  unfold updCh
  rw [h]
  simp

theorem updDie_congr {k : Die} {f g : DieState → DieState} {s : Dev} (h : f s.dies[k] = g s.dies[k]) : updDie k f s = updDie k g s := by
  unfold updDie
  rw [h]

theorem updDie_updDie (k : Die) (f g : DieState → DieState) (s : Dev) : updDie k f (updDie k g s) = updDie k (fun d => f (g d)) s := by
  simp [updDie]

/-! ### Links -/

theorem updLink_link_self (k : Die) (f : Link → Link) (s : Dev) : (updLink k f s).dies[k].link = f s.dies[k].link :=
  congrArg DieState.link (updDie_die_self k _ s)

theorem updLink_die_of_ne {k j : Die} (f : Link → Link) (s : Dev) (h : j ≠ k) : (updLink k f s).dies[j] = s.dies[j] :=
  updDie_die_of_ne _ s h

theorem updLink_updLink (k : Die) (f g : Link → Link) (s : Dev) : updLink k f (updLink k g s) = updLink k (fun l => f (g l)) s :=
  updDie_updDie k _ _ s

theorem updLink_congr {k : Die} {f g : Link → Link} {s : Dev} (h : f s.dies[k].link = g s.dies[k].link) : updLink k f s = updLink k g s :=
  updDie_congr (by rw [h])

/-- A link that enters another state than its own is logged (Table 11.9). -/
theorem linkEnter_of_ne {k : Die} {st : LinkState} {s : Dev} (h : s.dies[k].link.st ≠ st) :
    linkEnter k st s = logEvent 0x04 k (linkCode st) (updLink k (fun l => { l with st := st }) s) := by
  unfold linkEnter
  rw [if_neg h]

/-! ### Every die, every channel -/

/-- A rewrite of each die of a list, none of them twice: each is rewritten as it stood, the others stay, and so does the rest of the device. -/
theorem foldl_updDie (g : Die → DieState → DieState) (l : List Die) (hl : l.Nodup) (s : Dev) :
    ∃ v, l.foldl (fun s k => updDie k (g k) s) s = { s with dies := v } ∧
      ∀ j : Die, v[j] = if j ∈ l then g j s.dies[j] else s.dies[j] := by
  induction l generalizing s with
  | nil => exact ⟨s.dies, rfl, fun j => rfl⟩
  | cons k l ih =>
    obtain ⟨hk, hl⟩ := List.nodup_cons.mp hl
    obtain ⟨v, hv, hd⟩ := ih hl (updDie k (g k) s)
    refine ⟨v, hv, fun j => ?_⟩
    rw [hd j]
    by_cases hj : j = k
    · subst hj
      rw [if_neg hk, if_pos List.mem_cons_self, updDie_die_self]
    · rw [updDie_die_of_ne (g k) s hj]
      simp [hj]

/-- A rewrite of each channel of a list, none of them twice, that may depend on the present tick. -/
theorem foldl_updCh (g : Nat → Ch → Chan → Chan) (l : List Ch) (hl : l.Nodup) (s : Dev) :
    ∃ v, l.foldl (fun s n => updCh n (g s.now n) s) s = { s with chans := v } ∧
      ∀ m : Ch, ({ s with chans := v } : Dev).ch m = if m ∈ l then g s.now m (s.ch m) else s.ch m := by
  induction l generalizing s with
  | nil => exact ⟨s.chans, rfl, fun j => rfl⟩
  | cons n l ih =>
    obtain ⟨hn, hl⟩ := List.nodup_cons.mp hl
    obtain ⟨v, hv, hd⟩ := ih hl (updCh n (g s.now n) s)
    refine ⟨v, hv, fun m => (hd m).trans ?_⟩
    by_cases hm : m = n
    · subst hm
      simp [hn, updCh_ch_self]
    · simp [hm, updCh_ch_of_ne (g s.now n) s hm]

end Sys2Proof.Machine
end

section
/-! SUPPORT. What arrives over a link (01, R36, R41, R42; Table 1.6), and O2. -/

namespace Sys2Proof.Machine

/-! ### Over a link -/

theorem overLink_active {k : Die} {m : LinkMsg} {f : Dev → Dev} {s : Dev} (h : s.dies[k].link.st = .active) : overLink k m f s = f s := by
  unfold overLink
  rw [h]

theorem overLink_retraining {k : Die} {m : LinkMsg} {f : Dev → Dev} {s : Dev} (h : s.dies[k].link.st = .retraining) :
    overLink k m f s = linkHolds k m s := by
  unfold overLink
  rw [h]

theorem overLink_down {k : Die} {m : LinkMsg} {f : Dev → Dev} {s : Dev}
    (h : s.dies[k].link.st = .lost ∨ s.dies[k].link.st = .training ∨ s.dies[k].link.st = .reset) : overLink k m f s = s := by
  unfold overLink
  obtain h | h | h := h <;> rw [h]

/-! ### Delivery -/

/-- A message delivered is what its arrival makes of the device behind the link's rule (R36). -/
theorem fabricMessageDelivered_completes {s : State} {k : Die} {m : FabMsg} {d : Dev} (hlive : Live s)
    (hd : overLink k (.fabric m) (fun s => fabricArrives k m (updLink k (fun l => { l with msgRetry := 0 }) s)) s.dev = d) :
    Completes (.fabricMessageDelivered k m) s d :=
  completes_of_onDev rfl hlive (congrArg Host.Outcome.next hd)

/-- Over an ACTIVE link the retries of the message end with its arrival. -/
theorem fabricMessageDelivered_active {s : State} {k : Die} {m : FabMsg} (hlive : Live s) (hup : LinkUp s k) :
    Completes (.fabricMessageDelivered k m) s (fabricArrives k m (updLink k (fun l => { l with msgRetry := 0 }) s.dev)) :=
  fabricMessageDelivered_completes hlive (overLink_active hup)

theorem fabricArrives_take {n : Ch} {k : Die} (h : n.die = k) (a : ArrId) (w q : Word64) (s : Dev) :
    fabricArrives k (.take n a w q) s = takeKept n a w.toNat q.toNat s := if_pos h

theorem fabricArrives_code {n : Ch} {k : Die} (h : n.die = k) (v : BitVec 40) (s : Dev) :
    fabricArrives k (.code n v) s = wr s oSrcCode v.toNat [n] := if_pos h

theorem fabricArrives_setpoint {n : Ch} {k : Die} (h : n.die = k) (v : BitVec 40) (s : Dev) :
    fabricArrives k (.setpoint n v) s = loopSpWrite n v.toNat s := if_pos h

theorem fabricArrives_record {n : Ch} {k : Die} (h : n.die = k) (q : Nat) (s : Dev) :
    fabricArrives k (.record n q) s = queueForward n q s := if_pos h

/-- The setpoint written is the one read back (R183). -/
theorem rd_loopSpWrite (n : Ch) (v : BitVec 40) (s : Dev) : rd (loopSpWrite n v.toNat s) oLoopSp [n] = v.toNat :=
  calc rd (loopSpWrite n v.toNat s) oLoopSp [n] = rd (wr s oLoopSp v.toNat [n]) oLoopSp [n] := rd_of_objs _ _ _ _ rfl
    _ = v.toNat % 2 ^ 40 := rd_wr_same s oLoopSp v.toNat [n]
    _ = v.toNat := Nat.mod_eq_of_lt v.isLt

theorem updLoop_eq_self {n : Ch} {f : Loop → Loop} {s : Dev} (h : f (s.ch n).loop = (s.ch n).loop) : updLoop n f s = s :=
  updCh_eq_self (f := fun c => { c with loop := f c.loop }) (by rw [h])

/-- Without a range change under way no write of a loop object waits. -/
theorem loopWaitsNot_of_no_xover {n : Ch} {s : Dev} (h : (s.ch n).loop.xover = none) (key : Nat) : loopWaitsNot n key s = s :=
  updLoop_eq_self (f := fun l => { l with xover := l.xover.map fun x => { x with writes := x.writes.filter fun e => e.1 != key } })
    (by rw [h, Option.map_none, ← h])

/-- The Control die keeps one take of an array, the one that came last (Table 1.10). -/
theorem takeKept_takes (n : Ch) (a : ArrId) (w q : Nat) (s : Dev) :
    ∃ rest, (takeKept n a w q s).portN.takes = (2 * n.val + a.idx, w, q) :: rest ∧
      ∀ e ∈ rest, e ∈ s.portN.takes ∧ e.1 ≠ 2 * n.val + a.idx := by
  refine ⟨_, rfl, fun e he => ?_⟩
  simpa using he

/-- Settles O2: the three rules of a link (ACTIVE, RETRAINING, down) with one equation for each message that arrives. -/
theorem fabricDelivery : Obligations.FabricDelivery := by
  intro s k n hlive hn b
  refine ⟨fun hup => ?_, fun m hretrain => ?_, fun m hdown => ?_⟩
  · have arrives : ∀ m, Completes (.fabricMessageDelivered k m) s (fabricArrives k m b) := fun m => fabricMessageDelivered_active hlive hup
    refine ⟨fun v => ?_, fun v => ⟨?_, rd_loopSpWrite n v b, fun hx => ?_⟩, fun a w q => ?_, fun q => ?_, fun p i => arrives _,
      fun p i => arrives _⟩
    · exact fabricArrives_code hn v b ▸ arrives (.code n v)
    · exact fabricArrives_setpoint hn v b ▸ arrives (.setpoint n v)
    · exact loopWaitsNot_of_no_xover (s := wr b oLoopSp v.toNat [n]) hx _
    · exact ⟨_, fabricArrives_take hn a w q b ▸ arrives (.take n a w q), takeKept_takes n a w.toNat q.toNat b, rfl, rfl⟩
    · exact fabricArrives_record hn q b ▸ arrives (.record n q)
  · exact fabricMessageDelivered_completes hlive (overLink_retraining hretrain)
  · exact fabricMessageDelivered_completes hlive (overLink_down hdown)

end Sys2Proof.Machine
end

section
/-! SUPPORT. Requests for objects whose own chapter adds no check (R332): the limits of the dictionary decide, and a direct write that passes is
done. -/

namespace Sys2Proof.Machine

/-! ### Checks -/

/-- The objects whose values are checked beyond the limits of the dictionary (R332, check 6). -/
def checkedRows : List Row :=
  [oDlOffset, oGrace, oBlank, oAuxSel, oAction, oCutSrc, oHostHold, oHeadMap, oCrrSel, oIrqMask, oQueueFlush, oKeystone,
    oLoopFault, oIrqStatus, oOutSyncType, oInShift]

/-- A row of a fixed size that is written directly and whose values only its limits bound. -/
structure PlainRow (r : Row) : Prop where
  sized : r.size ≠ 0
  direct : r.acc ≠ .rk
  unchecked : (checkedRows.any fun o => rowIs r o) = false

theorem PlainRow.lengthOk {r : Row} (h : PlainRow r) {n : Nat} (hn : n = r.size) : lengthOk r n = true := by
  unfold Machine.lengthOk
  rw [if_pos h.sized, hn]
  exact beq_self_eq_true _

theorem PlainRow.valueCheck {r : Row} (h : PlainRow r) {data : List Byte} (hlim : limitCheck r (ofBytes data) = .ok) (ix sub : Nat) :
    valueCheck r ix sub data = .ok := by
  have hu := h.unchecked
  simp only [checkedRows, List.any_cons, List.any_nil, Bool.or_eq_false_iff] at hu
  simp [Machine.valueCheck, h.sized, hu, hlim, firstBad]

theorem PlainRow.directCheck {r : Row} (h : PlainRow r) (s : Dev) (data : List Byte) : directCheck r s data = .ok := by
  have hu := h.unchecked
  simp only [checkedRows, List.any_cons, List.any_nil, Bool.or_eq_false_iff] at hu
  simp [Machine.directCheck, hu]

/-- A write of such an object that passes the checks of R332 has its effect, at whatever moment it acts. -/
theorem PlainRow.writeObj {r : Row} (h : PlainRow r) {nv : Nv} {p : Port} {ix sub : Nat} {data : List Byte} {s t : Dev}
    (hrow : rowOf ix sub = some r) (hopen : portShut nv s p = false) (hmay : mayWrite r p = .ok) (hlen : data.length = r.size)
    (hreach : dieReachable s (objDie ix) = true) (hlim : limitCheck r (ofBytes data) = .ok)
    (hw : directWrite p r ix sub data nv s = (.ok, t)) : writeObj nv p ix sub data s = (.ok, t) := by
  simp [Machine.writeObj, hopen, writeOpen, nameOf_of_rowOf p hrow (right_of_mayWrite hmay), firstBad, hmay, h.lengthOk hlen, reachCheck, hreach,
    h.direct, h.valueCheck hlim, h.directCheck, hw]

/-- An index and a subindex are read back from their key (R331). -/
theorem objKey_place {ix sub : Nat} (hix : ix < 65536) (hsub : sub < 256) : objKey ix sub 0 / 256 % 65536 = ix ∧ objKey ix sub 0 % 256 = sub := by
  unfold objKey
  omega

theorem putKey_of_rowOf {r : Row} {ix sub : Nat} (hrow : rowOf ix sub = some r) (hix : ix < 65536) (hsub : sub < 256) (v : Nat) (s : Dev) :
    putKey (objKey ix sub 0) v s = { s with objs := tabPut s.objs (dfltAt r ix sub) (objKey ix sub 0) (v % 2 ^ (8 * r.size)) } := by
  obtain ⟨hindex, hsubindex⟩ := objKey_place hix hsub
  unfold putKey
  rw [hindex, hsubindex, hrow]

theorem wr_nil (r : Row) (v : Nat) (s : Dev) :
    wr s r v [] = { s with objs := tabPut s.objs (dfltAt r r.ix r.sub) (objKey r.ix r.sub 0) (v % 2 ^ (8 * r.size)) } := by
  have hoff : dimsOff r.dims [] = 0 := by cases r.dims <;> rfl
  unfold wr wrJ keyOf dfltOf
  rw [hoff, Nat.mul_zero, Nat.add_zero, Nat.add_zero]

/-- A plain device object is stored under the one key it has for every port (R331). -/
theorem storeObj_device {r : Row} (hrow : rowOf r.ix r.sub = some r) (hshared : r.perPort = false) (hix : r.ix < 65536) (hsub : r.sub < 256)
    {p : Port} {v : Nat} {s : Dev} : storeObj p r r.ix r.sub v s = wr s r v [] := by
  have hkey : portObjKey p r r.ix r.sub = objKey r.ix r.sub 0 := by
    unfold portObjKey
    rw [hshared]
    rfl
  rw [storeObj, hkey, putKey_of_rowOf hrow hix hsub, wr_nil]

/-- A served port waits for no link but that of the object's die. -/
theorem writeWaits_of_no_hold {s : Dev} {p : Port} {ix sub : Nat} (hport : portHolds s p = none) (hlink : linkWaits s ix = none) :
    writeWaits s p ix sub = none := by
  unfold writeWaits heldAt
  rw [hport]
  simp [hlink]

/-- A served write of such an object, over links that do not hold it, is done. -/
theorem PlainRow.rowRequest {r : Row} (h : PlainRow r) {s : State} {p : Port} {places : List Nat} {data : List Byte} {t : Dev}
    (hserved : Served s p r) (hrow : rowOf (r.ix + dimsOff r.dims places) r.sub = some r) (hlen : data.length = r.size)
    (hreach : dieReachable s.dev (objDie (r.ix + dimsOff r.dims places)) = true)
    (hlink : linkWaits s.dev (r.ix + dimsOff r.dims places) = none) (hlim : limitCheck r (ofBytes data) = .ok)
    (hw : directWrite p r (r.ix + dimsOff r.dims places) r.sub data s.nv s.dev = (.ok, t)) (hfw : t.fw.held = s.dev.fw.held) :
    rowRequest p r places data s = .next (s.acts (done p t)) := by
  obtain ⟨hlive, hserves, hopen, hmay, hport⟩ := hserved
  exact onDev_acts hlive (request_done hrow hserves hopen hmay (h.lengthOk hlen) hreach h.direct (h.valueCheck hlim _ _) (h.directCheck _ _) hw
    (writeWaits_of_no_hold hport hlink) hfw)

/-! ### Data -/

theorem length_leBytes (n v : Nat) : (leBytes n v).length = n := by
  induction n generalizing v with
  | zero => rfl
  | succ n ih => simp [leBytes, ih]

theorem ofBytes_leBytes (n v : Nat) : ofBytes (leBytes n v) = v % 256 ^ n := by
  induction n generalizing v with
  | zero => simp [leBytes, ofBytes, Nat.mod_one]
  | succ n ih =>
    rw [leBytes, ofBytes, ih, BitVec.toNat_ofNat, Nat.pow_succ' (m := 256), Nat.mod_mul]

/-- A value below the reserved bits of a row sets none of them. -/
theorem and_high_eq_zero {v k : Nat} (j : Nat) (h : v < 2 ^ k) : v &&& 2 ^ k * j = 0 := by
  refine Nat.eq_of_testBit_eq fun i => ?_
  rw [Nat.testBit_and, Nat.testBit_two_pow_mul, Nat.zero_testBit]
  by_cases hi : k ≤ i
  · rw [Nat.testBit_lt_two_pow (Nat.lt_of_lt_of_le h (Nat.pow_le_pow_right (by decide) hi)), Bool.false_and]
  · simp [hi]

end Sys2Proof.Machine
end

section
/-! SUPPORT. Retries, trainings and losses of a link (01, R36, R37; Tables 1.5 and 1.6; 02, R63), and O1. -/

namespace Sys2Proof.Machine

/-! ### Retries of a message -/

theorem countUp_one (max v : Nat) : countUp max v 1 = min max (v + 1) := by
  unfold countUp
  split <;> omega

theorem messageRetry_down {s : State} {k : Die} (hlive : Live s) (h : ¬ LinkUp s k) : Completes (.messageRetry k) s s.dev :=
  completes_of_onDev rfl hlive (congrArg Host.Outcome.next (if_neg h))

theorem messageRetry_counts {s : State} {k : Die} (hlive : Live s) (h : LinkUp s k) (hfew : (s.dev.dies[k]).link.msgRetry < 3) :
    Completes (.messageRetry k) s
      (updLink k (fun l => { l with msgRetry := l.msgRetry + 1, retries := min 65535 (l.retries + 1) }) s.dev) := by
  refine completes_of_onDev rfl hlive (congrArg Host.Outcome.next ((if_pos h).trans ((if_pos hfew).trans (updLink_congr ?_))))
  simp only [countUp_one]

theorem messageRetry_retrains {s : State} {k : Die} (hlive : Live s) (h : LinkUp s k) (hmany : 3 ≤ (s.dev.dies[k]).link.msgRetry) :
    Completes (.messageRetry k) s (logEvent 0x04 k 3
      (updLink k (fun l => { l with st := .retraining, msgRetry := 0, fails := 0, retrains := min 255 (l.retrains + 1) }) s.dev)) := by
  refine completes_of_onDev rfl hlive (congrArg Host.Outcome.next ((if_pos h).trans ((if_neg (Nat.not_lt.mpr hmany)).trans ?_)))
  have hst : (s.dev.dies[k]).link.st ≠ .retraining := by
    rw [show (s.dev.dies[k]).link.st = .active from h]
    decide
  rw [linkEnter_of_ne (by rw [updLink_link_self]; exact hst), updLink_updLink]
  exact congrArg _ (updLink_congr (by simp only [countUp_one]))

/-! ### Attempts of a training -/

/-- A training attempt of the link is under way (Table 1.6). -/
def attemptRuns (l : Link) : Prop := l.st = .retraining ∨ l.st = .training ∨ (l.st = .lost ∧ l.retrying = true)

theorem attemptRuns_iff (l : Link) : (l.st = .training || l.st = .retraining || (l.st = .lost && l.retrying)) = true ↔ attemptRuns l := by
  unfold attemptRuns
  cases l.st <;> simp

theorem linkTrainingAttemptEnd_fails {s : State} {k : Die} (r : Bool) (hlive : Live s) (h : attemptRuns (s.dev.dies[k]).link) :
    Completes (.linkTrainingAttemptEnd k none r) s (trainingFails k s.dev) :=
  completes_of_onDev rfl hlive (congrArg Host.Outcome.next (if_pos ((attemptRuns_iff _).mpr h)))

theorem linkTrainingAttemptEnd_succeeds {s : State} {k : Die} {w : BitVec 2} (r : Bool) (hlive : Live s) (h : attemptRuns (s.dev.dies[k]).link)
    (hw : w ≠ 0) (hds0 : serviceGone s.dev k 0 = false) :
    Completes (.linkTrainingAttemptEnd k (some w) r) s (trainingDone s.nv k w r s.dev) := by
  have hgo : ¬ (w = 0 || serviceGone s.dev k 0) = true := by simpa [hds0] using hw
  exact completes_of_onDev rfl hlive (congrArg Host.Outcome.next ((if_pos ((attemptRuns_iff _).mpr h)).trans (if_neg hgo)))

/-! ### A failed attempt -/

/-- The first two failures of a training in progress are counted (Table 1.5). -/
theorem trainingFails_counts {k : Die} {s : Dev} (hst : (s.dies[k]).link.st = .retraining ∨ (s.dies[k]).link.st = .training)
    (hfew : (s.dies[k]).link.fails < 2) :
    trainingFails k s = updLink k (fun l => { l with fails := l.fails + 1, rate8 := l.rate8 && decide (l.fails = 0) }) s := by
  have hrate : decide ((s.dies[k]).link.fails + 1 < 2) = decide ((s.dies[k]).link.fails = 0) := decide_eq_decide.mpr (by omega)
  have hfew3 : ¬ 3 ≤ (s.dies[k]).link.fails + 1 := by omega
  unfold trainingFails
  dsimp only
  rw [updLink_link_self, hrate]
  obtain hst | hst := hst
  all_goals
    simp only [hst, if_neg hfew3]
    exact updLink_congr rfl

/-- A failed attempt of a LOST link ends it: the next comes with its own command (Table 1.6). -/
theorem trainingFails_lost {k : Die} {s : Dev} (hst : (s.dies[k]).link.st = .lost) :
    trainingFails k s = updLink k (fun l => { l with fails := l.fails + 1, rate8 := l.rate8 && decide (l.fails = 0), retrying := false }) s := by
  have hrate : decide ((s.dies[k]).link.fails + 1 < 2) = decide ((s.dies[k]).link.fails = 0) := decide_eq_decide.mpr (by omega)
  unfold trainingFails
  dsimp only
  rw [updLink_link_self, hrate]
  simp only [hst]
  rw [updLink_updLink]
  exact updLink_congr rfl

/-- The third failure in a row of a training in progress loses the link (Table 1.6). -/
theorem trainingFails_third {k : Die} {s : Dev} (hst : (s.dies[k]).link.st = .retraining ∨ (s.dies[k]).link.st = .training)
    (hthird : (s.dies[k]).link.fails = 2) : ∃ f, trainingFails k s = linkLost k (updLink k f s) := by
  unfold trainingFails
  dsimp only
  rw [updLink_link_self, hthird]
  obtain hst | hst := hst
  all_goals
    simp only [hst]
    exact ⟨_, rfl⟩

/-! ### The loss of a link -/

/-- A refusal of what a lost link held reaches its port and the mailbox alone. -/
theorem requestLost_frame (m : LinkMsg) (s : Dev) : ∃ ports portN, requestLost m s = { s with ports := ports, portN := portN } := by
  cases m with
  | request p r =>
    cases r with
    | write sdo whole i j d => cases sdo <;> exact ⟨_, _, rfl⟩
    | read sdo whole i j => cases sdo <;> exact ⟨_, _, rfl⟩
    | seq n v => exact ⟨_, _, rfl⟩
    | peer f => exact ⟨_, _, rfl⟩
  | fabric _ | record | sync _ _ | cut _ | telemetry _ _ _ _ | rx _ _ | prepare _ _ => exact ⟨_, _, rfl⟩

theorem requestLost_dies (m : LinkMsg) (s : Dev) : (requestLost m s).dies = s.dies := by
  obtain ⟨_, _, h⟩ := requestLost_frame m s
  rw [h]

theorem requestLost_chans (m : LinkMsg) (s : Dev) : (requestLost m s).chans = s.chans := by
  obtain ⟨_, _, h⟩ := requestLost_frame m s
  rw [h]

theorem linkEnter_chans (k : Die) (st : LinkState) (s : Dev) : (linkEnter k st s).chans = s.chans := by
  unfold linkEnter
  split <;> rfl

theorem linkEnter_st (k : Die) (st : LinkState) (s : Dev) : (linkEnter k st s).dies[k].link.st = st := by
  by_cases h : s.dies[k].link.st = st
  · rw [linkEnter, if_pos h, h]
  · rw [linkEnter_of_ne h, logEvent_dies, updLink_link_self]

theorem linkEnter_die_of_ne {k j : Die} (st : LinkState) (s : Dev) (h : j ≠ k) : (linkEnter k st s).dies[j] = s.dies[j] := by
  by_cases hst : s.dies[k].link.st = st
  · rw [linkEnter, if_pos hst]
  · rw [linkEnter_of_ne hst, logEvent_dies, updLink_die_of_ne _ s h]

theorem beginExtend_chans (k : Die) (s : Dev) : (beginExtend k s).chans = s.chans := by
  unfold beginExtend
  split <;> rfl

theorem beginExtend_extending (k : Die) (s : Dev) : (beginExtend k s).dies[k].extending = true := by
  unfold beginExtend
  split
  · assumption
  · rw [updDie_die_self]

theorem beginExtend_link (k : Die) (s : Dev) : (beginExtend k s).dies[k].link = s.dies[k].link := by
  unfold beginExtend
  split
  · rfl
  · rw [updDie_die_self]

theorem beginExtend_die_of_ne {k j : Die} (s : Dev) (h : j ≠ k) : (beginExtend k s).dies[j] = s.dies[j] := by
  unfold beginExtend
  split
  · rfl
  · exact updDie_die_of_ne _ s h

/-- A channel whose Sequencer holds for the link of die k where it is of that die (R243). -/
def heldForLink (k : Die) (n : Ch) (c : Chan) : Chan := { c with seq := { c.seq with holdLink := decide (n.die = k) || c.seq.holdLink } }

/-- The Sequencers of a die hold for its link (R243), those of the others do not. -/
theorem linkHold_frame (k : Die) (s : Dev) : ∃ v, linkHold k s = { s with chans := v } ∧ 
    ∀ n : Ch, ({ s with chans := v } : Dev).ch n = heldForLink k n (s.ch n) := by
  obtain ⟨v, hv, hch⟩ := foldl_updCh (fun _ => heldForLink k) (List.finRange 24) (List.nodup_finRange 24) s
  refine ⟨v, ?_, fun n => (hch n).trans (if_pos (List.mem_finRange n))⟩
  rw [← hv]
  refine List.foldl_ext _ _ s fun d n _ => ?_
  by_cases hn : n.die = k
  · rw [if_pos hn]
    exact congrArg (fun f => updCh n f d) (funext fun c => by simp [hn, heldForLink])
  · rw [if_neg hn]
    exact (updCh_eq_self (by simp [hn, heldForLink])).symm

/-- A loss of the link: LOST, the die extends its records, its Sequencers hold; other dies stay. -/
theorem linkLost_effect (k : Die) (s : Dev) :
    (linkLost k s).dies[k].link.st = .lost ∧ (linkLost k s).dies[k].extending = true ∧
      (∀ j : Die, j ≠ k → (linkLost k s).dies[j] = s.dies[j]) ∧
      ∀ n : Ch, (linkLost k s).ch n = heldForLink k n (s.ch n) := by
  unfold linkLost
  dsimp only
  generalize hg : linkEnter k .lost _ = g
  have hst : g.dies[k].link.st = .lost := hg ▸ linkEnter_st k _ _
  have hdies : ∀ j : Die, j ≠ k → g.dies[j] = s.dies[j] := fun j hj => by
    rw [← hg, linkEnter_die_of_ne _ _ hj, updLink_die_of_ne _ _ hj]
  have hchans : g.chans = s.chans := by rw [← hg, linkEnter_chans]; rfl
  generalize hr : List.foldl (fun s m => requestLost m s) g _ = r
  have hrdies : r.dies = g.dies := hr ▸ foldl_keeps Dev.dies _ (fun b m => requestLost_dies m b) _ g
  have hrchans : r.chans = s.chans := hr ▸ (foldl_keeps Dev.chans _ (fun b m => requestLost_chans m b) _ g).trans hchans
  obtain ⟨v, hv, hch⟩ := linkHold_frame k (beginExtend k r)
  rw [hv]
  refine ⟨?_, beginExtend_extending k r, fun j hj => ?_, fun n => (hch n).trans ?_⟩
  · exact (congrArg Link.st (beginExtend_link k r)).trans (by rw [hrdies]; exact hst)
  · exact (beginExtend_die_of_ne r hj).trans (by rw [hrdies]; exact hdies j hj)
  · have hn : (beginExtend k r).ch n = s.ch n := by
      unfold Dev.ch
      rw [beginExtend_chans, hrchans]
    rw [hn]

/-- A third failure in a row loses the link: LOST, its die extends, and the Sequencers of its channels hold; other dies stay. -/
theorem trainingFails_loses {k : Die} {s : Dev} (hst : (s.dies[k]).link.st = .retraining ∨ (s.dies[k]).link.st = .training)
    (hthird : (s.dies[k]).link.fails = 2) :
    (trainingFails k s).dies[k].link.st = .lost ∧ (trainingFails k s).dies[k].extending = true ∧
      (∀ j : Die, j ≠ k → (trainingFails k s).dies[j] = s.dies[j]) ∧
      ∀ n : Ch, (trainingFails k s).ch n = heldForLink k n (s.ch n) := by
  obtain ⟨f, hf⟩ := trainingFails_third hst hthird
  obtain ⟨hlost, hextends, hdies, hch⟩ := linkLost_effect k (updLink k f s)
  rw [hf]
  exact ⟨hlost, hextends, fun j hj => (hdies j hj).trans (updLink_die_of_ne f s hj), hch⟩

/-! ### A training that succeeds -/

/-- The device with the link trained at width w: ACTIVE, degraded for good after a lost half, at 4 GT/s after two failures (Tables 1.5, 1.6), and
the change of state logged. -/
def trained (k : Die) (w : BitVec 2) (r : Bool) (s : Dev) : Dev :=
  logEvent 0x04 k 2 (updLink k (fun l => { l with
    st := .active, width := if l.degraded = true ∧ w = 3 then l.width else w, rate8 := decide (l.fails < 2) && (l.rate8 || r)
    degraded := l.degraded || w != 3, fails := 0, retrying := false, announced := false, held := [], activeAt := s.now }) s)

/-- A die that held nothing back has nothing to send when its link returns (R37, R316, R344, R391). -/
theorem linkCatchUp_of_nothing {k : Die} {s : Dev} (hevents : (s.dies[k]).events = []) (hparts : s.slate.parts = []) (hsync : s.zh.sync = none)
    (hsplit : ∀ e ∈ allTxns s, e.2.2.st ≠ .split) : linkCatchUp k s = s := by
  have hdie : updDie k (fun d => { d with events := [] }) s = s := updDie_eq_self (by rw [← hevents])
  have hread : splitsRead k s = s := by
    unfold splitsRead
    refine List.foldlRecOn (motive := fun d => d = s) _ _ rfl fun d hd e he => ?_
    simp [hsplit e he, hd]
  unfold linkCatchUp
  simp only [hevents, hdie, hparts, hsync, List.foldl_nil, List.filter_nil]
  exact hread

/-- A link that succeeds carries what it held, behind what its die sends (Table 1.6). -/
theorem trainingDone_of_nothing {nv : Nv} {k : Die} {w : BitVec 2} {r : Bool} {s : Dev} (hrun : attemptRuns (s.dies[k]).link)
    (hevents : (s.dies[k]).events = []) (hparts : s.slate.parts = []) (hsync : s.zh.sync = none)
    (hsplit : ∀ e ∈ allTxns s, e.2.2.st ≠ .split) :
    trainingDone nv k w r s = (s.dies[k]).link.held.foldl (fun s m => heldArrives nv k m s) (trained k w r s) := by
  have hst : (s.dies[k]).link.st ≠ .active := by
    obtain h | h | ⟨h, -⟩ := hrun <;> rw [h] <;> decide
  unfold trainingDone
  dsimp only
  rw [linkEnter_of_ne (by rw [updLink_link_self]; exact hst), updLink_updLink]
  have htrained : logEvent 0x04 k (linkCode .active) (updLink k (fun l => { l with
      st := .active, width := if l.degraded && w = 3 then l.width else w, rate8 := rateAfter l r, degraded := l.degraded || w != 3
      fails := 0, retrying := false, announced := false, held := [], activeAt := s.now }) s) = trained k w r s :=
    congrArg _ (updLink_congr (by simp [rateAfter]))
  have hnone : ((trained k w r s).dies[k]).events = [] := by
    unfold trained updLink
    rw [logEvent_dies, updDie_die_self]
    exact hevents
  rw [htrained, linkCatchUp_of_nothing hnone hparts hsync hsplit]

/-- Opening a port is no matter of an event (R349). -/
theorem portShut_logEvent (nv : Nv) (code a b : Nat) (p : Port) (s : Dev) : portShut nv (logEvent code a b s) p = portShut nv s p := by
  have h : rd (logEvent code a b s) oPortsEnabled [] = rd s oPortsEnabled [] := rd_wr_other _ _ _ _ _ _ (by decide)
  unfold portShut
  rw [h]

/-- The two device objects of O1 are stored as they are written. -/
theorem writeObj_device {row : Row} (hr : row ∈ [oSlateOnSplit, oEmcyMask]) {nv : Nv} {p : Port} {data : List Byte} {s : Dev}
    (hopen : portShut nv s p = false) (hmay : mayWrite row p = .ok) (hlen : data.length = row.size)
    (hlim : limitCheck row (ofBytes data) = .ok) : writeObj nv p row.ix row.sub data s = (.ok, wr s row (ofBytes data) []) := by
  simp only [List.mem_cons, List.not_mem_nil, or_false] at hr
  obtain rfl | rfl := hr
  all_goals
    exact PlainRow.writeObj ⟨by decide, by decide, rfl⟩ rfl hopen hmay hlen rfl hlim
      (congrArg (Prod.mk _) (storeObj_device rfl rfl (by decide) (by decide)))

/-- A write that a link held is checked and done as it arrives (Table 1.6, R333). -/
theorem heldArrives_write {nv : Nv} {k : Die} {p : Port} {ix sub : Nat} {data : List Byte} {s t : Dev}
    (hw : writeObj nv p ix sub data s = (.ok, t)) : heldArrives nv k (.request p (.write false false ix sub data)) s = done p t := by
  simp only [heldArrives, requestArrives, hw]
  rfl

/-! ### The retry of a LOST link -/

theorem linkTrainingRetry_tries {s : State} {k : Die} (hlive : Live s) (hst : (s.dev.dies[k]).link.st = .lost)
    (hown : (s.dev.dies[k]).link.announced = false) :
    let d := advance ((s.dev.dies[k]).link.tryAt + 10 * msTicks) s.dev
    Completes (.linkTrainingRetry k) s (updLink k (fun l => { l with retrying := true, tryAt := d.now }) d) :=
  completes_of_onDev rfl hlive (congrArg Host.Outcome.next (if_pos (by rw [hst, hown]; rfl)))

/-- Settles O1: retries of a message, then the ways an attempt of a training ends (success, a failure counted, the third in a row), then the retry of
a LOST link. -/
theorem linkTraining : Obligations.LinkTraining := by
  refine ⟨fun s k hlive => ⟨messageRetry_down hlive, messageRetry_counts hlive, messageRetry_retrains hlive⟩, fun s k hlive => ?_⟩
  refine ⟨fun w r hrun hw hds0 hevents hparts hsync hsplit => ?_, fun r hst hfew => ?_, fun r hst hretry => ?_, fun r hst hthird => ?_,
    linkTrainingRetry_tries hlive⟩
  · have hdone := linkTrainingAttemptEnd_succeeds r hlive hrun hw hds0
    rw [trainingDone_of_nothing hrun hevents hparts hsync hsplit] at hdone
    refine ⟨fun hheld => ?_, fun p row hrow data hheld hopen hmay hlen hlim => ?_⟩
    · rw [hheld] at hdone
      exact hdone
    · have hshut : portShut s.nv (trained k w r s.dev) p = false := (portShut_logEvent ..).trans hopen
      rw [hheld, List.foldl_cons, List.foldl_nil, heldArrives_write (writeObj_device hrow hshut hmay hlen hlim)] at hdone
      exact hdone
  · exact trainingFails_counts hst hfew ▸ linkTrainingAttemptEnd_fails r hlive (hst.imp_right .inl)
  · exact trainingFails_lost hst ▸ linkTrainingAttemptEnd_fails r hlive (.inr (.inr ⟨hst, hretry⟩))
  · exact ⟨_, linkTrainingAttemptEnd_fails r hlive (hst.imp_right .inl), trainingFails_loses hst hthird⟩

end Sys2Proof.Machine
end

section
/-! SUPPORT. Counters cleared by the bits of a write (11, R347): what is set to 0, and what stays. -/

namespace Sys2Proof.Machine

/-! ### Counters and the bits that clear them -/

/-- A counter, by its place in the dictionary, and the bit of a write that clears it. -/
structure Clearing where
  bit : Nat
  row : Row
  places : List Nat
  elem : Nat

/-- The key of the counter. -/
def Clearing.key (e : Clearing) : Nat := keyOf e.row e.places e.elem

/-- A counter of one element. -/
def Clearing.single (e : Nat × Row × List Nat) : Clearing := ⟨e.1, e.2.1, e.2.2, 0⟩

/-- The counters whose bits are 1 in v are set to 0. -/
def clearCounters (l : List Clearing) (v : Nat) (s : Dev) : Dev :=
  l.foldl (fun s e => if bitOf v e.bit then wrJ s e.row 0 e.places e.elem else s) s

theorem clearCounters_frame (l : List Clearing) (v : Nat) (s : Dev) : clearCounters l v s = { s with objs := (clearCounters l v s).objs } := by
  unfold clearCounters
  refine List.foldlRecOn (motive := fun d : Dev => d = { s with objs := d.objs }) _ _ rfl fun d hd e _ => ?_
  split
  · unfold wrJ
    rw [hd]
  · exact hd

/-- A write of an object keeps the entries of all others. -/
theorem tabFind_wrJ_of_ne {r : Row} {l : List Nat} {j k : Nat} (h : k ≠ keyOf r l j) (v : Nat) (s : Dev) :
    tabFind (wrJ s r v l j).objs k = tabFind s.objs k := by
  unfold wrJ tabPut
  dsimp only
  split
  · exact tabFind_drop_other _ h
  · exact tabFind_insert_other _ _ h

/-- A clear keeps every object but its counters. -/
theorem clearCounters_kept (l : List Clearing) (v : Nat) (s : Dev) : objsKept (l.map Clearing.key) s (clearCounters l v s) := by
  intro k hk
  unfold clearCounters
  refine List.foldlRecOn (motive := fun d : Dev => tabFind d.objs k = tabFind s.objs k) _ _ rfl fun d hd e he => ?_
  have hne : k ≠ e.key := fun h => hk (List.mem_map.mpr ⟨e, he, h.symm⟩)
  split
  · exact (tabFind_wrJ_of_ne hne 0 d).trans hd
  · exact hd

/-- An object that keeps its entry keeps its value. -/
theorem rdJ_of_kept {keys : List Nat} {a b : Dev} (h : objsKept keys a b) {r : Row} {places : List Nat} {j : Nat} (hk : keyOf r places j ∉ keys) :
    rdJ b r places j = rdJ a r places j := by
  unfold rdJ tabGet
  rw [h _ hk]

/-- Each counter is 0 where its bit is 1, and as it was where its bit is 0. -/
theorem rdJ_clearCounters {l : List Clearing} (hl : (l.map Clearing.key).Nodup) (v : Nat) (s : Dev) {e : Clearing} (he : e ∈ l) :
    rdJ (clearCounters l v s) e.row e.places e.elem = if bitOf v e.bit = true then 0 else rdJ s e.row e.places e.elem := by
  induction l generalizing s with
  | nil => cases he
  | cons a l ih =>
    rw [List.map_cons, List.nodup_cons] at hl
    obtain ⟨ha, hl⟩ := hl
    have hcons : clearCounters (a :: l) v s = clearCounters l v (if bitOf v a.bit then wrJ s a.row 0 a.places a.elem else s) := rfl
    rw [hcons]
    rcases List.mem_cons.mp he with rfl | he
    · rw [rdJ_of_kept (clearCounters_kept l v _) ha]
      split
      · rw [rdJ_wrJ_same, Nat.zero_mod]
      · rfl
    · have hne : keyOf e.row e.places e.elem ≠ keyOf a.row a.places a.elem := fun h => ha (List.mem_map.mpr ⟨e, he, h⟩)
      rw [ih hl _ he]
      split
      · rfl
      · split
        · rw [rdJ_wrJ_other _ _ _ _ _ _ _ _ hne]
        · rfl

theorem keys_single (l : List (Nat × Row × List Nat)) :
    (l.map Clearing.single).map Clearing.key = l.map fun e => keyOf e.2.1 e.2.2 0 := List.map_map

/-- The command is done at its port and clears, of the counters listed, those whose bits are 1 in v; it changes nothing else. -/
def Clears (c : Instr) (s : State) (p : Port) (v : Nat) (l : List (Nat × Row × List Nat)) : Prop :=
  ∃ d, Completes c s (done p d) ∧ d = { s.dev with objs := d.objs } ∧ objsKept (l.map fun e => keyOf e.2.1 e.2.2 0) s.dev d ∧
    ∀ e ∈ l, rd d e.2.1 e.2.2 = (if bitOf v e.1 = true then 0 else rd s.dev e.2.1 e.2.2)

theorem clears_of_completes {c : Instr} {s : State} {p : Port} {v : Nat} {l : List (Nat × Row × List Nat)}
    (hc : Completes c s (done p (clearCounters (l.map .single) v s.dev))) (hl : (l.map fun e => keyOf e.2.1 e.2.2 0).Nodup) :
    Clears c s p v l := by
  unfold Clears
  rw [← keys_single] at hl ⊢
  exact ⟨_, hc, clearCounters_frame _ v s.dev, clearCounters_kept _ v s.dev,
    fun e he => rdJ_clearCounters hl v s.dev (e := .single e) (List.mem_map_of_mem he)⟩

end Sys2Proof.Machine
end

section
/-! SUPPORT. The effect of each counter-clear object (11, R347), and O57. -/

namespace Sys2Proof.Machine

/-! ### What a clear sets to 0 -/

theorem clearSrcCounters_eq (n : Ch) (v : Nat) (s : Dev) : clearSrcCounters n v s = clearCounters ([(0, oUnderruns, [n.val]), (1, oOverflows, [n.val]),
    (2, oClamps, [n.val]), (3, oStepHolds, [n.val]), (4, oHoldForced, [n.val]), (5, oRateClips, [n.val]), (6, oPeekMiss, [n.val])].map .single) v s := rfl

theorem clearLoopCounters_eq (n : Ch) (v : Nat) (s : Dev) : clearLoopCounters n v s = clearCounters ([(0, oOverruns, [n.val]),
    (1, oWorstTicks, [n.val]), (2, oXovers, [n.val]), (3, oCoastPeriods, [n.val]), (4, oEccRetries, [n.val])].map .single) v s := rfl

theorem clearSeqCounters_eq (n : Ch) (v : Nat) (s : Dev) : clearSeqCounters n v s = clearCounters ([(0, oCuts, [n.val]), (1, oCutsMerged, [n.val]),
    (2, oCutsDropped, [n.val]), (3, oBankLates, [n.val])].map .single) v s := rfl

theorem clearGuardCounters_eq (n : Ch) (v : Nat) (s : Dev) : clearGuardCounters n v s = clearCounters ([(0, oTrips, [n.val, 0]), (1, oTrips, [n.val, 1]),
    (2, oTrips, [n.val, 2]), (3, oTrips, [n.val, 3])].map .single) v s := rfl

/-- Bit 4 of an array's clear stands for its three urgent counters (R147). -/
theorem clearArrCounters_eq (n : Ch) (a : ArrId) (v : Nat) (s : Dev) : clearArrCounters n a v s = clearCounters ([(0, oOvrCount, [n.val, a.idx]),
    (1, oAbortCount, [n.val, a.idx]), (2, oShortApertures, [n.val, a.idx]), (3, oRotations, [n.val, a.idx]), (4, oUrgentCount, [n.val, a.idx]),
    (4, oUrgentMerged, [n.val, a.idx]), (4, oUrgentDropped, [n.val, a.idx])].map .single) v s := by
  cases h : bitOf v 4 <;> simp [clearArrCounters, clearCounters, Clearing.single, h, wr]

/-- Without bit 3, a clear of the takes leaves the queues. -/
theorem clearTakeCounters_eq (n : Ch) {v : Nat} (h : bitOf v 3 = false) (s : Dev) : clearTakeCounters n v s = clearCounters ([(0, oUncorrected, [n.val]),
    (1, oEccCorrected, [n.val]), (2, oEccDrops, [n.val])].map .single) v s :=
  if_neg (by rw [h]; decide)

/-- Bit 3 alone clears the overflows and high marks of the queues (R177). -/
theorem clearTakeCounters_queues (n : Ch) (s : Dev) : clearTakeCounters n 8 s =
    updCh n (fun c => { c with queues := c.queues.map fun e => (e.1, { e.2 with overflows := 0, high := 0 }) }) s := rfl

theorem clearRows_eq (l : List (Nat × Row)) (places : List Nat) (v : Nat) (s : Dev) :
    clearRows l places v s = clearCounters ((l.map fun e => (e.1, e.2, places)).map .single) v s := by
  unfold clearRows clearCounters
  rw [List.foldl_map, List.foldl_map]
  rfl

/-- The counters of the arbiters: the fifteen LATES by one bit (R324). -/
def arbClearings : List Clearing :=
  (List.range 15).map (fun c => ⟨0, oLates, [], c⟩) ++ [⟨1, oBreaks, [], 0⟩, ⟨2, oHintMisses, [], 0⟩, ⟨3, oHoldOverruns, [], 0⟩]

theorem clearArb_eq (v : Nat) (s : Dev) : clearArb v s = clearCounters arbClearings v s := by
  unfold clearCounters arbClearings
  rw [List.foldl_append, List.foldl_map]
  cases h : bitOf v 0
  · have hnone : (List.range 15).foldl (fun d c => if false = true then wrJ d oLates 0 [] c else d) s = s :=
      List.foldlRecOn (motive := fun d : Dev => d = s) _ _ rfl fun d hd _ _ => hd
    simp only [h]
    rw [hnone]
    simp only [clearArb, h]
    rfl
  · simp only [clearArb, h]
    rfl

/-- A clear of SLIP_TOTAL moves the base from which it counts (R72). -/
theorem clearSlip_eq (v : Nat) (s : Dev) : ∃ b,
    (if bitOf v 1 then { wr s oSlipTotal 0 [] with cad := { s.cad with slipBase := s.cad.slipBase - toSigned 64 (rd s oSlipTotal []) } } else s) =
      { (if bitOf v 1 then wr s oSlipTotal 0 [] else s) with cad := { s.cad with slipBase := b } } := by
  split
  · exact ⟨_, rfl⟩
  · exact ⟨s.cad.slipBase, rfl⟩

theorem clearReelCounters_eq (v : Nat) (s : Dev) : ∃ b, clearReelCounters v s =
    { clearCounters ([(0, oHoldoverCount, []), (1, oSlipTotal, []), (2, oLastHoldover, [])].map .single) v s with
      cad := { s.cad with slipBase := b } } := by
  obtain ⟨b, hb⟩ := clearSlip_eq v (if bitOf v 0 then wr s oHoldoverCount 0 [] else s)
  have hcad : (if bitOf v 0 then wr s oHoldoverCount 0 [] else s).cad = s.cad := by split <;> rfl
  refine ⟨b, ?_⟩
  unfold clearReelCounters
  dsimp only
  rw [hb, hcad]
  cases h : bitOf v 2 <;> simp [clearCounters, Clearing.single, h, wr, wrJ]

end Sys2Proof.Machine
end

section
/-! SUPPORT. Counter-clear objects as requests (R332): the rows, their reserved bits, where they lie; CH_FAULT (R347); O57. -/

namespace Sys2Proof.Machine

/-! ### The rows -/

/-- A plain row whose bits from k on are reserved. -/
structure ClearRow (r : Row) (k : Nat) : Prop extends PlainRow r where
  fits : 2 ^ k ≤ 256 ^ r.size
  reserved : ∃ j, r.lim = .bits (2 ^ k * j)

/-- The bits that may be set pass the limits of the row (R8). -/
theorem ClearRow.limitCheck {r : Row} {k v : Nat} (h : ClearRow r k) (hv : v < 2 ^ k) : limitCheck r (ofBytes (leBytes r.size v)) = .ok := by
  obtain ⟨j, hj⟩ := h.reserved
  rw [ofBytes_leBytes, Nat.mod_eq_of_lt (Nat.lt_of_lt_of_le hv h.fits)]
  unfold Machine.limitCheck
  simp [hj, and_high_eq_zero j hv]

/-- No die's link keeps a request for an index from acting: the die is reached, and its link does not hold it (R37, R332). -/
def reached (s : Dev) (ix : Nat) : Prop := dieReachable s (objDie ix) = true ∧ linkWaits s ix = none

theorem reached_of_objDie_zero (s : Dev) {ix : Nat} (h : objDie ix = 0) : reached s ix := by
  unfold reached linkWaits
  simp [h, dieReachable]

/-- A served write of bits that may be set is done. -/
theorem ClearRow.completes {r : Row} {k v : Nat} (h : ClearRow r k) {c : Instr} {s : State} {p : Port} {places : List Nat} {t : Dev}
    (hc : exec c s = rowRequest p r places (leBytes r.size v) s) (hserved : Served s p r)
    (hrow : rowOf (r.ix + dimsOff r.dims places) r.sub = some r) (hreached : reached s.dev (r.ix + dimsOff r.dims places)) (hv : v < 2 ^ k)
    (hw : ∀ data, ofBytes data = v → directWrite p r (r.ix + dimsOff r.dims places) r.sub data s.nv s.dev = (.ok, t))
    (hfw : t.fw = s.dev.fw) : Completes c s (done p t) := by
  have hdata : ofBytes (leBytes r.size v) = v := by
    rw [ofBytes_leBytes, Nat.mod_eq_of_lt (Nat.lt_of_lt_of_le hv h.fits)]
  exact hc.trans (h.toPlainRow.rowRequest hserved hrow (length_leBytes ..) hreached.1 hreached.2 (h.limitCheck hv) (hw _ hdata)
    (congrArg Firmware.held hfw))

theorem clearRow_byte {r : Row} {k : Nat} (h : PlainRow r) (hsize : r.size = 1) (hk : k ≤ 8) (hj : ∃ j, r.lim = .bits (2 ^ k * j)) : ClearRow r k where
  toPlainRow := h
  fits := by
    rw [hsize]
    exact Nat.pow_le_pow_right (by decide) hk
  reserved := hj

theorem clearRow_fabric : ClearRow oFabricClear 6 := clearRow_byte ⟨by decide, by decide, rfl⟩ rfl (by decide) ⟨3, rfl⟩
theorem clearRow_reel : ClearRow oReelCounterClear 3 := clearRow_byte ⟨by decide, by decide, rfl⟩ rfl (by decide) ⟨31, rfl⟩
theorem clearRow_src : ClearRow oSrcCounterClear 7 := clearRow_byte ⟨by decide, by decide, rfl⟩ rfl (by decide) ⟨1, rfl⟩
theorem clearRow_array : ClearRow oArrCounterClear 5 := clearRow_byte ⟨by decide, by decide, rfl⟩ rfl (by decide) ⟨7, rfl⟩
theorem clearRow_take : ClearRow oTakeCounterClear 4 := clearRow_byte ⟨by decide, by decide, rfl⟩ rfl (by decide) ⟨15, rfl⟩
theorem clearRow_loop : ClearRow oLoopCounterClear 5 := clearRow_byte ⟨by decide, by decide, rfl⟩ rfl (by decide) ⟨7, rfl⟩
theorem clearRow_seq : ClearRow oSeqCounterClear 4 := clearRow_byte ⟨by decide, by decide, rfl⟩ rfl (by decide) ⟨15, rfl⟩
theorem clearRow_guard : ClearRow oGuardCounterClear 4 := clearRow_byte ⟨by decide, by decide, rfl⟩ rfl (by decide) ⟨15, rfl⟩
theorem clearRow_arb : ClearRow oArbClear 4 := clearRow_byte ⟨by decide, by decide, rfl⟩ rfl (by decide) ⟨15, rfl⟩
theorem clearRow_portn : ClearRow oPortnCounterClear 3 := clearRow_byte ⟨by decide, by decide, rfl⟩ rfl (by decide) ⟨31, rfl⟩
theorem clearRow_slate : ClearRow oSlateCounterClear 1 := clearRow_byte ⟨by decide, by decide, rfl⟩ rfl (by decide) ⟨127, rfl⟩
theorem clearRow_supply : ClearRow oSupplyCounterClear 2 := clearRow_byte ⟨by decide, by decide, rfl⟩ rfl (by decide) ⟨63, rfl⟩
theorem clearRow_die : ClearRow oDieCounterClear 3 := clearRow_byte ⟨by decide, by decide, rfl⟩ rfl (by decide) ⟨31, rfl⟩
theorem clearRow_chFault : ClearRow oChFault 10 := ⟨⟨by decide, by decide, rfl⟩, by decide, 63, rfl⟩

/-! ### Objects of a channel -/

/-- The index is one of the objects of channel n (Table 0.3). -/
def ofChan (n : Ch) (ix : Nat) : Prop := 0x3000 + 0x100 * n.val ≤ ix ∧ ix < 0x3100 + 0x100 * n.val

theorem objDie_of_ofChan {n : Ch} {ix : Nat} (h : ofChan n ix) : objDie ix = 1 + n.die.val := by
  have hn := n.isLt
  have hd : n.die.val = n.val / 4 := rfl
  unfold ofChan at h
  unfold objDie
  rw [if_pos (by simp; omega), hd]
  omega

theorem chOf_of_ofChan {n : Ch} {ix : Nat} (h : ofChan n ix) : chOf ix = n := by
  have hn := n.isLt
  unfold ofChan at h
  refine Fin.ext ?_
  unfold chOf
  dsimp only
  rw [if_pos (by omega)]
  omega

/-- Over an ACTIVE link a channel's objects are reached. -/
theorem reached_of_ofChan {n : Ch} {ix : Nat} {s : Dev} (h : ofChan n ix) (hup : s.dies[n.die].link.st = .active) : reached s ix := by
  have hd : dieNo (objDie ix) = n.die := by
    rw [objDie_of_ofChan h]
    exact Fin.ext (by have := n.die.isLt; simp only [dieNo]; omega)
  have hactive : ∀ k : Die, k = n.die → s.dies[k].link.st = .active := by
    rintro _ rfl
    exact hup
  have hlink := hactive _ hd
  have hobj := objDie_of_ofChan h
  have hdie := n.die.isLt
  constructor
  · unfold dieReachable
    rw [hlink, if_neg (by omega), if_neg (by omega)]
  · unfold linkWaits
    dsimp only
    rw [hlink]
    exact if_neg (by simp)

theorem directWrite_of_ofChan {n : Ch} {ix sub : Nat} {p : Port} {r : Row} {data : List Byte} {nv : Nv} {s : Dev} (h : ofChan n ix)
    (hown : ownedCheck s ix = .ok) : directWrite p r ix sub data nv s = directCh p r ix sub (ofBytes data) data s := by
  have hn := n.isLt
  unfold ofChan at h
  unfold directWrite
  rw [hown]
  dsimp only
  rw [if_neg (by omega), if_neg (by omega), if_neg (by omega), if_neg (by omega), if_neg (by omega), if_pos (by omega)]

/-- Objects outside the arrays are no comparison's (R279). -/
theorem ownedCheck_of_not_arrayRow {s : Dev} {ix : Nat} (h : arrayRow ix = false) : ownedCheck s ix = .ok := by
  unfold ownedCheck
  rw [h]
  rfl

theorem ownedCheck_of_no_comparison {s : Dev} (ix : Nat) (h : s.ref.comparison = none) : ownedCheck s ix = .ok := by
  unfold ownedCheck cmpOwns
  rw [h]
  simp [refuseIf]

end Sys2Proof.Machine
end

section
/-! SUPPORT. The counter clears of a channel, of a die and of the links, CH_FAULT (R347), and O57. -/

namespace Sys2Proof.Machine

/-! ### The counters of a channel -/

/-- A served clear of a channel's object, over an ACTIVE link, has the effect of its row. -/
theorem ClearRow.completes_chan {r : Row} {k v : Nat} (h : ClearRow r k) {c : Instr} {s : State} {p : Port} {n : Ch} {places : List Nat} {t : Dev}
    (hc : exec c s = rowRequest p r places (leBytes r.size v) s) (hserved : Served s p r)
    (hrow : rowOf (r.ix + dimsOff r.dims places) r.sub = some r) (hup : LinkUp s n.die) (hin : ofChan n (r.ix + dimsOff r.dims places))
    (hown : ownedCheck s.dev (r.ix + dimsOff r.dims places) = .ok) (hv : v < 2 ^ k)
    (hw : ∀ data, directCh p r (r.ix + dimsOff r.dims places) r.sub v data s.dev = (.ok, t)) (hfw : t.fw = s.dev.fw) :
    Completes c s (done p t) := by
  refine h.completes hc hserved hrow (reached_of_ofChan hin hup) hv (fun data hdata => ?_) hfw
  rw [directWrite_of_ofChan hin hown, hdata]
  exact hw data

theorem clearCounters_fw (l : List Clearing) (v : Nat) (s : Dev) : (clearCounters l v s).fw = s.fw := by
  rw [clearCounters_frame]

/-- An object of a channel with no further dimension lies among the channel's. -/
theorem ofChan_of_lt (n : Ch) {o : Nat} (ho : o < 0x100) : ofChan n (0x3000 + o + (0x100 * n.val + 0)) := by
  unfold ofChan
  omega

theorem not_arrayRow_of {n : Ch} {o : Nat} (ho : o < 0x30 ∨ 0x50 ≤ o ∧ o < 0x100) : arrayRow (0x3000 + o + (0x100 * n.val + 0)) = false := by
  unfold arrayRow
  simp only [Bool.and_eq_false_iff, decide_eq_false_iff_not]
  omega

/-- A served clear of an object that a channel has once, outside its arrays. -/
theorem ClearRow.completes_once {r : Row} {k v : Nat} (h : ClearRow r k) {c : Instr} {s : State} {p : Port} {n : Ch} {f : Ch → Dev} (o : Nat)
    (hix : r.ix = 0x3000 + o) (hdims : r.dims = [(0x100, 24)]) (ho : o < 0x30 ∨ 0x50 ≤ o ∧ o < 0x100)
    (hc : exec c s = rowRequest p r [n.val] (leBytes r.size v) s) (hserved : Served s p r)
    (hrow : rowOf (r.ix + dimsOff r.dims [n.val]) r.sub = some r) (hup : LinkUp s n.die) (hv : v < 2 ^ k)
    (hw : ∀ ix data, directCh p r ix r.sub v data s.dev = (.ok, f (chOf ix))) (hfw : (f n).fw = s.dev.fw) :
    Completes c s (done p (f n)) := by
  have hplace : r.ix + dimsOff r.dims [n.val] = 0x3000 + o + (0x100 * n.val + 0) := by
    rw [hix, hdims]
    rfl
  have hin : ofChan n (r.ix + dimsOff r.dims [n.val]) := hplace ▸ ofChan_of_lt n (by omega)
  refine h.completes_chan hc hserved hrow hup hin (ownedCheck_of_not_arrayRow (hplace ▸ not_arrayRow_of ho)) hv (fun data => ?_) hfw
  rw [hw, chOf_of_ofChan hin]

theorem ClearRow.clears_once {r : Row} {k v : Nat} (h : ClearRow r k) {c : Instr} {s : State} {p : Port} {n : Ch}
    {l : List (Nat × Row × List Nat)} (f : Ch → Dev) (o : Nat) (hix : r.ix = 0x3000 + o) (hdims : r.dims = [(0x100, 24)])
    (ho : o < 0x30 ∨ 0x50 ≤ o ∧ o < 0x100) (hc : exec c s = rowRequest p r [n.val] (leBytes r.size v) s) (hserved : Served s p r)
    (hrow : rowOf (r.ix + dimsOff r.dims [n.val]) r.sub = some r) (hup : LinkUp s n.die) (hv : v < 2 ^ k)
    (hw : ∀ ix data, directCh p r ix r.sub v data s.dev = (.ok, f (chOf ix)))
    (hf : f n = clearCounters (l.map .single) v s.dev) (hl : (l.map fun e => keyOf e.2.1 e.2.2 0).Nodup) : Clears c s p v l :=
  clears_of_completes (hf ▸ h.completes_once o hix hdims ho hc hserved hrow hup hv hw (hf ▸ clearCounters_fw _ v s.dev)) hl

theorem srcCounterClear_clears {s : State} {p : Port} {n : Ch} {v : BitVec 8} (hup : LinkUp s n.die) (hserved : Served s p oSrcCounterClear)
    (hv : v.toNat < 128) : Clears (.srcCounterClear p n v) s p v.toNat [(0, oUnderruns, [n.val]), (1, oOverflows, [n.val]),
      (2, oClamps, [n.val]), (3, oStepHolds, [n.val]), (4, oHoldForced, [n.val]), (5, oRateClips, [n.val]), (6, oPeekMiss, [n.val])] :=
  clearRow_src.clears_once (fun m => clearSrcCounters m v.toNat s.dev) 0x11 rfl rfl (by decide) rfl hserved (rowOf_srcCounterClear n) hup hv
    (fun _ _ => rfl) (clearSrcCounters_eq n _ _)
    (by simp [keyOf, objKey, dimsOff, oUnderruns, oOverflows, oClamps, oStepHolds, oHoldForced, oRateClips, oPeekMiss])

theorem loopCounterClear_clears {s : State} {p : Port} {n : Ch} {v : BitVec 8} (hup : LinkUp s n.die) (hserved : Served s p oLoopCounterClear)
    (hv : v.toNat < 32) : Clears (.loopCounterClear p n v) s p v.toNat [(0, oOverruns, [n.val]), (1, oWorstTicks, [n.val]),
      (2, oXovers, [n.val]), (3, oCoastPeriods, [n.val]), (4, oEccRetries, [n.val])] :=
  clearRow_loop.clears_once (fun m => clearLoopCounters m v.toNat s.dev) 0x61 rfl rfl (by decide) rfl hserved (rowOf_loopCounterClear n) hup hv
    (fun _ _ => rfl) (clearLoopCounters_eq n _ _)
    (by simp [keyOf, objKey, dimsOff, oOverruns, oWorstTicks, oXovers, oCoastPeriods, oEccRetries])

theorem seqCounterClear_clears {s : State} {p : Port} {n : Ch} {v : BitVec 8} (hup : LinkUp s n.die) (hserved : Served s p oSeqCounterClear)
    (hv : v.toNat < 16) : Clears (.seqCounterClear p n v) s p v.toNat [(0, oCuts, [n.val]), (1, oCutsMerged, [n.val]),
      (2, oCutsDropped, [n.val]), (3, oBankLates, [n.val])] :=
  clearRow_seq.clears_once (fun m => clearSeqCounters m v.toNat s.dev) 0x80 rfl rfl (by decide) rfl hserved (rowOf_seqCounterClear n) hup hv
    (fun _ _ => rfl) (clearSeqCounters_eq n _ _) (by simp [keyOf, objKey, dimsOff, oCuts, oCutsMerged, oCutsDropped, oBankLates])

theorem guardCounterClear_clears {s : State} {p : Port} {n : Ch} {v : BitVec 8} (hup : LinkUp s n.die) (hserved : Served s p oGuardCounterClear)
    (hv : v.toNat < 16) : Clears (.guardCounterClear p n v) s p v.toNat [(0, oTrips, [n.val, 0]), (1, oTrips, [n.val, 1]),
      (2, oTrips, [n.val, 2]), (3, oTrips, [n.val, 3])] :=
  clearRow_guard.clears_once (fun m => clearGuardCounters m v.toNat s.dev) 0xA4 rfl rfl (by decide) rfl hserved (rowOf_guardCounterClear n) hup hv
    (fun _ _ => rfl) (clearGuardCounters_eq n _ _) (by simp [keyOf, objKey, dimsOff, oTrips])

theorem takeCounterClear_completes {s : State} {p : Port} {n : Ch} {v : BitVec 8} (hup : LinkUp s n.die) (hserved : Served s p oTakeCounterClear)
    (hv : v.toNat < 16) (hfw : (clearTakeCounters n v.toNat s.dev).fw = s.dev.fw) :
    Completes (.takeCounterClear p n v) s (done p (clearTakeCounters n v.toNat s.dev)) :=
  clearRow_take.completes_once (f := fun m => clearTakeCounters m v.toNat s.dev) 0x50 rfl rfl (by decide) rfl hserved (rowOf_takeCounterClear n)
    hup hv (fun _ _ => rfl) hfw

theorem takeCounterClear_clears {s : State} {p : Port} {n : Ch} {v : BitVec 8} (hup : LinkUp s n.die) (hserved : Served s p oTakeCounterClear)
    (hv : v.toNat < 16) (h3 : bitOf v.toNat 3 = false) : Clears (.takeCounterClear p n v) s p v.toNat [(0, oUncorrected, [n.val]),
      (1, oEccCorrected, [n.val]), (2, oEccDrops, [n.val])] := by
  have hf := clearTakeCounters_eq n h3 s.dev
  have hdone := takeCounterClear_completes hup hserved hv (hf ▸ clearCounters_fw _ _ _)
  rw [hf] at hdone
  exact clears_of_completes hdone (by simp [keyOf, objKey, dimsOff, oUncorrected, oEccCorrected, oEccDrops])

/-- The counters of an array (R147), of an array that no comparison owns. -/
theorem arrayCounterClear_clears {s : State} {p : Port} {n : Ch} {a : ArrId} {v : BitVec 8} (hup : LinkUp s n.die)
    (hserved : Served s p oArrCounterClear) (hfree : s.dev.ref.comparison = none) (hv : v.toNat < 32) :
    Clears (.arrayCounterClear p n a v) s p v.toNat [(0, oOvrCount, [n.val, a.idx]), (1, oAbortCount, [n.val, a.idx]),
      (2, oShortApertures, [n.val, a.idx]), (3, oRotations, [n.val, a.idx]), (4, oUrgentCount, [n.val, a.idx]),
      (4, oUrgentMerged, [n.val, a.idx]), (4, oUrgentDropped, [n.val, a.idx])] := by
  have ha : a.idx < 2 := by cases a <;> decide
  have hin : ofChan n (oArrCounterClear.ix + dimsOff oArrCounterClear.dims [n.val, a.idx]) := by
    simp only [ofChan, oArrCounterClear, dimsOff]
    omega
  have harr : arrAt oArrCounterClear (oArrCounterClear.ix + dimsOff oArrCounterClear.dims [n.val, a.idx]) = a := by
    fin_cases n <;> cases a <;> rfl
  have hdone : Completes (.arrayCounterClear p n a v) s (done p (clearArrCounters n a v.toNat s.dev)) :=
    clearRow_array.completes_chan rfl hserved (rowOf_arrCounterClear n a) hup hin (ownedCheck_of_no_comparison _ hfree) hv
      (fun _ => congrArg₂ (fun m b => (Verdict.ok, clearArrCounters m b v.toNat s.dev)) (chOf_of_ofChan hin) harr)
      (clearArrCounters_eq n a v.toNat s.dev ▸ clearCounters_fw _ _ _)
  rw [clearArrCounters_eq] at hdone
  exact clears_of_completes hdone (by
    simp [keyOf, objKey, dimsOff, oOvrCount, oAbortCount, oShortApertures, oRotations, oUrgentCount, oUrgentMerged, oUrgentDropped]
    omega)

end Sys2Proof.Machine
end

section
/-! SUPPORT. CH_FAULT (11, R347), the counters of a die and of the links, the device's own counters, and O57. -/

namespace Sys2Proof.Machine

/-! ### Bits cleared by a mask -/

theorem bitOf_eq_testBit (v i : Nat) : bitOf v i = v.testBit i := by
  rw [Nat.testBit_eq_decide_div_mod_eq]
  rfl

/-- A power of two added below a bit does not reach it where its own bit was 0. -/
theorem testBit_two_pow_add_of_lt {x i j : Nat} (hx : x.testBit i = false) (h : i < j) : (2 ^ i + x).testBit j = x.testBit j := by
  obtain ⟨d, rfl⟩ := Nat.exists_eq_add_of_lt h
  have heven : x / 2 ^ i % 2 = 0 := by
    rw [Nat.testBit_eq_decide_div_mod_eq, decide_eq_false_iff_not] at hx
    omega
  have hhalf : (x / 2 ^ i + 1) / 2 = x / 2 ^ i / 2 := by omega
  have hplace : ∀ y : Nat, y.testBit (i + d + 1) = (y / 2 ^ i / 2).testBit d := fun y => by
    rw [← Nat.testBit_succ, Nat.testBit_div_two_pow]
    congr 1
    omega
  rw [hplace, hplace, Nat.add_div_left x (Nat.two_pow_pos i), hhalf]

theorem bitOf_clearBit (v i j : Nat) : bitOf (clearBit v i) j = (bitOf v j && decide (j ≠ i)) := by
  simp only [clearBit, bitOf_eq_testBit]
  split
  · next hset =>
    obtain ⟨x, rfl⟩ := Nat.exists_eq_add_of_le (Nat.ge_two_pow_of_testBit hset)
    have hx : x.testBit i = false := by simpa [Nat.testBit_two_pow_add_eq] using hset
    rw [Nat.add_sub_cancel_left]
    obtain h | rfl | h := Nat.lt_trichotomy j i
    · simp [Nat.testBit_two_pow_add_gt h, Nat.ne_of_lt h]
    · simp [hx]
    · simp [testBit_two_pow_add_of_lt hx h, Nat.ne_of_gt h]
  · next hclear =>
    by_cases h : j = i
    · subst h
      simpa using hclear
    · simp [h]

/-- A write of ones clears their bits and keeps the others (Table 0.4). -/
theorem bitOf_clearMask (k v m i : Nat) : bitOf (clearMask k v m) i = (bitOf v i && !(decide (i < k) && bitOf m i)) := by
  induction k generalizing v with
  | zero => simp [clearMask]
  | succ k ih =>
    rw [clearMask, ih]
    by_cases h : i = k
    · subst h
      cases hm : bitOf m i <;> simp [bitOf_clearBit]
    · have hlt : decide (i < k + 1) = decide (i < k) := decide_eq_decide.mpr (by omega)
      rw [hlt]
      split <;> simp [bitOf_clearBit, h]

theorem bitOf_mod_two_pow {v n i : Nat} (h : i < n) : bitOf (v % 2 ^ n) i = bitOf v i := by
  simp [bitOf_eq_testBit, Nat.testBit_mod_two_pow, h]

/-! ### CH_FAULT -/

theorem standing_wr_chFault (s : Dev) (v : Nat) (n : Ch) : standing (wr s oChFault v [n.val]) n = standing s n := by
  have hrd : rd (wr s oChFault v [n.val]) oEngineFault [n.val] = rd s oEngineFault [n.val] :=
    rd_wr_other _ _ _ _ _ _ (by simp [keyOf, objKey, dimsOff, oEngineFault, oChFault]; omega)
  unfold standing
  rw [hrd]
  rfl

/-- A clear of CH_FAULT: the bits written 1, and the mark to set again what still stands (R347). -/
theorem chFaultClear_eq (n : Ch) (v : Nat) (s : Dev) : chFaultClear n v s =
    { wr s oChFault (clearMask 10 (rd s oChFault [n.val]) v) [n.val] with
      refault := if standing s n = 0 then s.refault else s.refault ++ [(n.val, s.now + 1)] } := by
  unfold chFaultClear
  dsimp only
  rw [standing_wr_chFault]
  split <;> rfl

theorem chFaultClear_bits (n : Ch) (v : Nat) (s : Dev) {i : Nat} (hi : i < 10) :
    bitOf (rd (chFaultClear n v s) oChFault [n.val]) i = (bitOf (rd s oChFault [n.val]) i && !bitOf v i) := by
  rw [chFaultClear_eq]
  change bitOf (rd (wr s oChFault _ [n.val]) oChFault [n.val]) i = _
  rw [rd_wr_same, bitOf_mod_two_pow (n := 8 * oChFault.size) (Nat.lt_trans hi (by decide)), bitOf_clearMask]
  simp [hi]

theorem chFaultClear_completes {s : State} {p : Port} {n : Ch} {w : BitVec 16} (hup : LinkUp s n.die) (hserved : Served s p oChFault)
    (hw : w.toNat < 1024) : Completes (.chFaultClear p n w) s (done p (chFaultClear n w.toNat s.dev)) :=
  clearRow_chFault.completes_once (f := fun m => chFaultClear m w.toNat s.dev) 0 rfl rfl (by decide) rfl hserved (rowOf_chFault n) hup hw
    (fun _ _ => rfl) (by rw [chFaultClear_eq]; rfl)

/-! ### A die and the links -/

/-- The die's part of a clear: its own ECC counters (R402). -/
theorem dieClear_eq (k : Die) (v : Nat) (s : Dev) : dieClear k v s =
    updDie k (fun d => { d with corr := if bitOf v 0 then 0 else d.corr, uncorr := if bitOf v 1 then 0 else d.uncorr })
      (clearCounters ([(0, oEccCorr, [k.val]), (1, oEccUncorr, [k.val]), (2, oMcReloads, [k.val])].map .single) v s) := by
  unfold dieClear
  rw [clearRows_eq]
  rfl

theorem directWrite_dieClear (k : Die) (p : Port) (data : List Byte) (nv : Nv) (s : Dev) :
    directWrite p oDieCounterClear (oDieCounterClear.ix + dimsOff oDieCounterClear.dims [k.val]) oDieCounterClear.sub data nv s =
      (.ok, dieClear k (ofBytes data) s) := by
  fin_cases k <;> rfl

theorem dieCounterClear_completes {s : State} {p : Port} {k : Die} {v : BitVec 8} (hserved : Served s p oDieCounterClear) (hv : v.toNat < 8) :
    Completes (.dieCounterClear p k v) s (done p (dieClear k v.toNat s.dev)) :=
  clearRow_die.completes rfl hserved (rowOf_dieCounterClear k) (reached_of_objDie_zero _ (by fin_cases k <;> rfl)) hv
    (fun data hdata => hdata ▸ directWrite_dieClear k p data s.nv s.dev) (by rw [dieClear_eq, updDie_fw, clearCounters_fw])

/-- The retries and retrains of a die's link cleared by its bit (R40). -/
def linkCleared (v : Nat) (k : Die) (d : DieState) : DieState :=
  if bitOf v k.val = true then { d with link := { d.link with retries := 0, retrains := 0 } } else d

theorem clearFabric_eq (v : Nat) (s : Dev) : clearFabric v s = { s with dies := Vector.ofFn fun k : Die => linkCleared v k s.dies[k] } := by
  obtain ⟨dies, hdies, hdie⟩ := foldl_updDie (linkCleared v) (List.finRange 6) (List.nodup_finRange 6) s
  have hfold : clearFabric v s = (List.finRange 6).foldl (fun s k => updDie k (linkCleared v k) s) s := by
    refine List.foldl_ext _ _ s fun d k _ => ?_
    split
    · next h => exact updDie_congr (by rw [linkCleared, if_pos h])
    · next h => exact (updDie_eq_self (by rw [linkCleared, if_neg h])).symm
  rw [hfold, hdies]
  congr 1
  refine Vector.ext fun i hi => ?_
  rw [Vector.getElem_ofFn]
  exact (hdie ⟨i, hi⟩).trans (if_pos (List.mem_finRange _))

theorem fabricCounterClear_completes {s : State} {p : Port} {v : BitVec 8} (hserved : Served s p oFabricClear) (hv : v.toNat < 64) :
    Completes (.fabricCounterClear p v) s (done p (clearFabric v.toNat s.dev)) :=
  clearRow_fabric.completes rfl hserved rowOf_fabricClear (reached_of_objDie_zero _ rfl) hv (fun _ hdata => hdata ▸ rfl)
    (by rw [clearFabric_eq])

/-! ### The device -/

theorem reelCounterClear_completes {s : State} {p : Port} {v : BitVec 8} (hserved : Served s p oReelCounterClear) (hv : v.toNat < 8) :
    Completes (.reelCounterClear p v) s (done p (clearReelCounters v.toNat s.dev)) :=
  clearRow_reel.completes rfl hserved rowOf_reelCounterClear (reached_of_objDie_zero _ rfl) hv (fun _ hdata => hdata ▸ rfl) (by
    obtain ⟨b, hb⟩ := clearReelCounters_eq v.toNat s.dev
    rw [hb]
    exact clearCounters_fw _ _ _)

theorem arbClear_completes {s : State} {p : Port} {v : BitVec 8} (hserved : Served s p oArbClear) (hv : v.toNat < 16) :
    Completes (.arbClear p v) s (done p (clearCounters arbClearings v.toNat s.dev)) :=
  clearRow_arb.completes rfl hserved rowOf_arbClear (reached_of_objDie_zero _ rfl) hv
    (fun _ hdata => hdata ▸ congrArg (Prod.mk _) (clearArb_eq _ _)) (clearCounters_fw _ _ _)

theorem portnCounterClear_clears {s : State} {p : Port} {v : BitVec 8} (hserved : Served s p oPortnCounterClear) (hv : v.toNat < 8) :
    Clears (.portnCounterClear p v) s p v.toNat [(0, oRxRepeats, []), (1, oRxRejects, []), (2, oWatchdogExpiries, [])] :=
  clears_of_completes (clearRow_portn.completes rfl hserved rowOf_portnCounterClear (reached_of_objDie_zero _ rfl) hv
    (fun _ hdata => hdata ▸ congrArg (Prod.mk _) (clearRows_eq _ _ _ _)) (clearCounters_fw _ _ _)) (by decide)

theorem slateCounterClear_clears {s : State} {p : Port} {v : BitVec 8} (hserved : Served s p oSlateCounterClear) (hv : v.toNat < 2) :
    Clears (.slateCounterClear p v) s p v.toNat [(0, oSlateDropped, [])] :=
  clears_of_completes (clearRow_slate.completes rfl hserved rowOf_slateCounterClear (reached_of_objDie_zero _ rfl) hv
    (fun _ hdata => hdata ▸ congrArg (Prod.mk _) (clearRows_eq _ _ _ _)) (clearCounters_fw _ _ _)) (by decide)

theorem supplyCounterClear_clears {s : State} {p : Port} {v : BitVec 8} (hserved : Served s p oSupplyCounterClear) (hv : v.toNat < 4) :
    Clears (.supplyCounterClear p v) s p v.toNat [(0, oEpisodes, []), (1, oSlipTotalMs, [])] :=
  clears_of_completes (clearRow_supply.completes rfl hserved rowOf_supplyCounterClear (reached_of_objDie_zero _ rfl) hv
    (fun _ hdata => hdata ▸ congrArg (Prod.mk _) (clearRows_eq _ _ _ _)) (clearCounters_fw _ _ _)) (by decide)

/-- The Reel's clear touches its three counters and the base of SLIP_TOTAL. -/
theorem clearReelCounters_effect (v : Nat) (s : Dev) :
    clearReelCounters v s = { s with
      objs := (clearReelCounters v s).objs, cad := { s.cad with slipBase := (clearReelCounters v s).cad.slipBase } } ∧
    objsKept [keyOf oHoldoverCount [] 0, keyOf oSlipTotal [] 0, keyOf oLastHoldover [] 0] s (clearReelCounters v s) ∧
    ∀ e ∈ [(0, oHoldoverCount, []), (1, oSlipTotal, []), (2, oLastHoldover, [])],
      rd (clearReelCounters v s) e.2.1 e.2.2 = if bitOf v e.1 = true then 0 else rd s e.2.1 e.2.2 := by
  obtain ⟨b, hb⟩ := clearReelCounters_eq v s
  rw [hb]
  have hkept := clearCounters_kept ([(0, oHoldoverCount, []), (1, oSlipTotal, []), (2, oLastHoldover, [])].map .single) v s
  refine ⟨?_, hkept, fun e he => ?_⟩
  · rw [clearCounters_frame]
  · exact rdJ_clearCounters (by decide) v s (e := .single e) (List.mem_map_of_mem he)

theorem arbClearings_nodup : (arbClearings.map Clearing.key).Nodup := by decide

theorem rdJ_clearArb (v : Nat) (s : Dev) {e : Clearing} (he : e ∈ arbClearings) :
    rdJ (clearCounters arbClearings v s) e.row e.places e.elem = if bitOf v e.bit = true then 0 else rdJ s e.row e.places e.elem :=
  rdJ_clearCounters arbClearings_nodup v s he

/-- A die's clear touches its three counters and the die's own ECC counters. -/
theorem dieClear_effect (k : Die) (v : Nat) (s : Dev) : ∃ x,
    dieClear k v s = { s with objs := (dieClear k v s).objs, dies := s.dies.set k x } ∧
    x = { s.dies[k] with corr := if bitOf v 0 = true then 0 else (s.dies[k]).corr, uncorr := if bitOf v 1 = true then 0 else (s.dies[k]).uncorr } ∧
    ∀ e ∈ [(0, oEccCorr, [k.val]), (1, oEccUncorr, [k.val]), (2, oMcReloads, [k.val])],
      rd (dieClear k v s) e.2.1 e.2.2 = if bitOf v e.1 = true then 0 else rd s e.2.1 e.2.2 := by
  refine ⟨_, ?_, rfl, fun e he => ?_⟩
  · rw [dieClear_eq, clearCounters_frame]
    rfl
  · rw [dieClear_eq]
    exact rdJ_clearCounters (by rw [keys_single]; simp [keyOf, objKey, dimsOff, oEccCorr, oEccUncorr, oMcReloads]) v s (e := .single e)
      (List.mem_map_of_mem he)

/-- Settles O57: the effect of each clear, channel by channel and for the device, with the counters that its bits name. -/
theorem counterClears : Obligations.CounterClears := by
  intro s p clears
  refine ⟨fun v hserved hv => ?_, fun v hserved hv => ?_, fun n v hup => ?_, fun v hserved hv => ?_, fun v => ?_⟩
  · have hdone := fabricCounterClear_completes hserved hv
    rw [clearFabric_eq] at hdone
    exact hdone
  · obtain ⟨hframe, hkept, hread⟩ := clearReelCounters_effect v.toNat s.dev
    exact ⟨_, reelCounterClear_completes hserved hv, hframe, hkept, hread (0, oHoldoverCount, []) (.head _),
      hread (1, oSlipTotal, []) (.tail _ (.head _)), hread (2, oLastHoldover, []) (.tail _ (.tail _ (.head _)))⟩
  · refine ⟨srcCounterClear_clears hup, fun a => arrayCounterClear_clears hup, fun hserved hv => ⟨takeCounterClear_clears hup hserved hv, ?_⟩,
      loopCounterClear_clears hup, seqCounterClear_clears hup, guardCounterClear_clears hup, fun w hserved hw => ?_⟩
    · rintro rfl
      exact clearTakeCounters_queues n s.dev ▸ takeCounterClear_completes hup hserved hv rfl
    · have heq := chFaultClear_eq n w.toNat s.dev
      refine ⟨_, chFaultClear_completes hup hserved hw, by rw [heq]; rfl, fun k hk => ?_, fun i hi => chFaultClear_bits n w.toNat s.dev hi,
        fun h0 => ?_, fun h1 => ?_⟩
      · rw [heq]
        exact tabFind_wrJ_of_ne (mt List.mem_singleton.mpr hk) _ s.dev
      · rw [heq]
        exact if_pos h0
      · rw [heq]
        exact if_neg h1
  · refine ⟨_, arbClear_completes hserved hv, clearCounters_frame _ _ _, fun c hc => ?_, ?_, ?_, ?_⟩
    · exact rdJ_clearArb v.toNat s.dev (e := ⟨0, oLates, [], c⟩) (List.mem_append_left _ (List.mem_map.mpr ⟨c, List.mem_range.mpr hc, rfl⟩))
    · exact rdJ_clearArb v.toNat s.dev (e := ⟨1, oBreaks, [], 0⟩) (List.mem_append_right _ (.head _))
    · exact rdJ_clearArb v.toNat s.dev (e := ⟨2, oHintMisses, [], 0⟩) (List.mem_append_right _ (.tail _ (.head _)))
    · exact rdJ_clearArb v.toNat s.dev (e := ⟨3, oHoldOverruns, [], 0⟩) (List.mem_append_right _ (.tail _ (.tail _ (.head _))))
  · refine ⟨portnCounterClear_clears, slateCounterClear_clears, supplyCounterClear_clears, fun k hserved hv => ?_⟩
    obtain ⟨x, hframe, hx, hread⟩ := dieClear_effect k v.toNat s.dev
    exact ⟨_, x, dieCounterClear_completes hserved hv, hframe, hx, hread (0, oEccCorr, [k.val]) (.head _),
      hread (1, oEccUncorr, [k.val]) (.tail _ (.head _)), hread (2, oMcReloads, [k.val]) (.tail _ (.tail _ (.head _)))⟩

end Sys2Proof.Machine
end

section
/-! SUPPORT. Refutes O3: a loop object that waits for a range change is written as the engine's failure opens the loop (06, R205, R211), and the model
lets such a write name any object, ENGINE_FAULT among them. -/

namespace Sys2Proof.Machine

/-- What follows every command leaves ENGINE_FAULT as the command made it. -/
theorem rd_after_engineFault (a b : Dev) (n : Ch) : rd (after a b) oEngineFault [n.val] = rd b oEngineFault [n.val] := by
  have hirq : keyOf oEngineFault [n.val] 0 ≠ keyOf oIrqStatus [] 0 := by
    simp [keyOf, objKey, dimsOff, oEngineFault, oIrqStatus]
    omega
  have hreset : ∀ (d : Dev) (e : Nat × Nat), rd (resetFault d e) oEngineFault [n.val] = rd d oEngineFault [n.val] := fun d e => by
    refine rd_wr_other _ _ _ _ _ _ ?_
    simp [keyOf, objKey, dimsOff, oEngineFault, oChFault]
    omega
  have hsettle : rd (settle b) oEngineFault [n.val] = rd b oEngineFault [n.val] :=
    foldl_keeps (fun d => rd d oEngineFault [n.val]) resetFault hreset _ _
  have hwatch : ∀ (l : List Nat) (d : Dev), rd (noteRisen l d) oEngineFault [n.val] = rd d oEngineFault [n.val] := fun l d => by
    cases l with
    | nil => rfl
    | cons i l => exact rd_wr_other d oIrqStatus oEngineFault _ [] [n.val] hirq
  exact (hwatch _ _).trans hsettle

/-- A command completes in one way: what the device is after it does not depend on the name given to its effect. -/
theorem after_of_completes {i : Instr} {s : State} {d e : Dev} (hd : Completes i s d) (he : Completes i s e) : after s.dev d = after s.dev e :=
  congrArg State.dev (Host.Outcome.next.inj (hd.symm.trans he))

theorem engineSelfCheckFail_chan {s : State} (n : Ch) (e : ChEngine) (hlive : Live s) :
    Completes (.engineSelfCheckFail (.chan n e)) s (channelEngineFails n e s.dev) := completes_of_onDev rfl hlive rfl

/-- A released device whose channel 0 is in a range change, with a write of its ENGINE_FAULT waiting for b_x. -/
def faultWriteWaits : State :=
  let released : Dev := { State.reset.dev with supply := { State.reset.dev.supply with released := true } }
  let change : LoopXover := ⟨0, 0, 1, 100, false, .primary, [(keyOf oEngineFault [0] 0, 0)]⟩
  { State.reset with dev := updLoop 0 (fun l => { l with st := .rangeXover, xover := some change }) released }

/-- The waiting write takes effect behind the failure's own, and ENGINE_FAULT reads 0. -/
theorem engineFault_overwritten : rd (channelEngineFails 0 .le faultWriteWaits.dev) oEngineFault [0] = 0 := by decide +kernel

/-- Refutes O3 by its first clause: the engine of channel 0 fails, and its bit of ENGINE_FAULT is not set. -/
theorem not_engineFailures : ¬ Obligations.EngineFailures := by
  intro h
  obtain ⟨hchan, -⟩ := h faultWriteWaits 0 0 rfl
  obtain ⟨d, hd, hbit, -⟩ := hchan 0 .le
  have hmodel := engineSelfCheckFail_chan (s := faultWriteWaits) 0 .le rfl
  have hzero : rd d oEngineFault [(0 : Ch).val] = 0 :=
    calc rd d oEngineFault [(0 : Ch).val]
      _ = rd (after faultWriteWaits.dev d) oEngineFault [(0 : Ch).val] := (rd_after_engineFault _ d 0).symm
      _ = rd (after faultWriteWaits.dev (channelEngineFails 0 .le faultWriteWaits.dev)) oEngineFault [(0 : Ch).val] := by
        rw [after_of_completes hd hmodel]
      _ = rd (channelEngineFails 0 .le faultWriteWaits.dev) oEngineFault [(0 : Ch).val] := rd_after_engineFault _ _ 0
      _ = 0 := engineFault_overwritten
  have hclear : bitOf 0 ChEngine.le.idx = false := by decide
  rw [hzero, hclear] at hbit
  cases hbit

end Sys2Proof.Machine
end

section
/-! SUPPORT. Refutes O44: ADMITTED_TICKS of a Keystone is computed from the settings that the COMMITTED transactions before it will leave (06, R192;
10, R313), and one of these may still be held on another die (02, R48) when the Keystone applies. -/

namespace Sys2Proof.Machine

/-- What follows every command touches no object but IRQ_STATUS and CH_FAULT. -/
theorem rd_after_of_ne {r : Row} {places : List Nat} (hirq : keyOf r places 0 ≠ keyOf oIrqStatus [] 0)
    (hfault : ∀ n : Nat, keyOf r places 0 ≠ keyOf oChFault [n] 0) (a b : Dev) : rd (after a b) r places = rd b r places := by
  have hsettle : rd (settle b) r places = rd b r places :=
    foldl_keeps (fun d => rd d r places) resetFault (fun d e => rd_wr_other _ _ _ _ _ _ (hfault _)) _ _
  have hwatch : ∀ (l : List Nat) (d : Dev), rd (noteRisen l d) r places = rd d r places := fun l d => by
    cases l with
    | nil => rfl
    | cons i l => exact rd_wr_other d oIrqStatus r _ [] places hirq
  exact (hwatch _ _).trans hsettle

/-- A committed transaction acts after what R51 puts before its tick. -/
theorem keystoneApply_completes {s : State} {p : Port} {slot : Fin 16} {u : Nat} (hlive : Live s)
    (hst : (portTxn s.dev p (slotNo slot)).st = .committed) (hu : applyTick s.dev (portTxn s.dev p (slotNo slot)) = some u) :
    Completes (.keystoneApply p slot) s
      (keystoneApply p (slotNo slot) (settleDue s.nv ⟨u, 1, (portTxn s.dev p (slotNo slot)).order⟩ [] s.dev)) :=
  completes_of_onDev rfl hlive (by simp only [hst, hu])

/-- COEF_ACTIVE of channel 0 goes to set 1 at the start of cycle 1, on Channel die 0. -/
def coefSwitch : Txn :=
  { txnFree with st := .committed, pos := 2 ^ 32, staged := [⟨0x3060, 3, [1]⟩], mask := 2, decided := 2, order := 1 }

/-- Admitted before it, for the same position: BQ_COUNT of set 1 of channel 0, on Channel die 0, and STALE_LIMIT of channel 4, on Channel die 1. The
decision has reached die 1 alone. -/
def biquadsBefore : Txn :=
  { txnFree with
    st := .committed, pos := 2 ^ 32, staged := [⟨0x3071, 9, [3]⟩, ⟨0x3431, 4, leBytes 4 120000⟩], mask := 6, decided := 4, order := 0 }

/-- A released device with both in slots 1 and 2 of Port N. Channel die 0 holds the record of cycle 1, and Channel die 1 does not yet, so that the
earlier transaction is held there. -/
def biquadsHeld : State :=
  let start := State.reset.dev
  let slots := start.ports[Port.n.idx]
  { State.reset with dev := { start with
    supply := { start.supply with released := true }
    dies := start.dies.set 0 { DieState.atReset with recs := start.cad.recs }
    ports := start.ports.set Port.n.idx { slots with txns := (slots.txns.set 0 coefSwitch).set 1 biquadsBefore } } }

/-- Cycle 1 begins at tick 4915200, after 20 ms. -/
theorem biquadsHeld_applyTick : applyTick biquadsHeld.dev coefSwitch = some 4915200 := by decide +kernel

/-- Nothing acts before the switch of the coefficients: the transaction before it has no tick yet. -/
theorem biquadsHeld_settled : settleDue biquadsHeld.nv ⟨4915200, 1, 1⟩ [] biquadsHeld.dev = biquadsHeld.dev := by
  have hdue : firstDue ⟨4915200, 1, 1⟩ (dueEvents biquadsHeld.dev []) = none := by decide +kernel
  have hnone : ∀ fuel, settleBy biquadsHeld.nv ⟨4915200, 1, 1⟩ [] fuel biquadsHeld.dev = biquadsHeld.dev := fun fuel => by
    cases fuel with
    | zero => rfl
    | succ k => rw [settleBy, hdue]
  exact hnone _

theorem biquadsHeld_switches : Completes (.keystoneApply .n 0) biquadsHeld (keystoneApply .n 1 biquadsHeld.dev) := by
  have happly := keystoneApply_completes (p := .n) (slot := 0) (s := biquadsHeld) rfl rfl biquadsHeld_applyTick
  rwa [show (portTxn biquadsHeld.dev .n (slotNo 0)).order = 1 from rfl, biquadsHeld_settled] at happly

/-- The three biquads that are not yet in force are counted: 60 + 14 × 3 ticks. -/
theorem biquadsHeld_admittedTicks : rd (keystoneApply .n 1 biquadsHeld.dev) oAdmittedTicks [0] = 102 := by decide +kernel

/-- Refutes O44 by the clause of COEF_ACTIVE: ADMITTED_TICKS is not that of the BQ_COUNT in force. -/
theorem not_keystoneApplies : ¬ Obligations.KeystoneApplies := by
  intro h
  obtain ⟨-, -, -, -, -, happly⟩ := h biquadsHeld .n 0 biquadsHeld.dev coefSwitch rfl
  obtain ⟨-, -, -, -, -, -, -, -, -, -, -, hcoef, -⟩ := happly 4915200 rfl biquadsHeld_applyTick biquadsHeld_settled.symm rfl
  have htogether : ∀ k ∈ applyDies coefSwitch, partTick biquadsHeld.dev k coefSwitch.pos = applyTick biquadsHeld.dev coefSwitch := by
    decide +kernel
  obtain ⟨d, ⟨hd, -⟩, -, -, hticks, -⟩ := hcoef 0 1 ⟨rfl, rfl, ⟨rfl, by decide, by decide, by rw [biquadsHeld_applyTick]; rfl, htogether⟩, rfl,
    by decide, rfl⟩ (by decide) (by decide +kernel) rfl
  have hinForce : rd biquadsHeld.dev oBqCount [0, 1] = 0 := by decide +kernel
  have hkey : keyOf oAdmittedTicks [0] 0 ≠ keyOf oIrqStatus [] 0 := by decide
  have hfault : ∀ n : Nat, keyOf oAdmittedTicks [0] 0 ≠ keyOf oChFault [n] 0 := fun n => by
    simp [keyOf, objKey, dimsOff, oAdmittedTicks, oChFault]
    omega
  have hmodel : rd d oAdmittedTicks [0] = 102 :=
    calc rd d oAdmittedTicks [0]
      _ = rd (after biquadsHeld.dev d) oAdmittedTicks [0] := (rd_after_of_ne hkey hfault _ d).symm
      _ = rd (after biquadsHeld.dev (keystoneApply .n 1 biquadsHeld.dev)) oAdmittedTicks [0] := by
        rw [after_of_completes hd biquadsHeld_switches]
      _ = rd (keystoneApply .n 1 biquadsHeld.dev) oAdmittedTicks [0] := rd_after_of_ne hkey hfault _ _
      _ = 102 := biquadsHeld_admittedTicks
  have hstated : rd d oAdmittedTicks [0] = 60 + 14 * rd biquadsHeld.dev oBqCount [0, 1] := hticks
  rw [hmodel, hinForce] at hstated
  cases hstated

end Sys2Proof.Machine
end

section
/-! SUPPORT. Signed values and counters as objects hold them (R8, R346), and what the wrap of a phase error gives (R61). -/

namespace Sys2Proof.Machine

theorem ofSigned_lt (bits : Nat) (i : Int) : ofSigned bits i < 2 ^ bits := by
  have hpos : (0 : Int) < ((2 ^ bits : Nat) : Int) := Int.natCast_pos.mpr (Nat.two_pow_pos bits)
  have hlt := Int.emod_lt_of_pos i hpos
  have hnonneg := Int.emod_nonneg i hpos.ne'
  unfold ofSigned
  omega

theorem ofSigned_mod (bits : Nat) (i : Int) : ofSigned bits i % 2 ^ bits = ofSigned bits i := Nat.mod_eq_of_lt (ofSigned_lt bits i)

/-- An object of a signed type gives back what was written, reduced to its size. -/
theorem rdI_wr_ofSigned (s : Dev) (r : Row) (i : Int) (l : List Nat) :
    rdI (wr s r (ofSigned (8 * r.size) i) l) r l = toSigned (8 * r.size) (ofSigned (8 * r.size) i) := by
  unfold rdI
  rw [rd_wr_same, ofSigned_mod]

theorem wrapPhase_bounds (p : Int) : -(2 ^ 31) ≤ wrapPhase p ∧ wrapPhase p < 2 ^ 31 := by
  have h := ofSigned_lt 32 p
  unfold wrapPhase toSigned
  split <;> omega

theorem wrapPhase_of_bounds {p : Int} (h : -(2 ^ 31) ≤ p ∧ p < 2 ^ 31) : wrapPhase p = p := by
  unfold wrapPhase toSigned ofSigned
  split <;> omega

theorem wrapPhase_wrapPhase (p : Int) : wrapPhase (wrapPhase p) = wrapPhase p := wrapPhase_of_bounds (wrapPhase_bounds p)

/-- A counter raised by one stops at the largest value of its type. -/
theorem rd_bump (r : Row) (l : List Nat) (s : Dev) : rd (bump r l s) r l = min (2 ^ (8 * r.size) - 1) (rd s r l + 1) := by
  have hpos := Nat.two_pow_pos (8 * r.size)
  unfold bump bumpBy
  rw [rd_wr_same, countUp_one, Nat.mod_eq_of_lt (by omega)]

theorem rd_bump_of_ne {r q : Row} {l m : List Nat} (h : keyOf q m 0 ≠ keyOf r l 0) (s : Dev) : rd (bump r l s) q m = rd s q m :=
  rd_wr_other _ _ _ _ _ _ h

end Sys2Proof.Machine
end

section
/-! SUPPORT. One RELOCK record (02, R61), and O7. -/

namespace Sys2Proof.Machine

theorem clampInt_symm (step : Nat) (c : Int) :
    (clampInt (-step) step c).natAbs ≤ step ∧ (c - clampInt (-step) step c).natAbs = c.natAbs - step ∧ 0 ≤ clampInt (-step) step c * c := by
  unfold clampInt
  split
  · refine ⟨by omega, by omega, mul_nonneg_of_nonpos_of_nonpos (by omega) (by omega)⟩
  · split
    · refine ⟨by omega, by omega, mul_nonneg (by omega) (by omega)⟩
    · refine ⟨by omega, by omega, mul_self_nonneg c⟩

/-- The part of the correction that the next RELOCK record runs. -/
def slewPart (d : Dev) : Int := clampInt (-(slewStep d : Int)) (slewStep d) d.cad.corrLeft

theorem relockRecord_corrLeft (d : Dev) : (relockRecord d).1.cad.corrLeft = d.cad.corrLeft - slewPart d := rfl
theorem relockRecord_corrRun (d : Dev) : (relockRecord d).1.cad.corrRun = d.cad.corrRun + slewPart d := rfl
theorem relockRecord_len (d : Dev) : (relockRecord d).2 = ((d.cad.lSrc : Int) - slewPart d).toNat := rfl

/-- SLIP_TOTAL with the last remainder: the phase error is run (log 16). -/
theorem relockRecord_slipTotal {d : Dev} (h : (relockRecord d).1.cad.corrLeft = 0) :
    rdI (relockRecord d).1 oSlipTotal [] = toSigned 64 (ofSigned 64 (d.cad.slipBase + d.cad.err)) := by
  have hleft : d.cad.corrLeft - clampInt (-(slewStep d : Int)) (slewStep d) d.cad.corrLeft = 0 := h
  unfold relockRecord
  dsimp only
  rw [if_pos hleft, if_pos hleft]
  exact rdI_wr_ofSigned _ oSlipTotal _ []

/-- Settles O7: the part run at one boundary is the correction left, held within the slew step. -/
theorem relockRuns : Obligations.RelockRuns := by
  intro d r x
  have hx : x = slewPart d := by
    show d.cad.corrLeft - r.1.cad.corrLeft = slewPart d
    rw [relockRecord_corrLeft]
    omega
  obtain ⟨hstep, hleft, hsign⟩ := clampInt_symm (slewStep d) d.cad.corrLeft
  have hlen : r.2 = ((d.cad.lSrc : Int) - slewPart d).toNat := relockRecord_len d
  rw [← slewPart] at hstep hleft hsign
  refine ⟨?_, ?_, ?_, hleft, fun hfits => ?_, relockRecord_slipTotal, rfl, rfl, rfl⟩
  · rw [relockRecord_corrLeft, relockRecord_corrRun]
    omega
  · rw [hx]
    exact hstep
  · rw [hx]
    exact hsign
  · rw [hx, hlen]
    omega

end Sys2Proof.Machine
end

section
/-! SUPPORT. Positions, stamps and records (02, R47, R49, R52), and O9. -/

namespace Sys2Proof.Machine

theorem recPlace_cons (n : Rec) (t : List Rec) (c : Nat) : recPlace (n :: t) c = (n.c + 2 ^ 32 - c % 2 ^ 32) % 2 ^ 32 := rfl

/-- Where the cycle next to a record begins late enough, it does not cut the record short. -/
theorem recLast_of_uncut {a : List Rec} {r : Rec} {b : List Rec} {x : Nat} (h : ∀ q, a.getLast? = some q → x < q.base) :
    recLast (a ++ r :: b) a.length x = x := by
  cases ha : a.length with
  | zero => rfl
  | succ j =>
    have hlast : a.getLast? = a[j]? := by rw [List.getLast?_eq_getElem?, ha, Nat.add_sub_cancel]
    have hj : j < a.length := by omega
    have hq := h a[j] (by rw [hlast, List.getElem?_eq_getElem hj])
    simp only [recLast, List.getElem?_append_left hj, List.getElem?_eq_getElem hj]
    exact Nat.min_eq_left (by omega)

/-- The tick of a position is the first whole tick at or after its stamp (R49). -/
theorem tickNear_of_stampOf {recs : List Rec} {p x : Nat} (h : stampOf recs p = some x) :
    x ≤ 256 * tickNear recs p ∧ 256 * tickNear recs p < x + 256 := by
  have hnear : stampNear recs p = x := by
    unfold stampNear
    rw [h]
  unfold tickNear
  rw [hnear]
  omega

/-- Settles O9: the record of a position is found by its place, counted back from the newest. -/
theorem stampRule : Obligations.StampRule := by
  intro n t p hp recs f back
  have hcycle : p / 2 ^ 32 % 2 ^ 32 = p / 2 ^ 32 := Nat.mod_eq_of_lt (by omega)
  have hplace : recPlace recs (p / 2 ^ 32 % 2 ^ 32) = back := by
    rw [recPlace_cons, hcycle, hcycle]
  have hstamp : stampOf recs p = (recs[back]?).map fun r => recLast recs back (r.base + f * r.len / 2 ^ 32) := by
    unfold stampOf recFind
    dsimp only
    rw [hplace]
  refine ⟨fun hmissing => ?_, fun a r b hrecs hback => ?_⟩
  · rw [hstamp, List.getElem?_eq_none hmissing]
    rfl
  · intro stamp huncut
    have hfound : stampOf recs p = some stamp := by
      rw [hstamp, hrecs, ← hback, List.getElem?_append_right (Nat.le_refl _), Nat.sub_self]
      exact congrArg some (recLast_of_uncut huncut)
    exact ⟨hfound, tickNear_of_stampOf hfound⟩

end Sys2Proof.Machine
end

section
/-! SUPPORT. The operations of the Cadence Unit (02, R58 to R61): what each sets, and that none of them touches published records, channels, dies or
the Zhewick link. -/

namespace Sys2Proof.Machine

/-- From `a` to `b` the Cadence Unit has kept its published records, the last input event and its phase error, and nothing outside it has changed that
a later statement asks for. -/
structure CadenceKept (a b : Dev) : Prop where
  recs : b.cad.recs = a.cad.recs
  lastEvent : b.cad.lastEvent = a.cad.lastEvent
  phaseErr : rd b oPhaseErr [] = rd a oPhaseErr []
  chans : b.chans = a.chans
  dies : b.dies = a.dies
  zh : b.zh = a.zh

theorem CadenceKept.trans {a b c : Dev} (h : CadenceKept a b) (g : CadenceKept b c) : CadenceKept a c :=
  ⟨g.recs.trans h.recs, g.lastEvent.trans h.lastEvent, g.phaseErr.trans h.phaseErr, g.chans.trans h.chans, g.dies.trans h.dies, g.zh.trans h.zh⟩

theorem CadenceKept.refl (s : Dev) : CadenceKept s s := ⟨rfl, rfl, rfl, rfl, rfl, rfl⟩

/-- A change of the Cadence Unit's own fields, records and last event apart, may come first. -/
theorem CadenceKept.of_cad {s t : Dev} {c : Cadence} (h : CadenceKept { s with cad := c } t) (hrecs : c.recs = s.cad.recs)
    (hevent : c.lastEvent = s.cad.lastEvent) : CadenceKept s t :=
  ⟨h.recs.trans hrecs, h.lastEvent.trans hevent, h.phaseErr, h.chans, h.dies, h.zh⟩

/-! ### Entry to a state -/

/-- The counters of holdover that an entry to a state writes (Table 2.2). -/
theorem cadEnter_objs (st : CadState) (s : Dev) : ∃ c, cadEnter st s = { s with objs := (cadEnter st s).objs, cad := c } := by
  unfold cadEnter
  dsimp only
  split <;> split <;> exact ⟨_, rfl⟩

/-- An entry to a state writes no object but the two counters of holdover. -/
theorem rd_cadEnter_of_ne {r : Row} {l : List Nat} (hlast : keyOf r l 0 ≠ keyOf oLastHoldover [] 0)
    (hcount : keyOf r l 0 ≠ keyOf oHoldoverCount [] 0) (st : CadState) (s : Dev) : rd (cadEnter st s) r l = rd s r l := by
  have hfirst : ∀ c : Prop, [Decidable c] → rd (if c then wr s oLastHoldover s.cad.holdCycles [] else s) r l = rd s r l := fun c _ => by
    split
    · exact rd_wr_other _ _ _ _ _ _ hlast
    · rfl
  have hsecond : ∀ (c : Prop) (d : Dev), [Decidable c] → rd (if c then bump oHoldoverCount [] d else d) r l = rd d r l := fun c d _ => by
    split
    · exact rd_bump_of_ne hcount d
    · rfl
  exact (hsecond _ _).trans (hfirst _)

theorem cadEnter_kept (st : CadState) (s : Dev) : CadenceKept s (cadEnter st s) := by
  obtain ⟨c, hc⟩ := cadEnter_objs st s
  refine ⟨rfl, rfl, rd_cadEnter_of_ne (by decide) (by decide) st s, ?_, ?_, ?_⟩ <;> rw [hc]

/-- HOLDOVER_COUNT counts the entries to HOLDOVER from another state. -/
theorem cadEnter_holdover_count {s : Dev} (h : s.cad.st ≠ .holdover) :
    rd (cadEnter .holdover s) oHoldoverCount [] = min (2 ^ 32 - 1) (rd s oHoldoverCount [] + 1) := by
  have hnew : (CadState.holdover = .holdover && s.cad.st ≠ .holdover) = true := by simp [h]
  have hsame : ¬ (s.cad.st = .holdover && CadState.holdover ≠ .holdover) = true := by simp
  have hobjs : (cadEnter .holdover s).objs = (bump oHoldoverCount [] s).objs := by
    unfold cadEnter
    dsimp only
    rw [if_pos hnew, if_neg hsame]
  rw [rd_of_objs _ _ _ _ hobjs]
  exact rd_bump oHoldoverCount [] s

/-! ### Loss of the source -/

/-- A device whose Cadence Unit tracks an input: LOCKED or RELOCK. -/
def tracks (s : Dev) : Prop := s.cad.st = .locked ∨ s.cad.st = .relock

/-- A loss in LOCKED or RELOCK begins HOLDOVER with L frozen and the correction abandoned (Table 2.2). -/
theorem cadLose_of_tracks {s : Dev} (h : tracks s) :
    cadLose s = cadEnter .holdover (nextFree { s with cad := { s.cad with
      lHold := slewBound s (newestLen s) (Config.loopFilterHold s.free), corrLeft := 0, tail := 0 } }) := by
  obtain h | h := h
  all_goals
    unfold cadLose
    rw [h]

theorem cadLose_kept (s : Dev) : CadenceKept s (cadLose s) := by
  have hholds : tracks s → CadenceKept s (cadLose s) := fun h => by
    rw [cadLose_of_tracks h]
    refine CadenceKept.trans ?_ (cadEnter_kept .holdover _)
    exact ⟨rfl, rfl, rfl, rfl, rfl, rfl⟩
  cases hst : s.cad.st with
  | locked => exact hholds (.inl hst)
  | relock => exact hholds (.inr hst)
  | freerun | acquire | holdover =>
    unfold cadLose
    rw [hst]
    exact (CadenceKept.refl _).of_cad rfl rfl

/-- What a loss in LOCKED or RELOCK leaves the Cadence Unit with (R59, Table 2.2). -/
theorem cadLose_effect {s : Dev} (h : tracks s) :
    (cadLose s).cad.st = .holdover ∧ (cadLose s).cad.lHold = slewBound s (newestLen s) (Config.loopFilterHold s.free) ∧
      (cadLose s).cad.corrLeft = 0 ∧ (cadLose s).cad.present = s.cad.present ∧ (cadLose s).now = s.now ∧
      rd (cadLose s) oSlipTotal [] = rd s oSlipTotal [] ∧
      rd (cadLose s) oHoldoverCount [] = min (2 ^ 32 - 1) (rd s oHoldoverCount [] + 1) := by
  have hst : s.cad.st ≠ .holdover := by
    obtain h | h := h <;> rw [h] <;> decide
  rw [cadLose_of_tracks h]
  refine ⟨rfl, rfl, rfl, rfl, ?_, rd_cadEnter_of_ne (by decide) (by decide) _ _, cadEnter_holdover_count hst⟩
  obtain ⟨c, hc⟩ := cadEnter_objs .holdover (nextFree { s with cad := { s.cad with
    lHold := slewBound s (newestLen s) (Config.loopFilterHold s.free), corrLeft := 0, tail := 0 } })
  rw [hc]
  rfl

/-! ### Qualification and the tests in LOCKED -/

theorem qualify_kept (l : Nat) (e : Int) (s : Dev) : CadenceKept s (qualify l e s) :=
  (cadEnter_kept .relock s).trans ((CadenceKept.refl _).of_cad rfl rfl)

theorem runEvent_kept (stamp : Nat) (p : Int) (s : Dev) : CadenceKept s (runEvent stamp p s) := by
  unfold runEvent
  dsimp only
  split
  · exact (qualify_kept _ _ _).of_cad rfl rfl
  · exact (CadenceKept.refl _).of_cad rfl rfl

/-- A loss that a test may declare. -/
theorem lossIf_kept (c : Prop) [Decidable c] (s : Dev) : CadenceKept s (if c then cadLose s else s) := by
  split
  · exact cadLose_kept s
  · exact CadenceKept.refl s

theorem phaseTest_kept (p : Int) (s : Dev) : CadenceKept s (phaseTest p s) := (lossIf_kept _ _).of_cad rfl rfl

theorem freqTest_kept (bad badReel : Bool) (s : Dev) : CadenceKept s (freqTest bad badReel s) := (lossIf_kept _ _).of_cad rfl rfl

/-- Cycles inside the range of Table 2.1 clear the counts of the frequency tests. -/
theorem freqTest_good (s : Dev) : freqTest false false s = { s with cad := { s.cad with badFreq := 0, badReel := 0 } } := by
  unfold freqTest
  by_cases h : s.cad.src = 2 <;> simp [h]

/-- A phase error within 16 × LOCK_THRESH clears its count. -/
theorem phaseTest_good {p : Int} {s : Dev} (h : p.natAbs ≤ 16 * rd s oLockThresh []) :
    phaseTest p s = { s with cad := { s.cad with badPhase := 0 } } := by
  unfold phaseTest
  simp [Nat.not_lt.mpr h]

/-- One beyond it is counted. -/
theorem phaseTest_first {p : Int} {s : Dev} (h : 16 * rd s oLockThresh [] < p.natAbs) (hfirst : s.cad.badPhase = 0) :
    phaseTest p s = { s with cad := { s.cad with badPhase := 1 } } := by
  unfold phaseTest
  simp [h, hfirst]

/-- The second in a row is a loss. -/
theorem phaseTest_second {p : Int} {s : Dev} (h : 16 * rd s oLockThresh [] < p.natAbs) (hsecond : 1 ≤ s.cad.badPhase) :
    phaseTest p s = cadLose { s with cad := { s.cad with badPhase := s.cad.badPhase + 1 } } := by
  have htwo : 2 ≤ s.cad.badPhase + 1 := by omega
  unfold phaseTest
  simp [h, htwo]

/-- The last cycle out of the range of Table 2.1 that is borne is followed by a loss. -/
theorem freqTest_loses {badReel : Bool} {s : Dev} (h : (if s.cad.src = 2 then 1 else 3) ≤ s.cad.badFreq) :
    ∃ c : Cadence, c.st = s.cad.st ∧ freqTest true badReel s = cadLose { s with cad := c } := by
  have hlimit : (if s.cad.src = 2 then 2 else 4) ≤ s.cad.badFreq + 1 := by
    split at h
    · next h2 => rw [if_pos h2]; omega
    · next h2 => rw [if_neg h2]; omega
  refine ⟨{ s.cad with
    badFreq := s.cad.badFreq + 1, badReel := if badReel && s.cad.st == .locked then s.cad.badReel + 1 else 0 }, rfl, ?_⟩
  unfold freqTest
  simp [hlimit]

end Sys2Proof.Machine
end

section
/-! SUPPORT. INPUT_BOUNDARY_EVENT and SOURCE_LOSS_TIMEOUT (02, R58; Tables 2.2 and 2.3), O4 and O5. -/

namespace Sys2Proof.Machine

/-! ### The event noted -/

/-- The length of the input cycle that an event ends. -/
def inputLen (stamp : Nat) (s : Dev) : Option Nat :=
  match s.cad.lastEvent with
  | some l => if l < stamp then some (stamp - l) else none
  | none => none

/-- The device at the tick of an input event, with the event noted. -/
def eventTaken (stamp : Nat) (s : Dev) : Dev :=
  let a := advance ((stamp + 255) / 256) s
  { a with cad := { a.cad with lastEvent := some stamp, lastLen := inputLen stamp s, present := true } }

/-- The device with the phase error of an event and FREQ_RANGE_ERR noted. -/
def phaseNoted (stamp : Nat) (bad : Bool) (s : Dev) : Dev :=
  let n := wr s oPhaseErr (ofSigned 32 (phaseError s stamp)) []
  { n with cad := { n.cad with rangeErr := bad } }

/-- The cycle that an event ends is good: its input frequency, and the Reel's, lie in their ranges. -/
def goodInput (len : Option Nat) (s : Dev) : Bool := len.all (inputInRange s) && len.all (reelInRange s)

theorem inputLen_of_lastEvent {stamp l : Nat} {s : Dev} (h : s.cad.lastEvent = some l) (hlt : l < stamp) : inputLen stamp s = some (stamp - l) := by
  simp [inputLen, h, hlt]

theorem inputBoundaryEvent_tests {s : State} (stamp mv : Nat) (hlive : Live s) (hsrc : s.dev.cad.src ≤ 2) :
    Completes (.inputBoundaryEvent stamp mv) s (inputTests stamp mv (inputLen stamp s.dev) (eventTaken stamp s.dev)) :=
  completes_of_onDev rfl hlive (congrArg Host.Outcome.next (if_pos hsrc))

theorem rd_phaseNoted_of_ne {r : Row} (h : keyOf r [] 0 ≠ keyOf oPhaseErr [] 0) (stamp : Nat) (bad : Bool) (s : Dev) :
    rd (phaseNoted stamp bad s) r [] = rd s r [] := rd_wr_other _ _ _ _ _ _ h

theorem rd_phaseNoted_phaseErr (stamp : Nat) (bad : Bool) (s : Dev) :
    rd (phaseNoted stamp bad s) oPhaseErr [] = ofSigned 32 (phaseError s stamp) % 2 ^ 32 := rd_wr_same _ oPhaseErr _ []

/-! ### The ranges of Table 2.1 do not depend on PHASE_ERR -/

theorem inputInRange_wr_phaseErr (v : Nat) (s : Dev) : inputInRange (wr s oPhaseErr v []) = inputInRange s := by
  funext x
  unfold inputInRange
  rw [rd_wr_other _ _ _ _ _ _ (by decide), rd_wr_other _ _ _ _ _ _ (by decide)]
  rfl

theorem reelPerInput_phaseNoted (stamp : Nat) (bad : Bool) (s : Dev) : reelPerInput (phaseNoted stamp bad s) = reelPerInput s := by
  unfold reelPerInput
  rw [rd_phaseNoted_of_ne (by decide)]
  rfl

theorem reelInRange_wr_phaseErr (v : Nat) (s : Dev) : reelInRange (wr s oPhaseErr v []) = reelInRange s := by
  funext x
  unfold reelInRange reelPerInput
  rw [rd_wr_other _ _ _ _ _ _ (by decide)]
  rfl

/-! ### The tests by the state of the Cadence Unit -/

/-- What the tests of R58 make of a noted event, whose input and Reel frequencies are in range or not. -/
def inputJudged (stamp mv : Nat) (counted inOk reelOk : Bool) (p : Int) (n : Dev) : Dev :=
  match n.cad.st with
  | .acquire | .holdover =>
    if counted && (inOk && reelOk) && (n.cad.src ≠ 0 || 200 ≤ mv) then runEvent stamp p n
    else { n with cad := { n.cad with run := [stamp], runPhase := [p] } }
  | .locked =>
    if n.cad.src = 0 && mv < 100 then cadLose n
    else
      let t := freqTest (!inOk) (!reelOk) n
      if t.cad.st = .locked then phaseTest p t else t
  | .relock => if n.cad.src = 0 && mv < 100 then cadLose n else freqTest (!inOk) (!reelOk) n
  | .freerun => n

theorem inputTests_eq (stamp mv : Nat) (len : Option Nat) (s : Dev) : inputTests stamp mv len s =
    inputJudged stamp mv len.isSome (len.all (inputInRange s)) (len.all (reelInRange s)) (phaseError s stamp)
      (phaseNoted stamp (!goodInput len s) s) := by
  unfold inputTests
  dsimp only
  rw [inputInRange_wr_phaseErr, reelInRange_wr_phaseErr]
  rfl

section Judged
variable {stamp mv : Nat} {counted inOk reelOk : Bool} {p : Int} {n : Dev}

/-- The amplitude of a mains crossing is no matter of another source. -/
theorem not_weak (h : n.cad.src ≠ 0 ∨ 100 ≤ mv) : ¬ (n.cad.src = 0 && mv < 100) = true := by
  simp only [Bool.and_eq_true, decide_eq_true_eq]
  omega

/-- A crossing too weak to be one is a loss (Table 2.3). -/
theorem inputJudged_weak (h : tracks n) (hmains : n.cad.src = 0) (hmv : mv < 100) :
    inputJudged stamp mv counted inOk reelOk p n = cadLose n := by
  obtain h | h := h <;> simp [inputJudged, h, hmains, hmv]

theorem inputJudged_locked (h : n.cad.st = .locked) (hmv : n.cad.src ≠ 0 ∨ 100 ≤ mv) :
    inputJudged stamp mv counted inOk reelOk p n =
      if (freqTest (!inOk) (!reelOk) n).cad.st = .locked then phaseTest p (freqTest (!inOk) (!reelOk) n) else freqTest (!inOk) (!reelOk) n := by
  unfold inputJudged
  simp only [h]
  rw [if_neg (not_weak hmv)]

theorem inputJudged_relock (h : n.cad.st = .relock) (hmv : n.cad.src ≠ 0 ∨ 100 ≤ mv) :
    inputJudged stamp mv counted inOk reelOk p n = freqTest (!inOk) (!reelOk) n := by
  unfold inputJudged
  simp only [h]
  rw [if_neg (not_weak hmv)]

/-- In LOCKED a good cycle leaves the phase test (R58). -/
theorem inputJudged_locked_good (h : n.cad.st = .locked) (hmv : n.cad.src ≠ 0 ∨ 100 ≤ mv) :
    inputJudged stamp mv counted true true p n = phaseTest p { n with cad := { n.cad with badFreq := 0, badReel := 0 } } := by
  rw [inputJudged_locked h hmv, Bool.not_true, freqTest_good, if_pos h]

/-- The last cycle out of range that is borne is followed by a loss, in LOCKED and in RELOCK. -/
theorem inputJudged_loses (h : tracks n) (hmv : n.cad.src ≠ 0 ∨ 100 ≤ mv) (hbad : (if n.cad.src = 2 then 1 else 3) ≤ n.cad.badFreq) :
    ∃ c : Cadence, tracks { n with cad := c } ∧ inputJudged stamp mv counted false reelOk p n = cadLose { n with cad := c } := by
  obtain ⟨c, hst, hm⟩ := freqTest_loses (badReel := !reelOk) hbad
  have htracks : tracks { n with cad := c } := by
    unfold tracks
    rw [hst]
    exact h
  refine ⟨c, htracks, ?_⟩
  obtain h | h := h
  · have hlost : (freqTest (!false) (!reelOk) n).cad.st = .holdover := hm ▸ (cadLose_effect htracks).1
    rw [inputJudged_locked h hmv, hlost]
    exact hm
  · rw [inputJudged_relock h hmv]
    exact hm

/-- In ACQUIRE or HOLDOVER a good cycle continues the run. -/
theorem inputJudged_runs (h : n.cad.st = .acquire ∨ n.cad.st = .holdover) (hmv : n.cad.src ≠ 0 ∨ 200 ≤ mv) :
    inputJudged stamp mv true true true p n = runEvent stamp p n := by
  have hgood : (true && (true && true) && (n.cad.src ≠ 0 || 200 ≤ mv)) = true := by simpa using hmv
  unfold inputJudged
  obtain h | h := h
  all_goals
    simp only [h]
    rw [if_pos hgood]

/-- A cycle that is not good begins a new one. -/
theorem inputJudged_restarts (h : n.cad.st = .acquire ∨ n.cad.st = .holdover) (hbad : (inOk && reelOk) = false) :
    inputJudged stamp mv counted inOk reelOk p n = { n with cad := { n.cad with run := [stamp], runPhase := [p] } } := by
  unfold inputJudged
  obtain h | h := h <;> simp [h, hbad]

theorem inputJudged_kept : CadenceKept n (inputJudged stamp mv counted inOk reelOk p n) := by
  unfold inputJudged
  dsimp only
  split
  · split
    · exact runEvent_kept _ _ _
    · exact (CadenceKept.refl _).of_cad rfl rfl
  · split
    · exact runEvent_kept _ _ _
    · exact (CadenceKept.refl _).of_cad rfl rfl
  · split
    · exact cadLose_kept n
    · split
      · exact (freqTest_kept _ _ n).trans (phaseTest_kept _ _)
      · exact freqTest_kept _ _ n
  · split
    · exact cadLose_kept n
    · exact freqTest_kept _ _ n
  · exact CadenceKept.refl n

end Judged

/-! ### The event as a whole -/

/-- The device with an input event, its phase error and FREQ_RANGE_ERR noted. -/
def eventNoted (stamp : Nat) (bad : Bool) (s : Dev) : Dev := phaseNoted stamp bad (eventTaken stamp s)

theorem inputBoundaryEvent_judged {s : State} (stamp mv : Nat) (hlive : Live s) (hsrc : s.dev.cad.src ≤ 2) :
    Completes (.inputBoundaryEvent stamp mv) s
      (inputJudged stamp mv (inputLen stamp s.dev).isSome ((inputLen stamp s.dev).all (inputInRange s.dev))
        ((inputLen stamp s.dev).all (reelInRange s.dev)) (phaseError s.dev stamp)
        (eventNoted stamp (!goodInput (inputLen stamp s.dev) s.dev) s.dev)) := by
  have htests := inputBoundaryEvent_tests stamp mv hlive hsrc
  rw [inputTests_eq] at htests
  exact htests

/-- An event that ends a cycle, begun at the event before it. -/
theorem inputBoundaryEvent_cycle {s : State} {stamp l : Nat} (mv : Nat) (hlive : Live s) (hsrc : s.dev.cad.src ≤ 2)
    (hlast : s.dev.cad.lastEvent = some l) (hlt : l < stamp) :
    Completes (.inputBoundaryEvent stamp mv) s
      (inputJudged stamp mv true (inputInRange s.dev (stamp - l)) (reelInRange s.dev (stamp - l)) (phaseError s.dev stamp)
        (eventNoted stamp (!(inputInRange s.dev (stamp - l) && reelInRange s.dev (stamp - l))) s.dev)) := by
  have hjudged := inputBoundaryEvent_judged stamp mv hlive hsrc
  rw [inputLen_of_lastEvent hlast hlt] at hjudged
  exact hjudged

theorem rd_eventNoted_of_ne {r : Row} (h : keyOf r [] 0 ≠ keyOf oPhaseErr [] 0) (stamp : Nat) (bad : Bool) (s : Dev) :
    rd (eventNoted stamp bad s) r [] = rd s r [] := rd_phaseNoted_of_ne h _ _ _

theorem slewBound_eventNoted (stamp : Nat) (bad : Bool) (s : Dev) (prev x : Nat) :
    slewBound (eventNoted stamp bad s) prev x = slewBound s prev x := by
  unfold slewBound
  rw [rd_eventNoted_of_ne (by decide)]

/-! ### The end of qualification -/

/-- The event that completes 16 good cycles ends qualification (R58): RELOCK with L_src and e measured (R61). -/
theorem runEvent_qualifies {stamp : Nat} {p : Int} {s : Dev} (hlen : s.cad.run.length = 16) (hsteady : runSteady (stamp :: s.cad.run) = true) :
    runEvent stamp p s = qualify (roundOpen ((stamp - s.cad.run.getLastD 0 : Nat) : Int) (16 * reelPerInput s : Nat)).toNat
      (fitError (stamp :: s.cad.run.take 15) ((p :: s.cad.runPhase).take 16) (nextBoundary s.cad))
      { s with cad := { s.cad with run := stamp :: s.cad.run, runPhase := (p :: s.cad.runPhase).take 17 } } := by
  have htake : (stamp :: s.cad.run).take 17 = stamp :: s.cad.run := List.take_of_length_le (by simp [hlen])
  have hfirst : (stamp :: s.cad.run).getLastD 0 = s.cad.run.getLastD 0 := by
    cases hrun : s.cad.run with
    | nil => simp [hrun] at hlen
    | cons a t => rfl
  unfold runEvent
  dsimp only
  rw [htake, if_pos hsteady, hfirst, List.take_take]
  push_cast
  rfl

/-- What RELOCK begins with (R61); the phase error is within half a cycle. -/
theorem qualify_effect (l : Nat) (stamps : List Nat) (phases : List Int) (b : Nat) (s : Dev) :
    let q := qualify l (fitError stamps phases b) s
    q.cad.st = .relock ∧ q.cad.lSrc = l ∧ q.cad.err = fitError stamps phases b ∧ -(2 ^ 31) ≤ q.cad.err ∧ q.cad.err < 2 ^ 31 ∧
      q.cad.corrLeft = roundOpen (q.cad.err * q.cad.lSrc) (2 ^ 32) ∧ q.cad.corrRun = 0 := by
  obtain ⟨hlow, hhigh⟩ : -(2 ^ 31) ≤ fitError stamps phases b ∧ fitError stamps phases b < 2 ^ 31 := wrapPhase_bounds _
  exact ⟨rfl, rfl, rfl, hlow, hhigh, rfl, rfl⟩

/-- Settles O5: the seventeenth event ends the run of the noted device, and RELOCK takes its measurements. -/
theorem qualification : Obligations.Qualification := by
  intro s stamp mv l hlive hsrc hlast hlt hst hin hreel hmv hlen hsteady stamps phases
  have hdone := inputBoundaryEvent_cycle mv hlive hsrc hlast hlt
  rw [hin, hreel] at hdone
  generalize hn : eventNoted stamp (!(true && true)) s.dev = n at hdone
  have hcad : n.cad.st = s.dev.cad.st ∧ n.cad.src = s.dev.cad.src ∧ n.cad.run = s.dev.cad.run ∧ n.cad.runPhase = s.dev.cad.runPhase ∧
      n.cad.recs = s.dev.cad.recs := by
    rw [← hn]
    exact ⟨rfl, rfl, rfl, rfl, rfl⟩
  obtain ⟨hnst, hnsrc, hnrun, hnphase, hnrecs⟩ := hcad
  have hper : reelPerInput n = reelPerInput s.dev := hn ▸ reelPerInput_phaseNoted _ _ _
  have hruns := inputJudged_runs (stamp := stamp) (mv := mv) (p := phaseError s.dev stamp) (hnst ▸ hst) (hnsrc ▸ hmv)
  have hkept := runEvent_kept stamp (phaseError s.dev stamp) n
  rw [runEvent_qualifies (hnrun ▸ hlen) (hnrun ▸ hsteady)] at hruns hkept
  rw [hruns] at hdone
  obtain ⟨hq, hlSrc, herr, hlow, hhigh, hleft, hrun⟩ := qualify_effect
    (roundOpen ((stamp - n.cad.run.getLastD 0 : Nat) : Int) (16 * reelPerInput n : Nat)).toNat
    (stamp :: n.cad.run.take 15) ((phaseError s.dev stamp :: n.cad.runPhase).take 16) (nextBoundary n.cad)
    { n with cad := { n.cad with run := stamp :: n.cad.run, runPhase := (phaseError s.dev stamp :: n.cad.runPhase).take 17 } }
  have hnext : nextBoundary n.cad = nextBoundary s.dev.cad := by
    unfold nextBoundary
    rw [hnrecs]
  refine ⟨_, hdone, hq, hkept.recs.trans hnrecs, ?_, ?_, hlow, hhigh, hleft, hrun, hkept.chans.trans ?_, hkept.dies.trans ?_, hkept.zh.trans ?_⟩
  · rw [hlSrc, hper, hnrun]
  · rw [herr, hnrun, hnphase, hnext]
  all_goals
    rw [← hn]
    rfl

/-! ### O4 -/

theorem sourceLossTimeout_loses {s : State} (hlive : Live s) (hsrc : s.dev.cad.src ≤ 2) :
    let a := advance (lossDue s.dev) s.dev
    Completes .sourceLossTimeout s (cadLose { a with cad := { a.cad with present := false, lastEvent := none, lastLen := none } }) :=
  completes_of_onDev rfl hlive (congrArg Host.Outcome.next (if_pos hsrc))

theorem lossDue_mains {s : Dev} {e : Nat} (h : s.cad.lastEvent = some e) (hsrc : s.cad.src = 0) :
    lossDue s = (e + s.cad.lSrc + s.cad.lSrc / 4 + 255) / 256 := by simp [lossDue, h, hsrc]
theorem lossDue_refclk {s : Dev} {e : Nat} (h : s.cad.lastEvent = some e) (hsrc : s.cad.src = 1) : lossDue s = e / 256 + 984 := by
  simp [lossDue, h, hsrc]
theorem lossDue_pps {s : Dev} {e : Nat} (h : s.cad.lastEvent = some e) (hsrc : s.cad.src = 2) :
    lossDue s = (e + unitsPerSecond + unitsPerSecond / 4 + 255) / 256 := by simp [lossDue, h, hsrc]

/-- A loss that a noted event is the cause of. -/
theorem eventNoted_loses {stamp : Nat} {bad : Bool} {s : Dev} {c : Cadence} (h : tracks { eventNoted stamp bad s with cad := c })
    (hrecs : c.recs = s.cad.recs) :
    let d := cadLose { eventNoted stamp bad s with cad := c }
    d.cad.st = .holdover ∧ d.cad.recs = s.cad.recs ∧ d.cad.lHold = slewBound s (newestLen s) (Config.loopFilterHold s.free) ∧
      d.chans = s.chans ∧ d.dies = s.dies ∧ rd d oHoldoverCount [] = min (2 ^ 32 - 1) (rd s oHoldoverCount [] + 1) := by
  obtain ⟨hst, hhold, -, -, -, -, hcount⟩ := cadLose_effect h
  have hkept := cadLose_kept { eventNoted stamp bad s with cad := c }
  have hnewest : newestLen { eventNoted stamp bad s with cad := c } = newestLen s := by
    unfold newestLen
    simp only [hrecs]
  refine ⟨hst, hkept.recs.trans hrecs, ?_, hkept.chans, hkept.dies, ?_⟩
  · rw [hhold, hnewest]
    exact slewBound_eventNoted stamp bad s _ _
  · rw [hcount]
    exact congrArg (fun v => min (2 ^ 32 - 1) (v + 1)) (rd_eventNoted_of_ne (r := oHoldoverCount) (by decide) stamp bad s)

/-- The device with a good event noted in LOCKED. -/
def goodNoted (stamp : Nat) (s : Dev) : Dev :=
  { eventNoted stamp false s with cad := { (eventNoted stamp false s).cad with badFreq := 0, badReel := 0 } }

theorem rd_goodNoted_lockThresh (stamp : Nat) (s : Dev) : rd (goodNoted stamp s) oLockThresh [] = rd s oLockThresh [] :=
  rd_eventNoted_of_ne (by decide) stamp false s

/-- A good event in LOCKED leaves the phase test (R58). -/
theorem inputBoundaryEvent_locked {s : State} {stamp mv l : Nat} (hlive : Live s) (hsrc : s.dev.cad.src ≤ 2)
    (hlast : s.dev.cad.lastEvent = some l) (hlt : l < stamp) (hst : s.dev.cad.st = .locked)
    (hin : inputInRange s.dev (stamp - l) = true) (hreel : reelInRange s.dev (stamp - l) = true) (hmv : s.dev.cad.src ≠ 0 ∨ 100 ≤ mv) :
    Completes (.inputBoundaryEvent stamp mv) s (phaseTest (phaseError s.dev stamp) (goodNoted stamp s.dev)) := by
  have hdone := inputBoundaryEvent_cycle mv hlive hsrc hlast hlt
  rw [hin, hreel, inputJudged_locked_good (n := eventNoted stamp (!(true && true)) s.dev) hst hmv] at hdone
  exact hdone

/-- The last cycle out of the range of Table 2.1 that is borne loses the source (R58). -/
theorem inputBoundaryEvent_outOfRange {s : State} {stamp mv l : Nat} (hlive : Live s) (hsrc : s.dev.cad.src ≤ 2)
    (hlast : s.dev.cad.lastEvent = some l) (hlt : l < stamp) (hst : tracks s.dev) (hmv : s.dev.cad.src ≠ 0 ∨ 100 ≤ mv)
    (hout : inputInRange s.dev (stamp - l) = false) (hbad : (if s.dev.cad.src = 2 then 1 else 3) ≤ s.dev.cad.badFreq) :
    ∃ d, Completes (.inputBoundaryEvent stamp mv) s d ∧ d.cad.st = .holdover ∧ d.cad.recs = s.dev.cad.recs ∧ d.chans = s.dev.chans ∧
      d.dies = s.dev.dies := by
  have hdone := inputBoundaryEvent_cycle mv hlive hsrc hlast hlt
  have hkept := inputJudged_kept (stamp := stamp) (mv := mv) (counted := true) (inOk := false) (reelOk := reelInRange s.dev (stamp - l))
    (p := phaseError s.dev stamp) (n := eventNoted stamp true s.dev)
  obtain ⟨c, htracks, hlost⟩ := inputJudged_loses (stamp := stamp) (mv := mv) (counted := true) (reelOk := reelInRange s.dev (stamp - l))
    (p := phaseError s.dev stamp) (n := eventNoted stamp true s.dev) hst hmv hbad
  rw [hout, Bool.false_and, Bool.not_false, hlost] at hdone
  rw [hlost] at hkept
  exact ⟨_, hdone, (cadLose_effect htracks).1, hkept.recs, hkept.chans, hkept.dies⟩

/-- Settles O4: the tests by state on the noted device, what every test keeps, and the loss of an input that stays away. -/
theorem inputTests_hold : Obligations.InputTests := by
  refine ⟨fun s stamp mv l hlive hsrc hlast hlt => ?_, fun s stamp mv hlive => ⟨fun hsrc => ?_, fun hsrc => ?_⟩, fun s e hlive hsrc hlast hst => ?_⟩
  · intro a p noted good
    have hdone := inputBoundaryEvent_cycle mv hlive hsrc hlast hlt
    have hnoted : ∀ b, noted b = eventNoted stamp b s.dev := fun b => by
      simp only [eventNoted, phaseNoted, eventTaken, inputLen_of_lastEvent hlast hlt]
      rfl
    have hthresh := rd_goodNoted_lockThresh stamp s.dev
    refine ⟨fun hst hgood hmv hphase => ?_, fun hst hgood hmv hphase hfirst => ?_, fun hst hgood hmv hphase hsecond => ?_,
      fun hst hmv hout hbad => ?_, fun hst hmains hmv => ?_, fun hst hbad => ?_⟩
    · have hlocked := inputBoundaryEvent_locked hlive hsrc hlast hlt hst hgood.1 hgood.2 hmv
      rw [phaseTest_good (s := goodNoted stamp s.dev) (hthresh.symm ▸ hphase)] at hlocked
      rw [hnoted]
      exact hlocked
    · have hlocked := inputBoundaryEvent_locked hlive hsrc hlast hlt hst hgood.1 hgood.2 hmv
      rw [phaseTest_first (s := goodNoted stamp s.dev) (hthresh.symm ▸ hphase) hfirst] at hlocked
      rw [hnoted]
      exact hlocked
    · have hlocked := inputBoundaryEvent_locked hlive hsrc hlast hlt hst hgood.1 hgood.2 hmv
      rw [phaseTest_second (s := goodNoted stamp s.dev) (hthresh.symm ▸ hphase) hsecond] at hlocked
      exact ⟨_, hlocked, eventNoted_loses (bad := false) (c := { (goodNoted stamp s.dev).cad with badPhase := s.dev.cad.badPhase + 1 }) (.inl hst) rfl⟩
    · exact inputBoundaryEvent_outOfRange hlive hsrc hlast hlt hst hmv hout hbad
    · rw [inputJudged_weak (n := eventNoted stamp _ s.dev) hst hmains hmv] at hdone
      have hkept := cadLose_kept (eventNoted stamp (!(inputInRange s.dev (stamp - l) && reelInRange s.dev (stamp - l))) s.dev)
      exact ⟨_, hdone, (cadLose_effect (s := eventNoted stamp _ s.dev) hst).1, hkept.recs, hkept.chans, hkept.dies⟩
    · have hnot : (inputInRange s.dev (stamp - l) && reelInRange s.dev (stamp - l)) = false := by
        simpa [good] using hbad
      rw [inputJudged_restarts (n := eventNoted stamp _ s.dev) hst hnot, hnot] at hdone
      rw [hnoted]
      exact hdone
  · exact completes_of_onDev rfl hlive (congrArg Host.Outcome.next (if_neg (by omega)))
  · have hjudged := inputBoundaryEvent_judged stamp mv hlive hsrc
    obtain ⟨hrecs, hevent, hphase, hchans, hdies, -⟩ := inputJudged_kept (stamp := stamp) (mv := mv)
      (counted := (inputLen stamp s.dev).isSome) (inOk := (inputLen stamp s.dev).all (inputInRange s.dev))
      (reelOk := (inputLen stamp s.dev).all (reelInRange s.dev)) (p := phaseError s.dev stamp)
      (n := eventNoted stamp (!goodInput (inputLen stamp s.dev) s.dev) s.dev)
    exact ⟨_, hjudged, hevent, hrecs, hphase.trans (rd_phaseNoted_phaseErr _ _ _), hchans, hdies⟩
  · have hdone := sourceLossTimeout_loses hlive hsrc
    have hkept := cadLose_kept { advance (lossDue s.dev) s.dev with cad := { s.dev.cad with present := false, lastEvent := none, lastLen := none } }
    obtain ⟨hhold, hlHold, hleft, hpresent, hnow, hslip, hcount⟩ := cadLose_effect
      (s := { advance (lossDue s.dev) s.dev with cad := { s.dev.cad with present := false, lastEvent := none, lastLen := none } }) hst
    refine ⟨_, hdone, hhold, hkept.recs, hpresent, hlHold, hleft, hslip, hcount, hkept.chans, hkept.dies, fun h => ?_, fun h => ?_, fun h => ?_⟩
    · rw [← lossDue_mains hlast h]
      exact hnow
    · rw [← lossDue_refclk hlast h]
      exact hnow
    · rw [← lossDue_pps hlast h]
      exact hnow

end Sys2Proof.Machine
end

section
/-! SUPPORT. Steps of channels (02, R84, R258): what a Reel cycle boundary of a channel leaves as it was. -/

namespace Sys2Proof.Machine

/-- From `a` to `b` only objects and the channels of `p` have changed. -/
structure ChanStep (p : Ch → Prop) (a b : Dev) : Prop where
  frame : b = { a with objs := b.objs, chans := b.chans }
  others : ∀ m : Ch, ¬ p m → b.ch m = a.ch m

theorem ChanStep.refl (p : Ch → Prop) (s : Dev) : ChanStep p s s := ⟨rfl, fun _ _ => rfl⟩

theorem ChanStep.trans {p : Ch → Prop} {a b c : Dev} (h : ChanStep p a b) (g : ChanStep p b c) : ChanStep p a c where
  frame := by
    rw [g.frame, h.frame]
  others := fun m hm => (g.others m hm).trans (h.others m hm)

theorem ChanStep.mono {p q : Ch → Prop} {a b : Dev} (h : ChanStep p a b) (hpq : ∀ m, p m → q m) : ChanStep q a b :=
  ⟨h.frame, fun m hm => h.others m (mt (hpq m) hm)⟩

/-- A write of objects. -/
theorem ChanStep.of_objs (p : Ch → Prop) (s : Dev) (o : List (Nat × Nat)) : ChanStep p s { s with objs := o } := ⟨rfl, fun _ _ => rfl⟩

theorem ChanStep.updCh (n : Ch) (f : Chan → Chan) (s : Dev) : ChanStep (· = n) s (updCh n f s) :=
  ⟨rfl, fun _ hm => updCh_ch_of_ne f s hm⟩

/-- Steps in turn, one for each element of a list. -/
theorem ChanStep.foldl {α : Type} {p : Ch → Prop} {f : Dev → α → Dev} (l : List α) (h : ∀ s, ∀ x ∈ l, ChanStep p s (f s x)) (s : Dev) :
    ChanStep p s (l.foldl f s) :=
  List.foldlRecOn (motive := fun d => ChanStep p s d) _ _ (ChanStep.refl p s) fun d hd x hx => hd.trans (h d x hx)

theorem putKey_objs (k v : Nat) (s : Dev) : ∃ o, putKey k v s = { s with objs := o } := by
  unfold putKey
  split
  · exact ⟨_, rfl⟩
  · exact ⟨s.objs, rfl⟩

theorem ChanStep.putKey (p : Ch → Prop) (k v : Nat) (s : Dev) : ChanStep p s (putKey k v s) := by
  obtain ⟨o, ho⟩ := putKey_objs k v s
  rw [ho]
  exact ChanStep.of_objs p s o

theorem sineBoundary_step (n : Ch) (c : Nat) (s : Dev) : ChanStep (· = n) s (sineBoundary n c s) := by
  unfold sineBoundary
  dsimp only
  split
  · split
    · exact ChanStep.updCh n _ s
    · exact ChanStep.refl _ s
  · have hset : ∀ f, ChanStep (· = n) s (updSrc n f (((s.ch n).src.sine.waiting).foldl (fun s e => Machine.putKey e.1 e.2 s) s)) := fun f =>
      (ChanStep.foldl _ (fun d e _ => ChanStep.putKey _ e.1 e.2 d) s).trans (ChanStep.updCh n _ _)
    split
    · exact (hset _).trans (ChanStep.updCh n _ _)
    · exact hset _

theorem guardBoundary_step (n : Ch) (s : Dev) : ChanStep (· = n) s (guardBoundary n s) := by
  refine ChanStep.foldl _ (fun d m _ => ?_) s
  dsimp only
  split
  · exact ChanStep.updCh n _ d
  · exact ChanStep.refl _ d

/-- A Reel cycle boundary of a channel touches objects and that channel. -/
theorem channelBoundary_step (c : Nat) (n : Ch) (s : Dev) : ChanStep (· = n) s (channelBoundary c n s) :=
  (sineBoundary_step n c s).trans (guardBoundary_step n _)

/-- The channels of a die, each with a step of its own. -/
theorem forDie_step {k : Die} {f : Ch → Dev → Dev} (h : ∀ n s, ChanStep (· = n) s (f n s)) (s : Dev) :
    ChanStep (fun n => n.die = k) s (forDie k f s) := by
  refine ChanStep.foldl _ (fun d n _ => ?_) s
  split
  · next hn => exact (h n d).mono fun m hm => hm ▸ hn
  · exact ChanStep.refl _ d

end Sys2Proof.Machine
end

section
/-! SUPPORT. A Reel cycle boundary (02, R48, R54, R61, R62, R426; Table 2.2), O6 and O8. -/

namespace Sys2Proof.Machine

/-- From `a` to `b` published records, a renumbering that waits, the tick and the dies are kept. -/
structure RecordsKept (a b : Dev) : Prop where
  recs : b.cad.recs = a.cad.recs
  preset : b.cad.preset = a.cad.preset
  now : b.now = a.now
  dies : b.dies = a.dies

theorem RecordsKept.refl (s : Dev) : RecordsKept s s := ⟨rfl, rfl, rfl, rfl⟩

theorem RecordsKept.trans {a b c : Dev} (h : RecordsKept a b) (g : RecordsKept b c) : RecordsKept a c :=
  ⟨g.recs.trans h.recs, g.preset.trans h.preset, g.now.trans h.now, g.dies.trans h.dies⟩

/-- A change of the Cadence Unit's other fields and of the Zhewick link may come first. -/
theorem RecordsKept.of_cad {s t : Dev} {c : Cadence} {z : Zhewick} (h : RecordsKept { s with cad := c, zh := z } t)
    (hrecs : c.recs = s.cad.recs) (hpreset : c.preset = s.cad.preset) : RecordsKept s t :=
  ⟨h.recs.trans hrecs, h.preset.trans hpreset, h.now, h.dies⟩

theorem cadEnter_recordsKept (st : CadState) (s : Dev) : RecordsKept s (cadEnter st s) := by
  obtain ⟨c, hc⟩ := cadEnter_objs st s
  refine ⟨rfl, rfl, ?_, ?_⟩ <;> rw [hc]

/-! ### Settings and the source that a boundary takes -/

theorem applyWaiting_objs (base : Nat) (s : Dev) : ∃ o, applyWaiting base s =
    { s with objs := o, cad := { s.cad with waiting := s.cad.waiting.filter fun w => !decide (w.since ≤ base) } } := by
  unfold applyWaiting
  refine List.foldlRecOn (motive := fun d : Dev => ∃ o, d =
    { s with objs := o, cad := { s.cad with waiting := s.cad.waiting.filter fun w => !decide (w.since ≤ base) } }) _ _ ⟨s.objs, rfl⟩
    fun d hd w _ => ?_
  obtain ⟨o, ho⟩ := hd
  obtain ⟨o', ho'⟩ := putKey_objs w.key w.value d
  exact ⟨o', by rw [ho', ho]⟩

theorem applyWaiting_kept (base : Nat) (s : Dev) : RecordsKept s (applyWaiting base s) := by
  obtain ⟨o, ho⟩ := applyWaiting_objs base s
  rw [ho]
  exact ⟨rfl, rfl, rfl, rfl⟩

theorem sourceChange_kept (base : Nat) (s : Dev) : RecordsKept s (sourceChange base s).1 := by
  have hwaiting := applyWaiting_kept base s
  have henters : ∀ (st : CadState) (c : Cadence) (z : Zhewick), c.recs = (applyWaiting base s).cad.recs →
      c.preset = (applyWaiting base s).cad.preset → RecordsKept s (cadEnter st { applyWaiting base s with cad := c, zh := z }) :=
    fun st c z hrecs hpreset => hwaiting.trans ((cadEnter_recordsKept st _).of_cad hrecs hpreset)
  unfold sourceChange
  split
  · exact hwaiting
  · dsimp only
    split
    · exact hwaiting
    · split
      · exact henters _ _ _ rfl rfl
      · split
        · exact henters _ _ _ rfl rfl
        · exact henters _ _ _ rfl rfl

/-- A boundary before every setting that waits takes none. -/
theorem sourceChange_of_unripe {base : Nat} {s : Dev} (h : ∀ w ∈ s.cad.waiting, base < w.since) : sourceChange base s = (s, none) := by
  have hnone : (s.cad.waiting.find? fun w => w.key == keyOf oReelSource [] 0 && decide (w.since ≤ base)) = none :=
    List.find?_eq_none.mpr fun w hw => by simp [Nat.not_le.mpr (h w hw)]
  have hripe : (s.cad.waiting.filter fun w => decide (w.since ≤ base)) = [] :=
    List.filter_eq_nil_iff.mpr fun w hw => by simp [Nat.not_le.mpr (h w hw)]
  have hrest : (s.cad.waiting.filter fun w => !decide (w.since ≤ base)) = s.cad.waiting :=
    List.filter_eq_self.mpr fun w hw => by simp [h w hw]
  unfold sourceChange applyWaiting
  rw [hnone, hripe, hrest]
  rfl

/-! ### The length of the record fixed -/

theorem fixLength_kept (forced : Option Nat) (prev : Nat) (s : Dev) : RecordsKept s (fixLength forced prev s).1 := by
  have henters : ∀ c : Cadence, c.recs = s.cad.recs → c.preset = s.cad.preset → RecordsKept s (cadEnter .locked { s with cad := c }) :=
    fun c hrecs hpreset => (cadEnter_recordsKept .locked _).of_cad hrecs hpreset
  unfold fixLength
  split
  · exact RecordsKept.refl s
  · split
    · exact RecordsKept.refl s
    · exact RecordsKept.refl s
    · exact RecordsKept.refl s
    · exact ⟨rfl, rfl, rfl, rfl⟩
    · split
      · exact ⟨rfl, rfl, rfl, rfl⟩
      · split
        · exact ⟨rfl, rfl, rfl, rfl⟩
        · have h := henters { s.cad with tail := 0 } rfl rfl
          exact ⟨h.recs, h.preset, h.now, h.dies⟩

theorem fixLength_zh (forced : Option Nat) (prev : Nat) (s : Dev) : (fixLength forced prev s).1.zh = s.zh := by
  unfold fixLength
  split
  · rfl
  · split
    · rfl
    · rfl
    · rfl
    · rfl
    · split
      · rfl
      · split
        · rfl
        · exact (cadEnter_kept .locked _).zh

theorem fixLength_of_freerun {s : Dev} (prev : Nat) (h : s.cad.st = .freerun) : fixLength none prev s = (s, nominalLength s) := by
  simp only [fixLength, h]

theorem fixLength_of_acquire {s : Dev} (prev : Nat) (h : s.cad.st = .acquire) : fixLength none prev s = (s, prev) := by
  simp only [fixLength, h]

theorem fixLength_of_holdover {s : Dev} (prev : Nat) (h : s.cad.st = .holdover) : fixLength none prev s = (s, s.cad.lHold) := by
  simp only [fixLength, h]

theorem fixLength_of_locked {s : Dev} (prev : Nat) (h : s.cad.st = .locked) :
    fixLength none prev s = (nextFree s, slewBound s prev (Config.loopFilterLength s.free)) := by
  simp only [fixLength, h]

/-- A length held within the slew limit of the one before (R61). -/
theorem slewBound_bounds (s : Dev) (prev x : Nat) :
    prev - prev * rd s oSlewLimit [] / 1000000 ≤ slewBound s prev x ∧ slewBound s prev x ≤ prev + prev * rd s oSlewLimit [] / 1000000 := by
  unfold slewBound
  dsimp only
  omega

/-! ### The record fixed -/

/-- A boundary passed in HOLDOVER is counted (log 121). -/
def holdCounted (s : Dev) : Dev :=
  if s.cad.st = .holdover then { s with cad := { s.cad with holdCycles := s.cad.holdCycles + 1 } } else s

theorem holdCounted_of_ne {s : Dev} (h : s.cad.st ≠ .holdover) : holdCounted s = s := if_neg h

theorem holdCounted_st (s : Dev) : (holdCounted s).cad.st = s.cad.st := by
  unfold holdCounted
  split <;> rfl

theorem holdCounted_zh (s : Dev) : (holdCounted s).zh = s.zh := by
  unfold holdCounted
  split <;> rfl

/-- A record is published (R48). -/
def recordPublished (len : Nat) (s : Dev) : Dev :=
  match s.cad.recs with
  | [] => s
  | r :: t => { s with cad := { s.cad with recs := ⟨(r.c + 1) % 2 ^ 32, r.base + r.len, len⟩ :: r :: t } }

/-- The work of the Cadence Unit at the boundary of record `r`, past a renumbering. -/
def cycleFixed (r : Rec) (s : Dev) : Dev :=
  let w := fixLength (sourceChange r.base s).2 r.len (holdCounted (sourceChange r.base s).1)
  recordPublished w.2 w.1

/-- The renumbering that waits, taken by the cycle that begins with record `r` (R54). -/
def presetTaken (r : Rec) (s : Dev) : Dev :=
  match s.cad.preset with
  | some (c', since) => if since ≤ r.base then renumber r.base r.c c' { s with cad := { s.cad with preset := none } } else s
  | none => s

theorem cadenceBoundary_of_recs {r : Rec} {t : List Rec} {s : Dev} (hrecs : s.cad.recs = r :: t) :
    cadenceBoundary s = cycleFixed r (presetTaken r (advance ((r.base + 255) / 256) s)) := by
  unfold cadenceBoundary
  rw [hrecs]
  rfl

theorem presetTaken_of_later {r : Rec} {s : Dev} (h : ∀ c since, s.cad.preset = some (c, since) → r.base < since) : presetTaken r s = s := by
  unfold presetTaken
  cases hp : s.cad.preset with
  | none => rfl
  | some q => exact if_neg (Nat.not_le.mpr (h q.1 q.2 hp))

theorem cadenceBoundary_of_later {r : Rec} {t : List Rec} {s : Dev} (hrecs : s.cad.recs = r :: t)
    (h : ∀ c since, s.cad.preset = some (c, since) → r.base < since) : cadenceBoundary s = cycleFixed r (advance ((r.base + 255) / 256) s) := by
  rw [cadenceBoundary_of_recs hrecs, presetTaken_of_later (s := advance _ s) h]

theorem holdCounted_kept (s : Dev) : RecordsKept s (holdCounted s) := by
  unfold holdCounted
  split
  · exact ⟨rfl, rfl, rfl, rfl⟩
  · exact RecordsKept.refl s

theorem recordPublished_of_cons {q : Rec} {t : List Rec} {s : Dev} (h : s.cad.recs = q :: t) (len : Nat) :
    recordPublished len s = { s with cad := { s.cad with recs := ⟨(q.c + 1) % 2 ^ 32, q.base + q.len, len⟩ :: q :: t } } := by
  unfold recordPublished
  rw [h]

/-- Whatever settings and source a boundary takes, it publishes one record, behind the newest. -/
theorem cycleFixed_publishes {q : Rec} {t : List Rec} {s : Dev} (r : Rec) (h : s.cad.recs = q :: t) :
    ∃ len, (cycleFixed r s).cad.recs = ⟨(q.c + 1) % 2 ^ 32, q.base + q.len, len⟩ :: q :: t ∧ (cycleFixed r s).cad.preset = s.cad.preset := by
  have hkept := ((sourceChange_kept r.base s).trans (holdCounted_kept _)).trans (fixLength_kept (sourceChange r.base s).2 r.len _)
  have hpublished := recordPublished_of_cons (hkept.recs.trans h)
    (fixLength (sourceChange r.base s).2 r.len (holdCounted (sourceChange r.base s).1)).2
  refine ⟨_, congrArg (fun d => d.cad.recs) hpublished, (congrArg (fun d => d.cad.preset) hpublished).trans hkept.preset⟩

/-- With no setting due, the record has the length that the state gives. -/
theorem cycleFixed_of_unripe {r : Rec} {t : List Rec} {s : Dev} (h : s.cad.recs = r :: t) (hunripe : ∀ w ∈ s.cad.waiting, r.base < w.since) :
    let w := fixLength none r.len (holdCounted s)
    cycleFixed r s = { w.1 with cad := { w.1.cad with recs := ⟨(r.c + 1) % 2 ^ 32, r.base + r.len, w.2⟩ :: r :: t } } := by
  intro w
  have hkept := (holdCounted_kept s).trans (fixLength_kept none r.len _)
  have hnone : cycleFixed r s = recordPublished w.2 w.1 := by
    unfold cycleFixed
    rw [sourceChange_of_unripe hunripe]
  exact hnone.trans (recordPublished_of_cons (hkept.recs.trans h) _)

/-! ### Renumbering -/

theorem shiftDie_cad (d : Nat) (k : Die) (s : Dev) : (shiftDie d k s).cad = s.cad := by
  unfold shiftDie
  split
  · rfl
  · have hstep := forDie_step (k := k) (f := fun n => updCh n (shiftChan d)) (fun n s => ChanStep.updCh n _ s) s
    rw [hstep.frame]

theorem shiftCtl_cad (d : Nat) (s : Dev) : (shiftCtl d s).cad = s.cad := rfl

theorem renumber_cad {base c c' d : Nat} (hd : (c' + 2 ^ 32 - c % 2 ^ 32) % 2 ^ 32 = d) (s : Dev) :
    (renumber base c c' s).cad = { s.cad with recs := renumberFrom base d s.cad.recs } := by
  unfold renumber
  rw [hd]
  dsimp only
  rw [shiftCtl_cad, foldl_keeps Dev.cad (fun s k => shiftDie d k s) fun b k => shiftDie_cad d k b]

/-- The cycle that begins takes its number, and no earlier one does (R54). -/
theorem renumberFrom_newest {r : Rec} {t : List Rec} {c d : Nat} (hd : (c + 2 ^ 32 - r.c % 2 ^ 32) % 2 ^ 32 = d) (hr : r.c < 2 ^ 32)
    (hc : c < 2 ^ 32) (ht : ∀ q ∈ t, q.base < r.base) : renumberFrom r.base d (r :: t) = { r with c := c } :: t := by
  have hnew : (r.c + d) % 2 ^ 32 = c := by omega
  have hold : t.map (fun q => if r.base ≤ q.base then { q with c := (q.c + d) % 2 ^ 32 } else q) = t :=
    (List.map_congr_left fun q hq => if_neg (Nat.not_le.mpr (ht q hq))).trans (List.map_id t)
  unfold renumberFrom
  rw [List.map_cons, hold, if_pos (Nat.le_refl _), hnew]

theorem presetTaken_cad {r : Rec} {t : List Rec} {c since : Nat} {s : Dev} (hrecs : s.cad.recs = r :: t) (hpreset : s.cad.preset = some (c, since))
    (hdue : since ≤ r.base) (hr : r.c < 2 ^ 32) (hc : c < 2 ^ 32) (ht : ∀ q ∈ t, q.base < r.base) :
    (presetTaken r s).cad = { s.cad with preset := none, recs := { r with c := c } :: t } := by
  obtain ⟨d, hd⟩ : ∃ d, (c + 2 ^ 32 - r.c % 2 ^ 32) % 2 ^ 32 = d := ⟨_, rfl⟩
  unfold presetTaken
  rw [hpreset]
  dsimp only
  rw [if_pos hdue, renumber_cad hd, ← renumberFrom_newest hd hr hc ht, ← hrecs]

/-! ### The boundary as a command -/

/-- The channels' part of a boundary touches objects and channels alone. -/
theorem cycleBoundary_step (s : Dev) : ChanStep (fun _ => True) (cadenceBoundary s) (cycleBoundary s) := by
  refine ChanStep.foldl _ (fun d n _ => ?_) _
  dsimp only
  split
  · exact ChanStep.refl _ d
  · exact (channelBoundary_step _ n d).mono fun _ _ => trivial

/-- The device after what R51 puts before the next Reel cycle boundary. -/
def beforeBoundary (s : State) : Dev := settleDue s.nv ⟨max s.dev.now (cycleTick s.dev), 2, 0⟩ [] s.dev

theorem reelCycleBoundary_completes {s : State} (hlive : Live s) : Completes .reelCycleBoundary s (cycleBoundary (beforeBoundary s)) :=
  completes_of_onDev rfl hlive rfl

/-- Settles O8: a boundary puts one record before those published, where they end. -/
theorem recordsContiguous : Obligations.RecordsContiguous := by
  refine ⟨⟨rfl, rfl, trivial⟩, ?_⟩
  intro s hlive e hcontig hsome hpreset
  obtain ⟨r, t, hrecs⟩ := List.exists_cons_of_ne_nil hsome
  have hnone : ∀ c since, e.cad.preset = some (c, since) → r.base < since := fun c since h => by
    rw [hpreset] at h
    cases h
  obtain ⟨len, hnew, -⟩ := cycleFixed_publishes (s := advance ((r.base + 255) / 256) e) r hrecs
  rw [← cadenceBoundary_of_later hrecs hnone] at hnew
  have hcad : (cycleBoundary e).cad.recs = ⟨(r.c + 1) % 2 ^ 32, r.base + r.len, len⟩ :: r :: t := by
    rw [(cycleBoundary_step e).frame]
    exact hnew
  have hdone : Completes .reelCycleBoundary s (cycleBoundary e) := reelCycleBoundary_completes hlive
  refine ⟨_, hdone, ?_, ?_⟩
  · rw [hrecs] at hcontig
    rw [hcad]
    exact ⟨rfl, rfl, hcontig⟩
  · rw [hcad, hrecs, List.tail_cons]

/-- Settles O6: the record fixed by state where no renumbering is due, and the renumbered count where one is. -/
theorem boundaryRecord : Obligations.BoundaryRecord := by
  intro s hlive e
  have hdone : Completes .reelCycleBoundary s (cycleBoundary e) := reelCycleBoundary_completes hlive
  clear_value e
  have hstep := cycleBoundary_step e
  refine ⟨fun _ => hdone, fun r t hrecs hunripe => ⟨fun hlater => ?_, fun c since hpreset hdue hr hc ht => ?_⟩⟩
  · have hfixed := cycleFixed_of_unripe (s := advance ((r.base + 255) / 256) e) hrecs hunripe
    rw [← cadenceBoundary_of_later hrecs hlater] at hfixed
    rw [hstep.frame] at hdone
    have hkept := (holdCounted_kept (advance ((r.base + 255) / 256) e)).trans (fixLength_kept none r.len _)
    refine ⟨_, hdone, ?_, ?_, ?_, ?_, ?_, ?_, ?_, ?_, ?_⟩
    · exact (congrArg Dev.now hfixed).trans hkept.now
    · exact (congrArg Dev.dies hfixed).trans hkept.dies
    · exact (congrArg Dev.zh hfixed).trans ((fixLength_zh _ _ _).trans (holdCounted_zh _))
    · exact (congrArg (fun d : Dev => d.cad.preset) hfixed).trans hkept.preset
    all_goals
      intro hst
      have hrec := congrArg (fun d : Dev => d.cad.recs) hfixed
      have hcounted := (holdCounted_st (advance ((r.base + 255) / 256) e)).trans hst
      dsimp only at hrec
    · rw [hrec, fixLength_of_freerun _ hcounted, holdCounted_of_ne (by exact hst ▸ nofun)]
      rfl
    · rw [hrec, fixLength_of_acquire _ hcounted]
    · have hcycles := congrArg (fun d : Dev => d.cad.holdCycles) hfixed
      have hheld : holdCounted (advance ((r.base + 255) / 256) e) = _ := if_pos hst
      rw [fixLength_of_holdover _ hcounted, hheld] at hrec hcycles
      exact ⟨hrec, hcycles⟩
    · refine ⟨_, hrec, ?_⟩
      rw [fixLength_of_locked _ hcounted, holdCounted_of_ne (by exact hst ▸ nofun)]
      exact slewBound_bounds (advance ((r.base + 255) / 256) e) r.len _
    · exact ⟨_, hrec⟩
  · have hcad := presetTaken_cad (s := advance ((r.base + 255) / 256) e) hrecs hpreset hdue hr hc ht
    obtain ⟨len, hnew, hnone⟩ := cycleFixed_publishes r (congrArg Cadence.recs hcad)
    rw [← cadenceBoundary_of_recs hrecs] at hnew hnone
    rw [hcad] at hnone
    refine ⟨_, len, hdone, ?_, ?_⟩
    · rw [hstep.frame]
      exact hnone
    · rw [hstep.frame]
      exact hnew

end Sys2Proof.Machine
end

section
/-! SUPPORT. Positions of stamps (02, R49, R52), records at the dies (R48, R63, R64) and the alarm of Table 2.2, O10. -/

namespace Sys2Proof.Machine

theorem ChanStep.now {p : Ch → Prop} {a b : Dev} (h : ChanStep p a b) : b.now = a.now := by rw [h.frame]

theorem ChanStep.cad {p : Ch → Prop} {a b : Dev} (h : ChanStep p a b) : b.cad = a.cad := by rw [h.frame]

theorem ChanStep.dies {p : Ch → Prop} {a b : Dev} (h : ChanStep p a b) : b.dies = a.dies := by rw [h.frame]

/-! ### Stamps and positions -/

theorem posOf_of_newest {r : Rec} {t : List Rec} {stamp : Nat} (hc : r.c < 2 ^ 32) (hbase : r.base ≤ stamp) (hin : stamp < r.base + r.len) :
    posOf (r :: t) stamp = r.c * 2 ^ 32 + (stamp - r.base) * 2 ^ 32 / r.len := by
  have hoff : (stamp - r.base) * 2 ^ 32 / r.len < 2 ^ 32 := by
    rw [Nat.div_lt_iff_lt_mul (by omega), Nat.mul_comm (2 ^ 32)]
    exact Nat.mul_lt_mul_of_pos_right (by omega) (by norm_num)
  unfold posOf
  rw [if_pos (by simp [hbase]), posMod, Nat.mod_eq_of_lt (by omega)]

/-- A position converted to a stamp and back loses less than 2³² / L and one more (R49, R52). -/
theorem offset_back {f len : Nat} (hlen : 0 < len) :
    f * len / 2 ^ 32 * 2 ^ 32 / len ≤ f ∧ (f - f * len / 2 ^ 32 * 2 ^ 32 / len) * len < 2 ^ 32 + len := by
  have hstamp := Nat.div_add_mod (f * len) (2 ^ 32)
  have hrest := Nat.mod_lt (f * len) (show 0 < 2 ^ 32 by norm_num)
  generalize f * len / 2 ^ 32 = g at *
  have hback := Nat.div_add_mod (g * 2 ^ 32) len
  have hlost := Nat.mod_lt (g * 2 ^ 32) hlen
  generalize hq : g * 2 ^ 32 / len = q at *
  refine ⟨?_, ?_⟩
  · rw [← hq]
    exact Nat.div_le_of_le_mul (by rw [Nat.mul_comm len f]; omega)
  · rw [Nat.sub_mul]
    have hcomm := Nat.mul_comm len q
    omega

/-! ### Records at a die -/

/-- The oldest record that a die does not hold arrives (R48). -/
theorem recordArrives_of_newer {s : Dev} {k : Die} {r : Rec} {t : List Rec} (hrecs : s.cad.recs = r :: t) (hfollows : s.dies[k].extending = false)
    (hheld : s.dies[k].recs = t) (hnewer : ∀ q ∈ t, q.base < r.base) :
    recordArrives k s = updDie k (fun d => { d with recs := r :: t }) s := by
  have hnew : (t.all fun q => decide (q.base < r.base)) = true := List.all_eq_true.mpr fun q hq => decide_eq_true (hnewer q hq)
  have hold : (t.filter fun x => t.all fun q => decide (q.base < x.base)) = [] :=
    List.filter_eq_nil_iff.mpr fun x hx hall => by
      have hself := List.all_eq_true.mp hall x hx
      simp at hself
  unfold recordArrives
  dsimp only
  rw [if_neg (by rw [hfollows]; decide), hrecs, hheld,
    List.filter_cons_of_pos (p := fun x : Rec => t.all fun q => decide (q.base < x.base)) hnew, hold, List.getLast?_singleton]
  exact updDie_congr (by rw [hheld])

theorem recordArrives_of_extending {s : Dev} {k : Die} (h : s.dies[k].extending = true) : recordArrives k s = s := if_pos h

/-- The record at which a die adopts: the oldest that began after the link became ACTIVE (R64). -/
theorem adoptionRec_of_first {s : Dev} {k : Die} {x r : Rec} {a b : List Rec} (hrecs : s.cad.recs = x :: (a ++ r :: b))
    (hafter : s.dies[k].link.activeAt * 256 < r.base) (hbefore : ∀ q ∈ b, q.base ≤ s.dies[k].link.activeAt * 256) :
    adoptionRec s k = some r := by
  have hold : (b.filter fun q => decide (s.dies[k].link.activeAt * 256 < q.base)) = [] :=
    List.filter_eq_nil_iff.mpr fun q hq => by simpa using hbefore q hq
  unfold adoptionRec
  rw [hrecs, List.drop_one, List.tail_cons, List.filter_append,
    List.filter_cons_of_pos (p := fun q : Rec => decide (s.dies[k].link.activeAt * 256 < q.base)) (decide_eq_true hafter), hold, List.getLast?_concat]

theorem adoptionRec_of_none {s : Dev} {k : Die} (h : ∀ q ∈ s.cad.recs.tail, q.base ≤ s.dies[k].link.activeAt * 256) : adoptionRec s k = none := by
  have hold : (s.cad.recs.tail.filter fun q => decide (s.dies[k].link.activeAt * 256 < q.base)) = [] :=
    List.filter_eq_nil_iff.mpr fun q hq => by simpa using h q hq
  unfold adoptionRec
  rw [List.drop_one, hold]
  rfl

/-- A die that follows takes the shift in its channels alone. -/
theorem shiftDie_step {d : Nat} {k : Die} {s : Dev} (h : s.dies[k].extending = false) : ChanStep (fun n => n.die = k) s (shiftDie d k s) := by
  unfold shiftDie
  rw [if_neg (by rw [h]; decide)]
  exact forDie_step (fun n s => ChanStep.updCh n _ s) s

/-- A die that extends, one record on, at the boundary of the newest it had (R63). -/
def cycleExtended (k : Die) (r : Rec) (t : List Rec) (s : Dev) : Dev :=
  advance ((r.base + 255) / 256) (updDie k (fun d => { d with recs := ⟨(r.c + 1) % 2 ^ 32, r.base + r.len, r.len⟩ :: r :: t }) s)

/-- What a die holds once it has adopted (R64). -/
def adopted (k : Die) (r : Rec) (s : Dev) : Dev :=
  let a := advance ((r.base + 255) / 256) s
  updDie k (fun d => { d with
    recs := (s.cad.recs.filter fun x => decide (r.base ≤ x.base)) ++ s.dies[k].recs.filter fun x => decide (x.base < r.base)
    extending := false, adopted := r.base, shiftDue := 0, extended := spanClose d.extended a.now }) a

/-- An adoption: the records, then steps of the die's channels; the die acts from the next tick on. -/
theorem recordAdoption_completes {s : State} {k : Die} {r : Rec} (hlive : Live s) (hext : s.dev.dies[k].extending = true) (hup : LinkUp s k)
    (hrec : adoptionRec s.dev k = some r) :
    ∃ d, Completes (.recordAdoption k) s (advance (d.now + 1) d) ∧ ChanStep (fun n => n.die = k) (adopted k r s.dev) d := by
  have hgate : (s.dev.dies[k].extending && decide (s.dev.dies[k].link.st = .active)) = true := by
    have hlink : s.dev.dies[k].link.st = .active := hup
    rw [hext, hlink]
    rfl
  have hfollows : (adopted k r s.dev).dies[k].extending = false := by
    unfold adopted
    rw [updDie_die_self]
  have hshift := shiftDie_step (d := s.dev.dies[k].shiftDue) hfollows
  have hbegin := forDie_step (k := k) (fun n s => channelBoundary_step r.c n s) (shiftDie s.dev.dies[k].shiftDue k (adopted k r s.dev))
  refine ⟨if (s.dev.dies[k].recs.head?.any fun x => posLater (x.c * 2 ^ 32) (r.c * 2 ^ 32)) = true then
    shiftDie s.dev.dies[k].shiftDue k (adopted k r s.dev) else
    forDie k (channelBoundary r.c) (shiftDie s.dev.dies[k].shiftDue k (adopted k r s.dev)), completes_of_onDev rfl hlive ?_, ?_⟩
  · dsimp only
    rw [hgate, hrec]
    rfl
  · split
    · exact hshift
    · exact hshift.trans hbegin

/-- Settles O10: offsets of positions, then what each command on a die's records completes as. -/
theorem dieRecords : Obligations.DieRecords := by
  refine ⟨fun r t f hf hc hlen => ?_, fun s k hlive => ⟨?_, ?_, ?_, ?_, ?_, ?_, ?_, ?_, ?_⟩⟩
  · obtain ⟨hle, hlost⟩ := offset_back (f := f) hlen
    have hin : f * r.len / 2 ^ 32 < r.len := Nat.div_lt_of_lt_mul (Nat.mul_lt_mul_of_pos_right hf hlen)
    refine ⟨fun stamp hbase hend => posOf_of_newest hc hbase hend, ?_⟩
    rw [posOf_of_newest hc (Nat.le_add_right _ _) (by omega), Nat.add_sub_cancel_left]
    generalize f * r.len / 2 ^ 32 * 2 ^ 32 / r.len = q at *
    refine ⟨by omega, by omega, ?_⟩
    rwa [Nat.add_sub_add_left]
  · intro r t hrecs hup hfollows hheld hnewer
    exact completes_of_onDev rfl hlive (congrArg Host.Outcome.next ((overLink_active hup).trans (recordArrives_of_newer hrecs hfollows hheld hnewer)))
  · intro hup hext
    exact completes_of_onDev rfl hlive (congrArg Host.Outcome.next ((overLink_active hup).trans (recordArrives_of_extending hext)))
  · intro hretrains
    exact completes_of_onDev rfl hlive (congrArg Host.Outcome.next (overLink_retraining hretrains))
  · intro r t hrecs hext
    have hstep := forDie_step (k := k) (fun n s => channelBoundary_step r.c n s) (cycleExtended k r t s.dev)
    refine ⟨_, completes_of_onDev (d := forDie k (channelBoundary r.c) (cycleExtended k r t s.dev)) rfl hlive ?_, ?_, ?_, ?_, ?_, ?_⟩
    · dsimp only
      rw [if_pos hext, hrecs]
      rfl
    · exact hstep.now
    · exact hstep.cad
    · rw [hstep.dies, cycleExtended, advance_dies, updDie_die_self]
    · intro j hj
      rw [hstep.dies, cycleExtended, advance_dies, updDie_die_of_ne _ _ hj]
    · exact fun n hn => hstep.others n hn
  · intro hfollows
    exact completes_of_onDev rfl hlive (congrArg Host.Outcome.next (if_neg (by rw [hfollows]; decide)))
  · intro x a b r hext hup hrecs from_ hafter hbefore
    obtain ⟨d, hdone, hstep⟩ := recordAdoption_completes hlive hext hup (adoptionRec_of_first hrecs hafter hbefore)
    refine ⟨_, hdone, ?_, ?_, ?_, ?_, ?_⟩
    · exact (Nat.max_eq_right (Nat.le_succ _)).trans (congrArg (· + 1) hstep.now)
    · exact hstep.cad
    · rw [advance_dies, hstep.dies, adopted, updDie_die_self]
    · intro j hj
      rw [advance_dies, hstep.dies, adopted, updDie_die_of_ne _ _ hj, advance_dies]
    · rw [advance_dies, hstep.dies, adopted, updDie_die_self]
  · intro hnone
    refine completes_of_onDev rfl hlive (congrArg Host.Outcome.next ?_)
    dsimp only
    obtain hfollows | hdown | hold := hnone
    · rw [hfollows]
      rfl
    · have hlink : ¬ s.dev.dies[k].link.st = .active := hdown
      rw [decide_eq_false hlink, Bool.and_false]
    · rw [adoptionRec_of_none hold]
      split <;> simp_all
  · intro hst hlong
    exact completes_of_onDev rfl hlive (congrArg Host.Outcome.next (if_pos (by simp [hst, hlong])))
  · intro hnot
    refine completes_of_onDev rfl hlive (congrArg Host.Outcome.next (if_neg ?_))
    obtain hst | hshort := hnot
    · simp [hst]
    · simp [Nat.not_le.mpr hshort]

end Sys2Proof.Machine
end

section
/-! SUPPORT. Chain Cut lines at the dies (07, R228, R234): what they leave as it was. -/

namespace Sys2Proof.Machine

/-- From `a` to `b` only channels, dies and the Cut counters of channels have changed. -/
structure CutStep (a b : Dev) : Prop where
  frame : b = { a with objs := b.objs, chans := b.chans, dies := b.dies }
  objs : ∀ r l, (∀ n : Ch, keyOf r l 0 ≠ keyOf oCutsDropped [n] 0 ∧ keyOf r l 0 ≠ keyOf oCutsMerged [n] 0) → rd b r l = rd a r l

theorem CutStep.refl (s : Dev) : CutStep s s := ⟨rfl, fun _ _ _ => rfl⟩

theorem CutStep.trans {a b c : Dev} (h : CutStep a b) (g : CutStep b c) : CutStep a c where
  frame := by rw [g.frame, h.frame]
  objs := fun r l hne => (g.objs r l hne).trans (h.objs r l hne)

theorem CutStep.zh {a b : Dev} (h : CutStep a b) : b.zh = a.zh := by rw [h.frame]

theorem CutStep.cad {a b : Dev} (h : CutStep a b) : b.cad = a.cad := by rw [h.frame]

theorem CutStep.now {a b : Dev} (h : CutStep a b) : b.now = a.now := by rw [h.frame]

theorem CutStep.foldl {α : Type} {f : Dev → α → Dev} (l : List α) (h : ∀ s x, CutStep s (f s x)) (s : Dev) : CutStep s (l.foldl f s) :=
  List.foldlRecOn (motive := fun d => CutStep s d) _ _ (CutStep.refl s) fun d hd x _ => hd.trans (h d x)

theorem cutSeen_step (n : Ch) (src : Nat) (target : Option Nat) (s : Dev) : CutStep s (cutSeen n src target s) := by
  unfold cutSeen
  dsimp only
  split
  · exact ⟨rfl, fun r l hne => rd_bump_of_ne (hne n).1 s⟩
  · split
    · exact ⟨rfl, fun r l hne => rd_bump_of_ne (hne n).2 s⟩
    · exact ⟨rfl, fun _ _ _ => rfl⟩

theorem dieCut_step (k : Die) (lines : Nat) (s : Dev) : CutStep s (dieCut k lines s) := by
  refine CutStep.foldl _ (fun d n => ?_) s
  dsimp only
  split
  · exact cutSeen_step n 5 none d
  · exact CutStep.refl d

theorem chainCutSeen_step (lines : Nat) (s : Dev) : CutStep s (chainCutSeen lines s) := by
  refine CutStep.foldl _ (fun d k => ?_) s
  unfold overLink
  split
  · exact dieCut_step k lines d
  · exact ⟨rfl, fun _ _ _ => rfl⟩
  · exact CutStep.refl d
  · exact CutStep.refl d
  · exact CutStep.refl d

end Sys2Proof.Machine
end

section
/-! SUPPORT. Frames and return frames sent (02, R66, R67, R69, R234; 12, R356), and O11. -/

namespace Sys2Proof.Machine

/-! ### Fields of bytes -/

theorem ofBytes_lt (l : List Byte) : ofBytes l < 256 ^ l.length := by
  induction l with
  | nil => exact Nat.one_pos
  | cons b t ih =>
    have hb := b.isLt
    rw [ofBytes, List.length_cons, Nat.pow_succ]
    omega

theorem frameField_lt (l : List Byte) (at_ n : Nat) : frameField l at_ n < 256 ^ n :=
  Nat.lt_of_lt_of_le (ofBytes_lt _) (Nat.pow_le_pow_right (by norm_num) (List.length_take_le _ _))

/-- A field at the front reads its value. -/
theorem frameField_front (n v : Nat) (l : List Byte) : frameField (leBytes n v ++ l) 0 n = v % 256 ^ n := by
  unfold frameField
  rw [List.drop_zero, List.take_left' (length_leBytes n v), ofBytes_leBytes]

/-- A field behind others is a field of what follows them. -/
theorem frameField_behind (m v n j : Nat) (l : List Byte) : frameField (leBytes m v ++ l) (m + j) n = frameField l j n := by
  unfold frameField
  rw [← List.drop_drop, List.drop_left' (length_leBytes m v)]

/-- A byte, a body and its CRC: the CRC of the body is that which follows it. -/
theorem crc_of_framed (start : Nat) (body : List Byte) :
    crc16 (((leBytes 1 start ++ body ++ leBytes 2 (crc16 body)).drop 1).take body.length) =
      frameField (leBytes 1 start ++ body ++ leBytes 2 (crc16 body)) (1 + body.length) 2 := by
  have hbit : ∀ c, crcBit c < 65536 := fun c => by
    unfold crcBit
    split
    · exact Nat.xor_lt_two_pow (n := 16) (Nat.mod_lt _ (by norm_num)) (by norm_num)
    · exact Nat.mod_lt _ (by norm_num)
  have hcrc : crc16 body < 65536 :=
    List.foldlRecOn (motive := fun c => c < 65536) body crcByte (show 0xFFFF < 65536 by norm_num) fun c _ b _ => hbit _
  have hbody : (leBytes 1 start ++ body ++ leBytes 2 (crc16 body)).drop 1 = body ++ leBytes 2 (crc16 body) := by
    rw [List.append_assoc, List.drop_left' (length_leBytes 1 start)]
  unfold frameField
  rw [← List.drop_drop, hbody, List.take_left, List.drop_left, List.take_of_length_le (Nat.le_of_eq (length_leBytes _ _)), ofBytes_leBytes]
  exact (Nat.mod_eq_of_lt hcrc).symm

/-! ### The frame -/

/-- The bytes between START and the CRC (Table 2.4). -/
def linkBody (s : Dev) : List Byte :=
  leBytes 1 ((hopSent s).getD (Config.idleField 3) % 16 * 16 + flagAt (sendsHoldover s) 3 + flagAt (liveTarget s s.zh.sync).isSome 2 +
    flagAt (liveTarget s s.zh.slate).isSome 1) ++
  leBytes 8 (ctlPos s) ++ leBytes 8 ((liveTarget s s.zh.sync).elim (Config.idleField 0) Target.pos) ++
  leBytes 8 ((liveTarget s s.zh.slate).elim (Config.idleField 1) Target.pos) ++
  leBytes 2 ((liveTarget s s.zh.sync).elim (Config.idleField 2) Target.num) ++ leBytes 2 (s.zh.cutLines.toNat + s.zh.cutSeq.toNat * 2 ^ 12) ++
  leBytes 16 (forwardPeer s).toNat

theorem frameBytes_eq (s : Dev) : frameBytes s = leBytes 1 0xA7 ++ linkBody s ++ leBytes 2 (crc16 (linkBody s)) := rfl

theorem length_linkBody (s : Dev) : (linkBody s).length = 45 := by
  simp only [linkBody, List.length_append, length_leBytes]

theorem length_frameBytes (s : Dev) : (frameBytes s).length = 48 := by
  simp only [frameBytes_eq, List.length_append, length_leBytes, length_linkBody]

theorem frameBytes_valid (s : Dev) : frameValid (frameBytes s) = true := by
  have hcrc := crc_of_framed 0xA7 (linkBody s)
  rw [length_linkBody, ← frameBytes_eq] at hcrc
  have hstart : frameField (frameBytes s) 0 1 = 0xA7 := by
    rw [frameBytes_eq, List.append_assoc, frameField_front]
    rfl
  unfold frameValid
  rw [hstart, hcrc]
  simp

theorem flagAt_le (b : Bool) (i : Nat) : flagAt b i ≤ 2 ^ i := by
  unfold flagAt
  split
  · exact Nat.le_refl _
  · exact Nat.zero_le _

theorem frameBytes_head (s : Dev) : frameField (frameBytes s) 1 1 =
    (hopSent s).getD (Config.idleField 3) % 16 * 16 + flagAt (sendsHoldover s) 3 + flagAt (liveTarget s s.zh.sync).isSome 2 +
      flagAt (liveTarget s s.zh.slate).isSome 1 := by
  simp only [frameBytes_eq, linkBody, List.append_assoc]
  rw [frameField_behind 1 _ 1 0, frameField_front, Nat.mod_eq_of_lt]
  have hhold := flagAt_le (sendsHoldover s) 3
  have hsync := flagAt_le (liveTarget s s.zh.sync).isSome 2
  have hslate := flagAt_le (liveTarget s s.zh.slate).isSome 1
  omega

theorem frameBytes_pos (s : Dev) : frameField (frameBytes s) 2 8 = ctlPos s % 2 ^ 64 := by
  simp only [frameBytes_eq, linkBody, List.append_assoc]
  rw [frameField_behind 1 _ 8 1, frameField_behind 1 _ 8 0, frameField_front]
  rfl

theorem frameBytes_cuts (s : Dev) : frameField (frameBytes s) 28 2 = s.zh.cutLines.toNat + s.zh.cutSeq.toNat * 2 ^ 12 := by
  have hlines := s.zh.cutLines.isLt
  have hseq := s.zh.cutSeq.isLt
  simp only [frameBytes_eq, linkBody, List.append_assoc]
  rw [frameField_behind 1 _ 2 27, frameField_behind 1 _ 2 26, frameField_behind 8 _ 2 18, frameField_behind 8 _ 2 10, frameField_behind 8 _ 2 2,
    frameField_behind 2 _ 2 0, frameField_front, Nat.mod_eq_of_lt (by omega)]

theorem posOf_lt (recs : List Rec) (stamp : Nat) : posOf recs stamp < 2 ^ 64 := by
  induction recs with
  | nil => exact Nat.two_pow_pos 64
  | cons r t ih =>
    unfold posOf
    split
    · exact Nat.mod_lt _ (Nat.two_pow_pos 64)
    · exact ih

/-- The hop count and MASTER_HOLDOVER in the second byte (R69). -/
theorem head_fields {h : Nat} {hold a b : Bool} (hh : h < 15) :
    (h % 16 * 16 + flagAt hold 3 + flagAt a 2 + flagAt b 1) / 16 = h ∧ bitOf (h % 16 * 16 + flagAt hold 3 + flagAt a 2 + flagAt b 1) 3 = hold := by
  unfold bitOf flagAt
  cases hold <;> cases a <;> cases b <;> simp <;> omega

/-! ### The device that sends -/

theorem cutSend_upHop (z : Zhewick) : (cutSend z).upHop = z.upHop := by
  unfold cutSend
  split <;> rfl

theorem cutSend_masterHold (z : Zhewick) : (cutSend z).masterHold = z.masterHold := by
  unfold cutSend
  split <;> rfl

/-- The device at the edge, the Cut lines taken in. -/
def edgeReached (s : Dev) : Dev := updZh cutSend (advance (frameDue s) s)

/-- The device with its frame sent; the lines it raised itself are not yet seen. -/
def frameSent (s : Dev) : Dev :=
  updZh (fun z => { z with
    txEdge := some (edgeReached s).now
    txFrame := frameBytes (edgeReached s)
    downQ := if z.trip.isSome then z.downQ else z.downQ.tail
    trip := none }) (edgeReached s)

theorem zhewickFrameTx_completes {s : State} (hlive : Live s) (h : sendsFrames s.dev = true) :
    Completes .zhewickFrameTx s (chainCutSeen s.dev.zh.cutOwn.toNat (frameSent s.dev)) :=
  completes_of_onDev rfl hlive (congrArg Host.Outcome.next (if_pos h))

theorem hop_lt_of_sendsFrames {s : Dev} {h : Nat} (hsends : sendsFrames s = true) (hop : hopSent s = some h) : h < 15 := by
  unfold sendsFrames at hsends
  rw [hop] at hsends
  simp only [Option.all_some, Bool.and_eq_true, decide_eq_true_eq] at hsends
  exact hsends.2

theorem returnBytes_valid (marker : Bool) (peer : BitVec 128) : returnValid (returnBytes marker peer) = true := by
  have hcrc := crc_of_framed (if marker then 0x5D else 0x5C) (leBytes 16 peer.toNat)
  rw [length_leBytes] at hcrc
  unfold returnValid returnBytes
  dsimp only
  rw [hcrc, List.append_assoc, frameField_front]
  cases marker <;> simp

/-- Settles O11: the fields of the frame, read where Table 2.4 lays them. -/
theorem zhewickSends : Obligations.ZhewickSends := by
  refine fun s hlive => ⟨fun h hsends hhop => ?_, fun e m hdue => ?_⟩
  · have hstep := chainCutSeen_step s.dev.zh.cutOwn.toNat (frameSent s.dev)
    have hhop' : hopSent (edgeReached s.dev) = some h := by
      rw [← hhop]
      have hup : (edgeReached s.dev).zh.upHop = s.dev.zh.upHop := cutSend_upHop _
      unfold hopSent
      rw [hup]
      rfl
    obtain ⟨hhead, hbit⟩ := head_fields (hold := sendsHoldover (edgeReached s.dev))
      (a := (liveTarget (edgeReached s.dev) (edgeReached s.dev).zh.sync).isSome)
      (b := (liveTarget (edgeReached s.dev) (edgeReached s.dev).zh.slate).isSome) (hop_lt_of_sendsFrames hsends hhop)
    have hbyte := frameBytes_head (edgeReached s.dev)
    rw [hhop', Option.getD_some] at hbyte
    rw [← hbyte] at hhead hbit
    refine ⟨_, zhewickFrameTx_completes hlive hsends, ?_⟩
    rw [hstep.now, hstep.zh, hstep.cad]
    refine ⟨rfl, rfl, length_frameBytes _, frameBytes_valid _, hhead, ?_, ?_, frameBytes_cuts _, ?_, ?_, rfl⟩
    · refine hbit.trans ?_
      have hhold : (edgeReached s.dev).zh.masterHold = s.dev.zh.masterHold := cutSend_masterHold _
      unfold sendsHoldover
      rw [hhold]
      rfl
    · exact (frameBytes_pos _).trans (Nat.mod_eq_of_lt (posOf_lt _ _))
    · intro l hl
      have hsent : (cutSend s.dev.zh).cutLines = l ∧ (cutSend s.dev.zh).cutSeq = s.dev.zh.cutSeq + 1 := by
        unfold cutSend
        rw [hl]
        exact ⟨rfl, rfl⟩
      exact hsent
    · intro hnone
      have hsent : (cutSend s.dev.zh).cutLines = s.dev.zh.cutLines ∧ (cutSend s.dev.zh).cutSeq = s.dev.zh.cutSeq := by
        unfold cutSend
        rw [hnone]
        exact ⟨rfl, rfl⟩
      exact hsent
  · refine ⟨_, completes_of_onDev rfl hlive (by dsimp only; rw [hdue]; rfl), rfl, ?_, returnBytes_valid _ _, ?_, ?_, rfl, rfl⟩
    · simp only [returnBytes, List.length_append, length_leBytes]
    · dsimp only [returnBytes]
      rw [List.append_assoc, frameField_front]
      cases m <;> rfl
    · dsimp only [returnBytes]
      rw [List.append_assoc, frameField_behind 1 _ 16 0, frameField_front]
      exact Nat.mod_eq_of_lt (BitVec.isLt _)

end Sys2Proof.Machine
end

section
/-! SUPPORT. Frames and return frames received (02, R66, R67, Table 2.3; 07, R234; 12, R356), and O12. -/

namespace Sys2Proof.Machine

/-! ### An idle PEER field -/

theorem framePeer_kind (bytes : List Byte) (at_ : Nat) :
    getField (BitVec.ofNat 128 (frameField bytes at_ 16)).toNat 4 4 = getField (frameField bytes at_ 16) 4 4 := by
  rw [BitVec.toNat_ofNat, Nat.mod_eq_of_lt (Nat.lt_of_lt_of_eq (frameField_lt bytes at_ 16) (by norm_num))]

theorem peerReserved_of_idle {field : BitVec 128} (h : getField field.toNat 4 4 = 0) (nv : Nv) (s : Dev) : peerReserved nv field s = false := by
  unfold peerReserved
  simp [h]

theorem peerTake_of_idle {field : BitVec 128} (h : getField field.toNat 4 4 = 0) (up : Bool) (nv : Nv) (s : Dev) : peerTake up field nv s = s := by
  unfold peerTake
  simp [h]

/-! ### The parts of a frame -/

/-- CUT_REQ of a frame changes objects, channels and dies beside the Cut lines on their way (R234). -/
theorem frameCut_effect (l : List Byte) (s : Dev) :
    (∃ c, (frameCut l s).zh = { s.zh with cutSeqIn := some (BitVec.ofNat 4 (frameField l 28 2 / 2 ^ 12)), cutChange := c }) ∧
    (frameCut l s).cad = s.cad ∧ rd (frameCut l s) oChainCutRx [] = frameField l 28 2 ∧ rd (frameCut l s) oPhaseErr [] = rd s oPhaseErr [] := by
  have hcut : ∀ d : Dev, rd (wr d oChainCutRx (frameField l 28 2) []) oChainCutRx [] = frameField l 28 2 := fun d =>
    (rd_wr_same d oChainCutRx _ []).trans (Nat.mod_eq_of_lt (frameField_lt l 28 2))
  have hphase : ∀ d : Dev, rd (wr d oChainCutRx (frameField l 28 2) []) oPhaseErr [] = rd d oPhaseErr [] := fun d =>
    rd_wr_other d oChainCutRx oPhaseErr _ [] [] (by decide)
  unfold frameCut
  dsimp only
  split
  · have hstep := fun d : Dev => chainCutSeen_step (BitVec.ofNat 12 (frameField l 28 2)).toNat d
    refine ⟨⟨_, (hstep _).zh⟩, (hstep _).cad, ((hstep _).objs oChainCutRx [] (by decide)).trans (hcut s),
      ((hstep _).objs oPhaseErr [] (by decide)).trans (hphase s)⟩
  · exact ⟨⟨s.zh.cutChange, rfl⟩, rfl, hcut s, hphase s⟩

/-- Of a follower in LOCKED the timing of a frame changes the phase error, the hop count, the master's holdover and the run (R67). -/
theorem frameTiming_of_locked {s : Dev} (h : s.cad.st = .locked) (stamp : Nat) (l : List Byte) :
    let e := (((stamp : Int) - s.zh.oneWay).toNat, frameField l 2 8)
    let d := frameTiming stamp l s
    d.zh.upHop = some (frameField l 1 1 / 16) ∧ d.zh.masterHold = bitOf (frameField l 1 1) 3 ∧ d.zh.run.head? = some e ∧
      rdI d oPhaseErr [] = framePhase s e ∧ d.cad.recs = s.cad.recs ∧ d.zh.retDue = s.zh.retDue := by
  intro e d
  have hd : d = updZh (fun z => { z with 
      run := (if s.zh.upHop = some (frameField l 1 1 / 16) then (e :: s.zh.run).take 64 else [e])
      upHop := some (frameField l 1 1 / 16) })
      (takeHoldover (bitOf (frameField l 1 1) 3) { wr s oPhaseErr (ofSigned 32 (framePhase s e)) [] with
        cad := { s.cad with present := true } }) := by
    show frameTiming stamp l s = _
    unfold frameTiming
    dsimp only [updZh_cad, takeHoldover, wr_cad]
    rw [h]
  have hphase : rdI d oPhaseErr [] = framePhase s e := by
    rw [hd]
    exact (rdI_wr_ofSigned s oPhaseErr (framePhase s e) []).trans (wrapPhase_wrapPhase _)
  refine ⟨by rw [hd]; rfl, by rw [hd]; rfl, ?_, hphase, by rw [hd]; rfl, by rw [hd]; rfl⟩
  rw [hd]
  show (if s.zh.upHop = some (frameField l 1 1 / 16) then (e :: s.zh.run).take 64 else [e]).head? = some e
  split <;> rfl

theorem frameSync_of_clear {l : List Byte} (h : bitOf (frameField l 1 1) 2 = false) (s : Dev) : frameSync l s = s := by
  unfold frameSync
  simp [h]

theorem frameSlate_of_clear {l : List Byte} (h : bitOf (frameField l 1 1) 1 = false) (s : Dev) : frameSlate l s = s := by
  unfold frameSlate
  simp [h]

/-! ### The commands -/

/-- The device at the last byte of a frame whose edge bears the stamp. -/
def frameReached (stamp : Nat) (s : Dev) : Dev := frameEdge stamp (advance ((stamp + 255) / 256 + framePeriod) s)

/-- The upstream is valid from this frame. -/
def upstreamValid (stamp : Nat) (s : Dev) : Dev := updZh (fun z => { z with upValid := true, validEdge := some stamp }) s

theorem zhewickFrameRx_discards {s : State} {bytes : List Byte} (hlive : Live s) (h : frameValid bytes = false) (stamp : Nat) :
    Completes (.zhewickFrameRx stamp bytes) s (frameDiscard (frameReached stamp s.dev)) :=
  completes_of_onDev rfl hlive (if_neg (by simp [h]))

/-- A valid frame with an idle PEER field: its timing for a follower, then its Cut lines. -/
theorem zhewickFrameRx_takes {s : State} {bytes : List Byte} (hlive : Live s) (h : frameValid bytes = true)
    (hidle : getField (frameField bytes 30 16) 4 4 = 0) (stamp : Nat) :
    Completes (.zhewickFrameRx stamp bytes) s (frameCut bytes (
      if s.dev.cad.src = 3 then frameSlate bytes (frameSync bytes (frameTiming stamp bytes (upstreamValid stamp (frameReached stamp s.dev))))
      else upstreamValid stamp (frameReached stamp s.dev))) := by
  have hpeer : getField (framePeer bytes).toNat 4 4 = 0 := (framePeer_kind bytes 30).trans hidle
  refine completes_of_onDev rfl hlive ?_
  dsimp only
  rw [if_pos h, peerReserved_of_idle hpeer, if_neg (by decide)]
  unfold frameTake
  rw [peerTake_of_idle hpeer]
  rfl

/-- The device that has lost the frames, but for what the loss does to the Cadence Unit of a follower. -/
def upstreamLost (e : Nat) (s : Dev) : Dev :=
  updZh (fun z => { z with upValid := false, validEdge := none, run := [] }) (takeHoldover false (advance ((e + 255) / 256 + 8 * framePeriod) s))

theorem zhewickFrameLoss_completes {s : State} {e : Nat} (hlive : Live s) (h : s.dev.zh.validEdge = some e) :
    Completes .zhewickFrameLoss s (if s.dev.cad.src = 3 then
      cadLose { upstreamLost e s.dev with cad := { s.dev.cad with present := false } } else upstreamLost e s.dev) := by
  refine completes_of_onDev rfl hlive ?_
  dsimp only
  rw [h]
  rfl

theorem cadLose_now (s : Dev) : (cadLose s).now = s.now := by
  cases hst : s.cad.st with
  | locked | relock =>
    obtain ⟨-, -, -, -, hnow, -⟩ := cadLose_effect (s := s) (by simp [tracks, hst])
    exact hnow
  | freerun | acquire | holdover =>
    unfold cadLose
    rw [hst]

/-- Settles O12: what each part of a frame changes, and the frames' loss. -/
theorem zhewickReceives : Obligations.ZhewickReceives := by
  refine fun s stamp bytes hlive => ⟨fun hbad => ?_, fun hvalid hidle hsrc => ?_, fun hvalid hidle hsrc hst hsync hslate => ?_, fun e he => ?_,
    fun e hvalid hmarker hidle he => ?_⟩
  · exact ⟨_, zhewickFrameRx_discards hlive hbad stamp, rfl, rfl, rfl, rfl, rd_bump oCrcErrors [] _, rfl⟩
  · have hdone := zhewickFrameRx_takes hlive hvalid hidle stamp
    rw [if_neg hsrc] at hdone
    obtain ⟨⟨c, hzh⟩, hcad, hcut, -⟩ := frameCut_effect bytes (upstreamValid stamp (frameReached stamp s.dev))
    refine ⟨_, hdone, ?_, ?_, ?_, hcad, hcut, ?_⟩
    · rw [hzh]
      rfl
    · rw [hzh]
      rfl
    · rw [hzh]
      exact if_neg hsrc
    · rw [hzh]
  · have hdone := zhewickFrameRx_takes hlive hvalid hidle stamp
    rw [if_pos hsrc, frameSync_of_clear hsync, frameSlate_of_clear hslate] at hdone
    obtain ⟨hhop, hhold, hrun, hphase, hrecs, hret⟩ := frameTiming_of_locked (s := upstreamValid stamp (frameReached stamp s.dev)) hst stamp bytes
    obtain ⟨⟨c, hzh⟩, hcad, -, hobj⟩ := frameCut_effect bytes (frameTiming stamp bytes (upstreamValid stamp (frameReached stamp s.dev)))
    refine ⟨_, hdone, ?_, ?_, ?_, ?_, ?_, ?_⟩
    · rw [hzh]
      exact hhop
    · rw [hzh]
      exact hhold
    · rw [hzh]
      exact hrun
    · unfold rdI at hphase ⊢
      rw [hobj]
      exact hphase
    · rw [hcad]
      exact hrecs
    · rw [hzh]
      exact hret.trans (if_pos hsrc)
  · have hdone := zhewickFrameLoss_completes hlive he
    by_cases hsrc : s.dev.cad.src = 3
    · rw [if_pos hsrc] at hdone
      have hkept := cadLose_kept { upstreamLost e s.dev with cad := { s.dev.cad with present := false } }
      refine ⟨_, hdone, cadLose_now _, ?_, ?_, ?_, hkept.recs, fun hne => absurd hsrc hne, fun _ hst => ?_⟩
      · rw [hkept.zh]
        rfl
      · rw [hkept.zh]
        rfl
      · rw [hkept.zh]
        rfl
      · obtain ⟨hhold, -, -, hpresent, -⟩ := cadLose_effect (s := { upstreamLost e s.dev with cad := { s.dev.cad with present := false } }) (.inl hst)
        exact ⟨hhold, hpresent⟩
    · rw [if_neg hsrc] at hdone
      exact ⟨_, hdone, rfl, rfl, rfl, rfl, rfl, fun _ => rfl, fun h => absurd h hsrc⟩
  · have hpeer := (framePeer_kind bytes 1).trans hidle
    refine ⟨updZh (fun z => { z with downSeen := true, trip := some (roundTrip e stamp) }) (advance ((stamp + 255) / 256 + returnFrameTicks) s.dev),
      completes_of_onDev rfl hlive ?_, rfl, rfl, rfl, rfl, rfl⟩
    dsimp only
    rw [if_pos hvalid, peerReserved_of_idle hpeer, if_neg (by decide), peerTake_of_idle hpeer, hmarker]
    dsimp only [updZh, advance_zh]
    rw [he]
    rfl

end Sys2Proof.Machine
end

section
/-! SUPPORT. A SYNC made known to the dies, and writes that are refused (02, R70; 07, R233), O13. -/

namespace Sys2Proof.Machine

/-! ### A SYNC at the dies -/

/-- From `a` to `b` only dies and the waits of channels have changed. -/
structure WaitStep (a b : Dev) : Prop where
  frame : b = { a with dies := b.dies, chans := b.chans }
  waits : ∀ n : Ch, ∃ w, b.ch n = { a.ch n with seq := { (a.ch n).seq with wait := w } }

theorem WaitStep.of_dies {a b : Dev} (h : b = { a with dies := b.dies }) : WaitStep a b where
  frame := by rw [h]
  waits := fun n => ⟨(a.ch n).seq.wait, by rw [h]; rfl⟩

theorem WaitStep.refl (s : Dev) : WaitStep s s := .of_dies rfl

theorem WaitStep.trans {a b c : Dev} (h : WaitStep a b) (g : WaitStep b c) : WaitStep a c where
  frame := by rw [g.frame, h.frame]
  waits := fun n => by
    obtain ⟨v, hv⟩ := h.waits n
    obtain ⟨w, hw⟩ := g.waits n
    exact ⟨w, by rw [hw, hv]⟩

theorem WaitStep.foldl {α : Type} {f : Dev → α → Dev} (l : List α) (h : ∀ s x, WaitStep s (f s x)) (s : Dev) : WaitStep s (l.foldl f s) :=
  List.foldlRecOn (motive := fun d => WaitStep s d) _ _ (WaitStep.refl s) fun d hd x _ => hd.trans (h d x)

/-- A channel whose wait is as it was is as it was. -/
theorem WaitStep.ch_of_wait {a b : Dev} (h : WaitStep a b) {n : Ch} (hn : (b.ch n).seq.wait = (a.ch n).seq.wait) : b.ch n = a.ch n := by
  obtain ⟨w, hw⟩ := h.waits n
  have hsame : w = (a.ch n).seq.wait := by rw [← hn, hw]
  rw [hw, hsame]

/-- A wait released. -/
theorem WaitStep.updSeq (n : Ch) (w : Option SeqWait) (s : Dev) : WaitStep s (updSeq n (fun q => { q with wait := w }) s) where
  frame := rfl
  waits := fun m => by
    by_cases hm : m = n
    · subst hm
      exact ⟨w, updCh_ch_self m _ s⟩
    · exact ⟨(s.ch m).seq.wait, updCh_ch_of_ne _ s hm⟩

/-- A SYNC at a die over an ACTIVE link, at one whose link retrains, and at one that it does not reach (Table 1.6). -/
def syncTaken (num pos : Nat) (d : DieState) : DieState :=
  match d.link.st with
  | .active => { d with sync := some (num, pos) }
  | .retraining => { d with link := { d.link with held := d.link.held ++ [.sync num pos] } }
  | .reset | .training | .lost => d

/-- One channel of a die takes a SYNC (R233, Table 7.3). -/
def waitSynced (k : Die) (num pos : Nat) (s : Dev) (n : Ch) : Dev :=
  match (s.ch n).seq.wait with
  | some w =>
    if n.die = k && coWait (courseOf (s.ch n).seq (s.ch n).seq.bank (s.ch n).seq.idx) = 5 && w.release.isNone &&
        (bitOf (coArg (courseOf (s.ch n).seq (s.ch n).seq.bank (s.ch n).seq.idx)) 16 ||
          num = coArg (courseOf (s.ch n).seq (s.ch n).seq.bank (s.ch n).seq.idx) % 65536) then
      updSeq n (fun q => { q with wait := some { w with release := some (.pos pos) } }) s
    else s
  | none => s

theorem dieSync_eq (k : Die) (num pos : Nat) (s : Dev) :
    dieSync k num pos s = (List.finRange 24).foldl (waitSynced k num pos) (updDie k (fun d => { d with sync := some (num, pos) }) s) := rfl

theorem waitSynced_step (k : Die) (num pos : Nat) (s : Dev) (n : Ch) :
    WaitStep s (waitSynced k num pos s n) ∧ (waitSynced k num pos s n).dies = s.dies := by
  unfold waitSynced
  split
  · split
    · exact ⟨WaitStep.updSeq n _ s, rfl⟩
    · exact ⟨WaitStep.refl s, rfl⟩
  · exact ⟨WaitStep.refl s, rfl⟩

theorem dieSync_step (k : Die) (num pos : Nat) (s : Dev) : WaitStep s (dieSync k num pos s) ∧
    (dieSync k num pos s).dies = (updDie k (fun d => { d with sync := some (num, pos) }) s).dies := by
  rw [dieSync_eq]
  refine ⟨?_, foldl_keeps Dev.dies _ (fun d n => (waitSynced_step k num pos d n).2) _ _⟩
  exact WaitStep.trans (.of_dies rfl) (WaitStep.foldl _ (fun d n => (waitSynced_step k num pos d n).1) _)

theorem overLink_sync_step (k : Die) (num pos : Nat) (s : Dev) :
    WaitStep s (overLink k (.sync num pos) (dieSync k num pos) s) ∧
    (overLink k (.sync num pos) (dieSync k num pos) s).dies = (updDie k (syncTaken num pos) s).dies := by
  have hdie : ∀ f : DieState → DieState, syncTaken num pos s.dies[k] = f s.dies[k] → (updDie k (syncTaken num pos) s).dies = (updDie k f s).dies :=
    fun f h => congrArg Dev.dies (updDie_congr h)
  unfold overLink
  cases hst : s.dies[k].link.st with
  | active =>
    obtain ⟨hstep, hdies⟩ := dieSync_step k num pos s
    exact ⟨hstep, hdies.trans (hdie _ (by unfold syncTaken; rw [hst])).symm⟩
  | retraining => exact ⟨.of_dies rfl, (hdie _ (by unfold syncTaken; rw [hst])).symm⟩
  | reset | training | lost =>
    refine ⟨WaitStep.refl s, ?_⟩
    rw [updDie_eq_self (by unfold syncTaken; rw [hst])]

/-- Steps that each rewrite one die rewrite each die of a list once. -/
theorem foldl_dies {f : Dev → Die → Dev} {g : DieState → DieState} (h : ∀ s k, (f s k).dies = (updDie k g s).dies) (l : List Die) (s t : Dev)
    (hst : s.dies = t.dies) : (l.foldl f s).dies = (l.foldl (fun s k => updDie k g s) t).dies := by
  induction l generalizing s t with
  | nil => exact hst
  | cons k l ih =>
    refine ih _ _ ((h s k).trans ?_)
    unfold updDie
    rw [hst]

theorem syncKnown_step (x : Target) (s : Dev) : WaitStep s (syncKnown x s) :=
  WaitStep.foldl _ (fun d k => (overLink_sync_step k x.num x.pos d).1) s

theorem syncKnown_die (x : Target) (s : Dev) (k : Die) : (syncKnown x s).dies[k] = syncTaken x.num x.pos s.dies[k] := by
  obtain ⟨v, hv, hdies⟩ := foldl_updDie (fun _ => syncTaken x.num x.pos) (List.finRange 6) (List.nodup_finRange 6) s
  have hfold : (syncKnown x s).dies = v := (foldl_dies (fun d k => (overLink_sync_step k x.num x.pos d).2) _ s s rfl).trans (congrArg Dev.dies hv)
  rw [hfold, hdies k, if_pos (List.mem_finRange k)]

/-! ### A write that its own rule refuses -/

/-- A write that passes the checks of R332 and that its own rule refuses leaves the code as its answer. -/
theorem PlainRow.rowRequest_refused {r : Row} (h : PlainRow r) {s : State} {p : Port} {places : List Nat} {data : List Byte} {code : Nat}
    (hserved : Served s p r) (hrow : rowOf (r.ix + dimsOff r.dims places) r.sub = some r) (hlen : data.length = r.size)
    (hreached : reached s.dev (r.ix + dimsOff r.dims places)) (hlim : limitCheck r (ofBytes data) = .ok)
    (hw : directWrite p r (r.ix + dimsOff r.dims places) r.sub data s.nv s.dev = (.abort code, s.dev)) :
    Machine.rowRequest p r places data s = .next (s.acts (setAnswer p (.refused code) s.dev)) := by
  obtain ⟨hlive, hserves, hopen, hmay, hport⟩ := hserved
  obtain ⟨hdie, hlink⟩ := hreached
  have hwrite : Machine.writeObj s.nv p (r.ix + dimsOff r.dims places) r.sub data s.dev = (.abort code, s.dev) := by
    simp [Machine.writeObj, hopen, writeOpen, nameOf_of_rowOf p hrow (right_of_mayWrite hmay), firstBad, hmay, h.lengthOk hlen, reachCheck, hdie,
      h.direct, h.valueCheck hlim, h.directCheck, hw]
  refine onDev_acts hlive ?_
  simp [request, hserves, hwrite, writeWaits_of_no_hold hport hlink, answered]

/-! ### SYNC_ISSUE and SYNC_EVENT -/

theorem plainRow_syncIssue : PlainRow oSyncIssue := ⟨by decide, by decide, rfl⟩

theorem reached_syncIssue (s : Dev) : reached s (oSyncIssue.ix + dimsOff oSyncIssue.dims []) := reached_of_objDie_zero s (by decide)

theorem directWrite_syncIssue (p : Port) (num : BitVec 16) (nv : Nv) (s : Dev) :
    directWrite p oSyncIssue (oSyncIssue.ix + dimsOff oSyncIssue.dims []) oSyncIssue.sub (leBytes 2 num.toNat) nv s = syncIssue num.toNat s := by
  have hdata : ofBytes (leBytes 2 num.toNat) = num.toNat := by
    rw [ofBytes_leBytes]
    exact Nat.mod_eq_of_lt num.isLt
  show syncIssue (ofBytes (leBytes 2 num.toNat)) s = _
  rw [hdata]

theorem syncIssue_completes {s : State} {p : Port} {num : BitVec 16} {t : Dev} (hserved : Served s p oSyncIssue)
    (hok : syncIssue num.toNat s.dev = (.ok, t)) (hfw : t.fw = s.dev.fw) : Completes (.syncIssue p num) s (done p t) :=
  plainRow_syncIssue.rowRequest hserved rowOf_syncIssue (length_leBytes _ _) (reached_syncIssue _).1 (reached_syncIssue _).2 rfl
    ((directWrite_syncIssue p num _ _).trans hok) (congrArg Firmware.held hfw)

theorem syncIssue_refused {s : State} {p : Port} {num : BitVec 16} {code : Nat} (hserved : Served s p oSyncIssue)
    (hbad : syncIssue num.toNat s.dev = (.abort code, s.dev)) : Completes (.syncIssue p num) s (setAnswer p (.refused code) s.dev) :=
  plainRow_syncIssue.rowRequest_refused hserved rowOf_syncIssue (length_leBytes _ _) (reached_syncIssue _) rfl
    ((directWrite_syncIssue p num _ _).trans hbad)

/-- The SYNC that a write of SYNC_ISSUE asks for. -/
def issuedSync (num : BitVec 16) (s : Dev) : Target := ⟨rd s oSyncPos [], num.toNat⟩

/-- A SYNC pends. -/
def syncPends (t : Target) (s : Dev) : Dev := { s with zh := { s.zh with sync := some t } }

/-- Settles O13: SYNC_ISSUE by its two refusals, then the SYNC at the dies and at its tick. -/
theorem syncs : Obligations.Syncs := by
  refine fun s hlive => ⟨fun p num hserved => ⟨fun hhop hearly hnone => ?_, fun hhop => ?_, fun hhop hbad => ?_⟩, ?_⟩
  · have hstep := syncKnown_step (issuedSync num s.dev) (syncPends (issuedSync num s.dev) s.dev)
    have hdie := syncKnown_die (issuedSync num s.dev) (syncPends (issuedSync num s.dev) s.dev)
    have hok : syncIssue num.toNat s.dev = (.ok, syncKnown (issuedSync num s.dev) (syncPends (issuedSync num s.dev) s.dev)) := by
      simp [syncIssue, refuseIf, hhop, hearly, hnone, firstBad, actIf, issuedSync, syncPends]
    refine ⟨_, syncIssue_completes hserved hok (by rw [hstep.frame]; rfl), by rw [hstep.frame]; rfl, by rw [hstep.frame]; rfl,
      by rw [hstep.frame]; rfl, fun k hup => ?_, fun k hlost => ?_, fun n hn => hstep.ch_of_wait hn⟩
    · have hlink : s.dev.dies[k].link.st = .active := hup
      rw [hdie k, syncTaken, syncPends, hlink]
      rfl
    · rw [hdie k, syncTaken, syncPends, hlost]
  · exact syncIssue_refused hserved (by simp [syncIssue, refuseIf, hhop, firstBad, actIf])
  · have hlate : (within1ms s.dev (rd s.dev oSyncPos []) || s.dev.zh.sync.isSome) = true := by
      obtain h | h := hbad
      · simp [h]
      · simp [Option.isSome_iff_ne_none.mpr h]
    exact syncIssue_refused hserved (by simp [syncIssue, refuseIf, hhop, hlate, firstBad, actIf])
  · rintro e rfl
    generalize he : settleDue s.nv _ [] s.dev = e
    have hdone : Completes .syncEvent s (syncEvent e) := he ▸ completes_of_onDev rfl hlive rfl
    refine ⟨fun t r hsync hreach hnum hpos => ?_, fun hheld => ?_⟩
    · have hevent : syncEvent e = updZh (fun z => { z with sync := none })
          (wr (wr (advance r e) oSyncLastNum t.num []) oSyncLastPos t.pos []) := by
        unfold syncEvent atPosition
        rw [hsync]
        dsimp only
        rw [hreach]
      rw [hevent] at hdone
      refine ⟨_, hdone, rfl, rfl, ?_, ?_, rfl, rfl⟩
      · exact (rd_wr_other _ _ _ _ _ _ (by decide)).trans ((rd_wr_same _ _ _ _).trans (Nat.mod_eq_of_lt hnum))
      · exact (rd_wr_same _ oSyncLastPos _ _).trans (Nat.mod_eq_of_lt hpos)
    · have hevent : syncEvent e = e := by
        unfold syncEvent atPosition
        obtain hnone | ⟨t, hsync, hreach⟩ := hheld
        · rw [hnone]
        · rw [hsync]
          dsimp only
          rw [hreach]
      rwa [hevent] at hdone

end Sys2Proof.Machine
end

section
/-! SUPPORT. Operations on the source path of one channel (03; 05, R162): what a read finds after each of them, and that each leaves the rest of the
device as it was. -/

namespace Sys2Proof.Machine

/-! ### Only one channel -/

theorem chanOnly_iff {n : Ch} {a b : Dev} : chanOnly n a b ↔ ∃ t o c, b = { a with now := t, objs := o, chans := a.chans.set n c } := by
  constructor
  · exact fun h => ⟨_, _, _, h⟩
  · rintro ⟨t, o, c, rfl⟩
    simp [chanOnly, Dev.ch]

theorem chanOnly.trans {n : Ch} {a b c : Dev} (h : chanOnly n a b) (g : chanOnly n b c) : chanOnly n a c := by
  rw [chanOnly_iff] at *
  obtain ⟨_, _, _, rfl⟩ := h
  obtain ⟨t, o, c, rfl⟩ := g
  exact ⟨t, o, c, by simp⟩

@[simp] theorem chanOnly.refl (n : Ch) (s : Dev) : chanOnly n s s := chanOnly_iff.mpr ⟨s.now, s.objs, s.ch n, by simp [Dev.ch]⟩

theorem chanOnly.symm {n : Ch} {a b : Dev} (h : chanOnly n a b) : chanOnly n b a := by
  rw [chanOnly_iff] at *
  obtain ⟨_, _, _, rfl⟩ := h
  exact ⟨a.now, a.objs, a.ch n, by simp [Dev.ch]⟩

/-- Steps of channel n alone do not count. -/
theorem chanOnly.congr_right {n : Ch} {a b c : Dev} (h : chanOnly n b c) : chanOnly n a c ↔ chanOnly n a b :=
  ⟨fun g => g.trans h.symm, fun g => g.trans h⟩

@[simp] theorem chanOnly_updCh (n : Ch) (f : Chan → Chan) (a b : Dev) : chanOnly n a (updCh n f b) ↔ chanOnly n a b :=
  chanOnly.congr_right (chanOnly_iff.mpr ⟨_, _, _, rfl⟩)

@[simp] theorem chanOnly_updSrc (n : Ch) (f : Src → Src) (a b : Dev) : chanOnly n a (updSrc n f b) ↔ chanOnly n a b := chanOnly_updCh n _ a b

@[simp] theorem chanOnly_advance (n : Ch) (t : Nat) (a b : Dev) : chanOnly n a (advance t b) ↔ chanOnly n a b :=
  chanOnly.congr_right (chanOnly_iff.mpr ⟨max b.now t, b.objs, b.ch n, by simp [advance, Dev.ch]⟩)

@[simp] theorem chanOnly_wr (n : Ch) (r : Row) (v : Nat) (l : List Nat) (a b : Dev) : chanOnly n a (wr b r v l) ↔ chanOnly n a b :=
  chanOnly.congr_right (chanOnly_iff.mpr ⟨b.now, (wr b r v l).objs, b.ch n, by simp [wr, wrJ, Dev.ch]⟩)

@[simp] theorem chanOnly_bump (n : Ch) (r : Row) (l : List Nat) (a b : Dev) : chanOnly n a (bump r l b) ↔ chanOnly n a b := chanOnly_wr n _ _ _ a b

/-! ### Reads of the channel and of objects -/

@[simp] theorem advance_now (t : Nat) (s : Dev) : (advance t s).now = max s.now t := rfl
@[simp] theorem updSrc_now (n : Ch) (f : Src → Src) (s : Dev) : (updSrc n f s).now = s.now := rfl
@[simp] theorem updSrc_objs (n : Ch) (f : Src → Src) (s : Dev) : (updSrc n f s).objs = s.objs := rfl

@[simp] theorem advance_ch (t : Nat) (s : Dev) (n : Ch) : (advance t s).ch n = s.ch n := rfl
@[simp] theorem wr_ch (s : Dev) (r : Row) (v : Nat) (l : List Nat) (n : Ch) : (wr s r v l).ch n = s.ch n := rfl
@[simp] theorem bump_ch (r : Row) (l : List Nat) (s : Dev) (n : Ch) : (bump r l s).ch n = s.ch n := rfl
@[simp] theorem updSrc_ch (n : Ch) (f : Src → Src) (s : Dev) : (updSrc n f s).ch n = { s.ch n with src := f (s.ch n).src } := updCh_ch_self n _ s

@[simp] theorem rd_advance (t : Nat) (s : Dev) (r : Row) (l : List Nat) : rd (advance t s) r l = rd s r l := rfl
@[simp] theorem rd_updCh (n : Ch) (f : Chan → Chan) (s : Dev) (r : Row) (l : List Nat) : rd (updCh n f s) r l = rd s r l := rfl
@[simp] theorem rd_updSrc (n : Ch) (f : Src → Src) (s : Dev) (r : Row) (l : List Nat) : rd (updSrc n f s) r l = rd s r l := rfl
@[simp] theorem rdI_advance (t : Nat) (s : Dev) (r : Row) (l : List Nat) : rdI (advance t s) r l = rdI s r l := rfl
@[simp] theorem rdI_updSrc (n : Ch) (f : Src → Src) (s : Dev) (r : Row) (l : List Nat) : rdI (updSrc n f s) r l = rdI s r l := rfl

/-- Rewrites that agree on the channel as it stands are the same. -/
theorem updCh_congr {n : Ch} {f g : Chan → Chan} {s : Dev} (h : f (s.ch n) = g (s.ch n)) : updCh n f s = updCh n g s := by
  unfold Dev.ch at h
  unfold updCh
  rw [h]

theorem updSrc_congr {n : Ch} {f g : Src → Src} {s : Dev} (h : f (s.ch n).src = g (s.ch n).src) : updSrc n f s = updSrc n g s :=
  updCh_congr (congrArg (fun x => { s.ch n with src := x }) h)

theorem updCh_updCh (n : Ch) (f g : Chan → Chan) (s : Dev) : updCh n f (updCh n g s) = updCh n (fun c => f (g c)) s := by
  simp [updCh]

theorem updSrc_updSrc (n : Ch) (f g : Src → Src) (s : Dev) : updSrc n f (updSrc n g s) = updSrc n (fun x => f (g x)) s :=
  updCh_updCh n _ _ s

/-- The key of an object that a channel has once (Table 0.3). -/
theorem keyOf_chan {r : Row} (hr : r.dims = [(0x100, 24)]) (n : Ch) : keyOf r [n] 0 = objKey r.ix r.sub 0 + 65536 * n := by
  simp only [keyOf, objKey, hr, dimsOff]
  ring

/-- Two such objects with different places in the dictionary have different keys. -/
theorem keyOf_chan_ne {q r : Row} (hq : q.dims = [(0x100, 24)]) (hr : r.dims = [(0x100, 24)]) (h : objKey q.ix q.sub 0 ≠ objKey r.ix r.sub 0) (n : Ch) :
    keyOf q [n] 0 ≠ keyOf r [n] 0 := by
  rw [keyOf_chan hq, keyOf_chan hr]
  exact fun e => h (Nat.add_right_cancel e)

/-- A counter of a channel leaves the channel's other objects. -/
theorem rd_bump_chan {q r : Row} (hq : q.dims = [(0x100, 24)]) (hr : r.dims = [(0x100, 24)]) (h : objKey q.ix q.sub 0 ≠ objKey r.ix r.sub 0) (n : Ch)
    (s : Dev) : rd (bump r [n] s) q [n] = rd s q [n] := rd_bump_of_ne (keyOf_chan_ne hq hr h n) s

/-! ### Channel events -/

/-- From `a` to `b` channel n has had events at most: its source path and every object but CH_FAULT are as they were, and so is the rest of the device. -/
structure EventStep (n : Ch) (a b : Dev) : Prop where
  only : chanOnly n a b
  now : b.now = a.now
  src : (b.ch n).src = (a.ch n).src
  kept : ∀ r l, keyOf r l 0 ≠ keyOf oChFault [n] 0 → rd b r l = rd a r l

theorem EventStep.refl (n : Ch) (s : Dev) : EventStep n s s := ⟨.refl n s, rfl, rfl, fun _ _ _ => rfl⟩

theorem EventStep.trans {n : Ch} {a b c : Dev} (h : EventStep n a b) (g : EventStep n b c) : EventStep n a c :=
  ⟨h.only.trans g.only, g.now.trans h.now, g.src.trans h.src, fun r l hr => (g.kept r l hr).trans (h.kept r l hr)⟩

theorem EventStep.updCh {n : Ch} {f : Chan → Chan} (hf : ∀ c, (f c).src = c.src) (s : Dev) : EventStep n s (updCh n f s) :=
  ⟨by simp, rfl, by rw [updCh_ch_self, hf], fun _ _ _ => rfl⟩

theorem EventStep.chFault (n : Ch) (bit : Nat) (s : Dev) : EventStep n s (chFault n bit s) :=
  ⟨by simp [Machine.chFault], rfl, rfl, fun _ _ hr => rd_wr_other _ _ _ _ _ _ hr⟩

/-- A record of a stream changes queues of its channel and, where one is lost, CH_FAULT (R165, Table 11.14). -/
theorem streamWrite_step (n : Ch) (stream : Nat) (words : List Word64) (companion : Nat) (s : Dev) :
    EventStep n s (streamWrite n stream words companion s) := by
  unfold streamWrite
  refine iteInduction (fun _ => ?_) fun _ => ?_
  · refine EventStep.trans (b := Machine.updCh n _ s) (.updCh (by intro; rfl) s) (.chFault n 9 _)
  · exact .updCh (by intro; rfl) s

theorem streamWrite_eseq (n : Ch) (stream : Nat) (words : List Word64) (companion : Nat) (s : Dev) :
    ((streamWrite n stream words companion s).ch n).eseq = (s.ch n).eseq := by
  unfold streamWrite
  refine iteInduction (motive := fun d : Dev => (d.ch n).eseq = (s.ch n).eseq) (fun _ => ?_) fun _ => ?_ <;>
    simp [updCh_ch_self, chFault]

theorem chEvent_step (n : Ch) (code arg : Nat) (s : Dev) : EventStep n s (chEvent n code arg s) := by
  unfold chEvent
  refine EventStep.trans (b := streamWrite n 7 _ 0 (Machine.updCh n _ s)) ?_ (iteInduction (fun _ => .refl n _) fun _ => .updCh (by intro; rfl) _)
  exact EventStep.trans (.updCh (by intro; rfl) s) (streamWrite_step n 7 _ 0 _)

/-- Every channel event is numbered one on (R162). -/
theorem chEvent_eseq (n : Ch) (code arg : Nat) (s : Dev) : ((chEvent n code arg s).ch n).eseq = ((s.ch n).eseq + 1) % 65536 := by
  unfold chEvent
  refine iteInduction (motive := fun d : Dev => (d.ch n).eseq = ((s.ch n).eseq + 1) % 65536) (fun _ => ?_) fun _ => ?_
  · rw [streamWrite_eseq, updCh_ch_self]
  · rw [updCh_ch_self, streamWrite_eseq, updCh_ch_self]

/-- An entry to another state than the present one makes a channel event (Table 5.6). -/
theorem srcEnter_of_ne {n : Ch} {st : SrcState} {s : Dev} (h : (s.ch n).src.st ≠ st) :
    srcEnter n st s = chEvent n 0x01 (srcStateCode st) (updSrc n (fun x => { x with st := st }) s) := if_neg h

end Sys2Proof.Machine
end

section
/-! SUPPORT. Range changes, reference settling and the clamp after a reset (03, R101, R104; Table 3.3), O17. -/

namespace Sys2Proof.Machine

/-- The pattern of the new entry stands alone, and the change is over (Table 3.6). -/
def rangeEnded (n : Ch) (r : RangeChange) (s : Dev) : Dev :=
  updSrc n (fun x => { x with rangeSel := rd s oPattern [n, r.target], range := none }) (advance r.releaseAt s)

/-- A hold lets go at the release of a range change where no step has moved its own release out (R98). -/
theorem rangeRelease_eq (n : Ch) (r : RangeChange) (s : Dev) : rangeRelease n r s =
    if (s.ch n).src.hold.any (fun h => decide (h.release ≤ r.releaseAt)) then holdRelease n (rangeEnded n r s) else rangeEnded n r s := by
  have hhold : ((rangeEnded n r s).ch n).src.hold = (s.ch n).src.hold := by simp [rangeEnded]
  show (match ((rangeEnded n r s).ch n).src.hold with
    | some h => if h.release ≤ r.releaseAt then holdRelease n (rangeEnded n r s) else rangeEnded n r s
    | none => rangeEnded n r s) = _
  rw [hhold]
  cases (s.ch n).src.hold <;> simp

theorem rangeRelease_effect (n : Ch) (r : RangeChange) (s : Dev) :
    chanOnly n s (rangeRelease n r s) ∧ (rangeRelease n r s).now = max s.now r.releaseAt ∧ ((rangeRelease n r s).ch n).eseq = (s.ch n).eseq ∧
      ((rangeRelease n r s).ch n).src.range = none ∧ ((rangeRelease n r s).ch n).src.rangeSel = rd s oPattern [n, r.target] ∧
      ∀ h, (s.ch n).src.hold = some h → ((rangeRelease n r s).ch n).src.hold = if h.release ≤ r.releaseAt then none else some h := by
  rw [rangeRelease_eq]
  split
  · next hgo =>
    refine ⟨by simp [holdRelease, rangeEnded], rfl, by simp [holdRelease, rangeEnded], by simp [holdRelease, rangeEnded],
      by simp [holdRelease, rangeEnded], fun h hh => ?_⟩
    rw [if_pos (by simpa [hh] using hgo)]
    simp [holdRelease]
  · next hstay =>
    refine ⟨by simp [rangeEnded], rfl, by simp [rangeEnded], by simp [rangeEnded], by simp [rangeEnded], fun h hh => ?_⟩
    rw [if_neg (by simpa [hh] using hstay)]
    simp [rangeEnded, hh]

theorem rangeChangeRelease_completes {s : State} {n : Ch} {r : RangeChange} (hlive : Live s) (h : (s.dev.ch n).src.range = some r) :
    Completes (.rangeChangeRelease n) s (chEvent n 0x02 r.target (rangeRelease n r s.dev)) :=
  completes_of_onDev rfl hlive (by simp only [h])

/-- Settles O17: each command's equation; the release of a range change is that of the source path with its channel event. -/
theorem rangeSequence_holds : Obligations.RangeSequence := by
  refine fun s n hlive => ⟨fun r hr => ⟨completes_of_onDev rfl hlive (by simp only [hr]; rfl), ?_⟩,
    fun t ht => completes_of_onDev rfl hlive (by simp only [ht]), fun t ht => ?_⟩
  · obtain ⟨honly, hnow, heseq, hrange, hsel, hhold⟩ := rangeRelease_effect n r s.dev
    have hevent := chEvent_step n 0x02 r.target (rangeRelease n r s.dev)
    refine ⟨_, rangeChangeRelease_completes hlive hr, honly.trans hevent.only, hevent.now.trans hnow, ?_, ?_, ?_, fun h hh => ?_⟩
    · rw [hevent.src, hrange]
    · rw [hevent.src, hsel]
    · rw [chEvent_eseq, heseq]
    · rw [hevent.src, hhold h hh]
  · show execResetGndClamp n s = _
    unfold execResetGndClamp onDies
    simp only [ht]
    rfl

end Sys2Proof.Machine
end

section
/-! SUPPORT. The enable and disable sequences (03, R92, R94, R95; Tables 3.4 and 3.5), O16. -/

namespace Sys2Proof.Machine

/-- An entry to another state from a device in which only channel n has changed: the state, the event's number, and no object but CH_FAULT. -/
theorem srcEnter_effect {n : Ch} {st : SrcState} {a b : Dev} (h : chanOnly n a b) (hst : (b.ch n).src.st ≠ st) :
    chanOnly n a (srcEnter n st b) ∧ (srcEnter n st b).now = b.now ∧ ((srcEnter n st b).ch n).src = { (b.ch n).src with st := st } ∧
      ((srcEnter n st b).ch n).eseq = ((b.ch n).eseq + 1) % 65536 ∧
      ∀ r l, keyOf r l 0 ≠ keyOf oChFault [n] 0 → rd (srcEnter n st b) r l = rd b r l := by
  have hevent := chEvent_step n 0x01 (srcStateCode st) (updSrc n (fun x => { x with st := st }) b)
  rw [srcEnter_of_ne hst]
  refine ⟨((chanOnly_updSrc ..).mpr h).trans hevent.only, hevent.now, ?_, ?_, hevent.kept⟩
  · rw [hevent.src, updSrc_ch]
  · rw [chEvent_eseq, updSrc_ch]

/-! ### The enable sequence -/

theorem gndClampOpen_completes {s : State} {n : Ch} {t : Nat} (hlive : Live s) (hst : (s.dev.ch n).src.st = .enabling)
    (ht : (s.dev.ch n).src.enableT = some t) : Completes (.gndClampOpen n) s (updSrc n (fun x =>
      let x := { x with gndClamp := false, clampCause := 0 }
      { x with pin := pinCode x }) (advance (t + 492) s.dev)) :=
  completes_of_onDev rfl hlive (by simp only [hst, ht])

/-- The source path of the release, before it enters RUNNING (R94). -/
def enableReleased (n : Ch) (t : Nat) (s : Dev) : Dev :=
  let s := advance (t + usTicks (enableUs s n + rd s oRelaySettleUs [n])) s
  updSrc n (fun x => { x with
    enableT := none, gndClamp := false, clampCause := 0, forceEn := true, static := rdI s oSrcCode [n], slot := firstSlot s n s.now
    lastSlot := none, clampCounted := false, sine := { x.sine with ampl := 0, amplWait := some (rd s oSineAmpl [n]), delay := [] } }) s

theorem sourceRelease_completes {s : State} {n : Ch} {t : Nat} (hlive : Live s) (hst : (s.dev.ch n).src.st = .enabling)
    (ht : (s.dev.ch n).src.enableT = some t) : Completes (.sourceRelease n) s (srcEnter n .running (enableReleased n t s.dev)) :=
  completes_of_onDev rfl hlive (by simp only [hst, ht]; rfl)

/-! ### The disable sequence -/

theorem disableRampEnd_completes {s : State} {n : Ch} (hlive : Live s) (hst : (s.dev.ch n).src.st = .disabling)
    (hdone : (s.dev.ch n).src.rampDone = none) (hsafe : (s.dev.ch n).src.safe = none) : Completes (.disableRampEnd n) s
      (updSrc n (fun x => { x with forceEn := false, rampDone := some (max s.dev.now (rampEndTick s.dev n)) }) (advance (rampEndTick s.dev n) s.dev)) :=
  completes_of_onDev rfl hlive (by simp [hst, hdone, hsafe])

theorem rampEndTick_of_ramp {s : Dev} {n : Ch} {t : Nat} {c : Int} (h : (s.ch n).src.rampFrom = some (t, c)) : rampEndTick s n =
    if rd s oSrcRamp [n] = 0 then t else t + (c.natAbs * 24576 + 100 * rd s oSrcRamp [n] - 1) / (100 * rd s oSrcRamp [n]) := by
  unfold rampEndTick
  rw [h]

/-- The device as the GND clamp closes on a disabled source (R95). -/
def disabled (n : Ch) (tick : Nat) (s : Dev) : Dev :=
  updSrc n (fun x => { x with gndClamp := true, clampCause := 2, hold := none, rampFrom := none, rampDone := none, code := 0, pin := 0 })
    (srcQueueEmpty n (advance tick s))

theorem disableComplete_completes {s : State} {n : Ch} {t : Nat} (hlive : Live s) (hst : (s.dev.ch n).src.st = .disabling)
    (hdone : (s.dev.ch n).src.rampDone = some t) (hsafe : (s.dev.ch n).src.safe = none) (hpend : (s.dev.ch n).src.enablePending = false) :
    Completes (.disableComplete n) s (srcEnter n .off (disabled n (t + usTicks (rd s.dev oRelaySettleUs [n])) s.dev)) := by
  refine completes_of_onDev rfl hlive ?_
  simp only [hst, hdone, hsafe, hpend]
  rfl

/-- Settles O16: each command's equation, and of the two that enter a state what the entry adds. -/
theorem enableSequence : Obligations.EnableSequence := by
  refine fun s n t hlive => ⟨fun hst ht => ⟨?_, ?_, ?_⟩, fun hst hdone hsafe t0 c hramp => ?_, fun hst hdone hsafe hpend => ?_⟩
  · exact ⟨_, gndClampOpen_completes hlive hst ht, by simp, rfl, rfl, by simp, by simp, by simp [hst], by simp⟩
  · exact completes_of_onDev rfl hlive (by simp only [hst, ht]; rfl)
  · have hne : ((enableReleased n t s.dev).ch n).src.st ≠ .running := by simp [enableReleased, hst]
    obtain ⟨honly, hnow, hsrc, heseq, -⟩ := srcEnter_effect (a := s.dev) (by simp [enableReleased]) hne
    refine ⟨_, sourceRelease_completes hlive hst ht, honly, hnow, ?_⟩
    rw [hsrc, heseq]
    simp [enableReleased]
  · refine ⟨_, disableRampEnd_completes hlive hst hdone hsafe, by simp, by simp, by simp, fun h0 => ?_, fun hpos => ?_, rfl, by simp [hst]⟩
    · rw [updSrc_now, advance_now, rampEndTick_of_ramp hramp, if_pos h0]
    · rw [updSrc_now, advance_now, rampEndTick_of_ramp hramp, if_neg (by omega)]
  · have hne : ((disabled n (t + usTicks (rd s.dev oRelaySettleUs [n])) s.dev).ch n).src.st ≠ .off := by simp [disabled, srcQueueEmpty, hst]
    obtain ⟨honly, hnow, hsrc, -, hrd⟩ := srcEnter_effect (a := s.dev) (by simp [disabled, srcQueueEmpty]) hne
    refine ⟨_, disableComplete_completes hlive hst hdone hsafe hpend, honly, hnow, ?_⟩
    rw [hsrc, hrd _ _ (keyOf_chan_ne rfl rfl (by decide) n)]
    simp [disabled, srcQueueEmpty]

end Sys2Proof.Machine
end

section
/-! SUPPORT. Direct writes of the source (03, R76, R79), O18. -/

namespace Sys2Proof.Machine

/-! ### SRC_CODE -/

/-- A plain object at its places is stored under the one key it has for every port (R331). -/
theorem storeObj_places {r : Row} {places : List Nat} (hrow : rowOf (r.ix + dimsOff r.dims places) r.sub = some r) (hshared : r.perPort = false)
    (hix : r.ix + dimsOff r.dims places < 65536) (hsub : r.sub < 256) (p : Port) (v : Nat) (s : Dev) :
    storeObj p r (r.ix + dimsOff r.dims places) r.sub v s = wr s r v places := by
  have hkey : portObjKey p r (r.ix + dimsOff r.dims places) r.sub = objKey (r.ix + dimsOff r.dims places) r.sub 0 := by
    unfold portObjKey
    rw [hshared]
    rfl
  rw [storeObj, hkey, putKey_of_rowOf hrow hix hsub]
  unfold wr wrJ keyOf dfltOf
  rw [Nat.mul_zero, Nat.add_zero]

theorem ofChan_srcCode (n : Ch) : ofChan n (oSrcCode.ix + dimsOff oSrcCode.dims [n.val]) := ofChan_of_lt n (o := 0x10) (by decide)

theorem directWrite_srcCode (p : Port) (n : Ch) (v : BitVec 40) (nv : Nv) (s : Dev) :
    directWrite p oSrcCode (oSrcCode.ix + dimsOff oSrcCode.dims [n.val]) oSrcCode.sub (leBytes 5 v.toNat) nv s =
      (.ok, wr s oSrcCode v.toNat [n]) := by
  have hdata : ofBytes (leBytes 5 v.toNat) = v.toNat := (ofBytes_leBytes 5 _).trans (Nat.mod_eq_of_lt v.isLt)
  have hix := (ofChan_srcCode n).2
  rw [directWrite_of_ofChan (ofChan_srcCode n) (ownedCheck_of_not_arrayRow (not_arrayRow_of (o := 0x10) (by decide))), hdata,
    ← storeObj_places (rowOf_srcCode n) rfl (by omega) (by decide) p v.toNat s]
  rfl

theorem plainRow_srcCode : PlainRow oSrcCode := ⟨by decide, by decide, rfl⟩

theorem srcCodeWrite_completes {s : State} {p : Port} {n : Ch} (v : BitVec 40) (hup : LinkUp s n.die) (hserved : Served s p oSrcCode) :
    Completes (.srcCodeWrite p n v) s (done p (wr s.dev oSrcCode v.toNat [n])) :=
  have hreached := reached_of_ofChan (ofChan_srcCode n) hup
  plainRow_srcCode.rowRequest hserved (rowOf_srcCode n) (length_leBytes ..) hreached.1 hreached.2 rfl (directWrite_srcCode p n v _ _) rfl

/-! ### SRC_Q_DATA -/

/-- Codes that fit are all appended (R79). -/
theorem srcQueueAppend_of_fits (n : Ch) (slot : Option Nat) (codes : List Int) (s : Dev)
    (h : (s.ch n).src.queue.length + codes.length ≤ srcQueueDepth) :
    srcQueueAppend n slot codes s = updSrc n (fun x => { x with queue := x.queue ++ codes.map (codeEntry slot) }) s := by
  induction codes generalizing s with
  | nil => exact (updCh_eq_self (by simp)).symm
  | cons c codes ih =>
    rw [List.length_cons] at h
    have hfirst : srcQueueAppend n slot (c :: codes) s =
        srcQueueAppend n slot codes (updSrc n (fun x => { x with queue := x.queue ++ [codeEntry slot c] }) s) :=
      congrArg (fun d => codes.foldl _ d) (if_pos (by omega))
    rw [hfirst, ih _ (by simp; omega), updSrc_updSrc]
    simp

/-- The codes of a write of SRC_Q_DATA. -/
def dataCodes (data : List Byte) : List Int := (List.range (data.length / 5)).map fun i => toSigned 40 (ofBytes ((data.drop (5 * i)).take 5))

/-- The port owns the source queue (R79). -/
def ownsQueue (s : Dev) (p : Port) (n : Ch) : Prop := p = .n ∧ rd s oSrcQOwner [n] = 0 ∨ p = .s ∧ rd s oSrcQOwner [n] = 1

theorem ownsQueue_iff (s : Dev) (p : Port) (n : Ch) :
    ((p == Port.n && rd s oSrcQOwner [n] == 0) || (p == Port.s && rd s oSrcQOwner [n] == 1)) = true ↔ ownsQueue s p n := by
  simp [ownsQueue]

theorem srcQData_of_fits {p : Port} {n : Ch} {data : List Byte} {s : Dev} (hown : ownsQueue s p n)
    (hfits : (s.ch n).src.queue.length + (dataCodes data).length ≤ srcQueueDepth) :
    srcQData p n data s = (.ok, updSrc n (fun x => { x with queue := x.queue ++ (dataCodes data).map (codeEntry none) }) s) := by
  unfold dataCodes at *
  simp only [srcQData, (ownsQueue_iff s p n).mpr hown, srcQueueAppend_of_fits n none _ s hfits, decide_eq_false (Nat.not_lt.mpr hfits)]
  rfl

theorem srcQData_of_full {p : Port} {n : Ch} {data : List Byte} {s : Dev} (hown : ownsQueue s p n)
    (hfull : srcQueueDepth < (s.ch n).src.queue.length + (dataCodes data).length) : srcQData p n data s = (.abort 0x0F100030, s) := by
  unfold dataCodes at hfull
  simp only [srcQData, (ownsQueue_iff s p n).mpr hown, decide_eq_true hfull]
  rfl

theorem srcQData_of_not_owner {p : Port} {n : Ch} (data : List Byte) {s : Dev} (h : ¬ ownsQueue s p n) :
    srcQData p n data s = (.abort 0x0F100035, s) := by
  simp only [srcQData, Bool.not_eq_true _ ▸ mt (ownsQueue_iff s p n).mp h]
  rfl

theorem ofChan_srcQData (n : Ch) : ofChan n (oSrcQData.ix + dimsOff oSrcQData.dims [n.val]) := ofChan_of_lt n (o := 0x12) (by decide)

/-- A served write of whole codes is decided by the queue's own rule. -/
theorem srcQueueDataWrite_completes {s : State} {p : Port} {n : Ch} {data : List Byte} {v : Verdict} {a : Answer} {t : Dev} (hup : LinkUp s n.die)
    (hserved : Served s p oSrcQData) (hne : data ≠ []) (hfive : data.length % 5 = 0) (hlen : data.length ≤ 20480)
    (hrule : srcQData p n data s.dev = (v, t)) (hanswer : answered p (v, t) = .next (setAnswer p a t)) (hfw : t.fw = s.dev.fw) :
    Completes (.srcQueueDataWrite p n data) s (setAnswer p a t) := by
  obtain ⟨hlive, hserves, hopen, hmay, hport⟩ := hserved
  obtain ⟨hdie, hlink⟩ := reached_of_ofChan (ofChan_srcQData n) hup
  have hlength : lengthOk oSrcQData data.length = true := by
    show (decide (data.length ≠ 0) && data.length % 5 == 0 && decide (data.length ≤ 20480)) = true
    simp [hne, hfive, hlen]
  have hwrite : writeObj s.nv p (oSrcQData.ix + dimsOff oSrcQData.dims [n.val]) oSrcQData.sub data s.dev = (v, t) := by
    have hdirect := directWrite_of_ofChan (p := p) (r := oSrcQData) (sub := oSrcQData.sub) (data := data) (nv := s.nv) (ofChan_srcQData n)
      (ownedCheck_of_not_arrayRow (s := s.dev) (not_arrayRow_of (o := 0x12) (by decide)))
    have hch : directCh p oSrcQData (oSrcQData.ix + dimsOff oSrcQData.dims [n.val]) oSrcQData.sub (ofBytes data) data s.dev =
        srcQData p (chOf (oSrcQData.ix + dimsOff oSrcQData.dims [n.val])) data s.dev := rfl
    rw [hch, chOf_of_ofChan (ofChan_srcQData n), hrule] at hdirect
    simp [writeObj, hopen, writeOpen, nameOf_of_rowOf p (rowOf_srcQData n) (right_of_mayWrite hmay), firstBad, hmay, hlength, reachCheck, hdie,
      show oSrcQData.acc ≠ .rk by decide, show valueCheck oSrcQData _ oSrcQData.sub data = .ok from rfl,
      show directCheck oSrcQData s.dev data = .ok from rfl, hdirect]
  refine onDev_acts hlive ?_
  simp [request, hserves, hwrite, writeWaits_of_no_hold hport hlink, hfw, hanswer]

/-- Settles O18: SRC_CODE is a plain object; of SRC_Q_DATA the rule's three outcomes. -/
theorem sourceWrites : Obligations.SourceWrites := by
  refine fun s p n hup => ⟨fun v hserved => srcCodeWrite_completes v hup hserved, fun data hserved hne hfive hlen => ?_⟩
  exact ⟨fun hown hfits => srcQueueDataWrite_completes hup hserved hne hfive hlen (srcQData_of_fits hown hfits) rfl rfl,
    fun hown hfull => srcQueueDataWrite_completes hup hserved hne hfive hlen (srcQData_of_full hown hfull) rfl rfl,
    fun hother => srcQueueDataWrite_completes hup hserved hne hfive hlen (srcQData_of_not_owner data hother) rfl rfl⟩

end Sys2Proof.Machine
end

section
/-! SUPPORT. Source sample slots (03, R76 to R80; 02, R48), O14. -/

namespace Sys2Proof.Machine

/-! ### The slot as it is taken -/

/-- A slot less than 160 ticks after the last served one is not served (R78). -/
def slotClips (x : Src) (tick : Nat) : Bool :=
  match x.lastSlot with
  | some l => decide (tick < l + 160)
  | none => false

theorem slotClips_iff (x : Src) (tick : Nat) : slotClips x tick = true ↔ ∃ l, x.lastSlot = some l ∧ tick < l + 160 := by
  unfold slotClips
  cases x.lastSlot <;> simp

/-- The queue behind a slot: without the entry that the slot takes, where there is one. -/
def queueBehind (j : Nat) (l : List QEntry) : List QEntry :=
  match (queueAt j l).1 with
  | some (_, rest) => rest
  | none => (queueAt j l).2

/-- A free entry at the front leaves at any slot (R213). -/
theorem queueAt_free {j : Nat} {w : QEntry} {rest : List QEntry} (h : w.slot = none) : queueAt j (w :: rest) = (some (w, rest), w :: rest) := by
  simp [queueAt, h]

theorem queueAt_nil (j : Nat) : queueAt j [] = (none, []) := rfl

theorem queueFeeds_updSrc (n : Ch) (f : Src → Src) (s : Dev) : queueFeeds (updSrc n f s) n = queueFeeds s n := rfl

theorem queueFeeds_bump_rateClips (n : Ch) (s : Dev) : queueFeeds (bump oRateClips [n] s) n = queueFeeds s n := by
  unfold queueFeeds
  rw [rd_bump_chan (q := oSrcOrigin) rfl rfl (by decide), rd_bump_chan (q := oSpOrigin) rfl rfl (by decide)]

theorem bump_updSrc (r : Row) (l : List Nat) (n : Ch) (f : Src → Src) (s : Dev) : bump r l (updSrc n f s) = updSrc n f (bump r l s) := rfl

/-- A slot that is not served counts, and its entry goes where the queue feeds something (R78). -/
theorem serveSlot_of_clips {n : Ch} {j t0 t1 tick : Nat} {s : Dev} (h : slotClips (s.ch n).src tick = true) :
    ∃ b, serveSlot n j t0 t1 tick s = updSrc n (fun x => { x with
      clampCounted := b, queue := if queueFeeds s n then queueBehind j x.queue else x.queue }) (bump oRateClips [n] s) := by
  obtain ⟨l, hlast, hlt⟩ := (slotClips_iff _ _).mp h
  refine ⟨(s.ch n).src.clampCounted && rd s oSrcOrigin [n] == 4, ?_⟩
  unfold serveSlot
  simp only [hlast, hlt, decide_true, if_true, Bool.not_true, Bool.and_false, Bool.false_eq_true, if_false, queueFeeds_updSrc,
    queueFeeds_bump_rateClips, bump_updSrc]
  split
  · unfold queueBehind
    cases hq : (queueAt j (s.ch n).src.queue).1 <;> simp only [updSrc_updSrc] <;> exact updSrc_congr (by simp [hq, hlast])
  · exact updSrc_congr (by simp [hlast])

/-- A served slot before the queue: the static code loads in origin 0 (R76). -/
def slotTaken (n : Ch) (tick : Nat) (s : Dev) : Dev := updSrc n (fun x => { x with
  clampCounted := x.clampCounted && rd s oSrcOrigin [n] == 4, lastSlot := some tick
  static := if rd s oSrcOrigin [n] = 0 then rdI s oSrcCode [n] else x.static }) s

/-- The queue at a served slot that it feeds. -/
def slotFed (n : Ch) (j t0 t1 : Nat) (s : Dev) : Dev :=
  let q := queueAt j (s.ch n).src.queue
  let t := updSrc n (fun x => { x with queue := q.2 }) s
  match q.1 with
  | some (w, rest) => slotLeaves n j t0 t1 w rest t
  | none => slotEmpty n t0 t1 t

theorem serveSlot_of_served {n : Ch} {j t0 t1 tick : Nat} {s : Dev} (h : slotClips (s.ch n).src tick = false) :
    serveSlot n j t0 t1 tick s = if queueFeeds s n then slotFed n j t0 t1 (slotTaken n tick s) else slotTaken n tick s := by
  have hnoted : slotTaken n tick s = (if rd s oSrcOrigin [n] = 0 then
      updSrc n (fun x => { x with static := rdI s oSrcCode [n] })
        (updSrc n (fun x => { x with clampCounted := x.clampCounted && rd s oSrcOrigin [n] == 4, lastSlot := some tick }) s)
      else updSrc n (fun x => { x with clampCounted := x.clampCounted && rd s oSrcOrigin [n] == 4, lastSlot := some tick }) s) := by
    unfold slotTaken
    split <;> simp only [updSrc_updSrc]
  have hqueue : ((slotTaken n tick s).ch n).src.queue = (s.ch n).src.queue := by simp [slotTaken]
  have hfeeds : queueFeeds (slotTaken n tick s) n = queueFeeds s n := rfl
  have hlate : ∀ l, (s.ch n).src.lastSlot = some l → decide (tick < l + 160) = false := fun l hl => by simpa [slotClips, hl] using h
  unfold serveSlot
  cases hlast : (s.ch n).src.lastSlot
  case' some l => have hserved := hlate l hlast
  case' none => have hserved := trivial
  all_goals
    simp only [hlast, hserved, Bool.false_eq_true, if_false, Bool.not_false, Bool.and_true, decide_eq_true_eq, rd_updSrc, rdI_updSrc]
    rw [← hnoted, hfeeds, slotFed, hqueue] <;> rfl

/-! ### The queue at a served slot -/

/-- An entry has left: it is the last code left, the queue is primed, and an interval begins (R80, R81). -/
def entryLeft (n : Ch) (w : QEntry) (rest : List QEntry) (g : Seg) (s : Dev) : Dev :=
  updSrc n (fun x => { x with queue := rest, primed := true, lastLeft := entryCode w, segs := (g :: x.segs).take 16 }) s

theorem slotLeaves_eq (n : Ch) (j t0 t1 : Nat) (w : QEntry) (rest : List QEntry) (s : Dev) :
    ∃ g, slotLeaves n j t0 t1 w rest s = entryLeft n w rest g s ∨ slotLeaves n j t0 t1 w rest s = bump oPeekMiss [n] (entryLeft n w rest g s) := by
  unfold slotLeaves
  dsimp only
  split
  · exact ⟨_, .inr rfl⟩
  · exact ⟨_, .inl rfl⟩

theorem slotEmpty_eq (n : Ch) (t0 t1 : Nat) (s : Dev) : slotEmpty n t0 t1 s =
    let c := if (s.ch n).src.primed then (s.ch n).src.lastLeft else 0
    let t := updSrc n (fun x => { x with segs := (⟨t0, t1, c, c, c, c, 0⟩ :: x.segs).take 16 }) s
    if (s.ch n).src.primed then bump oUnderruns [n] t else t := rfl

/-- What the queue gives or lacks leaves the rest of the device, the slots served and RATE_CLIPS. -/
theorem slotFed_kept (n : Ch) (j t0 t1 : Nat) (s : Dev) : chanOnly n s (slotFed n j t0 t1 s) ∧ (slotFed n j t0 t1 s).now = s.now ∧
    ((slotFed n j t0 t1 s).ch n).src.lastSlot = (s.ch n).src.lastSlot ∧ rd (slotFed n j t0 t1 s) oRateClips [n] = rd s oRateClips [n] := by
  unfold slotFed
  dsimp only
  split
  · next w rest _ =>
    obtain ⟨g, h | h⟩ := slotLeaves_eq n j t0 t1 w rest (updSrc n (fun x => { x with queue := (queueAt j (s.ch n).src.queue).2 }) s) <;> rw [h]
    · simp [entryLeft]
    · rw [rd_bump_chan rfl rfl (by decide)]
      simp [entryLeft]
  · rw [slotEmpty_eq]
    dsimp only
    split
    · rw [rd_bump_chan rfl rfl (by decide)]
      simp
    · simp

theorem slotFed_of_entry {n : Ch} (j t0 t1 : Nat) {w : QEntry} {rest : List QEntry} {s : Dev} (hq : (s.ch n).src.queue = w :: rest)
    (hw : w.slot = none) : ∃ g, slotFed n j t0 t1 s = entryLeft n w rest g s ∨ slotFed n j t0 t1 s = bump oPeekMiss [n] (entryLeft n w rest g s) := by
  have hfront : slotFed n j t0 t1 s = slotLeaves n j t0 t1 w rest (updSrc n (fun x => { x with queue := w :: rest }) s) := by
    unfold slotFed
    rw [hq, queueAt_free hw]
  have hleft : ∀ g, entryLeft n w rest g (updSrc n (fun x => { x with queue := w :: rest }) s) = entryLeft n w rest g s := fun g =>
    updSrc_updSrc ..
  obtain ⟨g, h⟩ := slotLeaves_eq n j t0 t1 w rest (updSrc n (fun x => { x with queue := w :: rest }) s)
  rw [hleft] at h
  exact ⟨g, hfront ▸ h⟩

theorem slotFed_of_empty {n : Ch} (j t0 t1 : Nat) {s : Dev} (hq : (s.ch n).src.queue = []) : slotFed n j t0 t1 s = slotEmpty n t0 t1 s := by
  unfold slotFed
  rw [hq, queueAt_nil]
  exact congrArg (slotEmpty n t0 t1) (updCh_eq_self (by rw [← hq]))

/-! ### The slot as a command -/

theorem sampleSlot_of_held {n : Ch} {s : Dev} (h : sampleTick s n = none) : sampleSlot n s = s := by
  unfold sampleSlot
  rw [h]

theorem sampleSlot_of_idle {n : Ch} {tick : Nat} {s : Dev} (h : sampleTick s n = some tick) (hst : (s.ch n).src.st ≠ .running) :
    sampleSlot n s = updSrc n (fun x => { x with slot := x.slot + 1 }) (advance tick s) := by
  unfold sampleSlot
  rw [h]
  dsimp only
  rw [advance_ch, if_neg hst]
  exact updSrc_congr rfl

theorem sampleSlot_of_running {n : Ch} {tick : Nat} {s : Dev} (h : sampleTick s n = some tick) (hst : (s.ch n).src.st = .running) :
    ∃ t0 t1, sampleSlot n s = updSrc n (fun x => { x with slot := (s.ch n).src.slot + 1 })
      (serveSlot n (s.ch n).src.slot t0 t1 tick (advance tick s)) := by
  unfold sampleSlot
  rw [h]
  dsimp only
  rw [advance_ch, if_pos hst]
  exact ⟨_, _, rfl⟩

theorem queueFeeds_of_queue {s : Dev} {n : Ch} (h : rd s oSrcOrigin [n] = 1) : queueFeeds s n = true := by
  simp [queueFeeds, h]

theorem queueFeeds_of_other {s : Dev} {n : Ch} (h : rd s oSrcOrigin [n] = 0 ∨ rd s oSrcOrigin [n] = 2) : queueFeeds s n = false := by
  obtain h | h := h <;> simp [queueFeeds, h]

/-- What every served slot does (R77, R78): it is the last served one, and RATE_CLIPS does not count. -/
theorem serveSlot_kept {n : Ch} {j t0 t1 tick : Nat} {s : Dev} (h : slotClips (s.ch n).src tick = false) :
    chanOnly n s (serveSlot n j t0 t1 tick s) ∧ (serveSlot n j t0 t1 tick s).now = s.now ∧
      ((serveSlot n j t0 t1 tick s).ch n).src.lastSlot = some tick ∧ rd (serveSlot n j t0 t1 tick s) oRateClips [n] = rd s oRateClips [n] := by
  rw [serveSlot_of_served h]
  split
  · obtain ⟨honly, hnow, hlast, hclips⟩ := slotFed_kept n j t0 t1 (slotTaken n tick s)
    exact ⟨chanOnly.trans (by simp [slotTaken]) honly, hnow, hlast.trans (by simp [slotTaken]), hclips⟩
  · simp [slotTaken]

/-- The oldest entry leaves a served slot of a fed queue (R80). -/
theorem serveSlot_entry {n : Ch} {j t0 t1 tick : Nat} {w : QEntry} {rest : List QEntry} {s : Dev} (h : slotClips (s.ch n).src tick = false)
    (hfeeds : queueFeeds s n = true) (hq : (s.ch n).src.queue = w :: rest) (hw : w.slot = none) :
    ((serveSlot n j t0 t1 tick s).ch n).src.queue = rest ∧ rd (serveSlot n j t0 t1 tick s) oUnderruns [n] = rd s oUnderruns [n] ∧
      ((serveSlot n j t0 t1 tick s).ch n).src.primed = true ∧ ((serveSlot n j t0 t1 tick s).ch n).src.lastLeft = entryCode w := by
  obtain ⟨g, hg⟩ := slotFed_of_entry (n := n) j t0 t1 (s := slotTaken n tick s) (by simpa [slotTaken] using hq) hw
  rw [serveSlot_of_served h, if_pos hfeeds]
  obtain hg | hg := hg <;> rw [hg]
  · simp [entryLeft, slotTaken]
  · rw [rd_bump_chan rfl rfl (by decide)]
    simp [entryLeft, slotTaken]

/-- An empty queue repeats the last code, and counts once it was primed (R80). -/
theorem serveSlot_empty {n : Ch} {j t0 t1 tick : Nat} {s : Dev} (h : slotClips (s.ch n).src tick = false) (hfeeds : queueFeeds s n = true)
    (hq : (s.ch n).src.queue = []) :
    ((serveSlot n j t0 t1 tick s).ch n).src.queue = [] ∧ ((serveSlot n j t0 t1 tick s).ch n).src.primed = (s.ch n).src.primed ∧
      (((serveSlot n j t0 t1 tick s).ch n).src.segs.map Seg.c0).head? = some (if (s.ch n).src.primed then (s.ch n).src.lastLeft else 0) ∧
      rd (serveSlot n j t0 t1 tick s) oUnderruns [n] =
        if (s.ch n).src.primed then min (2 ^ 32 - 1) (rd s oUnderruns [n] + 1) else rd s oUnderruns [n] := by
  have hqueue : ((slotTaken n tick s).ch n).src.queue = [] := by simpa [slotTaken] using hq
  have hprimed : ((slotTaken n tick s).ch n).src.primed = (s.ch n).src.primed := by simp [slotTaken]
  have hlast : ((slotTaken n tick s).ch n).src.lastLeft = (s.ch n).src.lastLeft := by simp [slotTaken]
  rw [serveSlot_of_served h, if_pos hfeeds, slotFed_of_empty j t0 t1 hqueue, slotEmpty_eq, hprimed, hlast]
  dsimp only
  split
  · exact ⟨by simp [hqueue], by simp [hprimed], by simp, rd_bump ..⟩
  · exact ⟨by simp [hqueue], by simp [hprimed], by simp, rfl⟩

theorem sourceSampleSlot_completes {s : State} {n : Ch} (hlive : Live s) : Completes (.sourceSampleSlot n) s
    (sampleSlot n (settleDue s.nv ⟨max s.dev.now (knownTick s (sampleTick s.dev n)), 3, 0⟩ [n] s.dev)) :=
  completes_of_onDev rfl hlive rfl

/-- Settles O14: a slot that clips, and a served one by what its origin takes. -/
theorem sourceSlots : Obligations.SourceSlots := by
  rintro s n e hlive rfl
  generalize he : settleDue s.nv _ [n] s.dev = e
  have hdone : Completes (.sourceSampleSlot n) s (sampleSlot n e) := he ▸ sourceSampleSlot_completes hlive
  refine ⟨fun h => sampleSlot_of_held h ▸ hdone, fun tick h hst => sampleSlot_of_idle h hst ▸ hdone, fun tick h hst => ?_⟩
  obtain ⟨t0, t1, hslot⟩ := sampleSlot_of_running h hst
  rw [hslot] at hdone
  dsimp only
  rw [← slotClips_iff]
  cases hclip : slotClips (e.ch n).src tick with
  | true =>
    obtain ⟨b, hserve⟩ := serveSlot_of_clips (n := n) (j := (e.ch n).src.slot) (t0 := t0) (t1 := t1) (s := advance tick e) hclip
    rw [hserve] at hdone
    refine ⟨_, hdone, by simp, by simp, by simp, by simp, fun _ => ⟨by simp, ?_, by simp, by simp⟩, fun w rest ho hq hw => ⟨?_, ?_, by simp⟩,
      by simp, by simp, fun ho => ?_⟩
    · rw [rd_updSrc, rd_updSrc, rd_bump]
      rfl
    · have hfeeds : queueFeeds (advance tick e) n = true := queueFeeds_of_queue ho
      simp [hfeeds, hq, queueBehind, queueAt_free hw]
    · rw [rd_updSrc, rd_updSrc, rd_bump_chan rfl rfl (by decide), rd_advance]
    · have hfeeds : queueFeeds (advance tick e) n = false := queueFeeds_of_other ho
      simp [hfeeds]
  | false =>
    have hserved : slotClips ((advance tick e).ch n).src tick = false := hclip
    obtain ⟨honly, hnow, hlast, hclips⟩ := serveSlot_kept (j := (e.ch n).src.slot) (t0 := t0) (t1 := t1) hserved
    have hunfed (ho : rd e oSrcOrigin [n] = 0 ∨ rd e oSrcOrigin [n] = 2) :
        serveSlot n (e.ch n).src.slot t0 t1 tick (advance tick e) = slotTaken n tick (advance tick e) := by
      have hfeeds : queueFeeds (advance tick e) n = false := queueFeeds_of_other ho
      rw [serveSlot_of_served hserved, hfeeds]
      rfl
    refine ⟨_, hdone, (chanOnly_updSrc ..).mpr (chanOnly.trans (by simp) honly), by simp [hnow], by simp, fun _ => ⟨by simp [hlast], by simp [hclips]⟩,
      by simp, fun w rest ho hq hw => ?_, fun ho hq _ => ?_, fun ho _ => ?_, fun ho => ?_⟩
    · have hfeeds : queueFeeds (advance tick e) n = true := queueFeeds_of_queue ho
      obtain ⟨hqueue, hunder, hprimed, hleft⟩ :=
        serveSlot_entry (j := (e.ch n).src.slot) (t0 := t0) (t1 := t1) hserved hfeeds hq hw
      exact ⟨by simp [hqueue], by simp [hunder], fun _ => ⟨by simp [hprimed], by simp [hleft]⟩⟩
    · have hfeeds : queueFeeds (advance tick e) n = true := queueFeeds_of_queue ho
      obtain ⟨hqueue, hprimed, hhead, hunder⟩ :=
        serveSlot_empty (j := (e.ch n).src.slot) (t0 := t0) (t1 := t1) hserved hfeeds hq
      rw [advance_ch] at hprimed hhead hunder
      exact ⟨by simp [hqueue], by simp [hprimed], by rw [updSrc_ch, hhead], by rw [rd_updSrc, hunder, rd_advance]⟩
    · rw [hunfed (.inl ho)]
      simp [slotTaken, ho]
    · rw [hunfed ho]
      simp [slotTaken]

end Sys2Proof.Machine
end

section
/-! SUPPORT. The modulator clock and the step hold (03, R75, R97 to R99), O15. -/

namespace Sys2Proof.Machine

/-! ### Parts of a modulator clock -/

/-- A clock of the generator changes the generator alone (R82 to R87). -/
theorem sineClock_effect (n : Ch) (s : Dev) : ∃ y, sineClock n s = updSrc n (fun x => { x with sine := y }) s := by
  unfold sineClock
  exact ⟨_, updSrc_congr (by rfl)⟩

/-- The limit counts in CLAMPS, or does not (R75). -/
def clampNoted (n : Ch) (counts : Bool) (s : Dev) : Dev := if counts then bump oClamps [n] s else s

theorem clampNoted_now (n : Ch) (counts : Bool) (s : Dev) : (clampNoted n counts s).now = s.now := by
  unfold clampNoted
  split <;> rfl

theorem clampNoted_ch (n : Ch) (counts : Bool) (s : Dev) : (clampNoted n counts s).ch n = s.ch n := by
  unfold clampNoted
  split <;> rfl

theorem chanOnly_clampNoted (n : Ch) (counts : Bool) (s : Dev) : chanOnly n s (clampNoted n counts s) := by
  unfold clampNoted
  split <;> simp

theorem rd_clampNoted (n : Ch) (counts : Bool) (s : Dev) : rd (clampNoted n counts s) oClamps [n] =
    if counts then min (2 ^ 32 - 1) (rd s oClamps [n] + 1) else rd s oClamps [n] := by
  unfold clampNoted
  split
  · exact rd_bump ..
  · rfl

theorem rd_clampNoted_of_ne {r : Row} (hr : r.dims = [(0x100, 24)]) (h : objKey r.ix r.sub 0 ≠ objKey oClamps.ix oClamps.sub 0) (n : Ch) (counts : Bool)
    (s : Dev) : rd (clampNoted n counts s) r [n] = rd s r [n] := by
  unfold clampNoted
  split
  · exact rd_bump_chan hr rfl h n s
  · rfl

/-- The hold engages or moves, or stays away from a forced release (R97, R98). -/
theorem holdEngage_effect (n : Ch) (dur : Nat) (s : Dev) : ∃ h, let t := updSrc n (fun x => { x with hold := h }) s
    holdEngage n dur s = t ∨ holdEngage n dur s = bump oStepHolds [n] t := by
  unfold holdEngage
  dsimp only
  split
  · exact ⟨_, .inl rfl⟩
  · split_ifs
    · exact ⟨(s.ch n).src.hold, .inl (updCh_eq_self rfl).symm⟩
    · exact ⟨_, .inr rfl⟩

/-- Free to engage, the hold does so at the value of the pin. -/
theorem holdEngage_of_free {n : Ch} (dur : Nat) {s : Dev} (hfree : (s.ch n).src.hold = none) (hforced : (s.ch n).src.forcedAt = none) :
    holdEngage n dur s = bump oStepHolds [n] (updSrc n (fun x => { x with hold := some ⟨x.pin, s.now, s.now + dur⟩ }) s) := by
  unfold holdEngage
  simp [hfree, hforced]

/-- The code steps (R97), and the origin is not exempt (R99). -/
def codeSteps (n : Ch) (old new : Int) (s : Dev) : Prop :=
  rd s oStepHoldUs [n] ≠ 0 ∧ rd s oSrcOrigin [n] ≠ 4 ∧ rd s oStepThresh [n] < (new - old).natAbs

theorem codeSteps_iff (n : Ch) (old new : Int) (s : Dev) :
    (rd s oStepHoldUs [n] ≠ 0 && rd s oSrcOrigin [n] ≠ 4 && (rd s oStepThresh [n] : Int) < (new - old).natAbs) = true ↔ codeSteps n old new s := by
  simp only [codeSteps, Bool.and_eq_true, decide_eq_true_eq, Nat.cast_lt, and_assoc]

theorem stepTest_of_steps {n : Ch} {old new : Int} {s : Dev} (h : codeSteps n old new s) :
    stepTest n old new s = holdEngage n (usTicks (rd s oStepHoldUs [n])) s := if_pos ((codeSteps_iff n old new s).mpr h)

theorem stepTest_of_not_steps {n : Ch} {old new : Int} {s : Dev} (h : ¬ codeSteps n old new s) : stepTest n old new s = s :=
  if_neg (mt (codeSteps_iff n old new s).mp h)

/-- The step test changes the hold and its counter alone. -/
theorem stepTest_effect (n : Ch) (old new : Int) (s : Dev) : ∃ h, let t := updSrc n (fun x => { x with hold := h }) s
    stepTest n old new s = t ∨ stepTest n old new s = bump oStepHolds [n] t := by
  by_cases hsteps : codeSteps n old new s
  · exact stepTest_of_steps hsteps ▸ holdEngage_effect n _ s
  · exact ⟨(s.ch n).src.hold, .inl ((stepTest_of_not_steps hsteps).trans (updCh_eq_self rfl).symm)⟩

/-! ### The clock up to the step test -/

/-- What the modulator input is given, before the limit (Table 3.2, R204). -/
def clockSum (n : Ch) (s : Dev) : Int :=
  match (s.ch n).src.safe with
  | some y => safeCode y (modulatorTick s n)
  | none => originSum (sineClock n (advance (modulatorTick s n) s)) n (modulatorTick s n)

/-- The composed code (R75). -/
def clockCode (n : Ch) (s : Dev) : Int :=
  if (s.ch n).src.safe.isSome then clockSum n s else clampInt (-(rd s oCodeLimit [n] : Int)) (rd s oCodeLimit [n] : Int) (clockSum n s)

/-- The code composed and limited, before the step test. -/
def clockComposed (n : Ch) (s : Dev) : Dev :=
  clampNoted n (clockCode n s != clockSum n s && !(s.ch n).src.clampCounted) (sineClock n (advance (modulatorTick s n) s))

/-- The code judged (R97). -/
def clockJudged (n : Ch) (s : Dev) : Dev := stepTest n (s.ch n).src.code (clockCode n s) (clockComposed n s)

/-- A clock, after the step test, updates the source path once and keeps the highest and lowest code. -/
theorem modulatorClock_eq (n : Ch) (outLimit compliance : Bool) (s : Dev) :
    ∃ (track : Track → Track) (m : Int) (lim comp : Bool), modulatorClock n outLimit compliance s = updSrc n (fun x =>
      let x := { x with
        clock := modulatorTick s n, code := clockCode n s, modCode := m, codeClamped := clockCode n s != clockSum n s
        clampCounted := x.clampCounted || clockCode n s != clockSum n s, recon := (clockCode n s :: x.recon).take 11
        outLimit := lim, compliance := comp }
      { x with pin := pinCode x }) (updCh n (fun c => { c with track := track c.track }) (clockJudged n s)) :=
  ⟨fun t => { t with hi := max t.hi (clockCode n s), lo := min t.lo (clockCode n s) }, srcCorrected (clockJudged n s) n (clockCode n s),
    outLimit && decide (rd (clockJudged n s) oSrcMode [n] = 0), compliance && !decide (rd (clockJudged n s) oSrcMode [n] = 0), rfl⟩

theorem clockComposed_effect (n : Ch) (s : Dev) : chanOnly n s (clockComposed n s) ∧
    (clockComposed n s).now = max s.now (modulatorTick s n) ∧ ∃ y, (clockComposed n s).ch n = { s.ch n with src := { (s.ch n).src with sine := y } } := by
  obtain ⟨y, hy⟩ := sineClock_effect n (advance (modulatorTick s n) s)
  unfold clockComposed
  rw [hy]
  exact ⟨chanOnly.trans (by simp) (chanOnly_clampNoted ..), by rw [clampNoted_now]; rfl, y, by rw [clampNoted_ch]; simp⟩

theorem rd_clockComposed {r : Row} (hr : r.dims = [(0x100, 24)]) (h : objKey r.ix r.sub 0 ≠ objKey oClamps.ix oClamps.sub 0) (n : Ch) (s : Dev) :
    rd (clockComposed n s) r [n] = rd s r [n] := (rd_clampNoted_of_ne hr h n _ _).trans rfl

theorem codeSteps_clockComposed (n : Ch) (old new : Int) (s : Dev) : codeSteps n old new (clockComposed n s) ↔ codeSteps n old new s := by
  unfold codeSteps
  rw [rd_clockComposed rfl (by decide), rd_clockComposed rfl (by decide), rd_clockComposed rfl (by decide)]

/-- A clock up to its step test touches the generator, the hold and the counters of its own channel. -/
theorem clockJudged_effect (n : Ch) (s : Dev) : chanOnly n s (clockJudged n s) ∧ (clockJudged n s).now = max s.now (modulatorTick s n) ∧
    (∃ y h, (clockJudged n s).ch n = { s.ch n with src := { (s.ch n).src with sine := y, hold := h } }) ∧
    rd (clockJudged n s) oClamps [n] = if clockCode n s ≠ clockSum n s ∧ (s.ch n).src.clampCounted = false then min (2 ^ 32 - 1) (rd s oClamps [n] + 1)
      else rd s oClamps [n] := by
  obtain ⟨honly, hnow, y, hch⟩ := clockComposed_effect n s
  obtain ⟨h, hstep⟩ := stepTest_effect n (s.ch n).src.code (clockCode n s) (clockComposed n s)
  have hclamps : rd (clockComposed n s) oClamps [n] = if clockCode n s ≠ clockSum n s ∧ (s.ch n).src.clampCounted = false then
      min (2 ^ 32 - 1) (rd s oClamps [n] + 1) else rd s oClamps [n] := by
    obtain ⟨y, hy⟩ := sineClock_effect n (advance (modulatorTick s n) s)
    unfold clockComposed
    rw [rd_clampNoted, hy, rd_updSrc, rd_advance]
    simp
  unfold clockJudged
  obtain hstep | hstep := hstep <;> rw [hstep]
  · exact ⟨by simpa using honly, hnow, ⟨y, h, by simp [hch]⟩, hclamps⟩
  · rw [rd_bump_chan rfl rfl (by decide)]
    exact ⟨by simpa using honly, hnow, ⟨y, h, by simp [hch]⟩, hclamps⟩

/-- A code that does not step leaves the hold (R97). -/
theorem clockJudged_of_not_steps {n : Ch} {s : Dev} (h : ¬ codeSteps n (s.ch n).src.code (clockCode n s) s) :
    ((clockJudged n s).ch n).src.hold = (s.ch n).src.hold ∧ rd (clockJudged n s) oStepHolds [n] = rd s oStepHolds [n] := by
  obtain ⟨-, -, y, hch⟩ := clockComposed_effect n s
  unfold clockJudged
  rw [stepTest_of_not_steps (mt (codeSteps_clockComposed n _ _ s).mp h), hch, rd_clockComposed rfl (by decide)]
  exact ⟨rfl, rfl⟩

/-- A code that steps engages a free hold at the value of the pin (R97). -/
theorem clockJudged_of_steps {n : Ch} {s : Dev} (h : codeSteps n (s.ch n).src.code (clockCode n s) s) (hfree : (s.ch n).src.hold = none)
    (hforced : (s.ch n).src.forcedAt = none) :
    ((clockJudged n s).ch n).src.hold =
      some ⟨(s.ch n).src.pin, max s.now (modulatorTick s n), max s.now (modulatorTick s n) + usTicks (rd s oStepHoldUs [n])⟩ ∧
    rd (clockJudged n s) oStepHolds [n] = min (2 ^ 32 - 1) (rd s oStepHolds [n] + 1) := by
  obtain ⟨-, hnow, y, hch⟩ := clockComposed_effect n s
  unfold clockJudged
  rw [stepTest_of_steps ((codeSteps_clockComposed n _ _ s).mpr h), rd_clockComposed rfl (by decide),
    holdEngage_of_free _ (by rw [hch]; exact hfree) (by rw [hch]; exact hforced), rd_bump, rd_updSrc, rd_clockComposed rfl (by decide)]
  exact ⟨by simp [hch, hnow], rfl⟩

/-! ### The whole clock -/

/-- What a clock leaves, in terms of the device judged: the composed code enters the reconstruction, and the pin follows (R73, R75). -/
theorem modulatorClock_effect (n : Ch) (outLimit compliance : Bool) (s : Dev) :
    let d := modulatorClock n outLimit compliance s
    let y := ((clockJudged n s).ch n).src
    chanOnly n (clockJudged n s) d ∧ d.now = (clockJudged n s).now ∧ (∀ r l, rd d r l = rd (clockJudged n s) r l) ∧
    (d.ch n).loop = ((clockJudged n s).ch n).loop ∧ (d.ch n).seq = ((clockJudged n s).ch n).seq ∧
    (d.ch n).src.clock = modulatorTick s n ∧ (d.ch n).src.code = clockCode n s ∧ (d.ch n).src.codeClamped = (clockCode n s != clockSum n s) ∧
    (d.ch n).src.recon = (clockCode n s :: y.recon).take 11 ∧ (d.ch n).src.pin = pinCode (d.ch n).src ∧ (d.ch n).src.hold = y.hold ∧
    (d.ch n).src.gndClamp = y.gndClamp ∧ (d.ch n).src.hizClamp = y.hizClamp ∧ (d.ch n).src.st = y.st ∧ (d.ch n).src.queue = y.queue := by
  obtain ⟨track, m, lim, comp, hd⟩ := modulatorClock_eq n outLimit compliance s
  simp [hd, updCh_ch_self, pinCode]

theorem pinCode_of_hold {x : Src} {h : Hold} (hhold : x.hold = some h) (hgnd : x.gndClamp = false) (hhiz : x.hizClamp = false) : pinCode x = h.value := by
  simp [pinCode, hhold, hgnd, hhiz]

theorem modulatorClock_completes {s : State} (hlive : Live s) (n : Ch) (outLimit compliance : Bool) :
    Completes (.modulatorClock n outLimit compliance) s
      (modulatorClock n outLimit compliance (settleDue s.nv ⟨max s.dev.now (modulatorTick s.dev n), 3, 0⟩ [n] s.dev)) :=
  completes_of_onDev rfl hlive rfl

/-! ### The hold lets go -/

@[simp] theorem chanOnly_holdRelease (n : Ch) (a b : Dev) : chanOnly n a (holdRelease n b) ↔ chanOnly n a b := chanOnly_updSrc n _ a b

theorem holdRelease_effect (n : Ch) (s : Dev) : (holdRelease n s).now = s.now ∧ (holdRelease n s).objs = s.objs ∧
    ((holdRelease n s).ch n).src.hold = none ∧ ((s.ch n).src.gndClamp = false → (s.ch n).src.hizClamp = false →
      ((holdRelease n s).ch n).src.pin = (s.ch n).src.recon.getLastD 0) := by
  unfold holdRelease
  rw [updSrc_ch]
  exact ⟨rfl, rfl, rfl, fun hgnd hhiz => by simp [pinCode, hgnd, hhiz]⟩

theorem stepHoldRelease_completes {s : State} (hlive : Live s) {n : Ch} {h : Hold} (hh : (s.dev.ch n).src.hold = some h)
    (hms : h.release ≤ h.since + msTicks) : Completes (.stepHoldRelease n) s (holdRelease n (advance h.release s.dev)) :=
  completes_of_onDev rfl hlive (by simp only [hh]; rw [if_pos hms])

theorem holdForced_completes {s : State} (hlive : Live s) {n : Ch} {h : Hold} (hh : (s.dev.ch n).src.hold = some h)
    (hms : h.since + msTicks < h.release) : Completes (.holdForced n) s
      (bump oHoldForced [n] (updSrc n (fun x => { x with forcedAt := some (advance (h.since + msTicks) s.dev).now })
        (holdRelease n (advance (h.since + msTicks) s.dev)))) :=
  completes_of_onDev rfl hlive (by simp only [hh]; rw [if_pos hms])

/-- Settles O15: a clock is its parts up to the step test and then one update of the source path; the hold's two releases are one step each. -/
theorem modulatorClocks : Obligations.ModulatorClocks := by
  unfold Obligations.ModulatorClocks
  refine ⟨?_, ?_⟩
  · rintro s n e hlive he x t sum code steps lim comp
    refine ⟨modulatorClock n lim comp e, he ▸ modulatorClock_completes hlive n lim comp, ?_⟩
    obtain ⟨jonly, jnow, ⟨y, h, jch⟩, jclamps⟩ := clockJudged_effect n e
    obtain ⟨donly, dnow, dobjs, dloop, dseq, dclock, dcode, dclamped, drecon, dpin, dhold, dgnd, dhiz, dst, dqueue⟩ := modulatorClock_effect n lim comp e
    refine ⟨jonly.trans donly, dnow.trans jnow, dclock, dcode, dclamped, by rw [drecon]; rfl, (dobjs _ _).trans jclamps, ?_, ?_, ?_, ?_, ?_, ?_⟩
    · rw [dst, jch]
    · rw [dqueue, jch]
    · rw [dloop, jch]
    · rw [dseq, jch]
    · intro hfree hforced hsteps
      obtain ⟨jhold, jholds⟩ := clockJudged_of_steps hsteps hfree hforced
      have hhold := dhold.trans jhold
      refine ⟨by rw [hhold, dnow, jnow], (dobjs _ _).trans jholds, fun hgnd hhiz => ?_⟩
      rw [dpin, pinCode_of_hold hhold (by rw [dgnd, jch]; exact hgnd) (by rw [dhiz, jch]; exact hhiz)]
    · intro hsteps
      obtain ⟨jhold, jholds⟩ := clockJudged_of_not_steps hsteps
      exact ⟨dhold.trans jhold, (dobjs _ _).trans jholds⟩
  · intro s n hlive x h hh
    constructor
    · intro hms
      obtain ⟨hnow, hobjs, hhold, hpin⟩ := holdRelease_effect n (advance h.release s.dev)
      exact ⟨_, stepHoldRelease_completes hlive hh hms, by simp, hnow, hhold, hobjs, hpin⟩
    · intro hms
      obtain ⟨hnow, hobjs, hhold, -⟩ := holdRelease_effect n (advance (h.since + msTicks) s.dev)
      refine ⟨_, holdForced_completes hlive hh hms, ?_, hnow, ?_, ?_, ?_⟩
      · simp
      · simpa using hhold
      · simp [hnow]
      · rw [rd_bump, rd_updSrc, rd_of_objs _ _ _ _ hobjs]
        rfl

end Sys2Proof.Machine
end

section
/-! SUPPORT. Operations on one measure array (04): what a read of the array finds after each of them, and that each leaves the rest of the device as
it was. -/

namespace Sys2Proof.Machine

/-! ### One array -/

@[simp] theorem updArr_now (n : Ch) (a : ArrId) (f : Arr → Arr) (s : Dev) : (updArr n a f s).now = s.now := rfl
@[simp] theorem updArr_objs (n : Ch) (a : ArrId) (f : Arr → Arr) (s : Dev) : (updArr n a f s).objs = s.objs := rfl
@[simp] theorem updArr_ref (n : Ch) (a : ArrId) (f : Arr → Arr) (s : Dev) : (updArr n a f s).ref = s.ref := rfl
@[simp] theorem updArr_dies (n : Ch) (a : ArrId) (f : Arr → Arr) (s : Dev) : (updArr n a f s).dies = s.dies := rfl
@[simp] theorem rd_updArr (n : Ch) (a : ArrId) (f : Arr → Arr) (s : Dev) (r : Row) (l : List Nat) : rd (updArr n a f s) r l = rd s r l := rfl
@[simp] theorem chanOnly_updArr (n : Ch) (a : ArrId) (f : Arr → Arr) (s t : Dev) : chanOnly n s (updArr n a f t) ↔ chanOnly n s t := chanOnly_updCh n _ s t

@[simp] theorem arrOf_updArr (n : Ch) (a : ArrId) (f : Arr → Arr) (s : Dev) : arrOf (updArr n a f s) n a = f (arrOf s n a) := by
  cases a
  · exact congrArg Chan.vm (updCh_ch_self n _ s)
  · exact congrArg Chan.im (updCh_ch_self n _ s)

@[simp] theorem arrOf_advance (t : Nat) (s : Dev) (n : Ch) (a : ArrId) : arrOf (advance t s) n a = arrOf s n a := by cases a <;> rfl
@[simp] theorem arrOf_wr (s : Dev) (r : Row) (v : Nat) (l : List Nat) (n : Ch) (a : ArrId) : arrOf (wr s r v l) n a = arrOf s n a := by cases a <;> rfl
@[simp] theorem arrOf_bump (r : Row) (l : List Nat) (s : Dev) (n : Ch) (a : ArrId) : arrOf (bump r l s) n a = arrOf s n a := by cases a <;> rfl

/-- A rewrite of a channel beside an array leaves that array. -/
theorem arrOf_updCh {n : Ch} {a : ArrId} {f : Chan → Chan} {s : Dev} (hvm : (f (s.ch n)).vm = (s.ch n).vm) (him : (f (s.ch n)).im = (s.ch n).im) :
    arrOf (updCh n f s) n a = arrOf s n a := by
  cases a
  · exact (congrArg Chan.vm (updCh_ch_self n f s)).trans hvm
  · exact (congrArg Chan.im (updCh_ch_self n f s)).trans him

theorem updArr_ch_of_ne {n m : Ch} (a : ArrId) (f : Arr → Arr) (s : Dev) (h : m ≠ n) : (updArr n a f s).ch m = s.ch m := updCh_ch_of_ne _ s h

/-- A rewrite that gives an array back as it was changes nothing. -/
theorem updArr_eq_self {n : Ch} {a : ArrId} {f : Arr → Arr} {s : Dev} (h : f (arrOf s n a) = arrOf s n a) : updArr n a f s = s := by
  cases a
  · exact updCh_eq_self (congrArg (fun x => { s.ch n with vm := x }) h)
  · exact updCh_eq_self (congrArg (fun x => { s.ch n with im := x }) h)

theorem updArr_congr {n : Ch} {a : ArrId} {f g : Arr → Arr} {s : Dev} (h : f (arrOf s n a) = g (arrOf s n a)) : updArr n a f s = updArr n a g s := by
  cases a
  · exact updCh_congr (congrArg (fun x => { s.ch n with vm := x }) h)
  · exact updCh_congr (congrArg (fun x => { s.ch n with im := x }) h)

/-! ### One slice -/

@[simp] theorem updSlice_now (n : Ch) (a : ArrId) (i : Fin 7) (f : Slice → Slice) (s : Dev) : (updSlice n a i f s).now = s.now := rfl
@[simp] theorem updSlice_objs (n : Ch) (a : ArrId) (i : Fin 7) (f : Slice → Slice) (s : Dev) : (updSlice n a i f s).objs = s.objs := rfl
@[simp] theorem rd_updSlice (n : Ch) (a : ArrId) (i : Fin 7) (f : Slice → Slice) (s : Dev) (r : Row) (l : List Nat) :
    rd (updSlice n a i f s) r l = rd s r l := rfl
@[simp] theorem chanOnly_updSlice (n : Ch) (a : ArrId) (i : Fin 7) (f : Slice → Slice) (s t : Dev) :
    chanOnly n s (updSlice n a i f t) ↔ chanOnly n s t := chanOnly_updArr n a _ s t

@[simp] theorem arrOf_updSlice (n : Ch) (a : ArrId) (i : Fin 7) (f : Slice → Slice) (s : Dev) : arrOf (updSlice n a i f s) n a =
    { arrOf s n a with slices := (arrOf s n a).slices.set i (f (arrOf s n a).slices[i]) } := arrOf_updArr ..

/-! ### Keys of the objects of an array -/

/-- The key of an object that each array of a channel has (Table 4.11). -/
theorem keyOf_arr {r : Row} (hr : r.dims = [(0x100, 24), (0x10, 2)]) (n : Ch) (a : ArrId) :
    keyOf r [n, a.idx] 0 = objKey r.ix r.sub 0 + 65536 * n + 4096 * a.idx := by
  simp only [keyOf, objKey, hr, dimsOff]
  ring

theorem keyOf_arr_ne {q r : Row} (hq : q.dims = [(0x100, 24), (0x10, 2)]) (hr : r.dims = [(0x100, 24), (0x10, 2)])
    (h : objKey q.ix q.sub 0 ≠ objKey r.ix r.sub 0) (n : Ch) (a : ArrId) : keyOf q [n, a.idx] 0 ≠ keyOf r [n, a.idx] 0 := by
  rw [keyOf_arr hq, keyOf_arr hr]
  omega

/-- An object of an array is none that the channel has once. -/
theorem keyOf_arr_ne_chan {q r : Row} (hq : q.dims = [(0x100, 24), (0x10, 2)]) (hr : r.dims = [(0x100, 24)])
    (h : ∀ i < 2, objKey q.ix q.sub 0 + 4096 * i ≠ objKey r.ix r.sub 0) (n : Ch) (a : ArrId) : keyOf q [n, a.idx] 0 ≠ keyOf r [n] 0 := by
  have hne := h a.idx (by cases a <;> decide)
  rw [keyOf_arr hq, keyOf_chan hr]
  omega

/-- A counter of 32 bits raised by one (R346). -/
theorem rd_bump_word {r : Row} (hr : r.size = 4) (l : List Nat) (s : Dev) : rd (bump r l s) r l = min (2 ^ 32 - 1) (rd s r l + 1) := by
  rw [rd_bump, hr]

/-! ### Channel events and records -/

/-- A channel without its queues and the numbering of its events, which records and events change. -/
def Chan.besideEvents (c : Chan) : Chan := { c with queues := [], eseq := 0, evTick := none, evFirst := 0, evRun := [] }

theorem streamWrite_besideEvents (n : Ch) (stream : Nat) (words : List Word64) (companion : Nat) (s : Dev) :
    ((streamWrite n stream words companion s).ch n).besideEvents = (s.ch n).besideEvents := by
  unfold streamWrite
  refine iteInduction (motive := fun d : Dev => (d.ch n).besideEvents = (s.ch n).besideEvents) (fun _ => ?_) fun _ => ?_ <;>
    simp [updCh_ch_self, chFault, Chan.besideEvents]

theorem chEvent_besideEvents (n : Ch) (code arg : Nat) (s : Dev) : ((chEvent n code arg s).ch n).besideEvents = (s.ch n).besideEvents := by
  unfold chEvent
  refine iteInduction (motive := fun d : Dev => (d.ch n).besideEvents = (s.ch n).besideEvents) (fun _ => ?_) fun _ => ?_
  · rw [streamWrite_besideEvents, updCh_ch_self]
    rfl
  · refine (congrArg Chan.besideEvents (updCh_ch_self ..)).trans ((streamWrite_besideEvents n 7 _ 0 _).trans ?_)
    rw [updCh_ch_self]
    rfl

theorem arrOf_of_besideEvents {n : Ch} {s t : Dev} (h : (t.ch n).besideEvents = (s.ch n).besideEvents) (a : ArrId) : arrOf t n a = arrOf s n a := by
  have hvm : (t.ch n).besideEvents.vm = (s.ch n).besideEvents.vm := congrArg Chan.vm h
  have him : (t.ch n).besideEvents.im = (s.ch n).besideEvents.im := congrArg Chan.im h
  cases a
  · exact hvm
  · exact him

@[simp] theorem arrOf_chEvent (n : Ch) (code arg : Nat) (s : Dev) (a : ArrId) : arrOf (chEvent n code arg s) n a = arrOf s n a :=
  arrOf_of_besideEvents (chEvent_besideEvents ..) a

@[simp] theorem arrOf_streamWrite (n : Ch) (stream : Nat) (words : List Word64) (companion : Nat) (s : Dev) (a : ArrId) :
    arrOf (streamWrite n stream words companion s) n a = arrOf s n a := arrOf_of_besideEvents (streamWrite_besideEvents ..) a

@[simp] theorem arrOf_chFault (n : Ch) (bit : Nat) (s : Dev) (a : ArrId) : arrOf (chFault n bit s) n a = arrOf s n a := arrOf_wr ..

@[simp] theorem chEvent_now (n : Ch) (code arg : Nat) (s : Dev) : (chEvent n code arg s).now = s.now := (chEvent_step ..).now
@[simp] theorem streamWrite_now (n : Ch) (stream : Nat) (words : List Word64) (companion : Nat) (s : Dev) :
    (streamWrite n stream words companion s).now = s.now := (streamWrite_step ..).now

@[simp] theorem chanOnly_chEvent (n : Ch) (code arg : Nat) (s t : Dev) : chanOnly n s (chEvent n code arg t) ↔ chanOnly n s t :=
  (chEvent_step n code arg t).only.congr_right
@[simp] theorem chanOnly_streamWrite (n : Ch) (stream : Nat) (words : List Word64) (companion : Nat) (s t : Dev) :
    chanOnly n s (streamWrite n stream words companion t) ↔ chanOnly n s t := (streamWrite_step n stream words companion t).only.congr_right

theorem chanOnly.frame {n : Ch} {s t : Dev} (h : chanOnly n s t) : t = { s with now := t.now, objs := t.objs, chans := s.chans.set n (t.ch n) } := h

theorem chanOnly.ref {n : Ch} {s t : Dev} (h : chanOnly n s t) : t.ref = s.ref := by rw [h.frame]
theorem chanOnly.dies {n : Ch} {s t : Dev} (h : chanOnly n s t) : t.dies = s.dies := by rw [h.frame]
theorem chanOnly.ch_of_ne {n m : Ch} {s t : Dev} (h : chanOnly n s t) (hm : m ≠ n) : t.ch m = s.ch m := by
  have hval : n.val ≠ m.val := fun e => hm (Fin.ext e.symm)
  rw [h.frame]
  simp [Dev.ch, Vector.getElem_set_ne, hval]

end Sys2Proof.Machine
end

section
/-! SUPPORT. URGENT_REQ as a request and on its arrival at the array (04, R139 to R142; Table 4.9). -/

namespace Sys2Proof.Machine

/-! ### The request -/

theorem plainRow_urgentReq : PlainRow oUrgentReq := ⟨by decide, by decide, rfl⟩

theorem ofChan_urgentReq (n : Ch) (a : ArrId) : ofChan n (oUrgentReq.ix + dimsOff oUrgentReq.dims [n.val, a.idx]) := by
  have ha : a.idx < 2 := by cases a <;> decide
  simp only [ofChan, oUrgentReq, dimsOff]
  omega

theorem arrAt_urgentReq (n : Ch) (a : ArrId) : arrAt oUrgentReq (oUrgentReq.ix + dimsOff oUrgentReq.dims [n.val, a.idx]) = a := by
  fin_cases n <;> cases a <;> rfl

/-- The write reaches the array's own rule where no comparison owns the array (R276). -/
theorem directWrite_urgentReq {s : Dev} (hfree : s.ref.comparison = none) (p : Port) (n : Ch) (a : ArrId) (data : List Byte) (nv : Nv) :
    directWrite p oUrgentReq (oUrgentReq.ix + dimsOff oUrgentReq.dims [n.val, a.idx]) oUrgentReq.sub data nv s = urgentReq n a s := by
  have hin := ofChan_urgentReq n a
  rw [directWrite_of_ofChan hin (ownedCheck_of_no_comparison _ hfree)]
  exact congrArg₂ (fun m b => urgentReq m b s) (chOf_of_ofChan hin) (arrAt_urgentReq n a)

theorem urgentReq_completes {s : State} {p : Port} {n : Ch} {a : ArrId} (v : BitVec 8) (hserved : Served s p oUrgentReq) (hup : LinkUp s n.die)
    (hfree : s.dev.ref.comparison = none) (hserves : ¬ ((arrOf s.dev n a).st = .off ∨ (arrOf s.dev n a).st = .fault)) :
    Completes (.urgentReq p n a v) s (done p (updArr n a (fun x => { x with urgentReqs := x.urgentReqs ++ [.object] }) s.dev)) := by
  have hreached := reached_of_ofChan (ofChan_urgentReq n a) hup
  have hrule : urgentReq n a s.dev = (.ok, urgentRaise n a .object s.dev) := by
    obtain ⟨hoff, hfault⟩ := not_or.mp hserves
    simp [urgentReq, refuseIf, actIf, hoff, hfault]
  exact plainRow_urgentReq.rowRequest hserved (rowOf_urgentReq n a) (length_leBytes ..) hreached.1 hreached.2 rfl
    ((directWrite_urgentReq hfree p n a _ _).trans hrule) rfl

theorem urgentReq_refused {s : State} {p : Port} {n : Ch} {a : ArrId} (v : BitVec 8) (hserved : Served s p oUrgentReq) (hup : LinkUp s n.die)
    (hfree : s.dev.ref.comparison = none) (hidle : (arrOf s.dev n a).st = .off ∨ (arrOf s.dev n a).st = .fault) :
    Completes (.urgentReq p n a v) s (setAnswer p (.refused 0x0F100043) s.dev) := by
  have hrule : urgentReq n a s.dev = (.abort 0x0F100043, s.dev) := by
    obtain h | h := hidle <;> simp [urgentReq, refuseIf, actIf, h]
  exact plainRow_urgentReq.rowRequest_refused hserved (rowOf_urgentReq n a) (length_leBytes ..) (reached_of_ofChan (ofChan_urgentReq n a) hup) rfl
    ((directWrite_urgentReq hfree p n a _ _).trans hrule)

/-! ### The arrival -/

section
variable {s : State} {n : Ch} {a : ArrId} {src : UrgentSrc} {t : List UrgentSrc}

/-- The request that arrives is the oldest, and it waits no more. -/
def requestTaken (n : Ch) (a : ArrId) (t : List UrgentSrc) (s : Dev) : Dev := updArr n a (fun x => { x with urgentReqs := t }) s

/-- URGENT_SRC has the source of the request (Table 4.11). -/
def requestHeard (s : Dev) (n : Ch) (a : ArrId) (src : UrgentSrc) : Prop := bitOf (rd s oUrgentSrc [n, a.idx]) (urgentBit src) = true

theorem urgentRequestArrival_dropped (hlive : Live s) (hreqs : (arrOf s.dev n a).urgentReqs = src :: t)
    (h : ((arrOf s.dev n a).st = .off ∨ (arrOf s.dev n a).st = .fault) ∨ ¬ requestHeard s.dev n a src) :
    Completes (.urgentRequestArrival n a) s (bump oUrgentDropped [n, a.idx] (requestTaken n a t s.dev)) := by
  refine completes_of_onDev rfl hlive ?_
  unfold requestHeard at h
  dsimp only
  rw [hreqs]
  simp only [rd_updArr, Bool.or_eq_true, decide_eq_true_eq, Bool.not_eq_true', Bool.not_eq_true] at h ⊢
  rw [if_pos h]
  rfl

/-- Of a request that is neither dropped for the array's state nor for its source. -/
theorem urgentRequestArrival_heard (hlive : Live s) (hreqs : (arrOf s.dev n a).urgentReqs = src :: t)
    (hserves : ¬ ((arrOf s.dev n a).st = .off ∨ (arrOf s.dev n a).st = .fault)) (hheard : requestHeard s.dev n a src) :
    Completes (.urgentRequestArrival n a) s (if (arrOf s.dev n a).urgent.isSome = true then bump oUrgentMerged [n, a.idx] (requestTaken n a t s.dev)
      else urgentBegin n a (requestTaken n a t s.dev)) := by
  refine completes_of_onDev rfl hlive ?_
  unfold requestHeard at hheard
  dsimp only
  rw [hreqs]
  simp only [rd_updArr, Bool.or_eq_true, decide_eq_true_eq, Bool.not_eq_true', hheard, hserves]
  rfl

end

/-! ### The conversion that begins -/

/-- The stamps of an urgent aperture for a request at tick `t` (Table 4.9): the clock edge, the dead time of 492 ticks, URGENT_AP. -/
def urgentOn (s : Dev) (n : Ch) (a : ArrId) (t : Nat) (i : Fin 7) : Urgent :=
  ⟨i, (clockEdge t + 492) * 256, (clockEdge t + 492 + usTicks (rd s oUrgentAp [n, a.idx])) * 256⟩

theorem urgentBegin_of_idle {n : Ch} {a : ArrId} {s : Dev} {i : Fin 7} (hslot : earliestSlot (arrOf s n a) = none)
    (hrole : (arrOf s n a).roles.getD ((arrOf s n a).nextK % max 1 (arrOf s n a).roles.length) none = some i) :
    urgentBegin n a s = updArr n a (fun x => { x with urgent := some (urgentOn s n a s.now i) }) s := by
  unfold urgentBegin
  dsimp only
  rw [hslot]
  dsimp only
  rw [hrole]
  rfl

theorem urgentBegin_of_empty {n : Ch} {a : ArrId} {s : Dev} (hslot : earliestSlot (arrOf s n a) = none)
    (hrole : (arrOf s n a).roles.getD ((arrOf s n a).nextK % max 1 (arrOf s n a).roles.length) none = none) :
    urgentBegin n a s = bump oUrgentDropped [n, a.idx] s := by
  unfold urgentBegin
  dsimp only
  rw [hslot]
  dsimp only
  rw [hrole]

/-- The slot in progress that started earliest ends ABORTED at the clock edge, and its slice serves the request. -/
theorem urgentBegin_of_slot {n : Ch} {a : ArrId} {s : Dev} {y : Slot} (hslot : earliestSlot (arrOf s n a) = some y) :
    let d := urgentBegin n a s
    chanOnly n s d ∧ d.objs = s.objs ∧ d.now = s.now ∧ (arrOf d n a).urgent = some (urgentOn s n a s.now y.slice) ∧
      (∀ z ∈ (arrOf d n a).slots, z.ord ≠ y.ord) ∧
      (arrOf d n a).done = doneInsert (abortedDone n a y (clockEdge s.now * 256)) (arrOf s n a).done := by
  unfold urgentBegin
  dsimp only
  rw [hslot]
  dsimp only
  refine ⟨by simp, rfl, rfl, by simp [urgentOn], ?_, by simp⟩
  simp only [arrOf_updSlice, arrOf_updArr, List.mem_map, List.mem_filter]
  rintro z ⟨w, ⟨-, hw⟩, rfl⟩
  have hord : w.ord ≠ y.ord := by simpa using hw
  split <;> exact hord

end Sys2Proof.Machine
end

section
/-! SUPPORT. The urgent take (04, R141, R154; Table 5.1), and the samples of the tap converter (04, R145). -/

namespace Sys2Proof.Machine

/-! ### Take words -/

theorem takeWord_mod (value : Int) (tags seq : Nat) : (takeWord value tags seq).toNat % 65536 = seq % 65536 := by
  unfold takeWord
  rw [BitVec.toNat_ofNat]
  omega

/-! ### The urgent take -/

/-- The counters of an urgent take: its own, and those of a missing correction entry and of an overrange. -/
def urgentCounted (n : Ch) (a : ArrId) (uncorrected ovr : Bool) (s : Dev) : Dev :=
  let s := bump oUrgentCount [n, a.idx] s
  let s := if uncorrected then bump oUncorrected [n] s else s
  if ovr then bump oOvrCount [n, a.idx] s else s

theorem urgentCounted_kept (n : Ch) (a : ArrId) (uncorrected ovr : Bool) (s : Dev) :
    chanOnly n s (urgentCounted n a uncorrected ovr s) ∧ (urgentCounted n a uncorrected ovr s).now = s.now ∧
      arrOf (urgentCounted n a uncorrected ovr s) n a = arrOf s n a ∧
      rd (urgentCounted n a uncorrected ovr s) oUrgentCount [n, a.idx] = min (2 ^ 32 - 1) (rd s oUrgentCount [n, a.idx] + 1) := by
  have hovr : keyOf oUrgentCount [n.val, a.idx] 0 ≠ keyOf oOvrCount [n.val, a.idx] 0 := keyOf_arr_ne rfl rfl (by decide) n a
  have hunc : keyOf oUrgentCount [n.val, a.idx] 0 ≠ keyOf oUncorrected [n.val] 0 :=
    keyOf_arr_ne_chan rfl rfl (by decide) n a
  have hcount := rd_bump_word (r := oUrgentCount) rfl [n.val, a.idx] s
  unfold urgentCounted
  cases uncorrected <;> cases ovr <;> simp [rd_bump_of_ne hovr, rd_bump_of_ne hunc, hcount]

/-- The word and the position of an urgent take are stored; its conversion is over, and its slice recovers from it. -/
def urgentStored (n : Ch) (a : ArrId) (u : Urgent) (w : Word64) (pos : Nat) (ovr : Bool) (ovrE : Arr → Option (Nat × Option Nat)) (s : Dev) : Dev :=
  let s := wr (wr s oUrgentTake w.toNat [n, a.idx]) oUrgentPos pos [n, a.idx]
  let s := updSlice n a u.slice (fun z => { z with freeAt := u.stop / 256, urgentFree := u.stop / 256 + 492, fresh := false }) s
  updArr n a (fun x => { x with urgent := none, ovrE := ovrE x, recover := if ovr then 2 else x.recover }) s

theorem urgentStored_kept (n : Ch) (a : ArrId) (u : Urgent) (w : Word64) (pos : Nat) (ovr : Bool) (ovrE : Arr → Option (Nat × Option Nat)) (s : Dev) :
    let d := urgentStored n a u w pos ovr ovrE s
    chanOnly n s d ∧ d.now = s.now ∧ rd d oUrgentCount [n, a.idx] = rd s oUrgentCount [n, a.idx] ∧ rd d oUrgentTake [n, a.idx] = w.toNat := by
  have hposCount : keyOf oUrgentCount [n.val, a.idx] 0 ≠ keyOf oUrgentPos [n.val, a.idx] 0 := keyOf_arr_ne rfl rfl (by decide) n a
  have htakeCount : keyOf oUrgentCount [n.val, a.idx] 0 ≠ keyOf oUrgentTake [n.val, a.idx] 0 := keyOf_arr_ne rfl rfl (by decide) n a
  have hposTake : keyOf oUrgentTake [n.val, a.idx] 0 ≠ keyOf oUrgentPos [n.val, a.idx] 0 := keyOf_arr_ne rfl rfl (by decide) n a
  refine ⟨by simp [urgentStored], rfl, ?_, ?_⟩
  · exact (rd_wr_other _ _ _ _ _ _ hposCount).trans (rd_wr_other _ _ _ _ _ _ htakeCount)
  · exact (rd_wr_other _ _ _ _ _ _ hposTake).trans ((rd_wr_same ..).trans (Nat.mod_eq_of_lt w.isLt))

theorem arrOf_urgentStored (n : Ch) (a : ArrId) (u : Urgent) (w : Word64) (pos : Nat) (ovr : Bool) (ovrE : Arr → Option (Nat × Option Nat)) (s : Dev) :
    let z := arrOf (urgentStored n a u w pos ovr ovrE s) n a
    z.urgent = none ∧ z.seq = (arrOf s n a).seq ∧ z.slots = (arrOf s n a).slots ∧ z.slices[u.slice].freeAt = u.stop / 256 ∧
      z.slices[u.slice].urgentFree = u.stop / 256 + 492 := by
  simp [urgentStored]

/-- The take bears the count as it now stands, and its word enters the queues of its stream. -/
theorem urgentEnd_eq (n : Ch) (a : ArrId) (u : Urgent) (c : Conv) (s : Dev) : ∃ uncorrected value tags pos ovrE,
    let s0 := advance (u.stop / 256 + 369) (advance (u.stop / 256) s)
    let w := takeWord value tags (rd (bump oUrgentCount [n.val, a.idx] s0) oUrgentCount [n.val, a.idx])
    urgentEnd n a u c s =
      streamWrite n (3 + a.idx) [w] pos (urgentStored n a u w pos c.ovr.isSome ovrE (urgentCounted n a uncorrected c.ovr.isSome s0)) := by
  unfold urgentEnd urgentCounted
  exact ⟨_, _, _, _, _, rfl⟩

/-- What an urgent take leaves in the array and in its objects. -/
theorem urgentEnd_effect (n : Ch) (a : ArrId) (u : Urgent) (c : Conv) (s : Dev) :
    let d := urgentEnd n a u c s
    chanOnly n s d ∧ d.now = max s.now (u.stop / 256 + 369) ∧ (arrOf d n a).urgent = none ∧ (arrOf d n a).seq = (arrOf s n a).seq ∧
      (arrOf d n a).slots = (arrOf s n a).slots ∧
      (let cnt := min (2 ^ 32 - 1) (rd s oUrgentCount [n, a.idx] + 1)
      rd d oUrgentCount [n, a.idx] = cnt ∧ rd d oUrgentTake [n, a.idx] % 65536 = cnt % 65536) ∧
      (arrOf d n a).slices[u.slice].freeAt = u.stop / 256 ∧ (arrOf d n a).slices[u.slice].urgentFree = u.stop / 256 + 492 := by
  obtain ⟨uncorrected, value, tags, pos, ovrE, heq⟩ := urgentEnd_eq n a u c s
  dsimp only at heq ⊢
  rw [heq]
  generalize hs0 : advance (u.stop / 256 + 369) (advance (u.stop / 256) s) = s0
  have honly : chanOnly n s s0 := by simp [← hs0]
  have hnow : s0.now = max s.now (u.stop / 256 + 369) := by simp [← hs0]
  have harr : arrOf s0 n a = arrOf s n a := by simp [← hs0]
  have hcnt : rd s0 oUrgentCount [n.val, a.idx] = rd s oUrgentCount [n.val, a.idx] := by simp [← hs0]
  have hcount := rd_bump_word (r := oUrgentCount) rfl [n.val, a.idx] s0
  generalize hw : takeWord value tags _ = w
  obtain ⟨conly, cnow, carr, ccount⟩ := urgentCounted_kept n a uncorrected c.ovr.isSome s0
  generalize urgentCounted n a uncorrected c.ovr.isSome s0 = s1 at *
  obtain ⟨sonly, snow, scount, stake⟩ := urgentStored_kept n a u w pos c.ovr.isSome ovrE s1
  have hstored := arrOf_urgentStored n a u w pos c.ovr.isSome ovrE s1
  generalize urgentStored n a u w pos c.ovr.isSome ovrE s1 = s2 at *
  have hevent := streamWrite_step n (3 + a.idx) [w] pos s2
  have hcountKey : keyOf oUrgentCount [n.val, a.idx] 0 ≠ keyOf oChFault [n.val] 0 := keyOf_arr_ne_chan rfl rfl (by decide) n a
  have htakeKey : keyOf oUrgentTake [n.val, a.idx] 0 ≠ keyOf oChFault [n.val] 0 := keyOf_arr_ne_chan rfl rfl (by decide) n a
  rw [carr, harr, ← arrOf_streamWrite n (3 + a.idx) [w] pos s2 a] at hstored
  obtain ⟨hurgent, hseq, hslots, hfree, hrecover⟩ := hstored
  refine ⟨honly.trans (conly.trans (sonly.trans hevent.only)), hevent.now.trans (snow.trans (cnow.trans hnow)), hurgent, hseq, hslots, ⟨?_, ?_⟩,
    hfree, hrecover⟩
  · rw [hevent.kept _ _ hcountKey, scount, ccount, hcnt]
  · rw [hevent.kept _ _ htakeKey, stake, ← hw, takeWord_mod, hcount, hcnt]

/-- An urgent take is formed after what R51 puts before its tick. -/
theorem urgentApertureEnd_completes {s : State} {n : Ch} {a : ArrId} {u₀ u : Urgent} (c : Conv) (hlive : Live s)
    (h : (arrOf s.dev n a).urgent = some u₀)
    (hu : (arrOf (settleDue s.nv ⟨max s.dev.now (u₀.stop / 256 + 369), 3, 0⟩ [n] s.dev) n a).urgent = some u) :
    Completes (.urgentApertureEnd n a c) s (urgentEnd n a u c (settleDue s.nv ⟨max s.dev.now (u₀.stop / 256 + 369), 3, 0⟩ [n] s.dev)) := by
  refine completes_of_onDev rfl hlive ?_
  simp [urgentTick, h, formUrgent, hu]

/-! ### The tap converter -/

/-- The tick of the next tap sample (R145). -/
def tapTick (s : Dev) (n : Ch) (a : ArrId) : Nat := max ((arrOf s n a).tap.tick + 160) ((s.now + 159) / 160 * 160)

/-- The sample is flagged TAP_SETTLING: before READY, and where its window meets a settling interval. -/
def tapSettling (s : Dev) (n : Ch) (a : ArrId) : Bool :=
  !(arrOf s n a).ready || (arrOf s n a).tap.settles.any fun e => decide (tapTick s n a - 176 < e.2) && decide (e.1 < tapTick s n a - 16)

/-- An overload fires the detector of the slots that converted by the start of the sample's window (R137). -/
def overloadFires (overload : Bool) (lo : Nat) (l : List Slot) : List Slot :=
  if overload then l.map fun y => if y.conv ≤ lo * 256 then { y with fired := true } else y else l

/-- A tap sample taken: it goes to the Loop Engine, and the array keeps it with its flags. -/
def tapTaken (n : Ch) (a : ArrId) (v : Option (BitVec 40)) (overload : Bool) (s : Dev) : Dev :=
  updArr n a (fun x => { x with
      slots := overloadFires overload (tapTick s n a - 176) x.slots
      tap := { x.tap with value := v.map BitVec.toInt, settling := tapSettling s n a, overload := overload, tick := tapTick s n a } })
    (updCh n (fun c => { c with loop := tapPush a (v.map BitVec.toInt, tapSettling s n a) c.loop }) (advance (tapTick s n a) s))

/-- TAP_NOW takes the value of a sample that is not missing. -/
def tapShown (n : Ch) (a : ArrId) (v : Option (BitVec 40)) (s : Dev) : Dev :=
  match v with
  | some w => wr s oTapNow w.toNat [n, a.idx]
  | none => s

theorem tapSample_completes {s : State} (hlive : Live s) (n : Ch) (a : ArrId) (v : Option (BitVec 40)) (overload : Bool) :
    Completes (.tapSample n a v overload) s (tapShown n a v (tapTaken n a v overload s.dev)) := completes_of_onDev rfl hlive rfl

theorem tapTaken_kept (n : Ch) (a : ArrId) (v : Option (BitVec 40)) (overload : Bool) (s : Dev) :
    let d := tapTaken n a v overload s
    chanOnly n s d ∧ d.objs = s.objs ∧ d.now = max s.now (tapTick s n a) ∧ (d.ch n).src = (s.ch n).src ∧
      (arrOf d n a).tap.tick = tapTick s n a ∧ (arrOf d n a).tap.value = v.map BitVec.toInt ∧ (arrOf d n a).tap.overload = overload ∧
      (arrOf d n a).tap.settling = tapSettling s n a := by
  refine ⟨by simp [tapTaken], rfl, rfl, ?_, by simp [tapTaken], by simp [tapTaken], by simp [tapTaken], by simp [tapTaken]⟩
  cases a <;> simp [tapTaken, updArr, updCh_ch_self]

theorem tapShown_kept (n : Ch) (a : ArrId) (v : Option (BitVec 40)) (s : Dev) :
    let d := tapShown n a v s
    chanOnly n s d ∧ d.now = s.now ∧ d.ch n = s.ch n ∧ (∀ w, v = some w → rd d oTapNow [n, a.idx] = w.toNat) ∧ (v = none → d.objs = s.objs) := by
  cases v with
  | none => exact ⟨.refl n s, rfl, rfl, fun _ h => (Option.some_ne_none _ h.symm).elim, fun _ => rfl⟩
  | some w =>
    refine ⟨by simp [tapShown], rfl, rfl, fun _ h => ?_, fun h => (Option.some_ne_none w h).elim⟩
    obtain rfl := Option.some.inj h
    exact (rd_wr_same ..).trans (Nat.mod_eq_of_lt w.isLt)

end Sys2Proof.Machine
end

section
/-! SUPPORT. The measure configuration table (04, R148; Table 4.14), and O23. -/

namespace Sys2Proof.Machine

/-! ### A channel's tables -/

/-- The index is one of the tables of channel n (Table 0.3). -/
def tableOf (n : Ch) (ix : Nat) : Prop := 0x5000 + 0x10 * n.val ≤ ix ∧ ix < 0x5010 + 0x10 * n.val

theorem chOf_of_tableOf {n : Ch} {ix : Nat} (h : tableOf n ix) : chOf ix = n := by
  have hn := n.isLt
  unfold tableOf at h
  refine Fin.ext ?_
  unfold chOf
  dsimp only
  rw [if_neg (by omega)]
  omega

theorem objDie_of_tableOf {n : Ch} {ix : Nat} (h : tableOf n ix) : objDie ix = 1 + n.die.val := by
  have hn := n.isLt
  have hd : n.die.val = n.val / 4 := rfl
  unfold tableOf at h
  unfold objDie isTable
  rw [if_neg (by simp; omega), if_pos (by simp; omega), hd]
  omega

/-- Over an ACTIVE link a channel's tables are reached. -/
theorem reached_of_tableOf {n : Ch} {ix : Nat} {s : Dev} (h : tableOf n ix) (hup : s.dies[n.die].link.st = .active) : reached s ix := by
  have hobj := objDie_of_tableOf h
  have hdie := n.die.isLt
  have hd : dieNo (objDie ix) = n.die := by
    rw [hobj]
    exact Fin.ext (by simp only [dieNo]; omega)
  have hlink : s.dies[dieNo (objDie ix)].link.st = .active := by
    simpa only [hd] using hup
  constructor
  · unfold dieReachable
    rw [hlink, if_neg (by omega), if_neg (by omega)]
  · unfold linkWaits
    dsimp only
    rw [hlink]
    exact if_neg (by simp)

theorem directWrite_of_tableOf {n : Ch} {ix sub : Nat} {p : Port} {r : Row} {data : List Byte} {nv : Nv} {s : Dev} (h : tableOf n ix) :
    directWrite p r ix sub data nv s = directTab p r ix sub (ofBytes data) data s := by
  have hn := n.isLt
  unfold tableOf at h
  have hown : ownedCheck s ix = .ok := ownedCheck_of_not_arrayRow (by unfold arrayRow; simp; omega)
  unfold directWrite
  rw [hown]
  dsimp only
  rw [if_neg (by omega), if_neg (by omega), if_neg (by omega), if_neg (by omega), if_neg (by omega), if_neg (by omega), if_neg (by omega)]

theorem tableOf_mcfgTable (n : Ch) : tableOf n (oMcfgTable.ix + dimsOff oMcfgTable.dims [n.val]) := by
  simp only [tableOf, oMcfgTable, dimsOff]
  omega

/-! ### The write -/

/-- The halves of entries, VM first (Table 4.14). -/
def mcfgHalves (l : List Nat) : List Nat := l.flatMap fun e => [e % 2 ^ 64, e / 2 ^ 64]

theorem mcfgWrite_of_past {n : Ch} {data : List Byte} {s : Dev}
    (h : 255 < ofBytes (data.take 2) + (mcfgEntries (data.drop 2)).length - 1) : mcfgWrite n data s = (.abort 0x0F100003, s) := by
  simp [mcfgWrite, refuseIf, h, firstBad, actIf]

theorem mcfgWrite_of_ok {n : Ch} {data : List Byte} {s : Dev}
    (h : ¬ 255 < ofBytes (data.take 2) + (mcfgEntries (data.drop 2)).length - 1)
    (hok : ∀ x ∈ mcfgHalves (mcfgEntries (data.drop 2)), mcfgHalfReserved x = false ∧ mcfgHalfOk s x = true) :
    mcfgWrite n data s = (.ok, mcfgStore n (ofBytes (data.take 2)) (mcfgEntries (data.drop 2)) s) := by
  have hreserved : (mcfgHalves (mcfgEntries (data.drop 2))).any mcfgHalfReserved = false :=
    List.any_eq_false.mpr fun x hx => by simp [(hok x hx).1]
  have hlimits : ((mcfgHalves (mcfgEntries (data.drop 2))).any fun x => !mcfgHalfOk s x) = false :=
    List.any_eq_false.mpr fun x hx => by simp [(hok x hx).2]
  unfold mcfgHalves at hreserved hlimits
  simp only [mcfgWrite, refuseIf, h, hreserved, hlimits, firstBad, actIf, decide_false, Bool.false_eq_true, if_false]

/-- The entries replaced are those named, and nothing else of the device changes. -/
theorem mcfgStore_effect (n : Ch) (i : Nat) (l : List Nat) (s : Dev) :
    let d := mcfgStore n i l s
    chanOnly n s d ∧ d.objs = s.objs ∧ d.fw = s.fw ∧
      ∀ j, tabGet (d.ch n).mcfg mcfgDefault j = if i ≤ j ∧ j < i + l.length then l.getD (j - i) 0 else tabGet (s.ch n).mcfg mcfgDefault j := by
  induction l generalizing i s with
  | nil => exact ⟨.refl n s, rfl, rfl, fun j => by rw [if_neg (by simp)]; rfl⟩
  | cons e l ih =>
    obtain ⟨honly, hobjs, hfw, hentries⟩ := ih (i + 1) (updCh n (fun c => { c with mcfg := tabPut c.mcfg mcfgDefault i e }) s)
    refine ⟨chanOnly.trans (by simp) honly, hobjs, hfw, fun j => (hentries j).trans ?_⟩
    rw [updCh_ch_self]
    dsimp only
    rw [List.length_cons]
    by_cases hfirst : j = i
    · subst hfirst
      rw [if_neg (by omega), if_pos (by omega), tabGet_put_same, Nat.sub_self, List.getD_cons_zero]
    · rw [tabGet_put_other _ _ _ _ hfirst]
      by_cases hin : i + 1 ≤ j ∧ j < i + 1 + l.length
      · rw [if_pos hin, if_pos (by omega), show j - i = (j - (i + 1)) + 1 by omega, List.getD_cons_succ]
      · rw [if_neg hin, if_neg (by omega)]

/-- A served write of whole entries is decided by the table's own rule. -/
theorem mcfgTableWrite_completes {s : State} {p : Port} {n : Ch} {data : List Byte} {k : Nat} {v : Verdict} {a : Answer} {t : Dev} (hup : LinkUp s n.die)
    (hserved : Served s p oMcfgTable) (hlen : data.length = 2 + 16 * k) (hk : k ≠ 0) (hrule : mcfgWrite n data s.dev = (v, t))
    (hanswer : answered p (v, t) = .next (setAnswer p a t)) (hfw : t.fw = s.dev.fw) : Completes (.mcfgTableWrite p n data) s (setAnswer p a t) := by
  obtain ⟨hlive, hserves, hopen, hmay, hport⟩ := hserved
  obtain ⟨hdie, hlink⟩ := reached_of_tableOf (tableOf_mcfgTable n) hup
  have hlength : lengthOk oMcfgTable data.length = true := by
    show (decide (16 + 2 ≤ data.length) && (data.length - 2) % 16 == 0) = true
    simp [hlen]
    omega
  have hdirect : directWrite p oMcfgTable (oMcfgTable.ix + dimsOff oMcfgTable.dims [n.val]) oMcfgTable.sub data s.nv s.dev = (v, t) := by
    have htab : directTab p oMcfgTable (oMcfgTable.ix + dimsOff oMcfgTable.dims [n.val]) oMcfgTable.sub (ofBytes data) data s.dev =
        mcfgWrite (chOf (oMcfgTable.ix + dimsOff oMcfgTable.dims [n.val])) data s.dev := rfl
    rw [directWrite_of_tableOf (tableOf_mcfgTable n), htab, chOf_of_tableOf (tableOf_mcfgTable n), hrule]
  have hwrite : writeObj s.nv p (oMcfgTable.ix + dimsOff oMcfgTable.dims [n.val]) oMcfgTable.sub data s.dev = (v, t) := by
    simp [writeObj, hopen, writeOpen, nameOf_of_rowOf p (rowOf_mcfgTable n) (right_of_mayWrite hmay), firstBad, hmay, hlength, reachCheck, hdie,
      show oMcfgTable.acc ≠ .rk by decide, show valueCheck oMcfgTable _ oMcfgTable.sub data = .ok from rfl,
      show directCheck oMcfgTable s.dev data = .ok from rfl, hdirect]
  refine onDev_acts hlive ?_
  simp [request, hserves, hwrite, writeWaits_of_no_hold hport hlink, hfw, hanswer]

/-! ### O23 -/

/-- Settles O23: the request by its two outcomes, its arrival by those of R139 to R142, the urgent take and the tap sample by their effects, the table by
the two outcomes of its rule. -/
theorem urgentTapTable : Obligations.UrgentTapTable := by
  intro s p n a hlive hfree x idle
  refine ⟨fun v hserved hup => ⟨fun hserves => urgentReq_completes v hserved hup hfree hserves, fun hidle => urgentReq_refused v hserved hup hfree hidle⟩,
    fun src t hreqs => ?_, fun c hnone => ?_, fun u₀ u c e hu₀ he hu => ?_, fun v overload => ?_,
    fun first l data hserved hup hne hfirst hlen hdata hentries => ⟨fun hfits hok => ?_, fun hpast => ?_⟩⟩
  · refine ⟨fun hdrop => urgentRequestArrival_dropped hlive hreqs hdrop, fun hserves hheard hmerge => ?_, fun y hserves hheard hnone hslot => ?_,
      fun hserves hheard hnone hslot => ?_⟩
    · have hdone := urgentRequestArrival_heard hlive hreqs hserves hheard
      rwa [if_pos hmerge] at hdone
    · have hdone := urgentRequestArrival_heard hlive hreqs hserves hheard
      rw [if_neg (by rw [hnone]; decide)] at hdone
      have hslot' : earliestSlot (arrOf (requestTaken n a t s.dev) n a) = some y := by
        simpa [requestTaken, earliestSlot] using hslot
      obtain ⟨honly, hobjs, hnow, hurgent, hslots, hended⟩ := urgentBegin_of_slot hslot'
      refine ⟨_, hdone, chanOnly.trans (by simp [requestTaken]) honly, hobjs, hnow, hurgent, hslots,
        abortedDone n a y (clockEdge s.dev.now * 256), ?_, rfl, rfl, rfl, rfl⟩
      rw [hended]
      simp [requestTaken, x]
    · have hdone := urgentRequestArrival_heard hlive hreqs hserves hheard
      rw [if_neg (by rw [hnone]; decide)] at hdone
      have hslot' : earliestSlot (arrOf (requestTaken n a t s.dev) n a) = none := by
        simpa [requestTaken, earliestSlot] using hslot
      refine ⟨fun i hrole => ?_, fun hrole => ?_⟩
      · rw [urgentBegin_of_idle hslot' (by simpa [requestTaken] using hrole)] at hdone
        exact hdone
      · rw [urgentBegin_of_empty hslot' (by simpa [requestTaken] using hrole)] at hdone
        exact hdone
  · exact completes_of_onDev rfl hlive (by simp [urgentTick, show (arrOf s.dev n a).urgent = none from hnone])
  · subst he
    exact ⟨_, urgentApertureEnd_completes c hlive hu₀ hu, urgentEnd_effect n a u c _⟩
  · obtain ⟨tonly, tobjs, tnow, tsrc, ttick, tvalue, tover, tsettling⟩ := tapTaken_kept n a v overload s.dev
    obtain ⟨sonly, snow, sch, svalue, sobjs⟩ := tapShown_kept n a v (tapTaken n a v overload s.dev)
    have harr := arrOf_of_besideEvents (congrArg Chan.besideEvents sch) a
    refine ⟨_, tapSample_completes hlive n a v overload, tonly.trans sonly, ⟨snow.trans tnow, by rw [harr, ttick]; rfl⟩, by rw [harr, tvalue],
      by rw [harr, tover], fun hready => ?_, svalue, fun h => (sobjs h).trans tobjs, by rw [sch, tsrc]⟩
    rw [harr, tsettling]
    simp [tapSettling, show (arrOf s.dev n a).ready = false from hready]
  · have hlength : l.length ≠ 0 := fun h => hne (List.length_eq_zero_iff.mp h)
    have hrule := mcfgWrite_of_ok (n := n) (data := data) (s := s.dev) (by rw [hdata, hentries]; omega) (fun h hh => by
      rw [hentries] at hh
      obtain ⟨e, he, hh⟩ := List.mem_flatMap.mp hh
      exact hok e he h hh)
    rw [hdata, hentries] at hrule
    obtain ⟨honly, hobjs, hfw, htable⟩ := mcfgStore_effect n first l s.dev
    exact ⟨_, mcfgTableWrite_completes hup hserved hlen hlength hrule rfl hfw, honly, hobjs, htable⟩
  · have hlength : l.length ≠ 0 := fun h => hne (List.length_eq_zero_iff.mp h)
    exact mcfgTableWrite_completes hup hserved hlen hlength (mcfgWrite_of_past (by rw [hdata, hentries]; omega)) rfl rfl

end Sys2Proof.Machine
end

section
/-! SUPPORT. Roles, the spare and rotations of an array (04, R130 to R133), entries to its states (Table 4.6): they leave the array's slots and takes,
the channel beside the array and the rest of the device as they were. -/

namespace Sys2Proof.Machine

/-! ### Steps of roles -/

/-- A channel without one of its arrays, its queues and the numbering of its events. -/
def Chan.besideArr (a : ArrId) (c : Chan) : Chan := match a with
  | .vm => { c.besideEvents with vm := Arr.atReset }
  | .im => { c.besideEvents with im := Arr.atReset }

/-- An array without its slices, the roles they fill and what moves them between roles. -/
def Arr.besideRoles (x : Arr) : Arr := { x with
  slices := Arr.atReset.slices, roles := [], spare := none, shown := ([], none), calStale := false, rotRole := none, nextRole := 0, rotTick := 0,
  cal := none, dropRole := false }

/-- From `s` to `t` no more has happened than slices of array `a` of channel `n` changing places: no time has passed, and beside them only the channel's
event records, CH_FAULT and the arbiters may have changed. -/
structure RoleStep (n : Ch) (a : ArrId) (s t : Dev) : Prop where
  frame : t = { s with objs := t.objs, arb := t.arb, chans := s.chans.set n (t.ch n) }
  beside : (t.ch n).besideArr a = (s.ch n).besideArr a
  roles : (arrOf t n a).besideRoles = (arrOf s n a).besideRoles
  kept : ∀ r l, keyOf r l 0 ≠ keyOf oChFault [n] 0 → rd t r l = rd s r l

namespace RoleStep

variable {n : Ch} {a : ArrId} {s t u : Dev}

theorem refl (n : Ch) (a : ArrId) (s : Dev) : RoleStep n a s s := ⟨by simp [Dev.ch], rfl, rfl, fun _ _ _ => rfl⟩

theorem trans (h : RoleStep n a s t) (g : RoleStep n a t u) : RoleStep n a s u where
  frame := by
    rw [g.frame, h.frame]
    simp [Dev.ch]
  beside := g.beside.trans h.beside
  roles := g.roles.trans h.roles
  kept r l hr := (g.kept r l hr).trans (h.kept r l hr)

theorem ite {c : Prop} [Decidable c] (ht : c → RoleStep n a s t) (hu : ¬ c → RoleStep n a s u) : RoleStep n a s (if c then t else u) :=
  iteInduction ht hu

theorem updRoles {f : Arr → Arr} (hf : ∀ x, (f x).besideRoles = x.besideRoles) (s : Dev) : RoleStep n a s (updArr n a f s) where
  frame := by simp [updArr, updCh, Dev.ch]
  beside := by cases a <;> simp [updArr, updCh_ch_self, Chan.besideArr, Chan.besideEvents]
  roles := by rw [arrOf_updArr, hf]
  kept _ _ _ := rfl

theorem updSlice (i : Fin 7) (f : Slice → Slice) (s : Dev) : RoleStep n a s (Machine.updSlice n a i f s) :=
  updRoles (f := fun x => { x with slices := x.slices.set i (f x.slices[i]) }) (fun _ => rfl) s

theorem arb (v : Arbiter) (s : Dev) : RoleStep n a s { s with arb := v } :=
  ⟨by simp [Dev.ch], rfl, by cases a <;> rfl, fun _ _ _ => rfl⟩

theorem event (code arg : Nat) (s : Dev) : RoleStep n a s (chEvent n code arg s) where
  frame := by
    have hevent := chEvent_step n code arg s
    rw [← hevent.now]
    exact hevent.only.frame.trans (by rw [hevent.only.frame])
  beside := by
    have hbeside := chEvent_besideEvents n code arg s
    cases a
    · exact congrArg (fun c : Chan => { c with vm := Arr.atReset }) hbeside
    · exact congrArg (fun c : Chan => { c with im := Arr.atReset }) hbeside
  roles := by rw [arrOf_chEvent]
  kept r l hr := (chEvent_step n code arg s).kept r l hr

theorem fault (bit : Nat) (s : Dev) : RoleStep n a s (chFault n bit s) :=
  ⟨by simp [chFault, wr, wrJ, Dev.ch], rfl, by rw [arrOf_chFault], fun _ _ hr => rd_wr_other _ _ _ _ _ _ hr⟩

theorem now (h : RoleStep n a s t) : t.now = s.now := by rw [h.frame]
theorem ref (h : RoleStep n a s t) : t.ref = s.ref := by rw [h.frame]
theorem dies (h : RoleStep n a s t) : t.dies = s.dies := by rw [h.frame]
theorem ports (h : RoleStep n a s t) : t.ports = s.ports := by rw [h.frame]

theorem ch_of_ne (h : RoleStep n a s t) {m : Ch} (hm : m ≠ n) : t.ch m = s.ch m := by
  have hval : n.val ≠ m.val := fun e => hm (Fin.ext e.symm)
  rw [h.frame]
  simp [Dev.ch, Vector.getElem_set_ne, hval]

/-- The rest of the array: its state, its sequence of slots, the slots that have ended. -/
theorem st (h : RoleStep n a s t) : (arrOf t n a).st = (arrOf s n a).st := by simpa [Arr.besideRoles] using congrArg Arr.st h.roles
theorem slots (h : RoleStep n a s t) : (arrOf t n a).slots = (arrOf s n a).slots := by simpa [Arr.besideRoles] using congrArg Arr.slots h.roles
theorem ended (h : RoleStep n a s t) : (arrOf t n a).done = (arrOf s n a).done := by simpa [Arr.besideRoles] using congrArg Arr.done h.roles
theorem seq (h : RoleStep n a s t) : (arrOf t n a).seq = (arrOf s n a).seq := by simpa [Arr.besideRoles] using congrArg Arr.seq h.roles

end RoleStep

/-! ### The arbiters -/

section
variable {n : Ch} {a : ArrId}

theorem updUnit_step (x : Shared) (s : Dev) : RoleStep n a s (updUnit x s) := .arb _ s

theorem rehint_step (u : Nat) (s : Dev) : RoleStep n a s (rehint u s) := updUnit_step _ s

theorem unitRequest_step (id u deadline : Nat) (s : Dev) : RoleStep n a s (unitRequest id u deadline s) := by
  unfold unitRequest
  exact .ite (fun _ => .refl n a s) fun _ => .ite (fun _ => .refl n a s) fun _ => (updUnit_step _ s).trans (rehint_step u _)

theorem unitRelease_step (id u : Nat) (s : Dev) : RoleStep n a s (unitRelease id u s) := by
  unfold unitRelease
  exact .ite (fun _ => (updUnit_step _ s).trans (rehint_step u _)) fun _ => .refl n a s

theorem unitWithdraw_step (id u : Nat) (s : Dev) : RoleStep n a s (unitWithdraw id u s) := by
  unfold unitWithdraw
  exact .ite (fun _ => (updUnit_step _ s).trans (rehint_step u _)) fun _ => .refl n a s

end

/-! ### Roles -/

section
variable (n : Ch) (a : ArrId)

theorem rotationCancel_step (s : Dev) : RoleStep n a s (rotationCancel n a s) := by
  unfold rotationCancel
  exact (RoleStep.updRoles (by intro; rfl) s).trans ((unitRelease_step ..).trans (unitWithdraw_step ..))

theorem staleCheck_step (s : Dev) : RoleStep n a s (staleCheck n a s) := by
  unfold staleCheck
  exact .updRoles (by intro; rfl) s

theorem showMap_step (s : Dev) : RoleStep n a s (showMap n a s) := by
  unfold showMap
  exact .updRoles (by intro; rfl) s

/-- A rotation at the start of a slot (R130): its parts are steps of roles. -/
theorem rotateAt_step (role : Nat) (s : Dev) : RoleStep n a s (rotateAt n a role s) := by
  have rotated (sp : Fin 7) (f : Arr → Arr) (hf : ∀ x, (f x).besideRoles = x.besideRoles) : RoleStep n a s
      (unitRelease (sliceCalId n a) (pathUnit n a) (chEvent n 0x0B (arrArg a sp.val)
        (updSlice n a sp (fun z => { z with st := .active, fresh := true }) (updArr n a f s)))) :=
    (RoleStep.updRoles hf s).trans ((RoleStep.updSlice sp _ _).trans ((RoleStep.event ..).trans (unitRelease_step ..)))
  unfold rotateAt
  dsimp only
  split
  · refine .ite (fun _ => rotationCancel_step n a s) fun _ => .ite (fun _ => ?_) fun _ => .refl n a s
    split
    · exact (rotated _ _ (by intro; rfl)).trans ((RoleStep.updSlice ..).trans ((staleCheck_step n a _).trans
        ((RoleStep.updRoles (by intro; rfl) _).trans (unitRequest_step ..))))
    · exact rotated _ _ (by intro; rfl)
  · exact .refl n a s

theorem fillRole_step (role : Nat) (s : Dev) : RoleStep n a s (fillRole n a role s) := by
  unfold fillRole
  dsimp only
  split
  · exact .ite (fun _ => (RoleStep.updRoles (by intro; rfl) s).trans ((RoleStep.updSlice ..).trans ((RoleStep.event ..).trans
      ((rotationCancel_step n a _).trans (staleCheck_step n a _))))) fun _ => .refl n a s
  · exact .refl n a s

/-- Roles of an array that is OFF or in FAULT (log 126, log 151): the steps in turn. -/
theorem idleRoles_step (s : Dev) : RoleStep n a s (idleRoles n a s) := by
  have rotates : RoleStep n a s (match (arrOf s n a).rotRole with
      | some r => if (arrOf s n a).st = .off then rotateAt n a r s else rotationCancel n a s
      | none => s) := by
    split
    · exact .ite (fun _ => rotateAt_step n a _ s) fun _ => rotationCancel_step n a s
    · exact .refl n a s
  have fills (d : Dev) : RoleStep n a d (match (arrOf d n a).roles.findIdx? Option.isNone with
      | some r => fillRole n a r d
      | none => d) := by
    split
    · exact fillRole_step n a _ d
    · exact .refl n a d
  unfold idleRoles
  refine .ite (fun _ => (rotates.trans (fills _)).trans (RoleStep.trans ?_ (showMap_step n a _))) fun _ => .refl n a s
  exact .ite (fun _ => .updRoles (by intro; rfl) _) fun _ => .refl n a _

/-! ### Entries to states -/

/-- The state entered, with its event and fault bit (Table 5.6, Table 11.14). -/
theorem arrEnter_step (st : ArrState) (s : Dev) : RoleStep n a (updArr n a (fun x => { x with st := st }) s) (arrEnter n a st s) := by
  have faults (d : Dev) : RoleStep n a d (if st = .fault then chFault n (4 + a.idx) d else d) := .ite (fun _ => .fault _ d) fun _ => .refl n a d
  unfold arrEnter
  refine .ite (fun h => ?_) fun _ => (RoleStep.event ..).trans ((faults _).trans (idleRoles_step n a _))
  rw [updArr_eq_self (by rw [← h])]
  exact .refl n a s

end

end Sys2Proof.Machine
end

section
/-! SUPPORT. Ends of apertures (04, R110, R124, R137), the fields of a take word (05, Tables 5.1 and 5.2). -/

namespace Sys2Proof.Machine

/-! ### Ends of apertures -/

/-- A slot that its slice did not begin ends, emitted ABORTED (R124). -/
theorem apertureEnd_of_idle {s : State} {n : Ch} {a : ArrId} {y : Slot} {t : List Slot} {e : Nat} (c : Conv) (hlive : Live s)
    (hslots : (arrOf s.dev n a).slots = y :: t) (hend : (stampOf (dieRecs s.dev n) y.endPos).map (actStamp s.dev.dies[n.die]) = some e)
    (hidle : y.idle = true) : Completes (.apertureEnd n a c) s
      (updArr n a (fun x => { x with slots := t, done := doneInsert (abortedDone n a y e) x.done }) (advance ((e + 255) / 256) s.dev)) := by
  refine completes_of_onDev rfl hlive ?_
  simp only [hslots, hend, hidle, if_true]

/-- What the clocks of an aperture give for its slot (R110, R137). -/
def convertedDone (y : Slot) (e : Nat) (c : Conv) : Done :=
  ⟨y.ord, y.start, e, (match c.ovr with
    | some (p, _) => ovrValue p
    | none => slotValue y e c.ys), false, c.ovr.map Prod.fst, c.ovr.map Prod.snd, y.swap, y.cfg, y.crr⟩

theorem convertedDone_of_plain {y : Slot} {e : Nat} {c : Conv} (h : c.ovr = none) :
    (convertedDone y e c).value = slotValue y e c.ys ∧ (convertedDone y e c).ovr = none := by
  unfold convertedDone
  rw [h]
  exact ⟨rfl, rfl⟩

theorem convertedDone_of_overrange {y : Slot} {e : Nat} {c : Conv} {p : Bool} {oe : Nat} (h : c.ovr = some (p, oe)) :
    (convertedDone y e c).value = ovrValue p ∧ (convertedDone y e c).ovr = some p ∧ (convertedDone y e c).ovrEnd = some oe := by
  unfold convertedDone
  rw [h]
  exact ⟨rfl, rfl, rfl⟩

/-- The last modulator clock of an aperture, and whether the overload detector fired on it. -/
def detectorSeen (e : Nat) (c : Conv) : Option (Nat × Bool) :=
  some ((e + 255) / 256 / 40, c.ovr.any fun o => decide ((e + 255) / 256 / 40 * 40 ≤ o.2))

/-- A slot that its slice converted ends, and the slice enters its dead time (R111). -/
theorem apertureEnd_of_converted {s : State} {n : Ch} {a : ArrId} {y : Slot} {t : List Slot} {e : Nat} (c : Conv) (hlive : Live s)
    (hslots : (arrOf s.dev n a).slots = y :: t) (hend : (stampOf (dieRecs s.dev n) y.endPos).map (actStamp s.dev.dies[n.die]) = some e)
    (hidle : y.idle = false) : Completes (.apertureEnd n a c) s
      (updSlice n a y.slice (fun z => { z with freeAt := (e + 255) / 256 })
        (updArr n a (fun x => { x with slots := t, done := doneInsert (convertedDone y e c) x.done, overClock := detectorSeen e c })
          (advance ((e + 255) / 256) s.dev))) := by
  refine completes_of_onDev rfl hlive ?_
  simp only [hslots, hend, hidle]
  rfl

/-! ### Take words -/

/-- The fields of a take word (Table 5.1). -/
theorem takeWord_toNat (value : Int) (tags seq : Nat) :
    (takeWord value tags seq).toNat = ofSigned 40 value * 2 ^ 24 + tags % 256 * 2 ^ 16 + seq % 65536 := by
  have hvalue := ofSigned_lt 40 value
  unfold takeWord
  rw [BitVec.toNat_ofNat]
  exact Nat.mod_eq_of_lt (by omega)

theorem takeWord_value {value : Int} (tags seq : Nat) (hlo : -(2 ^ 39) ≤ value) (hhi : value < 2 ^ 39) :
    toSigned 40 ((takeWord value tags seq).toNat / 2 ^ 24) = value := by
  have hfield : (takeWord value tags seq).toNat / 2 ^ 24 = ofSigned 40 value := by
    rw [takeWord_toNat]
    omega
  rw [hfield]
  unfold toSigned ofSigned
  split <;> omega

/-- Bit i of the tags stands at bit 16 + i of the word. -/
theorem bitOf_takeWord (value : Int) (tags seq : Nat) {i : Nat} (hi : i < 8) : bitOf (takeWord value tags seq).toNat (16 + i) = bitOf (tags % 256) i := by
  have hfield : (takeWord value tags seq).toNat / 2 ^ 16 = ofSigned 40 value * 2 ^ 8 + tags % 256 := by
    rw [takeWord_toNat]
    omega
  have hlow : (ofSigned 40 value * 2 ^ 8 + tags % 256) / 2 ^ i % 2 = tags % 256 / 2 ^ i % 2 := by interval_cases i <;> omega
  unfold bitOf
  rw [Nat.pow_add, ← Nat.div_div_eq_div_mul, hfield, hlow]

/-- The eight tags of a byte, each at its own bit (Table 5.2). -/
def tagByte (b7 b6 b5 b4 b3 b2 b1 b0 : Bool) : Nat :=
  flagAt b7 7 + flagAt b6 6 + flagAt b5 5 + flagAt b4 4 + flagAt b3 3 + flagAt b2 2 + flagAt b1 1 + flagAt b0 0

theorem bitOf_tagByte (b7 b6 b5 b4 b3 b2 b1 b0 : Bool) : let v := tagByte b7 b6 b5 b4 b3 b2 b1 b0 % 256
    bitOf v 7 = b7 ∧ bitOf v 6 = b6 ∧ bitOf v 5 = b5 ∧ bitOf v 4 = b4 ∧ bitOf v 3 = b3 ∧ bitOf v 0 = b0 := by
  revert b7 b6 b5 b4 b3 b2 b1 b0
  decide

end Sys2Proof.Machine
end

section
/-! SUPPORT. The formation of a take (05, R149 to R159), and O20. -/

namespace Sys2Proof.Machine

/-! ### Parts of a formation -/

/-- The tick of the formation of an ended slot (R149, log 154), moved on to. -/
def takeWaits (d : Done) (s : Dev) : Dev := if d.aborted then s else advance ((d.stop + 255) / 256 + 369) s

/-- The value of a take, whether a correction entry applied to it, whether that was provisioned (R154 to R156). -/
def takeCorrected (s : Dev) (n : Ch) (a : ArrId) (d : Done) : Int × Bool × Bool :=
  if !d.aborted && d.ovr.isNone then corrected s n a d.cfg d.value else (d.value, false, true)

/-- The slot lies in the marked run of its array (R135). -/
def takeMarked (x : Arr) (d : Done) : Bool := x.runFirst ≤ d.ord && d.ord ≤ x.runEnd && x.runFirst ≤ x.runEnd

/-- The word of a take. -/
def wordOf (s : Dev) (n : Ch) (a : ArrId) (d : Done) : Word64 :=
  let x := arrOf s n a
  let c := takeCorrected s n a d
  takeWord c.1 (takeTagByte s n d (takeMarked x d) (recoverMark x d.start d.crr d.ovr.isSome) c.2.2) x.seq

/-- The ended slot leaves the array, and SEQ counts on (R150). -/
def takeNumbered (n : Ch) (a : ArrId) (d : Done) (t : List Done) (s : Dev) : Dev :=
  updArr n a (fun x => { x with
    done := t, seq := (x.seq + 1) % 65536, emitted := max x.emitted (d.ord + 1), recover := if d.ovr.isSome then 2 else x.recover - 1,
    ovrE := laterE s n x d.ovrEnd }) s

/-- The counters of a take. -/
def takeCounted (n : Ch) (a : ArrId) (uncorrected : Bool) (d : Done) (s : Dev) : Dev :=
  let s := if uncorrected then bump oUncorrected [n] s else s
  let s := if d.ovr.isSome then bump oOvrCount [n, a.idx] s else s
  if d.aborted then bump oAbortCount [n, a.idx] s else s

/-- The word goes to the registers and queues of its array, and to the PEs (R158, R159). -/
def takeStored (n : Ch) (a : ArrId) (w : Word64) (pos : Nat) (d : Done) (s : Dev) : Dev :=
  peTake n 1 a w pos (peTake n 0 a w pos (streamWrite n (1 + a.idx) [w] pos (cmpTake n a d.ord w (writeLatest n a w pos d.crr s))))

/-- A DRAINING array with no slot left is OFF (Table 4.6). -/
def drainedOff (n : Ch) (a : ArrId) (s : Dev) : Dev :=
  if (arrOf s n a).st = .draining && (arrOf s n a).slots = [] && (arrOf s n a).done = [] then arrEnter n a .off s else s

theorem takeFormation_eq (n : Ch) (a : ArrId) (d : Done) (t : List Done) (s : Dev) :
    let s0 := takeWaits d s
    let c := takeCorrected s0 n a d
    takeFormation n a d t s = drainedOff n a (takeStored n a (wordOf s0 n a d) (posOf (dieRecs s0 n) d.start) d
      (takeCounted n a (c.2.1 && !c.2.2) d (takeNumbered n a d t s0))) := rfl

/-! ### What each part leaves -/

/-- Nothing of the device but objects, time and the channel, and nothing of the array: what a part of a formation leaves. -/
structure TakeStep (n : Ch) (a : ArrId) (s t : Dev) : Prop where
  only : chanOnly n s t
  now : t.now = s.now
  arr : arrOf t n a = arrOf s n a

theorem TakeStep.trans {n : Ch} {a : ArrId} {s t u : Dev} (h : TakeStep n a s t) (g : TakeStep n a t u) : TakeStep n a s u :=
  ⟨h.only.trans g.only, g.now.trans h.now, g.arr.trans h.arr⟩

theorem takeCounted_step (n : Ch) (a : ArrId) (uncorrected : Bool) (d : Done) (s : Dev) : TakeStep n a s (takeCounted n a uncorrected d s) := by
  unfold takeCounted
  constructor
  · cases uncorrected <;> cases d.ovr.isSome <;> cases d.aborted <;> simp
  · cases uncorrected <;> cases d.ovr.isSome <;> cases d.aborted <;> rfl
  · cases uncorrected <;> cases d.ovr.isSome <;> cases d.aborted <;> simp

/-- ABORT_COUNT and OVR_COUNT count the takes of their tags. -/
theorem rd_takeCounted (n : Ch) (a : ArrId) (uncorrected : Bool) (d : Done) (s : Dev) :
    rd (takeCounted n a uncorrected d s) oAbortCount [n, a.idx] =
        (if d.aborted = true then min (2 ^ 32 - 1) (rd s oAbortCount [n, a.idx] + 1) else rd s oAbortCount [n, a.idx]) ∧
      rd (takeCounted n a uncorrected d s) oOvrCount [n, a.idx] =
        (if d.ovr.isSome = true then min (2 ^ 32 - 1) (rd s oOvrCount [n, a.idx] + 1) else rd s oOvrCount [n, a.idx]) := by
  have habort : keyOf oAbortCount [n.val, a.idx] 0 ≠ keyOf oOvrCount [n.val, a.idx] 0 := keyOf_arr_ne rfl rfl (by decide) n a
  have huncAbort : keyOf oAbortCount [n.val, a.idx] 0 ≠ keyOf oUncorrected [n.val] 0 :=
    keyOf_arr_ne_chan rfl rfl (by decide) n a
  have huncOvr : keyOf oOvrCount [n.val, a.idx] 0 ≠ keyOf oUncorrected [n.val] 0 := keyOf_arr_ne_chan rfl rfl (by decide) n a
  have haborts := fun b => rd_bump_word (r := oAbortCount) rfl [n.val, a.idx] b
  have hovrs := fun b => rd_bump_word (r := oOvrCount) rfl [n.val, a.idx] b
  unfold takeCounted
  constructor
  · cases uncorrected <;> cases d.ovr.isSome <;> cases d.aborted <;> simp [rd_bump_of_ne habort, rd_bump_of_ne huncAbort, haborts]
  · cases uncorrected <;> cases d.ovr.isSome <;> cases d.aborted <;> simp [rd_bump_of_ne habort.symm, rd_bump_of_ne huncOvr, hovrs]

/-- The latest take of an array (R158). -/
def latestWord (s : Dev) (n : Ch) (a : ArrId) : Nat := match a with
  | .vm => rd s oVmLatest [n]
  | .im => rd s oImLatest [n]

/-- A write of an object of the channel leaves the counters of its arrays. -/
theorem rd_arr_wr_chan {q r : Row} (hq : q.dims = [(0x100, 24), (0x10, 2)]) (hr : r.dims = [(0x100, 24)])
    (h : ∀ i < 2, objKey q.ix q.sub 0 + 4096 * i ≠ objKey r.ix r.sub 0) (n : Ch) (a : ArrId) (v : Nat) (s : Dev) :
    rd (wr s r v [n]) q [n, a.idx] = rd s q [n, a.idx] := rd_wr_other _ _ _ _ _ _ (keyOf_arr_ne_chan hq hr h n a)

/-- The latest take and its position, written (R158). -/
def latestWritten (n : Ch) (a : ArrId) (w : Word64) (pos : Nat) (s : Dev) : Dev := match a with
  | .vm => wr (wr s oVmLatest w.toNat [n]) oVmLatestPos pos [n]
  | .im => wr (wr s oImLatest w.toNat [n]) oImLatestPos pos [n]

theorem latestWritten_step (n : Ch) (a : ArrId) (w : Word64) (pos : Nat) (s : Dev) : TakeStep n a s (latestWritten n a w pos s) := by
  cases a
  · exact ⟨by simp [latestWritten], rfl, by simp [latestWritten]⟩
  · exact ⟨by simp [latestWritten], rfl, by simp [latestWritten]⟩

theorem latestWord_latestWritten (n : Ch) (a : ArrId) (w : Word64) (pos : Nat) (s : Dev) : latestWord (latestWritten n a w pos s) n a = w.toNat := by
  cases a
  · exact (rd_wr_other _ _ _ _ _ _ (keyOf_chan_ne rfl rfl (by decide) n)).trans ((rd_wr_same ..).trans (Nat.mod_eq_of_lt w.isLt))
  · exact (rd_wr_other _ _ _ _ _ _ (keyOf_chan_ne rfl rfl (by decide) n)).trans ((rd_wr_same ..).trans (Nat.mod_eq_of_lt w.isLt))

theorem rd_latestWritten {r : Row} (hr : r.dims = [(0x100, 24), (0x10, 2)])
    (h : ∀ q ∈ [oVmLatest, oVmLatestPos, oImLatest, oImLatestPos], ∀ i < 2, objKey r.ix r.sub 0 + 4096 * i ≠ objKey q.ix q.sub 0)
    (n : Ch) (a : ArrId) (w : Word64) (pos : Nat) (s : Dev) : rd (latestWritten n a w pos s) r [n, a.idx] = rd s r [n, a.idx] := by
  cases a
  · exact (rd_arr_wr_chan hr rfl (h _ (by simp)) n .vm _ _).trans (rd_arr_wr_chan hr rfl (h _ (by simp)) n .vm _ _)
  · exact (rd_arr_wr_chan hr rfl (h _ (by simp)) n .im _ _).trans (rd_arr_wr_chan hr rfl (h _ (by simp)) n .im _ _)

/-- The latest take and its position, and within a Course its result register, are no part of the array. -/
theorem writeLatest_eq (n : Ch) (a : ArrId) (w : Word64) (pos : Nat) (crr : Option Nat) (s : Dev) :
    TakeStep n a (latestWritten n a w pos s) (writeLatest n a w pos crr s) ∧
      (writeLatest n a w pos crr s).objs = (latestWritten n a w pos s).objs := by
  cases crr with
  | none => exact ⟨⟨.refl n _, rfl, rfl⟩, rfl⟩
  | some r => exact ⟨⟨(chanOnly_updCh n _ _ _).mpr (.refl n _), rfl, arrOf_updCh rfl rfl⟩, rfl⟩

theorem peTake_step (n : Ch) (p : Fin 2) (a b : ArrId) (w : Word64) (pos : Nat) (s : Dev) :
    TakeStep n a s (peTake n p b w pos s) ∧ (peTake n p b w pos s).objs = s.objs := by
  have updated (f : Pe → Pe) : TakeStep n a s (updPe n p f s) ∧ (updPe n p f s).objs = s.objs :=
    ⟨⟨(chanOnly_updCh n _ _ _).mpr (.refl n s), rfl, arrOf_updCh rfl rfl⟩, rfl⟩
  have same : TakeStep n a s s ∧ s.objs = s.objs := ⟨⟨.refl n s, rfl, rfl⟩, rfl⟩
  unfold peTake
  exact iteInduction (motive := fun d => TakeStep n a s d ∧ d.objs = s.objs) (fun _ => same) fun _ =>
    iteInduction (motive := fun d => TakeStep n a s d ∧ d.objs = s.objs) (fun _ => updated _) fun _ =>
      iteInduction (motive := fun d => TakeStep n a s d ∧ d.objs = s.objs) (fun _ => updated _) fun _ => same

/-- Without a comparison no take is used by one. -/
theorem cmpTake_of_none {s : Dev} (h : s.ref.comparison = none) (n : Ch) (a : ArrId) (ord : Nat) (w : Word64) : cmpTake n a ord w s = s := by
  unfold cmpTake
  rw [h]

theorem cmpWatch_of_none {s : Dev} (h : s.ref.comparison = none) : cmpWatch s = s := by
  unfold cmpWatch
  rw [h]

/-- A take stored: its word is the latest one, and the counters stay. -/
theorem takeStored_effect {s : Dev} (hfree : s.ref.comparison = none) (n : Ch) (a : ArrId) (w : Word64) (pos : Nat) (d : Done) :
    let t := takeStored n a w pos d s
    TakeStep n a s t ∧ latestWord t n a = w.toNat ∧ rd t oAbortCount [n, a.idx] = rd s oAbortCount [n, a.idx] ∧
      rd t oOvrCount [n, a.idx] = rd s oOvrCount [n, a.idx] := by
  have hwritten := latestWritten_step n a w pos s
  obtain ⟨hlatest, hlatestObjs⟩ := writeLatest_eq n a w pos d.crr s
  have hsteps := hwritten.trans hlatest
  have hcmp := cmpTake_of_none (hsteps.only.ref ▸ hfree) n a d.ord w
  have hevent := streamWrite_step n (1 + a.idx) [w] pos (writeLatest n a w pos d.crr s)
  have hstream : TakeStep n a (writeLatest n a w pos d.crr s) (streamWrite n (1 + a.idx) [w] pos (writeLatest n a w pos d.crr s)) :=
    ⟨hevent.only, hevent.now, arrOf_streamWrite ..⟩
  dsimp only
  unfold takeStored
  rw [hcmp]
  generalize streamWrite n (1 + a.idx) [w] pos (writeLatest n a w pos d.crr s) = s1 at *
  obtain ⟨hpe0, hobjs0⟩ := peTake_step n 0 a a w pos s1
  obtain ⟨hpe1, hobjs1⟩ := peTake_step n 1 a a w pos (peTake n 0 a w pos s1)
  have hobjs := hobjs1.trans hobjs0
  have hkept {r : Row} {l : List Nat} (hr : keyOf r l 0 ≠ keyOf oChFault [n.val] 0) :
      rd (peTake n 1 a w pos (peTake n 0 a w pos s1)) r l = rd (latestWritten n a w pos s) r l :=
    (rd_of_objs _ _ _ _ hobjs).trans ((hevent.kept r l hr).trans (rd_of_objs _ _ _ _ hlatestObjs))
  refine ⟨hsteps.trans (hstream.trans (hpe0.trans hpe1)), ?_, ?_, ?_⟩
  · rw [← latestWord_latestWritten n a w pos s]
    cases a
    · exact hkept (keyOf_chan_ne rfl rfl (by decide) n)
    · exact hkept (keyOf_chan_ne rfl rfl (by decide) n)
  · exact (hkept (keyOf_arr_ne_chan rfl rfl (by decide) n a)).trans (rd_latestWritten rfl (by decide) n a w pos s)
  · exact (hkept (keyOf_arr_ne_chan rfl rfl (by decide) n a)).trans (rd_latestWritten rfl (by decide) n a w pos s)

end Sys2Proof.Machine
end

section
/-! SUPPORT. The word of a take bit by bit (05, Tables 5.1 and 5.2), TAKE_FORMATION as a command, and O20. -/

namespace Sys2Proof.Machine

/-! ### The word -/

theorem takeTagByte_eq (s : Dev) (n : Ch) (d : Done) (marked rec_ provisioned : Bool) : ∃ holdover supply, takeTagByte s n d marked rec_ provisioned =
    tagByte (!marked && !d.ovr.isSome && !rec_ && !d.aborted && decide (d.cfg.ref ≠ 2) && provisioned) marked d.ovr.isSome rec_ d.aborted holdover
      supply d.swap := ⟨_, _, rfl⟩

theorem takeMarked_eq (x : Arr) (d : Done) : takeMarked x d = decide (x.runFirst ≤ d.ord ∧ d.ord ≤ x.runEnd) := by
  rw [takeMarked, Bool.eq_iff_iff]
  simp only [Bool.and_eq_true, decide_eq_true_eq]
  omega

/-- The tags of a take's word are those of its slot (R152), and VALID stands with none of those that exclude it. -/
theorem wordOf_tags (s : Dev) (n : Ch) (a : ArrId) (d : Done) :
    let w := (wordOf s n a d).toNat
    bitOf w 22 = takeMarked (arrOf s n a) d ∧ bitOf w 21 = d.ovr.isSome ∧ bitOf w 19 = d.aborted ∧ bitOf w 16 = d.swap ∧
      (bitOf w 23 = true → bitOf w 22 = false ∧ bitOf w 21 = false ∧ bitOf w 20 = false ∧ bitOf w 19 = false ∧ d.cfg.ref ≠ 2) := by
  unfold wordOf
  dsimp only
  obtain ⟨holdover, supply, htags⟩ := takeTagByte_eq s n d (takeMarked (arrOf s n a) d)
    (recoverMark (arrOf s n a) d.start d.crr d.ovr.isSome) (takeCorrected s n a d).2.2
  have hbit {i : Nat} (hi : i < 8) := bitOf_takeWord (takeCorrected s n a d).1 (takeTagByte s n d (takeMarked (arrOf s n a) d)
    (recoverMark (arrOf s n a) d.start d.crr d.ovr.isSome) (takeCorrected s n a d).2.2) (arrOf s n a).seq hi
  generalize takeWord _ _ _ = w at *
  rw [htags] at hbit
  generalize recoverMark (arrOf s n a) d.start d.crr d.ovr.isSome = rec_ at *
  generalize takeMarked (arrOf s n a) d = marked at *
  obtain ⟨h7, h6, h5, h4, h3, h0⟩ := bitOf_tagByte
    (!marked && !d.ovr.isSome && !rec_ && !d.aborted && decide (d.cfg.ref ≠ 2) && (takeCorrected s n a d).2.2) marked d.ovr.isSome rec_ d.aborted
    holdover supply d.swap
  have b7 : bitOf w.toNat 23 = _ := (hbit (i := 7) (by decide)).trans h7
  have b6 : bitOf w.toNat 22 = marked := (hbit (i := 6) (by decide)).trans h6
  have b5 : bitOf w.toNat 21 = d.ovr.isSome := (hbit (i := 5) (by decide)).trans h5
  have b4 : bitOf w.toNat 20 = rec_ := (hbit (i := 4) (by decide)).trans h4
  have b3 : bitOf w.toNat 19 = d.aborted := (hbit (i := 3) (by decide)).trans h3
  have b0 : bitOf w.toNat 16 = d.swap := (hbit (i := 0) (by decide)).trans h0
  refine ⟨b6, b5, b3, b0, fun hvalid => ?_⟩
  rw [b7] at hvalid
  simp only [Bool.and_eq_true, Bool.not_eq_true', decide_eq_true_eq] at hvalid
  obtain ⟨⟨⟨⟨⟨hmarked, hovr⟩, hrec⟩, haborted⟩, href⟩, -⟩ := hvalid
  exact ⟨b6.trans hmarked, b5.trans hovr, b4.trans hrec, b3.trans haborted, href⟩

/-- An ABORTED or overranged take keeps its slot's value, uncorrected (R137, R156). -/
theorem wordOf_value {s : Dev} {n : Ch} {a : ArrId} {d : Done} (h : d.aborted = true ∨ d.ovr.isSome = true) (hlo : -(2 ^ 39) ≤ d.value)
    (hhi : d.value < 2 ^ 39) : toSigned 40 ((wordOf s n a d).toNat / 2 ^ 24) = d.value := by
  have hplain : (!d.aborted && d.ovr.isNone) = false := by
    obtain haborted | hovr := h
    · simp [haborted]
    · obtain ⟨p, hp⟩ := Option.isSome_iff_exists.mp hovr
      simp [hp]
  have hvalue : (takeCorrected s n a d).1 = d.value := by
    unfold takeCorrected
    rw [hplain]
    rfl
  unfold wordOf
  dsimp only
  rw [hvalue]
  exact takeWord_value _ _ hlo hhi

/-! ### The formation as a whole -/

theorem takeWaits_step (n : Ch) (a : ArrId) (d : Done) (s : Dev) : chanOnly n s (takeWaits d s) ∧ arrOf (takeWaits d s) n a = arrOf s n a ∧
    (takeWaits d s).objs = s.objs ∧ (d.aborted = false → (takeWaits d s).now = max s.now ((d.stop + 255) / 256 + 369)) := by
  unfold takeWaits
  cases d.aborted
  · exact ⟨by simp, by simp, rfl, fun _ => rfl⟩
  · exact ⟨.refl n s, rfl, rfl, fun h => Bool.noConfusion h⟩

theorem drainedOff_step (n : Ch) (a : ArrId) (s : Dev) : ((arrOf s n a).st ≠ .draining → drainedOff n a s = s) ∧
    ∃ b, RoleStep n a (updArr n a (fun x => { x with st := b }) s) (drainedOff n a s) := by
  unfold drainedOff
  constructor
  · intro h
    simp [h]
  · by_cases hdrained : ((arrOf s n a).st = .draining && (arrOf s n a).slots = [] && (arrOf s n a).done = []) = true
    · rw [if_pos hdrained]
      exact ⟨.off, arrEnter_step n a .off s⟩
    · rw [if_neg hdrained]
      refine ⟨(arrOf s n a).st, ?_⟩
      rw [updArr_eq_self rfl]
      exact .refl n a s

theorem arrOf_takeNumbered (n : Ch) (a : ArrId) (q : Done) (t : List Done) (s : Dev) :
    let x := arrOf (takeNumbered n a q t s) n a
    x.st = (arrOf s n a).st ∧ x.done = t ∧ x.slots = (arrOf s n a).slots ∧ x.seq = ((arrOf s n a).seq + 1) % 65536 := by
  simp [takeNumbered]

/-- What the formation of a take leaves: its word, SEQ, the counters, and the array without the ended slot. -/
theorem takeFormation_effect {e : Dev} (hfree : e.ref.comparison = none) (n : Ch) (a : ArrId) (q : Done) (t : List Done) :
    let z := arrOf e n a
    let d := takeFormation n a q t e
    (z.st ≠ .draining → chanOnly n e d) ∧ (∀ m : Ch, m ≠ n → d.ch m = e.ch m) ∧ d.ref = e.ref ∧ (arrOf d n a).done = t ∧
      (arrOf d n a).slots = z.slots ∧ (arrOf d n a).seq = (z.seq + 1) % 65536 ∧ (q.aborted = false → d.now = max e.now ((q.stop + 255) / 256 + 369)) ∧
      (∃ s, arrOf s n a = z ∧ latestWord d n a = (wordOf s n a q).toNat) ∧
      rd d oAbortCount [n, a.idx] = (if q.aborted = true then min (2 ^ 32 - 1) (rd e oAbortCount [n, a.idx] + 1) else rd e oAbortCount [n, a.idx]) ∧
      rd d oOvrCount [n, a.idx] = (if q.ovr.isSome = true then min (2 ^ 32 - 1) (rd e oOvrCount [n, a.idx] + 1) else rd e oOvrCount [n, a.idx]) := by
  dsimp only
  rw [takeFormation_eq]
  obtain ⟨wonly, warr, wobjs, wnow⟩ := takeWaits_step n a q e
  generalize takeWaits q e = s0 at *
  have honly : chanOnly n e (takeNumbered n a q t s0) := wonly.trans (by simp [takeNumbered])
  generalize hs1 : takeNumbered n a q t s0 = s1 at *
  obtain ⟨hst1, hended1, hslots1, hseq1⟩ := hs1 ▸ arrOf_takeNumbered n a q t s0
  have hrd (r : Row) (l : List Nat) : rd s1 r l = rd e r l := (rd_of_objs _ s0 _ _ (by rw [← hs1]; rfl)).trans (rd_of_objs _ _ _ _ wobjs)
  have hnow : s1.now = s0.now := hs1 ▸ rfl
  have hcounted := takeCounted_step n a ((takeCorrected s0 n a q).2.1 && !(takeCorrected s0 n a q).2.2) q s1
  obtain ⟨habort, hovr⟩ := rd_takeCounted n a ((takeCorrected s0 n a q).2.1 && !(takeCorrected s0 n a q).2.2) q s1
  generalize takeCounted n a _ q s1 = s2 at *
  obtain ⟨hstored, hword, habort', hovr'⟩ := takeStored_effect (s := s2) ((honly.trans hcounted.only).ref ▸ hfree) n a (wordOf s0 n a q)
    (posOf (dieRecs s0 n) q.start) q
  generalize takeStored n a (wordOf s0 n a q) _ q s2 = s3 at *
  have hsteps := honly.trans (hcounted.only.trans hstored.only)
  have harr3 := hstored.arr.trans hcounted.arr
  obtain ⟨hstays, b, hoff⟩ := drainedOff_step n a s3
  have hkept {r : Row} (hr : keyOf r [n.val] 0 ≠ keyOf oChFault [n.val] 0) : rd (drainedOff n a s3) r [n.val] = rd s3 r [n.val] := hoff.kept r _ hr
  have hkeptArr {r : Row} (hr : keyOf r [n.val, a.idx] 0 ≠ keyOf oChFault [n.val] 0) :
      rd (drainedOff n a s3) r [n.val, a.idx] = rd s3 r [n.val, a.idx] := hoff.kept r _ hr
  refine ⟨fun hst => ?_, fun m hm => ?_, ?_, ?_, ?_, ?_, fun hwait => ?_, ⟨s0, warr, ?_⟩, ?_, ?_⟩
  · rw [hstays (by rw [harr3, hst1, warr]; exact hst)]
    exact hsteps
  · rw [hoff.ch_of_ne hm, updArr_ch_of_ne a _ s3 hm, hsteps.ch_of_ne hm]
  · rw [hoff.ref, updArr_ref, hsteps.ref]
  · rw [hoff.ended, arrOf_updArr, harr3, hended1]
  · rw [hoff.slots, arrOf_updArr, harr3, hslots1, warr]
  · rw [hoff.seq, arrOf_updArr, harr3, hseq1, warr]
  · rw [hoff.now, updArr_now, hstored.now, hcounted.now, hnow, wnow hwait]
  · rw [← hword]
    cases a
    · exact hkept (keyOf_chan_ne rfl rfl (by decide) n)
    · exact hkept (keyOf_chan_ne rfl rfl (by decide) n)
  · rw [hkeptArr (keyOf_arr_ne_chan rfl rfl (by decide) n a), habort', habort, hrd]
  · rw [hkeptArr (keyOf_arr_ne_chan rfl rfl (by decide) n a), hovr', hovr, hrd]

/-! ### The command -/

theorem takeReady_of_oldest {x : Arr} {q : Done} {t : List Done} (h : x.done = q :: t) (hy : ∀ y ∈ x.slots, q.ord ≤ y.ord) : takeReady x = some q := by
  unfold takeReady
  rw [h]
  exact if_neg (by simpa using hy)

theorem takeReady_of_waiting {x : Arr} {q : Done} {t : List Done} (h : x.done = q :: t) (hy : ∃ y ∈ x.slots, y.ord < q.ord) : takeReady x = none := by
  unfold takeReady
  rw [h]
  exact if_pos (by simpa using hy)

theorem takeFormation_waits {s : State} {n : Ch} {a : ArrId} (hlive : Live s) (h : takeReady (arrOf s.dev n a) = none) :
    Completes (.takeFormation n a) s s.dev := completes_of_onDev rfl hlive (by simp [takeTick, h])

/-- A take is formed after what R51 puts before its tick. -/
theorem takeFormation_completes {s : State} {n : Ch} {a : ArrId} {q₀ q : Done} {t : List Done} {e : Dev} (hlive : Live s)
    (h : takeReady (arrOf s.dev n a) = some q₀)
    (he : e = settleDue s.nv ⟨max s.dev.now (if q₀.aborted = true then s.dev.now else (q₀.stop + 255) / 256 + 369), 3, 0⟩ [n] s.dev)
    (hready : takeReady (arrOf e n a) = some q) (hdone : (arrOf e n a).done = q :: t) :
    Completes (.takeFormation n a) s (cmpWatch (takeFormation n a q t e)) := by
  subst he
  refine completes_of_onDev rfl hlive ?_
  simp [takeTick, h, formTake, hready, hdone]

/-- Settles O20: the end of an aperture by whether its slice began the slot; TAKE_FORMATION by whether a take is ready. -/
theorem aperturesAndTakes : Obligations.AperturesAndTakes := by
  intro s n a hlive x
  refine ⟨fun y t e c hslots hend hidle => ?_, fun y t e c hslots hend hidle => ?_, fun q t hdone hwait => ?_, fun hdone => ?_,
    fun q₀ t₀ e hdone₀ hfirst he => ?_⟩
  · refine ⟨_, apertureEnd_of_idle c hlive hslots hend hidle, by simp, rfl, rfl, by simp, by simp [x], abortedDone n a y e, by simp [x], rfl, rfl, rfl, ?_⟩
    simp [abortedDone, abortSeen, hidle]
  · refine ⟨_, apertureEnd_of_converted c hlive hslots hend hidle, by simp, rfl, rfl, by simp, by simp, convertedDone y e c, by simp [x], rfl, rfl, rfl, rfl,
      convertedDone_of_plain, fun p oe => convertedDone_of_overrange⟩
  · exact takeFormation_waits hlive (takeReady_of_waiting hdone hwait)
  · exact takeFormation_waits hlive (by rw [show arrOf s.dev n a = x from rfl, takeReady, hdone])
  · intro z q t hdone hready hfree hseq
    have hdone' := takeFormation_completes hlive (takeReady_of_oldest hdone₀ hfirst) he (takeReady_of_oldest hdone hready) hdone
    obtain ⟨honly, hothers, href, hended, hslots, hnumber, hnow, ⟨s₀, harr, hword⟩, habort, hovr⟩ := takeFormation_effect hfree n a q t
    rw [cmpWatch_of_none (href ▸ hfree)] at hdone'
    refine ⟨_, hdone', honly, hothers, hended, hslots, hnumber, hnow, ?_, habort, hovr⟩
    obtain ⟨hmarked, hover, haborted, hswap, hvalid⟩ := wordOf_tags s₀ n a q
    have hlow : (wordOf s₀ n a q).toNat % 65536 = (arrOf s₀ n a).seq % 65536 := takeWord_mod ..
    have hvalue := wordOf_value (s := s₀) (n := n) (a := a) (d := q)
    rw [takeMarked_eq] at hmarked
    rw [← hword] at *
    rw [harr] at hlow hmarked
    exact ⟨hlow.trans (Nat.mod_eq_of_lt hseq), hmarked, hover, haborted, hswap, hvalid, hvalue⟩

end Sys2Proof.Machine
end

section
/-! SUPPORT. The role of a slot (04, R130 to R133) as its start settles it, and the entry to RUNNING (Table 4.6). -/

namespace Sys2Proof.Machine

/-! ### Roles of a list -/

theorem length_listSet {α : Type} (l : List α) (i : Nat) (v : α) : (listSet l i v).length = l.length := by
  induction l generalizing i with
  | nil => rfl
  | cons x t ih => cases i with
    | zero => rfl
    | succ i => exact congrArg Nat.succ (ih i)

theorem getD_listSet {α : Type} {l : List α} {i : Nat} (h : i < l.length) (v d : α) : (listSet l i v).getD i d = v := by
  induction l generalizing i with
  | nil => exact absurd h (Nat.not_lt_zero i)
  | cons x t ih => cases i with
    | zero => rfl
    | succ i => exact ih (Nat.lt_of_succ_lt_succ h)

/-- A role is empty only where there is one. -/
theorem lt_length_of_getD_none {α : Type} {l : List (Option α)} {i : Nat} {v : α} (h : l.getD i (some v) = none) : i < l.length := by
  by_contra hge
  rw [List.getD_eq_default l _ (Nat.le_of_not_lt hge)] at h
  cases h

/-! ### Arbiters and arrays -/

@[simp] theorem arrOf_updUnit (x : Shared) (s : Dev) (n : Ch) (a : ArrId) : arrOf (updUnit x s) n a = arrOf s n a := by cases a <;> rfl

@[simp] theorem arrOf_rehint (u : Nat) (s : Dev) (n : Ch) (a : ArrId) : arrOf (rehint u s) n a = arrOf s n a := arrOf_updUnit ..

@[simp] theorem arrOf_unitRelease (id u : Nat) (s : Dev) (n : Ch) (a : ArrId) : arrOf (unitRelease id u s) n a = arrOf s n a := by
  unfold unitRelease
  exact iteInduction (motive := fun d => arrOf d n a = arrOf s n a) (fun _ => by simp) fun _ => rfl

@[simp] theorem arrOf_unitWithdraw (id u : Nat) (s : Dev) (n : Ch) (a : ArrId) : arrOf (unitWithdraw id u s) n a = arrOf s n a := by
  unfold unitWithdraw
  exact iteInduction (motive := fun d => arrOf d n a = arrOf s n a) (fun _ => by simp) fun _ => rfl

@[simp] theorem arrOf_rotationCancel (n : Ch) (a : ArrId) (s : Dev) : arrOf (rotationCancel n a s) n a = { arrOf s n a with rotRole := none } := by
  simp [rotationCancel]

@[simp] theorem arrOf_showMap (n : Ch) (a : ArrId) (s : Dev) :
    arrOf (showMap n a s) n a = { arrOf s n a with shown := ((arrOf s n a).roles, (arrOf s n a).spare) } := arrOf_updArr ..

/-! ### What a slot start finds in its role -/

theorem dropRoleAt_of_clear {s : Dev} {n : Ch} {a : ArrId} (h : (arrOf s n a).dropRole = false) : dropRoleAt n a s = s := by
  unfold dropRoleAt
  dsimp only
  rw [h]
  rfl

/-- Without a rotation that waits no slice leaves its role (R130). -/
theorem rotateAt_of_none {s : Dev} {n : Ch} {a : ArrId} (h : (arrOf s n a).rotRole = none) (role : Nat) : rotateAt n a role s = s := by
  unfold rotateAt
  dsimp only
  rw [h]

/-- A role that has its slice, and an empty one without an idle spare, stay as they are (R132, R133). -/
theorem fillRole_eq_self {s : Dev} {n : Ch} {a : ArrId} {role : Nat}
    (h : (arrOf s n a).roles.getD role (some 0) ≠ none ∨ ∀ sp, (arrOf s n a).spare = some sp → ((arrOf s n a).slices[sp]).st ≠ .spareIdle) :
    fillRole n a role s = s := by
  unfold fillRole
  dsimp only
  split
  · next sp hspare hempty => exact if_neg (h.resolve_left (not_not.mpr hempty) sp hspare)
  · rfl

/-- An array whose spare has entered the service of a role. -/
def Arr.filled (x : Arr) (role : Nat) (sp : Fin 7) (stale : Bool) : Arr := { x with
  roles := listSet x.roles role (some sp), spare := none, slices := x.slices.set sp { x.slices[sp] with st := .active, fresh := true }, rotRole := none,
  calStale := stale }

/-- An idle spare fills an empty role (R132, R133). -/
theorem arrOf_fillRole {s : Dev} {n : Ch} {a : ArrId} {role : Nat} {sp : Fin 7} (hempty : (arrOf s n a).roles.getD role (some 0) = none)
    (hspare : (arrOf s n a).spare = some sp) (hidle : ((arrOf s n a).slices[sp]).st = .spareIdle) :
    ∃ stale, arrOf (fillRole n a role s) n a = (arrOf s n a).filled role sp stale := by
  unfold fillRole
  simp only [hempty, hspare, hidle, if_true, staleCheck, arrOf_updArr, arrOf_rotationCancel, arrOf_chEvent, arrOf_updSlice]
  exact ⟨_, rfl⟩

/-- A spare in service is none any more (R132). -/
theorem noSpare_filled {x : Arr} {role : Nat} {sp : Fin 7} {stale : Bool}
    (h : ∀ i, i ≠ sp → (x.slices[i]).st ≠ .spareIdle ∧ (x.slices[i]).st ≠ .verify ∧ (x.slices[i]).st ≠ .calibrating) :
    noSpare (x.filled role sp stale) = true := by
  have hleft : ∀ i : Fin 7, ((x.filled role sp stale).slices[i]).st ≠ .spareIdle ∧ ((x.filled role sp stale).slices[i]).st ≠ .verify ∧
      ((x.filled role sp stale).slices[i]).st ≠ .calibrating := by
    intro i
    by_cases hi : i = sp
    · simp [Arr.filled, hi]
    · have hval : sp.val ≠ i.val := fun e => hi (Fin.ext e.symm)
      simpa [Arr.filled, Vector.getElem_set_ne, hval] using h i hi
  unfold noSpare
  rw [Bool.not_eq_true', List.any_eq_false]
  intro z hz
  obtain ⟨i, hi, rfl⟩ := Vector.mem_iff_getElem.mp (Vector.mem_toList_iff.mp hz)
  simpa [and_assoc] using hleft ⟨i, hi⟩

/-- The role of a slot as its start settles it: an idle spare fills it, and a role that stays empty may be lost (R132). -/
def slotRole (n : Ch) (a : ArrId) (role : Nat) (s : Dev) : Dev :=
  let t := fillRole n a role s
  showMap n a (if (arrOf t n a).roles.contains none then roleLost n a t else t)

/-- While a slice is left that is or becomes the spare, an empty role waits for it (R132). -/
theorem roleLost_of_spare {s : Dev} {n : Ch} {a : ArrId} (h : noSpare (arrOf s n a) = false) : roleLost n a s = s := by
  unfold roleLost
  simp [h]

theorem slotRole_of_kept {s : Dev} {n : Ch} {a : ArrId} {role : Nat} (hrole : fillRole n a role s = s)
    (hspare : none ∉ (arrOf s n a).roles ∨ noSpare (arrOf s n a) = false) : slotRole n a role s = showMap n a s := by
  unfold slotRole
  dsimp only
  rw [hrole]
  congr 1
  split
  · next hempty => exact roleLost_of_spare (hspare.resolve_left (not_not.mpr (by simpa using hempty)))
  · rfl

theorem slotRole_of_filled {s : Dev} {n : Ch} {a : ArrId} {role : Nat} (h : none ∉ (arrOf (fillRole n a role s) n a).roles) :
    slotRole n a role s = showMap n a (fillRole n a role s) := by
  unfold slotRole
  dsimp only
  rw [if_neg (by simpa using h)]

/-- Interleave drops the role at the next slot boundary (R132). -/
theorem roleLost_of_interleave {s : Dev} {n : Ch} {a : ArrId} (hspare : noSpare (arrOf s n a) = true)
    (hst : (arrOf s n a).st = .starting ∨ (arrOf s n a).st = .running) (hmode : (arrOf s n a).mode = 0) :
    roleLost n a s = updArr n a (fun x => { x with dropRole := true }) (rotationCancel n a s) := by
  unfold roleLost
  rcases hst with hst | hst <;> simp [hspare, hst, hmode]

/-- Pipeline enters FAULT (R132). -/
theorem roleLost_of_pipeline {s : Dev} {n : Ch} {a : ArrId} (hspare : noSpare (arrOf s n a) = true)
    (hst : (arrOf s n a).st = .starting ∨ (arrOf s n a).st = .running) (hmode : (arrOf s n a).mode ≠ 0) :
    roleLost n a s = arrFail n a (rotationCancel n a s) := by
  unfold roleLost
  rcases hst with hst | hst <;> simp [hspare, hst, hmode]

/-! ### FAULT -/

theorem freeSlices_step (n : Ch) (a : ArrId) (s : Dev) : RoleStep n a s (freeSlices n a s) := by
  unfold freeSlices
  generalize (arrOf s n a).slots.filter (fun y => !y.idle) = l
  induction l generalizing s with
  | nil => exact .refl n a s
  | cons y t ih => exact (RoleStep.updSlice ..).trans (ih _)

/-- An array in FAULT has no slot in progress (Table 4.6). -/
theorem arrFail_effect (n : Ch) (a : ArrId) (s : Dev) : (arrOf (arrFail n a s) n a).st = .fault ∧ (arrOf (arrFail n a s) n a).slots = [] ∧
    (arrFail n a s).ref = s.ref := by
  have hentered := arrEnter_step n a .fault (abortSlots n a (freeSlices n a s))
  unfold arrFail
  refine ⟨?_, ?_, ?_⟩
  · rw [hentered.st, arrOf_updArr]
  · rw [hentered.slots, arrOf_updArr, abortSlots, arrOf_updArr]
  · rw [hentered.ref, updArr_ref, abortSlots, updArr_ref, (freeSlices_step n a s).ref]

/-! ### RUNNING -/

theorem idleRoles_of_running {s : Dev} {n : Ch} {a : ArrId} (h : (arrOf s n a).st = .running) : idleRoles n a s = s := by
  unfold idleRoles
  simp [h]

/-- The entry to RUNNING changes the state of the array and writes its event (Table 5.6). -/
theorem arrEnter_running (n : Ch) (a : ArrId) (s : Dev) : chanOnly n s (arrEnter n a .running s) ∧ (arrEnter n a .running s).now = s.now ∧
    arrOf (arrEnter n a .running s) n a = { arrOf s n a with st := .running } := by
  unfold arrEnter
  by_cases h : (arrOf s n a).st = .running
  · rw [if_pos h]
    exact ⟨.refl n s, rfl, by rw [← h]⟩
  · rw [if_neg h]
    dsimp only
    rw [if_neg (by decide), idleRoles_of_running (by simp)]
    exact ⟨by simp, by simp, by simp⟩

end Sys2Proof.Machine
end

section
/-! SUPPORT. Slots as they begin, or are emitted ABORTED (04, R117 to R122, R124, R141). -/

namespace Sys2Proof.Machine

theorem updArr_updArr (n : Ch) (a : ArrId) (f g : Arr → Arr) (s : Dev) : updArr n a f (updArr n a g s) = updArr n a (fun x => f (g x)) s := by
  cases a
  · exact updCh_updCh ..
  · exact updCh_updCh ..

/-! ### Restarts already known -/

theorem restartTick_congr {s t : Dev} {n : Ch} {a : ArrId} (hdies : t.dies = s.dies) (hports : t.ports = s.ports) (hseq : (t.ch n).seq = (s.ch n).seq)
    (hmcfg : (t.ch n).mcfg = (s.ch n).mcfg) (hsrc : (t.ch n).src = (s.ch n).src)
    (hrows : ∀ r ∈ [oArrMode, oAperture, oSched], rd t r [n, a.idx] = rd s r [n, a.idx])
    (hslots : ∀ r ∈ [oSrcRateNum, oSrcRateDen, oSrcStart], rd t r [n] = rd s r [n]) : restartTick t n a = restartTick s n a := by
  simp only [List.mem_cons, List.not_mem_nil, or_false, forall_eq_or_imp, forall_eq] at hrows hslots
  obtain ⟨hmode, haperture, hsched⟩ := hrows
  obtain ⟨hnum, hden, hstart⟩ := hslots
  simp only [restartTick, mcfgHalf, slotPos, List.any_cons, List.any_nil, hdies, hports, hseq, hmcfg, hsrc, hmode, haperture, hsched, hnum, hden, hstart]
  rfl

@[simp] theorem besideArr_seq (a : ArrId) (c : Chan) : (c.besideArr a).seq = c.seq := by cases a <;> rfl
@[simp] theorem besideArr_mcfg (a : ArrId) (c : Chan) : (c.besideArr a).mcfg = c.mcfg := by cases a <;> rfl
@[simp] theorem besideArr_src (a : ArrId) (c : Chan) : (c.besideArr a).src = c.src := by cases a <;> rfl

/-- Slices that change places tell an array of no restart. -/
theorem RoleStep.restartTick {n : Ch} {a : ArrId} {s t : Dev} (h : RoleStep n a s t) :
    Machine.restartTick t n a = Machine.restartTick s n a := by
  have hseq : (t.ch n).seq = (s.ch n).seq := by simpa using congrArg Chan.seq h.beside
  have hmcfg : (t.ch n).mcfg = (s.ch n).mcfg := by simpa using congrArg Chan.mcfg h.beside
  have hsrc : (t.ch n).src = (s.ch n).src := by simpa using congrArg Chan.src h.beside
  refine restartTick_congr h.dies h.ports hseq hmcfg hsrc (fun r hr => h.kept _ _ ?_) fun r hr => h.kept _ _ ?_
  · simp only [List.mem_cons, List.not_mem_nil, or_false] at hr
    obtain rfl | rfl | rfl := hr
    · exact keyOf_arr_ne_chan rfl rfl (by decide) n a
    · exact keyOf_arr_ne_chan rfl rfl (by decide) n a
    · exact keyOf_arr_ne_chan rfl rfl (by decide) n a
  · simp only [List.mem_cons, List.not_mem_nil, or_false] at hr
    obtain rfl | rfl | rfl := hr
    · exact keyOf_chan_ne rfl rfl (by decide) n
    · exact keyOf_chan_ne rfl rfl (by decide) n
    · exact keyOf_chan_ne rfl rfl (by decide) n

theorem restartTick_updArr (n : Ch) (a : ArrId) (f : Arr → Arr) (s : Dev) : restartTick (updArr n a f s) n a = restartTick s n a := by
  refine restartTick_congr rfl rfl ?_ ?_ ?_ (fun _ _ => rfl) fun _ _ => rfl
  · cases a <;> simp [updArr, updCh_ch_self]
  · cases a <;> simp [updArr, updCh_ch_self]
  · cases a <;> simp [updArr, updCh_ch_self]

/-! ### A slot of the sequence -/

/-- The least aperture of an array in ticks (R121, R122). -/
def leastTicks (x : Arr) : Nat :=
  if x.mode = 0 then max 246 ((532 + (x.roles.length - 1) - 1) / (max 1 (x.roles.length - 1))) else 3192

/-- The stamp at which slot k of an array ends. -/
def slotStop (s : Dev) (n : Ch) (a : ArrId) (k : Nat) : Nat := actStamp s.dies[n.die] (stampNear (dieRecs s n) (slotEnd (arrOf s n a) k))

/-- The register of the Course a slot belongs to. -/
def slotCourse (s : Dev) (n : Ch) (a : ArrId) : Option Nat := if rd s oSched [n, a.idx] = 1 then (s.ch n).seq.crr else none

/-- The end of a slot that its slice does not convert (R122, R132, R141). -/
def unservedDone (s : Dev) (n : Ch) (a : ArrId) (k st : Nat) : Done :=
  ⟨(arrOf s n a).ord, st, slotStop s n a k, 0, true, none, none, false, arrCfg s n a, slotCourse s n a⟩

/-- An array whose slot k has ended unserved. -/
def Arr.unserved (x : Arr) (k : Nat) (q : Done) : Arr := { x with nextK := k + 1, ord := x.ord + 1, done := doneInsert q x.done }

/-- The role of slot k (R119). -/
def roleOf (x : Arr) (k : Nat) : Nat := k % (max 1 x.roles.length)

/-- A restart already known falls inside slot k (R124). -/
def cutShort (s : Dev) (n : Ch) (a : ArrId) (k : Nat) : Bool := (restartTick s n a).any fun t => t * 256 < slotStop s n a k

theorem cutShort_iff {s : Dev} {n : Ch} {a : ArrId} {k : Nat} :
    cutShort s n a k = true ↔ ∃ t, restartTick s n a = some t ∧ t * 256 < slotStop s n a k := by
  simp [cutShort, Option.any_eq_true]

section
variable {s : Dev} {n : Ch} {a : ArrId} {k st : Nat}

/-- A slot shorter than the least aperture is counted (R122). -/
theorem beginSlot_of_short (h : slotStop s n a k - st < leastTicks (arrOf s n a) * 256) :
    beginSlot n a k st s = bump oShortApertures [n, a.idx] (updArr n a (fun x => x.unserved k (unservedDone s n a k st)) s) := by
  unfold beginSlot
  exact (if_pos h).trans (congrArg _ (updArr_updArr ..))

/-- A slot whose role stays empty is not converted (R132). -/
theorem beginSlot_of_empty (hlen : leastTicks (arrOf s n a) * 256 ≤ slotStop s n a k - st)
    (hrole : (arrOf s n a).roles.getD (roleOf (arrOf s n a) k) none = none) :
    beginSlot n a k st s = updArr n a (fun x => x.unserved k (unservedDone s n a k st)) s := by
  unfold beginSlot
  refine (if_neg (Nat.not_lt.mpr hlen)).trans ?_
  unfold roleOf at hrole
  rw [hrole]
  exact updArr_updArr ..

/-- A slot whose slice an urgent conversion holds is not converted (R141). -/
theorem beginSlot_of_urgent {i : Fin 7} (hlen : leastTicks (arrOf s n a) * 256 ≤ slotStop s n a k - st)
    (hrole : (arrOf s n a).roles.getD (roleOf (arrOf s n a) k) none = some i) (hheld : urgentHolds (arrOf s n a) i ((st + 255) / 256) = true) :
    beginSlot n a k st s = updArr n a (fun x => x.unserved k (unservedDone s n a k st)) s := by
  unfold beginSlot
  refine (if_neg (Nat.not_lt.mpr hlen)).trans ?_
  unfold roleOf at hrole
  rw [hrole]
  exact (if_pos hheld).trans (updArr_updArr ..)

/-- An array that has begun slot k, the slots before it `l`. -/
def Arr.begun (x : Arr) (k : Nat) (l : List Slot) (y : Slot) (slices : Vector Slice 7) : Arr :=
  { x with nextK := k + 1, ord := x.ord + 1, slots := l ++ [y], slices := slices }

/-- The slice has not yet recovered when the slot starts, and no gap fill stands in for it (R120, R124). -/
def slotLate (s : Dev) (n : Ch) (a : ArrId) (k st : Nat) (i : Fin 7) : Bool :=
  let x := arrOf s n a
  let free := (x.slices[i]).freeAt
  free ≠ 0 && (decide (st < stampNear (dieRecs s n) x.p0 + 532 * 256) || (donorOf x k).isNone) && (st + 255) / 256 < free + 532

/-- The slot whose slice fills the gap of slot k (R120). -/
def slotDonor (s : Dev) (n : Ch) (a : ArrId) (k st : Nat) (i : Fin 7) : Option Slot := if slotLate s n a k st i then none else donorOf (arrOf s n a) k

/-- Slot k as slice i takes it on. -/
def takenSlot (s : Dev) (n : Ch) (a : ArrId) (k st : Nat) (i : Fin 7) : Slot :=
  let x := arrOf s n a
  let z := x.slices[i]
  let donor := slotDonor s n a k st i
  let idle := cutShort s n a k
  { k := k, ord := x.ord, startPos := slotStart x k, endPos := slotEnd x k, start := st, role := roleOf x k, slice := i, trim := (z.offset, z.gain)
    conv := if slotLate s n a k st i then clockEdge (z.freeAt + 532) * 256 else st
    donor := donor.map Slot.slice
    donorTrim := match donor with
      | some d => (x.slices[d.slice].offset, x.slices[d.slice].gain)
      | none => (0, 0)
    fresh := z.fresh && !idle
    swap := !idle && (z.fresh || match donor with
      | some d => d.fresh && !d.gave
      | none => false)
    fired := false, idle := idle, gave := false, cfg := arrCfg s n a, crr := slotCourse s n a }

/-- The slots in progress, the donor of slot k marked (R130). -/
def slotsBefore (s : Dev) (n : Ch) (a : ArrId) (k st : Nat) (i : Fin 7) : List Slot :=
  (arrOf s n a).slots.map fun y => { y with gave := y.gave || (!cutShort s n a k && (slotDonor s n a k st i).any fun d => d.ord == y.ord) }

/-- The slices of the array: the one that has begun a slot is no longer fresh (R130). -/
def slicesAfter (s : Dev) (n : Ch) (a : ArrId) (k : Nat) (i : Fin 7) : Vector Slice 7 :=
  let v := (arrOf s n a).slices
  if cutShort s n a k then v else v.set i { v[i] with fresh := false }

/-- A slot begins on the slice of its role (R119). -/
theorem beginSlot_of_free {i : Fin 7} (hlen : leastTicks (arrOf s n a) * 256 ≤ slotStop s n a k - st)
    (hrole : (arrOf s n a).roles.getD (roleOf (arrOf s n a) k) none = some i) (hfree : urgentHolds (arrOf s n a) i ((st + 255) / 256) = false) :
    beginSlot n a k st s =
      updArr n a (fun x => x.begun k (slotsBefore s n a k st i) (takenSlot s n a k st i) (slicesAfter s n a k i)) s := by
  have hheld : ¬ urgentHolds (arrOf s n a) i ((st + 255) / 256) = true := by simp [hfree]
  unfold roleOf at hrole
  unfold beginSlot
  refine (if_neg (Nat.not_lt.mpr hlen)).trans ?_
  rw [hrole]
  refine (if_neg hheld).trans ?_
  rw [restartTick_updArr]
  by_cases hidle : cutShort s n a k = true
  · refine (if_pos hidle).trans ((updArr_updArr ..).trans (updArr_congr ?_))
    rw [slicesAfter, if_pos hidle]
    rfl
  · refine (if_neg hidle).trans ((congrArg (updSlice n a i _) (updArr_updArr ..)).trans ((updArr_updArr ..).trans (updArr_congr ?_)))
    rw [slicesAfter, if_neg hidle]
    rfl

theorem slotsBefore_ord (i : Fin 7) : (slotsBefore s n a k st i).map Slot.ord = (arrOf s n a).slots.map Slot.ord := by
  simp [slotsBefore, Function.comp_def]

/-- A slot of Interleave takes no gap fill (R120). -/
theorem slotDonor_interleave (h : (arrOf s n a).mode = 0) (i : Fin 7) : slotDonor s n a k st i = none := by
  simp [slotDonor, donorOf, h]

theorem slotsBefore_interleave (h : (arrOf s n a).mode = 0) (i : Fin 7) : slotsBefore s n a k st i = (arrOf s n a).slots := by
  simp [slotsBefore, slotDonor_interleave h]

theorem takenSlot_donor (h : (arrOf s n a).mode = 0) (i : Fin 7) : (takenSlot s n a k st i).donor = none := by
  simp [takenSlot, slotDonor_interleave h]

/-- A slice that has had no aperture yet converts from the start of the slot. -/
theorem takenSlot_conv {i : Fin 7} (h : ((arrOf s n a).slices[i]).freeAt = 0) : (takenSlot s n a k st i).conv = st := by
  have hlate : slotLate s n a k st i = false := by
    unfold slotLate
    dsimp only
    rw [h]
    rfl
  unfold takenSlot
  rw [hlate]
  rfl

/-- The first slot of a slice in service carries SLICE_SWAP (R130). -/
theorem takenSlot_swap {i : Fin 7} (h : ((arrOf s n a).slices[i]).fresh = true) : (takenSlot s n a k st i).swap = !cutShort s n a k := by
  unfold takenSlot
  dsimp only
  rw [h]
  exact Bool.and_true _

end

end Sys2Proof.Machine
end

section
/-! SUPPORT. SLOT_START (04, R117 to R122), and O19. -/

namespace Sys2Proof.Machine

/-! ### Slots while slices change places -/

namespace RoleStep

variable {n : Ch} {a : ArrId} {s t : Dev}

theorem slotStart (h : RoleStep n a s t) (k : Nat) : Machine.slotStart (arrOf t n a) k = Machine.slotStart (arrOf s n a) k :=
  (congrArg (Machine.slotStart · k) h.roles :)

theorem slotEnd (h : RoleStep n a s t) (k : Nat) : Machine.slotEnd (arrOf t n a) k = Machine.slotEnd (arrOf s n a) k :=
  (congrArg (Machine.slotEnd · k) h.roles :)

theorem slotStop (h : RoleStep n a s t) (k : Nat) : Machine.slotStop t n a k = Machine.slotStop s n a k := by
  unfold Machine.slotStop dieRecs
  rw [h.dies, h.slotEnd]

theorem cutShort (h : RoleStep n a s t) (k : Nat) : Machine.cutShort t n a k = Machine.cutShort s n a k := by
  unfold Machine.cutShort
  rw [h.restartTick, h.slotStop]

theorem mode (h : RoleStep n a s t) : (arrOf t n a).mode = (arrOf s n a).mode := by simpa [Arr.besideRoles] using congrArg Arr.mode h.roles
theorem place (h : RoleStep n a s t) : (arrOf t n a).ord = (arrOf s n a).ord := by simpa [Arr.besideRoles] using congrArg Arr.ord h.roles

/-- With as many roles as before. -/
theorem roleOf (hlen : (arrOf t n a).roles.length = (arrOf s n a).roles.length) (k : Nat) :
    Machine.roleOf (arrOf t n a) k = Machine.roleOf (arrOf s n a) k := by
  unfold Machine.roleOf
  rw [hlen]

theorem leastTicks (h : RoleStep n a s t) (hlen : (arrOf t n a).roles.length = (arrOf s n a).roles.length) :
    Machine.leastTicks (arrOf t n a) = Machine.leastTicks (arrOf s n a) := by
  unfold Machine.leastTicks
  rw [h.mode, hlen]

end RoleStep

/-! ### Beginnings -/

section
variable {s : Dev} {n : Ch} {a : ArrId} {k st : Nat}

/-- Whichever way slot k begins, the sequence goes on, and no more of the device changes than the array and a counter. -/
theorem beginSlot_step (n : Ch) (a : ArrId) (k st : Nat) (s : Dev) :
    let d := beginSlot n a k st s
    chanOnly n s d ∧ d.now = s.now ∧ (arrOf d n a).nextK = k + 1 ∧ (arrOf d n a).ord = (arrOf s n a).ord + 1 ∧ (arrOf d n a).seq = (arrOf s n a).seq ∧
      (arrOf d n a).dropRole = (arrOf s n a).dropRole := by
  dsimp only
  by_cases hlen : slotStop s n a k - st < leastTicks (arrOf s n a) * 256
  · rw [beginSlot_of_short hlen]
    simp [Arr.unserved]
  have hlong := Nat.le_of_not_lt hlen
  cases hrole : (arrOf s n a).roles.getD (roleOf (arrOf s n a) k) none with
  | none =>
    rw [beginSlot_of_empty hlong hrole]
    simp [Arr.unserved]
  | some i =>
    cases hheld : urgentHolds (arrOf s n a) i ((st + 255) / 256) with
    | true =>
      rw [beginSlot_of_urgent hlong hrole hheld]
      simp [Arr.unserved]
    | false =>
      rw [beginSlot_of_free hlong hrole hheld]
      simp [Arr.begun]

/-- The slot of a boundary, and the array that is RUNNING with it (Table 4.6). -/
def slotRun (n : Ch) (a : ArrId) (k st : Nat) (s : Dev) : Dev := arrEnter n a .running (beginSlot n a k st s)

theorem slotRun_step (n : Ch) (a : ArrId) (k st : Nat) (s : Dev) :
    let d := slotRun n a k st s
    chanOnly n s d ∧ d.now = s.now ∧ (arrOf d n a).st = .running ∧ (arrOf d n a).nextK = k + 1 ∧ (arrOf d n a).ord = (arrOf s n a).ord + 1 ∧
      (arrOf d n a).seq = (arrOf s n a).seq ∧ (arrOf d n a).dropRole = (arrOf s n a).dropRole := by
  obtain ⟨honly, hnow, hnext, hplace, hseq, hdrop⟩ := beginSlot_step n a k st s
  obtain ⟨hrun, hrunNow, harr⟩ := arrEnter_running n a (beginSlot n a k st s)
  dsimp only
  unfold slotRun
  rw [harr]
  exact ⟨honly.trans hrun, hrunNow.trans hnow, rfl, hnext, hplace, hseq, hdrop⟩

/-- The array after a slot that its slice takes on. -/
theorem arrOf_slotRun_of_free {i : Fin 7} (hlen : leastTicks (arrOf s n a) * 256 ≤ slotStop s n a k - st)
    (hrole : (arrOf s n a).roles.getD (roleOf (arrOf s n a) k) none = some i) (hfree : urgentHolds (arrOf s n a) i ((st + 255) / 256) = false) :
    arrOf (slotRun n a k st s) n a =
      { (arrOf s n a).begun k (slotsBefore s n a k st i) (takenSlot s n a k st i) (slicesAfter s n a k i) with st := .running } := by
  obtain ⟨-, -, harr⟩ := arrEnter_running n a (beginSlot n a k st s)
  unfold slotRun
  rw [harr, beginSlot_of_free hlen hrole hfree, arrOf_updArr]

/-- A slot is not converted: too short, without a slice, or its slice at an urgent conversion (R122, R132, R141). -/
def Unserved (s : Dev) (n : Ch) (a : ArrId) (k st : Nat) : Prop :=
  slotStop s n a k - st < leastTicks (arrOf s n a) * 256 ∨ (arrOf s n a).roles.getD (roleOf (arrOf s n a) k) none = none ∨
    ∃ i, (arrOf s n a).roles.getD (roleOf (arrOf s n a) k) none = some i ∧ urgentHolds (arrOf s n a) i ((st + 255) / 256) = true

/-- The array after a slot that is not converted. -/
theorem arrOf_slotRun_of_unserved (h : Unserved s n a k st) :
    arrOf (slotRun n a k st s) n a = { (arrOf s n a).unserved k (unservedDone s n a k st) with st := .running } := by
  obtain ⟨-, -, harr⟩ := arrEnter_running n a (beginSlot n a k st s)
  have hunserved : arrOf (beginSlot n a k st s) n a = (arrOf s n a).unserved k (unservedDone s n a k st) := by
    by_cases hlen : slotStop s n a k - st < leastTicks (arrOf s n a) * 256
    · simp [beginSlot_of_short hlen]
    · have hlong := Nat.le_of_not_lt hlen
      rcases h.resolve_left hlen with hempty | ⟨i, hrole, hheld⟩
      · simp [beginSlot_of_empty hlong hempty]
      · simp [beginSlot_of_urgent hlong hrole hheld]
  unfold slotRun
  rw [harr, hunserved]

/-- SHORT_APERTURES counts the slots that are too short (R122). -/
theorem rd_slotRun_of_short (h : slotStop s n a k - st < leastTicks (arrOf s n a) * 256) :
    rd (slotRun n a k st s) oShortApertures [n, a.idx] = min (2 ^ 32 - 1) (rd s oShortApertures [n, a.idx] + 1) := by
  unfold slotRun
  rw [(arrEnter_step n a .running _).kept _ _ (keyOf_arr_ne_chan rfl rfl (by decide) n a), rd_updArr, beginSlot_of_short h, rd_bump_word rfl, rd_updArr]

end

/-! ### The command -/

/-- A slot whose record has not arrived is held (R48). -/
theorem slotStart_held {s : State} {n : Ch} {a : ArrId} (hlive : Live s)
    (h : stampOf (dieRecs s.dev n) (slotStart (arrOf s.dev n a) (arrOf s.dev n a).nextK) = none) : Completes (.slotStart n a) s s.dev := by
  refine completes_of_onDev rfl hlive ?_
  simp [h]

/-- The role whose slot comes next. -/
def dueRole (x : Arr) : Nat := roleOf x x.nextK

/-- The device at the start of a slot, its role settled. -/
def slotReady (s : Dev) (n : Ch) (a : ArrId) (st : Nat) : Dev :=
  slotRole n a (dueRole (arrOf s n a)) (advance ((st + 255) / 256) s)

section
variable {s : State} {n : Ch} {a : ArrId} {st : Nat}

/-- Slot k begins at a stamp, with no role to be dropped and no rotation at its boundary. -/
structure SlotBegins (s : State) (n : Ch) (a : ArrId) (st : Nat) : Prop where
  live : Live s
  state : (arrOf s.dev n a).st = .starting ∨ (arrOf s.dev n a).st = .running
  stamp : (stampOf (dieRecs s.dev n) (slotStart (arrOf s.dev n a) (arrOf s.dev n a).nextK)).map (actStamp s.dev.dies[n.die]) = some st
  kept : (arrOf s.dev n a).dropRole = false
  settled : (arrOf s.dev n a).rotRole = none

theorem slotStart_completes (h : SlotBegins s n a st) :
    Completes (.slotStart n a) s (let t := slotReady s.dev n a st
      if (arrOf t n a).st = .fault then cmpWatch t else slotRun n a (arrOf s.dev n a).nextK st t) := by
  obtain ⟨hlive, hst, hbegins, hdrop, hrot⟩ := h
  refine completes_of_onDev rfl hlive ?_
  have hdropped := dropRoleAt_of_clear (s := advance ((st + 255) / 256) s.dev) (n := n) (a := a) (by simpa using hdrop)
  have hrotated := rotateAt_of_none (s := advance ((st + 255) / 256) s.dev) (n := n) (a := a) (by simpa using hrot)
  have hserved : (decide ((arrOf s.dev n a).st = .starting) || decide ((arrOf s.dev n a).st = .running)) = true := by simpa using hst
  simp only [hserved, hbegins, hdropped, hrotated, arrOf_advance]
  rfl

/-- Unless the array has entered FAULT, it is RUNNING and its slot begins. -/
theorem slotStart_begins (h : SlotBegins s n a st) (hst : (arrOf (slotReady s.dev n a st) n a).st = (arrOf s.dev n a).st) :
    Completes (.slotStart n a) s (slotRun n a (arrOf s.dev n a).nextK st (slotReady s.dev n a st)) := by
  have hdone := slotStart_completes h
  have hserved : (arrOf (slotReady s.dev n a st) n a).st ≠ .fault := by
    rw [hst]
    rcases h.state with hst | hst <;> simp [hst]
  rwa [if_neg hserved] at hdone

/-- Where no spare fills its role, a slot finds the array as it was (R132, R133). -/
theorem slotReady_of_kept {s : Dev} (hspare : none ∉ (arrOf s n a).roles ∨ noSpare (arrOf s n a) = false)
    (hrole : (arrOf s n a).roles.getD (dueRole (arrOf s n a)) (some 0) ≠ none ∨
      ∀ sp, (arrOf s n a).spare = some sp → ((arrOf s n a).slices[sp]).st ≠ .spareIdle) :
    slotReady s n a st = showMap n a (advance ((st + 255) / 256) s) := by
  refine slotRole_of_kept (fillRole_eq_self ?_) ?_
  · simpa using hrole
  · simpa using hspare

/-- Nobody is left for another role that is empty: Interleave will drop it, Pipeline enters FAULT (R132). -/
theorem slotStart_loses {sp : Fin 7} (h : SlotBegins s n a st) (hfree : s.dev.ref.comparison = none)
    (hempty : (arrOf s.dev n a).roles.getD (dueRole (arrOf s.dev n a)) (some 0) = none)
    (hspare : (arrOf s.dev n a).spare = some sp) (hidle : ((arrOf s.dev n a).slices[sp]).st = .spareIdle)
    (hleft : none ∈ listSet (arrOf s.dev n a).roles (dueRole (arrOf s.dev n a)) (some sp))
    (hothers : ∀ i, i ≠ sp → ((arrOf s.dev n a).slices[i]).st ≠ .spareIdle ∧ ((arrOf s.dev n a).slices[i]).st ≠ .verify ∧
      ((arrOf s.dev n a).slices[i]).st ≠ .calibrating) :
    ∃ d, Completes (.slotStart n a) s d ∧
      ((arrOf s.dev n a).mode = 0 → (arrOf d n a).dropRole = true ∧ (arrOf d n a).st = .running) ∧
      ((arrOf s.dev n a).mode ≠ 0 → (arrOf d n a).st = .fault ∧ (arrOf d n a).slots = []) := by
  have hready : slotReady s.dev n a st = slotRole n a (dueRole (arrOf s.dev n a)) (advance ((st + 255) / 256) s.dev) := rfl
  obtain ⟨stale, hfilled⟩ := arrOf_fillRole (s := advance ((st + 255) / 256) s.dev) (by simpa using hempty) (by simpa using hspare) (by simpa using hidle)
  have hstep := fillRole_step n a (dueRole (arrOf s.dev n a)) (advance ((st + 255) / 256) s.dev)
  unfold slotRole at hready
  dsimp only at hready
  generalize fillRole n a _ _ = u at hready hfilled hstep
  rw [arrOf_advance] at hfilled
  have hnone : noSpare (arrOf u n a) = true := hfilled ▸ noSpare_filled hothers
  have hserved : (arrOf u n a).st = .starting ∨ (arrOf u n a).st = .running := by simpa [hstep.st] using h.state
  have hmode : (arrOf u n a).mode = (arrOf s.dev n a).mode := hstep.mode.trans (by rw [arrOf_advance])
  rw [if_pos (by rw [hfilled]; simpa [Arr.filled] using hleft)] at hready
  by_cases hinterleave : (arrOf s.dev n a).mode = 0
  · rw [roleLost_of_interleave hnone hserved (hmode.trans hinterleave)] at hready
    have hst : (arrOf (slotReady s.dev n a st) n a).st = (arrOf s.dev n a).st := by simp [hready, hstep.st]
    obtain ⟨-, -, hrunning, -, -, -, hdrop⟩ := slotRun_step n a (arrOf s.dev n a).nextK st (slotReady s.dev n a st)
    exact ⟨_, slotStart_begins h hst, fun _ => ⟨hdrop.trans (by simp [hready]), hrunning⟩, fun hne => absurd hinterleave hne⟩
  · rw [roleLost_of_pipeline hnone hserved (by rwa [hmode])] at hready
    obtain ⟨hfault, hslots, href⟩ := arrFail_effect n a (rotationCancel n a u)
    have hdone := slotStart_completes h
    rw [hready] at hdone
    dsimp only at hdone
    rw [if_pos (by simpa using hfault), cmpWatch_of_none] at hdone
    · exact ⟨_, hdone, fun h => absurd h hinterleave, fun _ => ⟨by simpa using hfault, by simpa using hslots⟩⟩
    · rw [(showMap_step n a _).ref, href, (rotationCancel_step n a u).ref, hstep.ref]
      exact hfree

end

end Sys2Proof.Machine
end

section
/-! SUPPORT. O19: a slot start by what fills its role. -/

namespace Sys2Proof.Machine

section
variable {s : State} {n : Ch} {a : ArrId} {st : Nat}

/-- A slice that begins a slot keeps its state. -/
theorem slicesAfter_st (s : Dev) (n : Ch) (a : ArrId) (k : Nat) (i j : Fin 7) :
    ((slicesAfter s n a k i)[j]).st = ((arrOf s n a).slices[j]).st := by
  unfold slicesAfter
  dsimp only
  split
  · rfl
  · by_cases hij : i = j
    · simp [hij]
    · have hval : i.val ≠ j.val := fun e => hij (Fin.ext e)
      simp [Vector.getElem_set_ne, hval]

/-- An idle spare that fills the last empty role takes the slot on (R119, R132). -/
theorem slotStart_fills {sp : Fin 7} (h : SlotBegins s n a st)
    (hlen : leastTicks (arrOf s.dev n a) * 256 ≤ slotStop s.dev n a (arrOf s.dev n a).nextK - st)
    (hempty : (arrOf s.dev n a).roles.getD (dueRole (arrOf s.dev n a)) (some 0) = none)
    (hspare : (arrOf s.dev n a).spare = some sp) (hidle : ((arrOf s.dev n a).slices[sp]).st = .spareIdle)
    (hfree : urgentHolds (arrOf s.dev n a) sp ((st + 255) / 256) = false)
    (hleft : none ∉ listSet (arrOf s.dev n a).roles (dueRole (arrOf s.dev n a)) (some sp)) :
    ∃ t stale shown, RoleStep n a (advance ((st + 255) / 256) s.dev) t ∧
      arrOf t n a = { (arrOf s.dev n a).filled (dueRole (arrOf s.dev n a)) sp stale with shown := shown } ∧
      Completes (.slotStart n a) s (slotRun n a (arrOf s.dev n a).nextK st t) ∧ arrOf (slotRun n a (arrOf s.dev n a).nextK st t) n a =
        { (arrOf t n a).begun (arrOf s.dev n a).nextK (slotsBefore t n a (arrOf s.dev n a).nextK st sp)
          (takenSlot t n a (arrOf s.dev n a).nextK st sp) (slicesAfter t n a (arrOf s.dev n a).nextK sp) with st := .running } := by
  obtain ⟨stale, hfilled⟩ := arrOf_fillRole (s := advance ((st + 255) / 256) s.dev) (by simpa using hempty) (by simpa using hspare) (by simpa using hidle)
  rw [arrOf_advance] at hfilled
  have hready : slotReady s.dev n a st = _ := slotRole_of_filled (by rw [hfilled]; simpa [Arr.filled] using hleft)
  have hstep : RoleStep n a (advance ((st + 255) / 256) s.dev) (slotReady s.dev n a st) := hready ▸ (fillRole_step ..).trans (showMap_step ..)
  have harr : ∃ shown, arrOf (slotReady s.dev n a st) n a =
      { (arrOf s.dev n a).filled (dueRole (arrOf s.dev n a)) sp stale with shown := shown } := by
    rw [hready, arrOf_showMap, hfilled]
    exact ⟨_, rfl⟩
  have hdone := slotStart_begins h (hstep.st.trans (by rw [arrOf_advance]))
  generalize slotReady s.dev n a st = t at hstep harr hdone
  obtain ⟨shown, harr⟩ := harr
  have hroles : (arrOf t n a).roles.length = (arrOf s.dev n a).roles.length := by simp [harr, Arr.filled, length_listSet]
  have hrole : (arrOf t n a).roles.getD (roleOf (arrOf t n a) (arrOf s.dev n a).nextK) none = some sp := by
    rw [RoleStep.roleOf hroles, harr]
    exact getD_listSet (lt_length_of_getD_none hempty) ..
  have hlong : leastTicks (arrOf t n a) * 256 ≤ slotStop t n a (arrOf s.dev n a).nextK - st := by
    rw [hstep.leastTicks (by simpa using hroles), hstep.slotStop, arrOf_advance]
    exact hlen
  have hunheld : urgentHolds (arrOf t n a) sp ((st + 255) / 256) = false := by
    rw [harr]
    simpa [urgentHolds, Arr.filled] using hfree
  exact ⟨t, stale, shown, hstep, harr, hdone, arrOf_slotRun_of_free hlong hrole hunheld⟩

/-- A slot whose role nobody joins begins, or ends unserved, on the array as it was. -/
theorem slotStart_keeps (h : SlotBegins s n a st) (hspare : none ∉ (arrOf s.dev n a).roles ∨ noSpare (arrOf s.dev n a) = false)
    (hrole : (arrOf s.dev n a).roles.getD (dueRole (arrOf s.dev n a)) (some 0) ≠ none ∨
      ∀ sp, (arrOf s.dev n a).spare = some sp → ((arrOf s.dev n a).slices[sp]).st ≠ .spareIdle) :
    Completes (.slotStart n a) s (slotRun n a (arrOf s.dev n a).nextK st (showMap n a (advance ((st + 255) / 256) s.dev))) := by
  have hready := slotReady_of_kept (st := st) hspare hrole
  have hdone := slotStart_begins h (by rw [hready]; simp)
  rwa [hready] at hdone

end

/-- The slots in progress and the one slice `i` takes on, while slices have changed places since `s`. -/
theorem slotsBefore_of_step {s t : Dev} {n : Ch} {a : ArrId} (h : RoleStep n a s t) (k st : Nat) (i : Fin 7) :
    (slotsBefore t n a k st i).map Slot.ord = (arrOf s n a).slots.map Slot.ord ∧
      ((arrOf s n a).mode = 0 → slotsBefore t n a k st i = (arrOf s n a).slots) :=
  ⟨by rw [slotsBefore_ord, h.slots], fun hmode => by rw [slotsBefore_interleave (h.mode.trans hmode), h.slots]⟩

/-- Settles O19: a slot start by whether its record has arrived, a spare fills its role, or nobody does. -/
theorem slotStarts : Obligations.SlotStarts := by
  intro s n a st hlive x k role act stop len begins known added least hst
  refine ⟨fun h => slotStart_held hlive h, fun sp hbegins hdrop hrot hempty hspare hidle hleft hothers hfree => ?_,
    fun sp hbegins hdrop hrot hlen hempty hspare hidle hunheld hleft => ?_, fun hbegins hdrop hrot hspare hrole => ?_⟩
  · exact slotStart_loses ⟨hlive, hst, hbegins, hdrop, hrot⟩ hfree hempty hspare hidle hleft hothers
  · obtain ⟨t, stale, shown, hstep, harr, hdone, hd⟩ := slotStart_fills ⟨hlive, hst, hbegins, hdrop, hrot⟩ hlen hempty hspare hidle hunheld hleft
    obtain ⟨honly, -⟩ := slotRun_step n a k st t
    obtain ⟨hbefore, hinterleave⟩ := slotsBefore_of_step hstep k st sp
    rw [arrOf_advance] at hbefore hinterleave
    have hfresh : ((arrOf t n a).slices[sp]).fresh = true := by simp [harr, Arr.filled]
    have hknown : cutShort t n a k = true ↔ known := by rw [hstep.cutShort]; exact cutShort_iff
    refine ⟨_, hdone, ?_, ?_, ?_, fun m hm => ?_, takenSlot t n a k st sp, ⟨slotsBefore t n a k st sp, ?_, hbefore, hinterleave⟩,
      rfl, ?_, ?_, rfl, rfl, hknown, ?_⟩
    · simp [hd, harr, Arr.begun, Arr.filled]
    · rw [hd, harr]
      rfl
    · rw [hd]
      exact (slicesAfter_st ..).trans (by simp [harr, Arr.filled])
    · rw [honly.ch_of_ne hm, hstep.ch_of_ne hm]
      rfl
    · rw [hd]
      rfl
    · exact hstep.place.trans (by rw [arrOf_advance])
    · exact RoleStep.roleOf (by simp [harr, Arr.filled, length_listSet]) k
    · rw [takenSlot_swap hfresh, ← hknown]
      simp
  · have hdone := slotStart_keeps ⟨hlive, hst, hbegins, hdrop, hrot⟩ hspare hrole
    have hstep := showMap_step n a (advance ((st + 255) / 256) s.dev)
    have harr := arrOf_showMap n a (advance ((st + 255) / 256) s.dev)
    rw [arrOf_advance] at harr
    have hshown : chanOnly n s.dev (showMap n a (advance ((st + 255) / 256) s.dev)) := by simp [showMap]
    generalize ht : showMap n a _ = t at hdone hstep harr hshown
    have hlength : slotStop t n a k - st = len := congrArg (· - st) ((hstep.slotStop k).trans (by rw [slotStop, arrOf_advance]; rfl))
    have hleast : leastTicks (arrOf t n a) = least := by rw [harr]; rfl
    have hknown : cutShort t n a k = true ↔ known := by rw [hstep.cutShort]; exact cutShort_iff
    have hslice : (arrOf t n a).roles.getD (roleOf (arrOf t n a) k) none = x.roles.getD role none := by rw [harr]; rfl
    have hheld (i : Fin 7) : urgentHolds (arrOf t n a) i ((st + 255) / 256) = urgentHolds x i ((st + 255) / 256) := by rw [harr]; rfl
    have hcount : rd t oShortApertures [n, a.idx] = rd s.dev oShortApertures [n, a.idx] := ht ▸ rfl
    have unserved (h : Unserved t n a k st) : (arrOf (slotRun n a k st t) n a).slots = x.slots ∧
        ∃ q, (arrOf (slotRun n a k st t) n a).done = doneInsert q x.done ∧ q.aborted = true ∧ q.value = 0 ∧ q.ord = x.ord := by
      rw [arrOf_slotRun_of_unserved h, harr]
      exact ⟨rfl, _, rfl, rfl, rfl, by rw [unservedDone, harr]⟩
    obtain ⟨honly, hnow, hrunning, hnext, hplace, hseq, -⟩ := slotRun_step n a k st t
    refine ⟨_, hdone, hshown.trans honly, hnow.trans hstep.now, hrunning, hnext, by rw [hplace, harr], by rw [hseq, harr],
      fun i hlong hi hfree => ?_, fun i _ hi hurgent => unserved (.inr (.inr ⟨i, hslice.trans hi, (hheld i).trans hurgent⟩)),
      fun _ hempty => unserved (.inr (.inl (hslice.trans hempty))), fun hshort => ?_⟩
    · have hd := arrOf_slotRun_of_free (by rwa [hleast, hlength]) (hslice.trans hi) ((hheld i).trans hfree)
      obtain ⟨hbefore, hinterleave⟩ := slotsBefore_of_step hstep k st i
      rw [arrOf_advance] at hbefore hinterleave
      refine ⟨by rw [hd, harr]; rfl, takenSlot t n a k st i, ⟨slotsBefore t n a k st i, by rw [hd]; rfl, hbefore, hinterleave⟩, hknown, rfl, ?_, ?_, rfl,
        hstep.slotStart k, hstep.slotEnd k, rfl, ?_, fun h => takenSlot_conv (by rw [harr]; exact h), fun h => takenSlot_donor (by rw [harr]; exact h) i⟩
      · exact hstep.place
      · exact RoleStep.roleOf (by rw [harr]) k
      · rw [takenSlot, harr]
    · have hunserved : slotStop t n a k - st < leastTicks (arrOf t n a) * 256 := by rwa [hleast, hlength]
      rw [← hcount]
      exact ⟨rd_slotRun_of_short hunserved, unserved (.inl hunserved)⟩

end Sys2Proof.Machine
end

section
/-! SUPPORT. Refutes O22: the power-up calibration of a die is the work of its DS2 (04, R126; Table 1.2), and the model carries it out only while DS2
runs its service; the statement does not ask for that. -/

namespace Sys2Proof.Machine

/-- A command on the device completes with one state of the channels, whatever name is given to its effect. -/
theorem ch_of_completes {i : Instr} {s : State} {d e : Dev} (hd : Completes i s d) (he : Completes i s e) (n : Ch) : d.ch n = e.ch n := by
  have hchans : d.chans = e.chans :=
    calc d.chans
      _ = (after s.dev d).chans := (after_chans _ d).symm
      _ = (after s.dev e).chans := by rw [after_of_completes hd he]
      _ = e.chans := after_chans _ e
  unfold Dev.ch
  rw [hchans]

/-- Without DS2 a die's power-up calibration changes nothing (Table 1.3). -/
theorem powerupCalibration_of_stopped {s : State} {k : Die} (hlive : Live s) (hstopped : serviceRuns s.dev k 2 = false) (slices : List SliceTrim)
    (sources : List SourceTrim) : Completes (.powerupCalibrationComplete k slices sources) s s.dev :=
  completes_of_onDev rfl hlive (by simp [hstopped])

/-- A released device as it leaves reset, but that DS2 of Channel die 0 has stopped and found no spare. -/
def calibrationStopped : State :=
  { State.reset with dev := { State.reset.dev with
    supply := { State.reset.dev.supply with released := true }
    dies := State.reset.dev.dies.set 0 { DieState.atReset with services := { DieState.atReset.services with map := 0xFB, stopped := 4 } } } }

/-- Refutes O22 by its last clause: no array of the die is READY. -/
theorem not_slicesInService : ¬ Obligations.SlicesInService := by
  intro h
  obtain ⟨-, -, -, hpowerup⟩ := h calibrationStopped 0 .vm rfl
  have hunready : ∀ m : Ch, (calibrationStopped.dev.ch m).vm.ready = false := by decide +kernel
  obtain ⟨d, hd, -, hready⟩ := hpowerup 0 [] [] fun m _ => hunready m
  have hmodel := powerupCalibration_of_stopped (s := calibrationStopped) (k := 0) rfl (by decide +kernel) [] []
  obtain ⟨hvm, -⟩ := (hready 0).1 rfl
  rw [ch_of_completes hd hmodel 0, hunready 0] at hvm
  cases hvm

end Sys2Proof.Machine
end

section
/-! SUPPORT. Refutes O21: the slice under calibration retires in an array that is OFF with a rotation still to be performed; slices of an OFF array
change places at once (04, R130), and the calibration of the next leaving slice begins where the statement has none. -/

namespace Sys2Proof.Machine

/-- A phase that ends with its result completes with what the table makes of it (Table 4.8): here +0 out of limits, which retires the slice. -/
theorem calPhaseComplete_zero_fails {s : State} {n : Ch} {a : ArrId} {c : Cal} {r : PhaseResult} (hlive : Live s) (hcal : (arrOf s.dev n a).cal = some c)
    (hruns : calMayRun s.dev n a c = true) (hphase : c.phase = .zero) (hbad : offsetWithin r.value = false) :
    Completes (.calPhaseComplete n a r) s (cmpWatch (unitRelease (sliceCalId n a) (muxUnit n)
      (retire n a c.slice (advance (c.since + rd s.dev oCalAperture [n, a.idx] * msTicks) s.dev)))) :=
  completes_of_onDev rfl hlive (by simp [hcal, hruns, hphase, hbad])

/-- Slice 5 in the zero phase of its calibration. -/
def zeroPhase : Cal := ⟨5, 5, .zero, 0, 0, 0⟩

/-- A released device whose array VM of channel 0 is OFF: slice 5 is under calibration and holds the multiplexer, slice 6 is the idle spare, and a
rotation waits for role 0. -/
def rotationWaits : State :=
  let start := State.reset.dev
  let spare : Slice := { Slice.atReset with st := .spareIdle }
  let grant : Grant := ⟨sliceCalId 0 .vm, 0, 0, 0, false, false, none⟩
  let held : Dev := { start with
    supply := { start.supply with released := true }
    arb := { start.arb with units := [⟨muxUnit 0, [grant], [], 0⟩] } }
  let calibrates (x : Arr) : Arr :=
    { x with slices := x.slices.set 6 spare, roles := [some 0, some 1, some 2, some 3, some 4], cal := some zeroPhase, rotRole := some 0 }
  { State.reset with dev := updArr 0 .vm calibrates held }

/-- Slice 0 leaves for the spare, and its calibration is in progress. -/
theorem rotationWaits_calibrates : ((arrOf (cmpWatch (unitRelease (sliceCalId 0 .vm) (muxUnit 0) (retire 0 .vm 5
    (advance (0 + rd rotationWaits.dev oCalAperture [(0 : Ch), ArrId.vm.idx] * msTicks) rotationWaits.dev)))) 0 .vm).cal.map Cal.slice) = some 0 := by
  decide +kernel

/-- Refutes O21 by the clause of the zero phase out of limits: the array has a calibration in progress. -/
theorem not_sliceCalibration : ¬ Obligations.SliceCalibration := by
  intro h
  obtain ⟨-, -, -, hphases⟩ := h rotationWaits 0 .vm rfl rfl
  have hruns : calMayRun rotationWaits.dev 0 .vm zeroPhase = true := by decide +kernel
  obtain ⟨-, hzero, -⟩ := hphases zeroPhase ⟨2 ^ 38⟩ rfl hruns
  obtain ⟨d, hd, -, hnone, -⟩ := hzero rfl (by decide +kernel)
  have hmodel := calPhaseComplete_zero_fails (s := rotationWaits) (n := 0) (a := .vm) (c := zeroPhase) (r := ⟨2 ^ 38⟩) rfl rfl hruns rfl (by decide +kernel)
  have hcal := rotationWaits_calibrates
  have hvm : arrOf d 0 .vm = _ := congrArg Chan.vm (ch_of_completes hd hmodel 0)
  rw [hvm] at hnone
  exact absurd (hcal.symm.trans (congrArg (Option.map Cal.slice) hnone)) (by simp)

end Sys2Proof.Machine
end

section
/-! SUPPORT. The write of a record into a queue (05, R165), and O24. -/

namespace Sys2Proof.Machine

/-! ### The records that leave for a new one -/

/-- Of a discard-old queue the fewest oldest records leave that make room for a record, all of them where none is enough. -/
theorem dropOldest_effect (depth len : Nat) (l : List (List Word64)) :
    let x := dropOldest depth len l
    x.2 = l.drop x.1 ∧ x.1 ≤ l.length ∧ (∀ j, j < x.1 → depth < ((l.drop j).map List.length).sum + len) ∧
      (len ≤ depth → (x.2.map List.length).sum + len ≤ depth) := by
  induction l with
  | nil => simp [dropOldest]
  | cons r t ih =>
    by_cases hfits : ((r :: t).map List.length).sum + len ≤ depth
    · rw [dropOldest, if_pos hfits]
      exact ⟨rfl, Nat.zero_le _, nofun, fun _ => hfits⟩
    · obtain ⟨hdrop, hle, hfull, hroom⟩ := ih
      rw [dropOldest, if_neg hfits]
      refine ⟨hdrop, Nat.succ_le_succ hle, fun j hj => ?_, hroom⟩
      cases j with
      | zero => exact Nat.lt_of_not_le hfits
      | succ j => exact hfull j (Nat.lt_of_succ_lt_succ hj)

theorem sum_length_drop_le (l : List (List Word64)) (i : Nat) : ((l.drop i).map List.length).sum ≤ (l.map List.length).sum :=
  ((List.drop_sublist i l).map _).sum_le_sum fun _ _ => Nat.zero_le _

theorem queueFill_append (q : Queue) (r : List Word64) : queueFill { q with recs := q.recs ++ [r] } = queueFill q + r.length := by
  simp [queueFill]

/-! ### The write by its cases -/

theorem queueWrite_of_unallocated {r : List Word64} {q : Queue} (h : descDepth q.desc = 0) : queueWrite r q = q := if_pos h

theorem queueWrite_of_fits {r : List Word64} {q : Queue} (h : descDepth q.desc ≠ 0) (hfits : queueFill q + r.length ≤ descDepth q.desc) :
    queueWrite r q = { q with recs := q.recs ++ [r], high := max q.high (queueFill q + r.length) } := by
  unfold queueWrite
  dsimp only
  rw [if_neg h, if_pos hfits, queueFill_append]

theorem queueWrite_of_discardNew {r : List Word64} {q : Queue} (h : descDepth q.desc ≠ 0) (hfull : descDepth q.desc < queueFill q + r.length)
    (hnew : descDiscardOld q.desc = false) : queueWrite r q = overflow q := by
  unfold queueWrite
  dsimp only
  rw [if_neg h, if_neg (Nat.not_le.mpr hfull), hnew]
  rfl

/-- The queue once the oldest records have left for one of a length. -/
def roomMade (len : Nat) (q : Queue) : Queue :=
  let x := dropOldest (descDepth q.desc) len q.recs
  { q with recs := x.2, overflows := countUp (2 ^ 24 - 1) q.overflows x.1 }

/-- A discard-old queue makes room, and is written where that was enough. -/
theorem queueWrite_of_discardOld {r : List Word64} {q : Queue} (h : descDepth q.desc ≠ 0) (hfull : descDepth q.desc < queueFill q + r.length)
    (hold : descDiscardOld q.desc = true) :
    queueWrite r q = if queueFill (roomMade r.length q) + r.length ≤ descDepth q.desc then queueWrite r (roomMade r.length q)
      else overflow (roomMade r.length q) := by
  have hmade : queueWrite r q = if queueFill (roomMade r.length q) + r.length ≤ descDepth q.desc then
      let p := { roomMade r.length q with recs := (roomMade r.length q).recs ++ [r] }
      { p with high := max p.high (queueFill p) } else overflow (roomMade r.length q) := by
    unfold queueWrite
    dsimp only
    rw [if_neg h, if_neg (Nat.not_le.mpr hfull), if_pos hold]
    rfl
  rw [hmade]
  split
  · next hroom => rw [queueWrite_of_fits (q := roomMade r.length q) h hroom, ← queueFill_append]
  · rfl

theorem queueFill_roomMade_le (len : Nat) (q : Queue) : queueFill (roomMade len q) ≤ queueFill q := by
  have hdrop := (dropOldest_effect (descDepth q.desc) len q.recs).1
  show ((dropOldest (descDepth q.desc) len q.recs).2.map List.length).sum ≤ _
  rw [hdrop]
  exact sum_length_drop_le _ _

/-- No write fills a queue past its depth (R165). -/
theorem queueFill_queueWrite_le (r : List Word64) (q : Queue) (h : queueFill q ≤ descDepth q.desc) : queueFill (queueWrite r q) ≤ descDepth q.desc := by
  by_cases hzero : descDepth q.desc = 0
  · rwa [queueWrite_of_unallocated hzero]
  have hwritten (p : Queue) (hp : descDepth p.desc ≠ 0) (hfits : queueFill p + r.length ≤ descDepth p.desc) :
      queueFill (queueWrite r p) ≤ descDepth p.desc := by
    rw [queueWrite_of_fits hp hfits]
    exact Nat.le_trans (Nat.le_of_eq (queueFill_append p r)) hfits
  obtain hfits | hfull := le_or_gt (queueFill q + r.length) (descDepth q.desc)
  · exact hwritten q hzero hfits
  cases hpolicy : descDiscardOld q.desc with
  | false =>
    rw [queueWrite_of_discardNew hzero hfull hpolicy]
    exact h
  | true =>
    rw [queueWrite_of_discardOld hzero hfull hpolicy]
    split
    · next hroom => exact hwritten (roomMade r.length q) hzero hroom
    · exact Nat.le_trans (queueFill_roomMade_le r.length q) h

theorem countUp_of_le {max v k : Nat} (h : v + k ≤ max) : countUp max v k = v + k := by
  unfold countUp
  split <;> omega

/-- Settles O24: the write by its cases; the records that leave under discard old are those of `dropOldest`. -/
theorem queueRule : Obligations.QueueRule := by
  intro q r q' depth
  refine ⟨queueWrite_of_unallocated, queueWrite_of_fits, fun hdepth hfull hnew => ?_, fun hdepth hfull hold hlen hcount => ?_,
    queueFill_queueWrite_le r q⟩
  · rw [← countUp_one]
    exact queueWrite_of_discardNew hdepth hfull hnew
  · obtain ⟨hdrop, hle, hfewest, hroom⟩ := dropOldest_effect depth r.length q.recs
    have hfits : queueFill (roomMade r.length q) + r.length ≤ descDepth (roomMade r.length q).desc := hroom hlen
    have hwrite : q' = { roomMade r.length q with
        recs := (roomMade r.length q).recs ++ [r], high := max q.high (queueFill (roomMade r.length q) + r.length) } :=
      (queueWrite_of_discardOld hdepth hfull hold).trans ((if_pos hfits).trans (queueWrite_of_fits (q := roomMade r.length q) hdepth hfits))
    have hfill : queueFill q' = queueFill (roomMade r.length q) + r.length := by
      rw [hwrite, ← queueFill_append]
      rfl
    have hcountUp : countUp (2 ^ 24 - 1) q.overflows (dropOldest depth r.length q.recs).1 = q.overflows + (dropOldest depth r.length q.recs).1 :=
      countUp_of_le (by omega)
    refine ⟨(dropOldest depth r.length q.recs).1, Nat.pos_of_ne_zero fun hnone => ?_, hle, ?_, ?_, ?_, hfill ▸ hfits, hfewest⟩
    · have hall : queueFill q + r.length ≤ depth := by
        have hkept := hroom hlen
        rwa [hdrop, hnone] at hkept
      omega
    · rw [hwrite, ← hdrop]
      rfl
    · rw [hwrite]
      exact hcountUp
    · rw [hfill, hwrite]

end Sys2Proof.Machine
end

section
/-! SUPPORT. Forwarding, drains and flushes of queues (05, R166 to R168), and O25. -/

namespace Sys2Proof.Machine

/-! ### One queue of a channel rewritten -/

/-- The queues of a channel rewritten where a record has left one of them. -/
theorem closeRun_queues (n : Ch) (f : Chan → List (Nat × Queue)) (s : Dev) :
    closeRun n (updCh n (fun c => { c with queues := f c }) s) = updCh n (fun c => { c with queues := f c, evTick := none }) s := updCh_updCh ..

/-! ### Forwarding -/

theorem queueForward_of_up {n : Ch} {q : Nat} {s : Dev} {r : List Word64} {t : List (List Word64)} (hrecs : (qFind (s.ch n).queues q).recs = r :: t)
    (hconsumer : descConsumer (qFind (s.ch n).queues q).desc = 2) (hup : s.dies[n.die].link.st = .active) (hruns : s.ctlRunning = true) :
    queueForward n q s =
      let x := qFind (s.ch n).queues q
      { updCh n (fun c => { c with queues := qPut c.queues q { x with recs := t }, evTick := none }) s with
        ctrlQueues := qPut s.ctrlQueues (descTarget x.desc) (queueWrite r (qFind s.ctrlQueues (descTarget x.desc))) } := by
  unfold queueForward
  simp only [hconsumer, hup, hruns, hrecs, decide_true, Bool.and_self, if_true, closeRun_queues]
  rfl

theorem queueForward_of_down {n : Ch} (q : Nat) {s : Dev} (hdown : ¬ s.dies[n.die].link.st = .active) : queueForward n q s = s := by
  unfold queueForward
  dsimp only
  rw [decide_eq_false hdown, Bool.and_false, Bool.false_and]
  rfl

/-! ### Flushes -/

theorem ofChan_queueFlush (n : Ch) : ofChan n (oQueueFlush.ix + dimsOff oQueueFlush.dims [n.val]) := ofChan_of_lt n (o := 0x53) (by decide)

/-- A number that a channel queue bears passes the check of QUEUE_FLUSH (log 159). -/
theorem valueCheck_queueFlush {v : Nat} (hlow : 1 ≤ v) (hhigh : v ≤ 511) (ix : Nat) (data : List Byte) (hdata : ofBytes data = v) :
    valueCheck oQueueFlush ix oQueueFlush.sub data = .ok := by
  have hcheck : valueCheck oQueueFlush ix oQueueFlush.sub data = firstBad [.ok, refuseIf (v = 0 || 512 ≤ v) 3] := hdata ▸ rfl
  rw [hcheck]
  simp [refuseIf, firstBad, show v ≠ 0 by omega, show ¬ 512 ≤ v by omega]

theorem directWrite_queueFlush (p : Port) (n : Ch) (data : List Byte) (nv : Nv) (s : Dev) :
    directWrite p oQueueFlush (oQueueFlush.ix + dimsOff oQueueFlush.dims [n.val]) oQueueFlush.sub data nv s =
      (.ok, queueFlush n (ofBytes data) s) := by
  rw [directWrite_of_ofChan (ofChan_queueFlush n) (ownedCheck_of_not_arrayRow (not_arrayRow_of (o := 0x53) (by decide)))]
  exact congrArg (fun m => (Verdict.ok, queueFlush m (ofBytes data) s)) (chOf_of_ofChan (ofChan_queueFlush n))

theorem queueFlush_completes {s : State} {p : Port} {n : Ch} {q : BitVec 16} (hserved : Served s p oQueueFlush) (hup : LinkUp s n.die)
    (hlow : 1 ≤ q.toNat) (hhigh : q.toNat ≤ 511) : Completes (.queueFlush p n q) s (done p (queueFlush n q.toNat s.dev)) := by
  obtain ⟨hlive, hserves, hopen, hmay, hport⟩ := hserved
  obtain ⟨hdie, hlink⟩ := reached_of_ofChan (ofChan_queueFlush n) hup
  have hdata : ofBytes (leBytes 2 q.toNat) = q.toNat := (ofBytes_leBytes 2 _).trans (Nat.mod_eq_of_lt q.isLt)
  have hwrite := directWrite_queueFlush p n (leBytes 2 q.toNat) s.nv s.dev
  rw [hdata] at hwrite
  have hlength : lengthOk oQueueFlush (leBytes 2 q.toNat).length = true := by
    rw [length_leBytes]
    rfl
  exact onDev_acts hlive (request_done (rowOf_queueFlush n) hserves hopen hmay hlength hdie (by decide) (valueCheck_queueFlush hlow hhigh _ _ hdata) rfl
    hwrite (writeWaits_of_no_hold hport hlink) rfl)

/-! ### Reads -/

/-- A read by a served port that no link holds is answered at once. -/
theorem readRequest_answered {nv : Nv} {p : Port} {ix sub : Nat} {s : Dev} (hserves : serves s p = true) (hopen : portShut nv s p = false)
    (hport : portHolds s p = none) (hlink : linkWaits s ix = none) :
    readRequest p ix sub nv s = .next (setAnswer p (readOpen nv p ix sub s).1 (readOpen nv p ix sub s).2) := by
  have hheld : heldAt s p ix = none := by
    unfold heldAt
    rw [hport]
    exact hlink
  simp [readRequest, hserves, readObj, hopen, hheld]

/-- QUEUE_DRAIN and CTRL_QUEUE_DRAIN are objects of Ports N, S and D (Table 5.7). -/
theorem drain_right {p : Port} (hc : p ≠ .c) (hx : p ≠ .x) : rightOf oQueueDrain p ≠ .none ∧ rightOf oCtrlQueueDrain p ≠ .none := by
  cases p with
  | n | s | d => decide
  | c => exact absurd rfl hc
  | x => exact absurd rfl hx

theorem ofChan_queueDrain (n : Ch) : ofChan n (oQueueDrain.ix + dimsOff oQueueDrain.dims [n.val]) := ofChan_of_lt n (o := 0x53) (by decide)

theorem reached_ctrlQueueDrain (s : Dev) : reached s oCtrlQueueDrain.ix := reached_of_objDie_zero s (by decide)

section
variable {s : State} {p : Port} (hlive : Live s) (hserves : serves s.dev p = true) (hopen : portShut s.nv s.dev p = false)
  (hport : portHolds s.dev p = none) (hc : p ≠ .c) (hx : p ≠ .x)
include hlive hserves hopen hport hc hx

theorem queueDrain_completes {n : Ch} (hup : LinkUp s n.die) :
    Completes (.queueDrain p (some n)) s (setAnswer p (drainCh p n s.dev).1 (drainCh p n s.dev).2) := by
  have hin := ofChan_queueDrain n
  obtain ⟨hdie, hlink⟩ := reached_of_ofChan hin hup
  have hread : readOpen s.nv p (oQueueDrain.ix + dimsOff oQueueDrain.dims [n.val]) oQueueDrain.sub s.dev = drainCh p n s.dev := by
    unfold readOpen
    rw [nameOf_of_rowOf p (rowOf_queueDrain n) (drain_right hc hx).1, hdie, chOf_of_ofChan hin]
    rfl
  refine completes_of_onDev rfl hlive ((readRequest_answered hserves hopen hport hlink).trans ?_)
  rw [← hread]

theorem ctrlQueueDrain_completes : Completes (.queueDrain p none) s (setAnswer p (drainCtrl p s.dev).1 (drainCtrl p s.dev).2) := by
  obtain ⟨hdie, hlink⟩ := reached_ctrlQueueDrain s.dev
  have hread : readOpen s.nv p oCtrlQueueDrain.ix oCtrlQueueDrain.sub s.dev = drainCtrl p s.dev := by
    unfold readOpen
    rw [show nameOf p oCtrlQueueDrain.ix oCtrlQueueDrain.sub = _ from nameOf_of_rowOf p rowOf_ctrlQueueDrain (drain_right hc hx).2, hdie]
    rfl
  refine completes_of_onDev rfl hlive ((readRequest_answered hserves hopen hport hlink).trans ?_)
  rw [hread]

end

/-! ### Drains -/

/-- The longest run of whole oldest records within a limit (R167). -/
theorem takeRecords_effect (limit : Nat) (l : List (List Word64)) :
    ∃ j, takeRecords limit l = (l.take j, l.drop j) ∧ ((l.take j).map List.length).sum ≤ limit ∧
      (j < l.length → limit < ((l.take (j + 1)).map List.length).sum) := by
  induction l generalizing limit with
  | nil => exact ⟨0, rfl, Nat.zero_le _, nofun⟩
  | cons r t ih =>
    by_cases hfits : r.length ≤ limit
    · obtain ⟨j, hrun, hle, hlongest⟩ := ih (limit - r.length)
      refine ⟨j + 1, by rw [takeRecords, if_pos hfits, hrun]; rfl, ?_, fun hj => ?_⟩
      · rw [List.take_succ_cons, List.map_cons, List.sum_cons]
        omega
      · have hmore := hlongest (Nat.lt_of_succ_lt_succ hj)
        rw [List.take_succ_cons, List.map_cons, List.sum_cons]
        omega
    · exact ⟨0, by rw [takeRecords, if_neg hfits]; rfl, Nat.zero_le _, fun _ => by simpa using hfits⟩

theorem drainCheck_unallocated (p : Port) {q : Queue} (h : descDepth q.desc = 0) : drainCheck p q = .abort 0x0F100050 := by
  simp [drainCheck, h, refuseIf, firstBad]

theorem drainCheck_otherPort {p : Port} {q : Queue} (h : descDepth q.desc ≠ 0) (hport : consumerOf p ≠ some (descConsumer q.desc)) :
    drainCheck p q = .abort 0x0F100052 := by
  simp [drainCheck, h, hport, refuseIf, firstBad]

theorem drainCheck_consumer {p : Port} {q : Queue} (h : descDepth q.desc ≠ 0) (hport : consumerOf p = some (descConsumer q.desc)) :
    drainCheck p q = .ok := by
  simp [drainCheck, h, hport, refuseIf, firstBad]

theorem drainCh_refused {p : Port} {n : Ch} {s : Dev} {c : Nat} (h : drainCheck p (qFind (s.ch n).queues (rdP s oQueueSel p [n])) = .abort c) :
    drainCh p n s = (.refused c, s) := by
  unfold drainCh
  simp only [h]

theorem drainCh_done {p : Port} {n : Ch} {s : Dev} (h : drainCheck p (qFind (s.ch n).queues (rdP s oQueueSel p [n])) = .ok) :
    drainCh p n s =
      let i := rdP s oQueueSel p [n]
      let q := qFind (s.ch n).queues i
      let x := takeRecords 512 q.recs
      (.done (recordBytes8 x.1), updCh n (fun c => { c with queues := qPut c.queues i { q with recs := x.2 }, evTick := none }) s) := by
  unfold drainCh
  simp only [h, closeRun_queues]

theorem drainCtrl_refused {p : Port} {s : Dev} {c : Nat} (h : drainCheck p (qFind s.ctrlQueues (rdP s oCtrlQueueSel p [])) = .abort c) :
    drainCtrl p s = (.refused c, s) := by
  unfold drainCtrl
  simp only [h]

theorem drainCtrl_done {p : Port} {s : Dev} (h : drainCheck p (qFind s.ctrlQueues (rdP s oCtrlQueueSel p [])) = .ok) :
    drainCtrl p s =
      let i := rdP s oCtrlQueueSel p []
      let q := qFind s.ctrlQueues i
      let x := takeRecords 512 q.recs
      (.done (recordBytes8 x.1), { s with ctrlQueues := qPut s.ctrlQueues i { q with recs := x.2 } }) := by
  unfold drainCtrl
  simp only [h]

/-- Settles O25: each command's equation, and of a drain the verdict on its port and the run of records that it takes. -/
theorem queueCommands : Obligations.QueueCommands := by
  refine fun s p n hlive => ⟨fun q r t => ?_, fun q hserved hup hlow hhigh => ?_,
    fun hserves hopen hport hup hc hx => ?_, fun hserves hopen hport hc hx => ?_⟩
  · intro x hrecs hconsumer hruns
    refine ⟨fun hup => ?_, fun hdown => ?_⟩
    · exact ⟨_, completes_of_onDev rfl hlive (congrArg Host.Outcome.next (queueForward_of_up hrecs hconsumer hup hruns)), rfl, rfl, rfl, rfl⟩
    · exact completes_of_onDev rfl hlive (congrArg Host.Outcome.next (queueForward_of_down q.toNat hdown))
  · rw [← closeRun_queues]
    exact queueFlush_completes hserved hup hlow hhigh
  · intro i q
    have hdone := queueDrain_completes hlive hserves hopen hport hc hx hup
    refine ⟨fun h => ?_, fun h hother => ?_, fun h hconsumer => ?_⟩
    · rwa [drainCh_refused (drainCheck_unallocated p h)] at hdone
    · rwa [drainCh_refused (drainCheck_otherPort h hother)] at hdone
    · obtain ⟨j, hrun, hlimit⟩ := takeRecords_effect 512 q.recs
      rw [drainCh_done (drainCheck_consumer h hconsumer)] at hdone
      dsimp only at hdone
      rw [hrun] at hdone
      exact ⟨j, hdone, hlimit⟩
  · intro i q
    have hdone := ctrlQueueDrain_completes hlive hserves hopen hport hc hx
    refine ⟨fun h => ?_, fun h hconsumer => ?_⟩
    · rwa [drainCtrl_refused (drainCheck_unallocated p h)] at hdone
    · obtain ⟨j, hrun, hlimit⟩ := takeRecords_effect 512 q.recs
      rw [drainCtrl_done (drainCheck_consumer h hconsumer)] at hdone
      dsimp only at hdone
      rw [hrun] at hdone
      exact ⟨j, hdone, hlimit⟩

end Sys2Proof.Machine
end

section
/-! SUPPORT. Results and restarts of the post-processing engines (05, R165, R175, R176), and O26. -/

namespace Sys2Proof.Machine

/-! ### One engine rewritten -/

@[simp] theorem updPe_now (n : Ch) (i : Fin 2) (f : Pe → Pe) (s : Dev) : (updPe n i f s).now = s.now := rfl
@[simp] theorem rd_updPe (n : Ch) (i : Fin 2) (f : Pe → Pe) (s : Dev) (r : Row) (l : List Nat) : rd (updPe n i f s) r l = rd s r l := rfl
@[simp] theorem chanOnly_updPe (n : Ch) (i : Fin 2) (f : Pe → Pe) (s t : Dev) : chanOnly n s (updPe n i f t) ↔ chanOnly n s t := chanOnly_updCh n _ s t

@[simp] theorem updPe_ch (n : Ch) (i : Fin 2) (f : Pe → Pe) (s : Dev) :
    (updPe n i f s).ch n = { s.ch n with pes := (s.ch n).pes.set i (f (s.ch n).pes[i]) } := updCh_ch_self n _ s

theorem updPe_pe (n : Ch) (i : Fin 2) (f : Pe → Pe) (s : Dev) : ((updPe n i f s).ch n).pes[i] = f (s.ch n).pes[i] := by simp

theorem updPe_pe_of_ne {n : Ch} {i j : Fin 2} (f : Pe → Pe) (s : Dev) (h : j ≠ i) : ((updPe n i f s).ch n).pes[j] = (s.ch n).pes[j] := by
  have hval : i.val ≠ j.val := fun e => h (Fin.ext e.symm)
  simp [Vector.getElem_set_ne, hval]

/-! ### Records of a stream -/

/-- Every queue of the stream takes the record (R165). -/
theorem streamWrite_queues (n : Ch) (stream : Nat) (words : List Word64) (companion : Nat) (s : Dev) :
    ((streamWrite n stream words companion s).ch n).queues = (s.ch n).queues.map fun e =>
      if descStream e.2.desc = stream then (e.1, queueWrite (streamRecord stream words companion e.2) e.2) else e := by
  unfold streamWrite
  refine iteInduction (motive := fun d : Dev => (d.ch n).queues = _) (fun _ => ?_) fun _ => ?_ <;>
    simp [updCh_ch_self, chFault]

theorem streamWrite_pes (n : Ch) (stream : Nat) (words : List Word64) (companion : Nat) (s : Dev) :
    ((streamWrite n stream words companion s).ch n).pes = (s.ch n).pes := by
  have hpes := congrArg Chan.pes (streamWrite_besideEvents n stream words companion s)
  exact hpes

/-! ### The counters -/

/-- An object that each engine of a channel has is none that the channel has once (Table 5.13). -/
theorem keyOf_results_ne_chFault (n : Ch) (i : Fin 2) : keyOf oResults [n, i] 0 ≠ keyOf oChFault [n] 0 := by
  have hi := i.isLt
  rw [keyOf_chan rfl]
  simp only [keyOf, objKey, oResults, oChFault, dimsOff]
  omega

/-! ### PE_RESULT_WRITE -/

theorem peResultWrite_of_none {s : State} {n : Ch} {i : Fin 2} (hlive : Live s) (h : (s.dev.ch n).pes[i].ready = []) :
    Completes (.peResultWrite n i) s s.dev := by
  refine completes_of_onDev rfl hlive ?_
  dsimp only
  rw [peResultTick, if_pos h]

theorem peResultWrite_completes {s : State} {n : Ch} {i : Fin 2} (hlive : Live s) (h : (s.dev.ch n).pes[i].ready ≠ []) :
    Completes (.peResultWrite n i) s (peResult n i (settleDue s.nv ⟨s.dev.now, 3, 0⟩ [n] s.dev)) := by
  refine completes_of_onDev rfl hlive ?_
  dsimp only
  rw [peResultTick, if_neg h]
  dsimp only
  rw [Nat.max_self]

/-- The oldest result leaves for PE_LAST and the queues, and is counted (R175). -/
theorem peResult_of_ready {n : Ch} {i : Fin 2} {ws : List Word64} {c : Nat} {t : List (List Word64 × Nat)} {s : Dev}
    (h : (s.ch n).pes[i].ready = (ws, c) :: t) :
    peResult n i s = bump oResults [n, i] (streamWrite n (5 + i.val) ws c (updPe n i (fun x => { x with ready := t, last := ws }) s)) := by
  unfold peResult
  rw [h]

theorem rd_peResult {n : Ch} {i : Fin 2} (f : Pe → Pe) (stream : Nat) (ws : List Word64) (c : Nat) (s : Dev) :
    rd (bump oResults [n, i] (streamWrite n stream ws c (updPe n i f s))) oResults [n, i] = min (2 ^ 32 - 1) (rd s oResults [n, i] + 1) := by
  rw [rd_bump_word rfl, (streamWrite_step n stream ws c _).kept _ _ (keyOf_results_ne_chFault n i), rd_updPe]

/-! ### PE_RESTART -/

theorem plainRow_peRestart : PlainRow oPeRestart := ⟨by decide, by decide, rfl⟩

theorem ofChan_peRestart (n : Ch) (i : Fin 2) : ofChan n (oPeRestart.ix + dimsOff oPeRestart.dims [n.val, i.val]) := by
  have hi := i.isLt
  simp only [ofChan, oPeRestart, dimsOff]
  omega

/-- The index names its engine (R17). -/
theorem engineOf_peRestart (n : Ch) (i : Fin 2) :
    (if (placesOf oPeRestart (oPeRestart.ix + dimsOff oPeRestart.dims [n.val, i.val])).getD 1 0 = 0 then (0 : Fin 2) else 1) = i := by
  fin_cases n <;> fin_cases i <;> rfl

theorem arrayRow_peRestart (n : Ch) (i : Fin 2) : arrayRow (oPeRestart.ix + dimsOff oPeRestart.dims [n.val, i.val]) = false := by
  fin_cases n <;> fin_cases i <;> rfl

theorem directWrite_peRestart (p : Port) (n : Ch) (i : Fin 2) (data : List Byte) (nv : Nv) (s : Dev) :
    directWrite p oPeRestart (oPeRestart.ix + dimsOff oPeRestart.dims [n.val, i.val]) oPeRestart.sub data nv s = (.ok, peRestart n i s) := by
  have hin := ofChan_peRestart n i
  rw [directWrite_of_ofChan hin (ownedCheck_of_not_arrayRow (arrayRow_peRestart n i))]
  exact congrArg₂ (fun m k => (Verdict.ok, peRestart m k s)) (chOf_of_ofChan hin) (engineOf_peRestart n i)

/-- A block that held an input counts as discarded (R176). -/
def discardCounted (n : Ch) (i : Fin 2) (s : Dev) : Dev :=
  if (s.ch n).pes[i].used + (s.ch n).pes[i].skipped = 0 then s else bump oPartialDiscards [n, i] s

theorem peRestart_eq (n : Ch) (i : Fin 2) (s : Dev) : peRestart n i s = updPe n i peFresh (discardCounted n i s) := rfl

theorem discardCounted_effect (n : Ch) (i : Fin 2) (s : Dev) :
    chanOnly n s (discardCounted n i s) ∧ (discardCounted n i s).now = s.now ∧ (discardCounted n i s).ch n = s.ch n ∧
      (discardCounted n i s).fw = s.fw ∧ rd (discardCounted n i s) oPartialDiscards [n, i] =
        if (s.ch n).pes[i].used + (s.ch n).pes[i].skipped = 0 then rd s oPartialDiscards [n, i]
        else min (2 ^ 32 - 1) (rd s oPartialDiscards [n, i] + 1) := by
  unfold discardCounted
  split
  · exact ⟨.refl n s, rfl, rfl, rfl, rfl⟩
  · exact ⟨by simp, rfl, rfl, rfl, rd_bump_word rfl _ s⟩

theorem peRestart_completes {s : State} {p : Port} {n : Ch} {i : Fin 2} (v : BitVec 8) (hserved : Served s p oPeRestart) (hup : LinkUp s n.die) :
    Completes (.peRestart p n i v) s (done p (peRestart n i s.dev)) := by
  obtain ⟨hdie, hlink⟩ := reached_of_ofChan (ofChan_peRestart n i) hup
  obtain ⟨-, -, -, hfw, -⟩ := discardCounted_effect n i s.dev
  exact plainRow_peRestart.rowRequest hserved (rowOf_peRestart n i) (length_leBytes ..) hdie hlink rfl (directWrite_peRestart p n i _ _ _)
    (congrArg Firmware.held hfw)

/-- Settles O26: a result is a step of its engine, a record and a count; a restart is a count and a fresh engine. -/
theorem postProcessing : Obligations.PostProcessing := by
  refine fun s n i => ⟨peResultWrite_of_none, fun ws c t b hlive hready hb hfirst => ?_, fun p v hserved hup => ?_⟩
  · have hdone := peResultWrite_completes hlive hready
    rw [← hb, peResult_of_ready hfirst] at hdone
    refine ⟨_, hdone, by simp, by simp [bump, bumpBy], ?_, fun j hj => ?_, ?_, rd_peResult ..⟩
    · rw [bump_ch]
      simp only [streamWrite_pes]
      exact updPe_pe ..
    · rw [bump_ch]
      simp only [streamWrite_pes]
      exact updPe_pe_of_ne _ b hj
    · rw [bump_ch, streamWrite_queues, updPe_ch]
  · obtain ⟨honly, hnow, hch, -, hcount⟩ := discardCounted_effect n i s.dev
    refine ⟨_, peRestart_completes v hserved hup, ?_⟩
    rw [peRestart_eq]
    refine ⟨by simpa using honly, hnow, ?_, hcount⟩
    rw [updPe_pe, hch]
    rfl

end Sys2Proof.Machine
end

section
/-! SUPPORT. The law of a loop period (06, R186 to R188): what it computes from the period's samples, and what it leaves of the loop. -/

namespace Sys2Proof.Machine

/-! ### The law's quantities -/

/-- A value held between two bounds in order is clamped from below and from above. -/
theorem clampInt_eq_max_min {lo hi : Int} (h : lo ≤ hi) (i : Int) : clampInt lo hi i = max lo (min hi i) := by
  unfold clampInt
  split
  · omega
  · split <;> omega

/-- The quantity fed back: that of the controller in force (R186). -/
def lawMeasured (w : Law) (cur lim : Bool) : Int := if cur != lim then w.yi else w.yv

/-- The setpoint of the controller in force, in LIMIT the limit of its side (R186). -/
def lawSetpoint (l : Loop) (w : Law) (lim : Bool) : Int := if lim then (if l.sideLow then w.limLo else w.limHi) else w.r

def lawError (l : Loop) (w : Law) (cur lim : Bool) : Int := sat40 (lawSetpoint l w lim - lawMeasured w cur lim)

/-- The integrator before its back-calculation (R186). -/
def lawInteg (l : Loop) (w : Law) (cur lim : Bool) : Int := sat96 (l.integ + (if lim then l.set.kiL else l.set.ki) * lawError l w cur lim)

def lawShift (l : Loop) (lim : Bool) : Nat := if lim then l.set.shiftL else l.set.shift

/-- The output of the PID through the biquads, and their histories (R186, R187). -/
def lawChain (l : Loop) (w : Law) (cur lim : Bool) : Int × List BqHist :=
  biquads l.set.bqCount l.set.bqs l.bqs (sat40 (quotNearestAway (((if lim then l.set.kpL else l.set.kp) * lawError l w cur lim -
    (if lim then l.set.kdL else l.set.kd) * (lawMeasured w cur lim - l.yPrev.getD (lawMeasured w cur lim)) + lawInteg l w cur lim) *
    2 ^ lawShift l lim) (2 ^ 39)))

/-- The slew and the magnitude limits (R188). -/
def lawLimited (l : Loop) (w : Law) (cur lim : Bool) : Int :=
  max l.set.uMin (min l.set.uMax (max (l.uPrev - l.set.slewP) (min (l.uPrev + l.set.slewP) (lawChain l w cur lim).1)))

/-- The setpoint of the period before, in the first period that of the period itself (R186). -/
def lawBefore (l : Loop) (w : Law) (lim : Bool) : Int := if l.yPrev.isSome then l.rPrev else lawSetpoint l w lim

/-- The code handed off: with the feedforward of R186, in LIMIT without. -/
def lawCode (l : Loop) (w : Law) (cur lim : Bool) : Int :=
  if lim then lawLimited l w cur lim
  else sat40 (lawLimited l w cur lim +
    (l.set.ff0 * lawSetpoint l w lim + l.set.ff1 * (lawSetpoint l w lim - lawBefore l w lim)) * 2 ^ l.set.ffShift / 2 ^ 39)

/-- What the law commits and hands off (R186). -/
structure LawRun (l : Loop) (w : Law) (cur lim : Bool) (m : Loop) : Prop where
  integ : m.integ = if lawLimited l w cur lim = (lawChain l w cur lim).1 then lawInteg l w cur lim
    else sat96 (lawInteg l w cur lim - ((lawChain l w cur lim).1 - lawLimited l w cur lim) * 2 ^ (39 - lawShift l lim))
  bqs : m.bqs = (lawChain l w cur lim).2
  uPrev : m.uPrev = lawLimited l w cur lim
  yPrev : m.yPrev = some (lawMeasured w cur lim)
  rPrev : m.rPrev = lawSetpoint l w lim
  st : m.st = l.st
  uOut : m.uOut = l.uOut

/-- The law of R186 by its quantities. -/
theorem runLaw_effect {l : Loop} {lim : Bool} (hlim : onLimit l = lim) (hslew : 0 ≤ l.set.slewP) (hmag : l.set.uMin ≤ l.set.uMax) (w : Law)
    (cur : Bool) : LawRun l w cur lim (runLaw l w cur).1 ∧ (runLaw l w cur).2.1 = lawCode l w cur lim ∧ (runLaw l w cur).2.2 = lawError l w cur lim := by
  have hbefore : (match l.yPrev with | some _ => l.rPrev | none => lawSetpoint l w lim) = lawBefore l w lim := by
    unfold lawBefore
    cases l.yPrev <;> rfl
  have hwindow : l.uPrev - l.set.slewP ≤ l.uPrev + l.set.slewP := by omega
  unfold runLaw
  simp only [hlim, clampInt_eq_max_min hwindow, clampInt_eq_max_min hmag]
  unfold lawCode
  rw [← hbefore]
  cases lim <;> cases cur <;> exact ⟨⟨rfl, rfl, rfl, rfl, rfl, rfl, rfl⟩, rfl, rfl⟩

end Sys2Proof.Machine
end

section
/-! SUPPORT. The compliance step (06, R195; Table 6.3). -/

namespace Sys2Proof.Machine

/-- The value of the quantity that a transition makes the controlled one. -/
def incoming (w : Law) (cur : Bool) (go : Option Bool) : Int := match go with
  | some _ => if cur then w.yv else w.yi
  | none => if cur then w.yi else w.yv

/-- Periods in a row of one condition, with the present one (R195). -/
def inRow (l : Loop) (low : Bool) : Nat := if l.count ≠ 0 ∧ l.countLow = low then l.count + 1 else 1

section
variable {l : Loop} {w : Law} {cur auto : Bool}

theorem complianceStep_of_none (h : complianceNow l w cur auto = none) (need : Nat) : complianceStep l w cur auto need = { l with count := 0 } := by
  unfold complianceStep
  rw [h]

theorem complianceStep_of_some {go : Option Bool} (h : complianceNow l w cur auto = some go) (need : Nat) : complianceStep l w cur auto need =
    if need ≤ inRow l (go.getD false) then
      { l with count := inRow l (go.getD false), countLow := go.getD false, decided := some go, decidedY := incoming w cur go }
    else { l with count := inRow l (go.getD false), countLow := go.getD false } := by
  have hcount : (if l.count ≠ 0 && l.countLow = go.getD false then l.count + 1 else 1) = inRow l (go.getD false) := by simp [inRow]
  unfold complianceStep
  rw [h]
  dsimp only
  rw [hcount]
  cases go <;> cases cur <;> rfl

/-- The compliance step touches its counter and its decision alone. -/
theorem complianceStep_frame (l : Loop) (w : Law) (cur auto : Bool) (need : Nat) : ∃ c low t y,
    complianceStep l w cur auto need = { l with count := c, countLow := low, decided := t, decidedY := y } := by
  cases hnow : complianceNow l w cur auto with
  | none => exact ⟨_, _, _, _, complianceStep_of_none hnow need⟩
  | some go =>
    rw [complianceStep_of_some hnow]
    split
    · exact ⟨_, _, _, _, rfl⟩
    · exact ⟨_, _, _, _, rfl⟩

/-- A condition that holds is counted, and decides at its count. -/
theorem complianceStep_counts {go : Option Bool} (h : complianceNow l w cur auto = some go) (need : Nat) (hfree : l.decided = none) :
    (complianceStep l w cur auto need).count = inRow l (go.getD false) ∧ (complianceStep l w cur auto need).countLow = go.getD false ∧
      (need ≤ (complianceStep l w cur auto need).count →
        (complianceStep l w cur auto need).decided = some go ∧ (complianceStep l w cur auto need).decidedY = incoming w cur go) ∧
      ((complianceStep l w cur auto need).count < need → (complianceStep l w cur auto need).decided = none) := by
  rw [complianceStep_of_some h]
  split
  · next hneed => exact ⟨rfl, rfl, fun _ => ⟨rfl, rfl⟩, fun hfew => absurd hneed (Nat.not_le.mpr hfew)⟩
  · next hneed => exact ⟨rfl, rfl, fun hmany => absurd hmany hneed, fun _ => hfree⟩

end

/-! ### Table 6.3 -/

section
variable {l : Loop} {w : Law} {cur auto : Bool}

theorem complianceNow_primary (h : l.st = .primary) : complianceNow l w cur auto =
    if w.limHi < incoming w cur (some false) then some (some false)
    else if incoming w cur (some false) < w.limLo then some (some true) else none := by
  unfold complianceNow
  rw [h]
  cases cur <;> rfl

theorem complianceNow_limit (h : l.st = .limit) : complianceNow l w cur auto =
    if (if l.sideLow then incoming w cur none ≤ w.r else w.r ≤ incoming w cur none) ∧ (auto = true ∨ l.released = true) then some none else none := by
  unfold complianceNow
  rw [h]
  cases l.sideLow <;> cases cur <;> simp [incoming]

end

/-! ### Bumpless loads -/

theorem quotNearestAway_mul (i : Int) {den : Int} (h : 0 < den) : quotNearestAway (i * den) den = i := by
  have hround : ∀ j : Int, (2 * (j * den) + den) / (2 * den) = j := fun j => by
    rw [show 2 * (j * den) + den = den + j * (2 * den) by ring, Int.add_mul_ediv_right _ _ (by omega), Int.ediv_eq_zero_of_lt (by omega) (by omega),
      Int.zero_add]
  unfold quotNearestAway
  split
  · exact hround i
  · rw [← Int.neg_mul, hround (-i), Int.neg_neg]

/-- A load for zero error makes the PID reproduce an output of 40 bits (R195): the integrator, scaled by 2³⁹, is not saturated. -/
theorem integFor_reproduces {u : Int} {shift : Nat} (hshift : shift ≤ 16) (hlo : -(2 ^ 39) ≤ u) (hhi : u < 2 ^ 39) (kp kd : Int) :
    sat40 (quotNearestAway ((kp * 0 - kd * 0 + integFor u shift kp 0 kd 0) * 2 ^ shift) (2 ^ 39)) = u := by
  have hpow : (2 : Int) ^ (39 - shift) * 2 ^ shift = 2 ^ 39 := by rw [← pow_add, Nat.sub_add_cancel (by omega)]
  have hbound : (2 : Int) ^ (39 - shift) ≤ 2 ^ 39 := pow_le_pow_right₀ (by decide) (by omega)
  have hpos : (0 : Int) < 2 ^ (39 - shift) := by positivity
  have hinteg : integFor u shift kp 0 kd 0 = u * 2 ^ (39 - shift) := by
    have hlow : -(2 ^ 95 - 1) ≤ u * 2 ^ (39 - shift) := by nlinarith
    have hhigh : u * 2 ^ (39 - shift) ≤ 2 ^ 95 - 1 := by nlinarith
    simp only [integFor, sat96, Int.mul_zero, Int.sub_zero, Int.add_zero, clampInt]
    rw [if_neg (by omega), if_neg (by omega)]
  rw [hinteg, Int.mul_zero, Int.mul_zero, Int.sub_zero, Int.zero_add, Int.mul_assoc, hpow, quotNearestAway_mul u (by decide)]
  unfold sat40 satSigned clampInt
  rw [if_neg (by omega), if_neg (by omega)]

end Sys2Proof.Machine
end

section
/-! SUPPORT. The hand-off of a law (06, R181, R186, R191, R203), and O28. -/

namespace Sys2Proof.Machine

/-! ### The Loop Engine of one channel rewritten -/

@[simp] theorem updLoop_now (n : Ch) (f : Loop → Loop) (s : Dev) : (updLoop n f s).now = s.now := rfl
@[simp] theorem rd_updLoop (n : Ch) (f : Loop → Loop) (s : Dev) (r : Row) (l : List Nat) : rd (updLoop n f s) r l = rd s r l := rfl
@[simp] theorem chanOnly_updLoop (n : Ch) (f : Loop → Loop) (a b : Dev) : chanOnly n a (updLoop n f b) ↔ chanOnly n a b := chanOnly_updCh n _ a b
@[simp] theorem updLoop_ch (n : Ch) (f : Loop → Loop) (s : Dev) : (updLoop n f s).ch n = { s.ch n with loop := f (s.ch n).loop } := updCh_ch_self n _ s

/-- An object of a channel keeps its value when another of the channel's is written. -/
theorem rd_wr_chan {q r : Row} (hq : q.dims = [(0x100, 24)]) (hr : r.dims = [(0x100, 24)]) (h : objKey q.ix q.sub 0 ≠ objKey r.ix r.sub 0) (n : Ch)
    (v : Nat) (s : Dev) : rd (wr s r v [n]) q [n] = rd s q [n] := rd_wr_other _ _ _ _ _ _ (keyOf_chan_ne hq hr h n)

/-! ### The ticks of a law -/

theorem countUp_eq_min (max v k : Nat) : countUp max v k = min max (v + k) := by
  unfold countUp
  split <;> omega

/-- Ticks of a law with its ECC re-reads and its switch (R191). -/
def lawCost (l : Loop) (w : Law) (ecc : Nat) : Nat := costedNeed w.costs l.set.bqCount + w.extra + 6 * ecc

/-- The counters of a law that has taken its ticks (Table 6.7). -/
def lawCounted (n : Ch) (ecc cost : Nat) (s : Dev) : Dev :=
  wr (bumpBy oEccRetries ecc [n] s) oWorstTicks (min 65535 (max (rd (bumpBy oEccRetries ecc [n] s) oWorstTicks [n]) cost)) [n]

section
variable (n : Ch) (ecc cost : Nat) (s : Dev)

theorem lawCounted_frame : lawCounted n ecc cost s = { s with objs := (lawCounted n ecc cost s).objs } := rfl

theorem rd_lawCounted_of_ne {q : Row} (hq : q.dims = [(0x100, 24)]) (hecc : objKey q.ix q.sub 0 ≠ objKey oEccRetries.ix oEccRetries.sub 0)
    (hworst : objKey q.ix q.sub 0 ≠ objKey oWorstTicks.ix oWorstTicks.sub 0) : rd (lawCounted n ecc cost s) q [n] = rd s q [n] :=
  (rd_wr_chan hq rfl hworst n _ _).trans (rd_wr_chan hq rfl hecc n _ s)

theorem rd_lawCounted : rd (lawCounted n ecc cost s) oEccRetries [n] = min (2 ^ 32 - 1) (rd s oEccRetries [n] + ecc) ∧
    rd (lawCounted n ecc cost s) oWorstTicks [n] = min 65535 (max (rd s oWorstTicks [n]) cost) := by
  constructor
  · have hsize : min (2 ^ 32 - 1) (rd s oEccRetries [n] + ecc) < 2 ^ (8 * oEccRetries.size) := by simp only [oEccRetries]; omega
    calc rd (lawCounted n ecc cost s) oEccRetries [n]
      _ = rd (bumpBy oEccRetries ecc [n] s) oEccRetries [n] := rd_wr_chan rfl rfl (by decide) n _ _
      _ = countUp (2 ^ (8 * oEccRetries.size) - 1) (rd s oEccRetries [n]) ecc % 2 ^ (8 * oEccRetries.size) := rd_wr_same ..
      _ = min (2 ^ 32 - 1) (rd s oEccRetries [n] + ecc) := by
        rw [countUp_eq_min]
        exact Nat.mod_eq_of_lt hsize
  · have hkept : rd (bumpBy oEccRetries ecc [n] s) oWorstTicks [n] = rd s oWorstTicks [n] := rd_wr_chan rfl rfl (by decide) n _ s
    unfold lawCounted
    rw [rd_wr_same, hkept]
    exact Nat.mod_eq_of_lt (by simp only [oWorstTicks]; omega)

end

/-! ### The hand-off by its cases -/

/-- The frozen window with the period of the law in progress (R203). -/
def lawWindow (s : Dev) (n : Ch) (w : Law) (u : Int) : List (Int × Int) := ((w.last, u) :: (s.ch n).loop.window).take (rd s oFrozenPeriods [n])

/-- The tap-frozen test of R203 with that window. -/
def lawFreezes (s : Dev) (n : Ch) (w : Law) (u : Int) : Bool := frozenTest (rd s oFrozenPeriods [n]) (rd s oFrozenMove [n]) (lawWindow s n w u)

/-- The loop as the law commits it, with its compliance step (R186, R195). -/
def lawCommitted (s : Dev) (n : Ch) (w : Law) : Loop :=
  complianceStep { (runLaw (s.ch n).loop w (forcesCurrent s n)).1 with decided := none } w (forcesCurrent s n) (bitOf (rd s oLoopMode [n]) 1)
    (rd s oXoverCount [n])

section
variable {s : Dev} {n : Ch} {w : Law} {ecc : Nat}

theorem lawHandoff_eq : lawHandoff n ecc w s =
    let cost := lawCost (s.ch n).loop w ecc
    let q := runLaw (s.ch n).loop w (forcesCurrent s n)
    let t := lawCounted n ecc cost s
    if loopPeriod s n < cost then t
    else if lawFreezes s n w q.1.uPrev then updLoop n (fun l => { l with law := none, frozenFound := true }) (advance (w.b + cost) t)
    else updLoop n (fun _ => { lawCommitted s n w with law := none, handed := some q.2.1, window := lawWindow s n w q.1.uPrev })
      (wr (wr (advance (w.b + cost) t) oLoopErr (ofSigned 40 q.2.2) [n]) oLoopOut (ofSigned 40 q.2.1) [n]) := by
  have hread : ∀ q : Row, q ∈ [oLoopMode, oXoverCount, oFrozenPeriods, oFrozenMove] →
      rd (lawCounted n ecc (lawCost (s.ch n).loop w ecc) s) q [n] = rd s q [n] := fun q hq => by
    simp only [List.mem_cons, List.not_mem_nil, or_false] at hq
    obtain rfl | rfl | rfl | rfl := hq <;> exact rd_lawCounted_of_ne n ecc _ s rfl (by decide) (by decide)
  have hmode := hread oLoopMode (by simp)
  have hcount := hread oXoverCount (by simp)
  have hperiods := hread oFrozenPeriods (by simp)
  have hmove := hread oFrozenMove (by simp)
  unfold lawCommitted lawFreezes lawWindow forcesCurrent
  rw [← hmode, ← hcount, ← hperiods, ← hmove]
  rfl

end

/-! ### O28 -/

section
variable {s : State} {n : Ch} {w : Law} {ecc : Nat}

theorem lawHandoff_completes (hlive : Live s) (hlaw : (s.dev.ch n).loop.law = some w) :
    Completes (.lawHandoff n ecc) s (lawHandoff n ecc w s.dev) := completes_of_onDev rfl hlive (by simp only [hlaw])

end

/-- The state of a loop that is PRIMARY or LIMIT says which controller is in force. -/
theorem onLimit_of_closed {l : Loop} (h : l.st = .primary ∨ l.st = .limit) : onLimit l = decide (l.st = .limit) := by
  unfold onLimit
  obtain h | h := h <;> rw [h] <;> rfl

theorem forcesCurrent_eq (s : Dev) (n : Ch) : forcesCurrent s n = decide (rd s oLoopMode [n] % 2 = 1) := by
  simp only [forcesCurrent, beq_eq_decide]

/-- The device at the tick at which the law ends (R181). -/
def lawEnded (n : Ch) (ecc : Nat) (w : Law) (s : Dev) : Dev :=
  advance (w.b + lawCost (s.ch n).loop w ecc) (lawCounted n ecc (lawCost (s.ch n).loop w ecc) s)

section
variable {s : Dev} {n : Ch} {w : Law} {ecc : Nat} {cur lim : Bool}

theorem lawCommitted_run (h : LawRun (s.ch n).loop w cur lim (runLaw (s.ch n).loop w (forcesCurrent s n)).1) :
    LawRun (s.ch n).loop w cur lim (lawCommitted s n w) := by
  obtain ⟨c, low, go, y, hframe⟩ := complianceStep_frame { (runLaw (s.ch n).loop w (forcesCurrent s n)).1 with decided := none } w (forcesCurrent s n)
    (bitOf (rd s oLoopMode [n]) 1) (rd s oXoverCount [n])
  unfold lawCommitted
  rw [hframe]
  exact ⟨h.integ, h.bqs, h.uPrev, h.yPrev, h.rPrev, h.st, h.uOut⟩

/-- What every law that ends in its period leaves beside its loop and the objects LOOP_OUT and LOOP_ERR. -/
structure LawStep (n : Ch) (ecc cost : Nat) (tick : Nat) (s d : Dev) : Prop where
  only : chanOnly n s d
  now : d.now = max s.now tick
  counted : rd d oEccRetries [n] = min (2 ^ 32 - 1) (rd s oEccRetries [n] + ecc) ∧
    rd d oWorstTicks [n] = min 65535 (max (rd s oWorstTicks [n]) cost)
  src : (d.ch n).src = (s.ch n).src

theorem lawEnded_step (n : Ch) (ecc : Nat) (w : Law) (s : Dev) :
    LawStep n ecc (lawCost (s.ch n).loop w ecc) (w.b + lawCost (s.ch n).loop w ecc) s (lawEnded n ecc w s) where
  only := by simp [lawEnded, lawCounted, bumpBy]
  now := rfl
  counted := rd_lawCounted n ecc _ s
  src := rfl

/-- A frozen tap discards the law (R203). -/
theorem lawHandoff_of_frozen (hfit : ¬ loopPeriod s n < lawCost (s.ch n).loop w ecc)
    (hrun : LawRun (s.ch n).loop w cur lim (runLaw (s.ch n).loop w (forcesCurrent s n)).1)
    (hfrozen : lawFreezes s n w (lawLimited (s.ch n).loop w cur lim) = true) :
    lawHandoff n ecc w s = updLoop n (fun l => { l with law := none, frozenFound := true }) (lawEnded n ecc w s) := by
  rw [lawHandoff_eq]
  dsimp only
  rw [if_neg hfit, hrun.uPrev, if_pos hfrozen]
  rfl

/-- The device at the end of a law, with LOOP_ERR and LOOP_OUT as the law shows them (Table 6.7). -/
def lawShown (n : Ch) (ecc : Nat) (w : Law) (e u : Int) (s : Dev) : Dev :=
  wr (wr (lawEnded n ecc w s) oLoopErr (ofSigned 40 e) [n]) oLoopOut (ofSigned 40 u) [n]

theorem lawShown_step (n : Ch) (ecc : Nat) (w : Law) (e u : Int) (s : Dev) :
    LawStep n ecc (lawCost (s.ch n).loop w ecc) (w.b + lawCost (s.ch n).loop w ecc) s (lawShown n ecc w e u s) := by
  obtain ⟨honly, hnow, ⟨hecc, hworst⟩, hsrc⟩ := lawEnded_step n ecc w s
  have hkept : ∀ {q : Row}, q.dims = [(0x100, 24)] → objKey q.ix q.sub 0 ≠ objKey oLoopErr.ix oLoopErr.sub 0 →
      objKey q.ix q.sub 0 ≠ objKey oLoopOut.ix oLoopOut.sub 0 → rd (lawShown n ecc w e u s) q [n] = rd (lawEnded n ecc w s) q [n] :=
    fun hq herr hout => (rd_wr_chan hq rfl hout n _ _).trans (rd_wr_chan hq rfl herr n _ _)
  refine ⟨by simpa [lawShown] using honly, hnow, ⟨?_, ?_⟩, hsrc⟩
  · rw [hkept rfl (by decide) (by decide), hecc]
  · rw [hkept rfl (by decide) (by decide), hworst]

theorem rd_lawShown (n : Ch) (ecc : Nat) (w : Law) (e u : Int) (s : Dev) :
    rd (lawShown n ecc w e u s) oLoopErr [n] = ofSigned 40 e ∧ rd (lawShown n ecc w e u s) oLoopOut [n] = ofSigned 40 u := by
  constructor
  · exact (rd_wr_chan rfl rfl (by decide) n _ _).trans ((rd_wr_same ..).trans (ofSigned_mod 40 e))
  · exact (rd_wr_same ..).trans (ofSigned_mod 40 u)

/-- Else it commits and hands off its code (R186). -/
theorem lawHandoff_of_live (hfit : ¬ loopPeriod s n < lawCost (s.ch n).loop w ecc)
    (hrun : LawRun (s.ch n).loop w cur lim (runLaw (s.ch n).loop w (forcesCurrent s n)).1)
    (hlive : lawFreezes s n w (lawLimited (s.ch n).loop w cur lim) = false) :
    lawHandoff n ecc w s = updLoop n (fun _ => { lawCommitted s n w with
        law := none, handed := some (runLaw (s.ch n).loop w (forcesCurrent s n)).2.1, window := lawWindow s n w (lawLimited (s.ch n).loop w cur lim) })
      (lawShown n ecc w (runLaw (s.ch n).loop w (forcesCurrent s n)).2.2 (runLaw (s.ch n).loop w (forcesCurrent s n)).2.1 s) := by
  rw [lawHandoff_eq]
  dsimp only
  rw [if_neg hfit, hrun.uPrev, if_neg (by simp [hlive])]
  rfl

theorem LawStep.updLoop {cost tick : Nat} {d : Dev} (h : LawStep n ecc cost tick s d) (f : Loop → Loop) : LawStep n ecc cost tick s (updLoop n f d) :=
  ⟨by simpa using h.only, h.now, h.counted, by simpa using h.src⟩

end

/-- A law that has taken more ticks than the period changes nothing but its counters (R191, R194). -/
theorem lawHandoff_of_late {s : Dev} {n : Ch} {w : Law} {ecc : Nat} (hlate : loopPeriod s n < lawCost (s.ch n).loop w ecc) :
    lawHandoff n ecc w s = lawCounted n ecc (lawCost (s.ch n).loop w ecc) s := by
  rw [lawHandoff_eq]
  exact if_pos hlate

/-- Settles O28: the hand-off by its three cases, the compliance step by Table 6.3, and the bumpless load. -/
theorem loopLaw : Obligations.LoopLaw := by
  refine ⟨fun s n w ecc hlive hlaw => ?_, fun c h x => rfl, fun l w cur auto need hfree => ?_,
    fun u shift kp kd hshift hlo hhi => integFor_reproduces hshift hlo hhi kp kd⟩
  · intro l i cost counted
    refine ⟨fun hlate => ⟨_, lawHandoff_completes hlive hlaw, ?_⟩, ?_⟩
    · rw [lawHandoff_of_late hlate]
      exact ⟨lawCounted_frame .., rd_lawCounted ..⟩
    intro hfit hst cur lim y r kp ki kd shift e pd integ bq u win hslew hmag
    have hfits : ¬ loopPeriod s.dev n < lawCost (s.dev.ch n).loop w ecc := Nat.not_lt.mpr hfit
    have heffect : ∀ c, c = cur → LawRun l w cur lim (runLaw l w c).1 ∧ (runLaw l w c).2.1 = lawCode l w cur lim ∧
        (runLaw l w c).2.2 = lawError l w cur lim := by
      rintro _ rfl
      exact runLaw_effect (onLimit_of_closed hst) hslew hmag w cur
    obtain ⟨hrun, hcode, herror⟩ := heffect _ (forcesCurrent_eq s.dev n)
    have hdone := lawHandoff_completes (ecc := ecc) hlive hlaw
    cases hfrozen : lawFreezes s.dev n w u with
    | true =>
      have hstep := (lawEnded_step n ecc w s.dev).updLoop fun l => { l with law := none, frozenFound := true }
      rw [lawHandoff_of_frozen hfits hrun hfrozen] at hdone
      refine ⟨_, hdone, hstep.only, hstep.now, hstep.counted, hstep.src, fun _ => ⟨?_, ?_⟩, fun hmoves => absurd (hfrozen.symm.trans hmoves) (by simp)⟩
      · rw [updLoop_ch]
        rfl
      · exact rd_lawCounted_of_ne n ecc _ s.dev rfl (by decide) (by decide)
    | false =>
      have hcommit := lawCommitted_run hrun
      have hstep := (lawShown_step n ecc w (lawError l w cur lim) (lawCode l w cur lim) s.dev).updLoop fun _ => { lawCommitted s.dev n w with
        law := none, handed := some (lawCode l w cur lim), window := lawWindow s.dev n w u }
      obtain ⟨hshownErr, hshownOut⟩ := rd_lawShown n ecc w (lawError l w cur lim) (lawCode l w cur lim) s.dev
      rw [lawHandoff_of_live hfits hrun hfrozen, hcode, herror] at hdone
      refine ⟨_, hdone, hstep.only, hstep.now, hstep.counted, hstep.src, fun hfreezes => absurd (hfrozen.symm.trans hfreezes) (by simp), fun _ => ?_⟩
      refine ⟨lawCode l w cur lim, fun hlim => if_pos hlim, fun rp hlim hprev hrp => ?_, ?_, hshownOut, hshownErr, ?_⟩
      · have hbefore : lawBefore l w lim = rp := (if_pos hprev).trans hrp
        have hr : lawSetpoint l w lim = w.r := if_neg (by rw [hlim]; simp)
        have hlive : ¬ lim = true := by rw [hlim]; simp
        unfold lawCode
        rw [if_neg hlive, hbefore, hr]
        rfl
      · rw [updLoop_ch]
      · rw [updLoop_ch]
        exact ⟨rfl, hcommit.integ, hcommit.bqs, hcommit.uPrev, hcommit.yPrev, hcommit.rPrev, rfl, hcommit.st, hcommit.uOut⟩
  · intro prim lim m counts
    have holds : ∀ go, complianceNow l w cur auto = some go → counts (go.getD false) go (incoming w cur go) := fun go hnow =>
      complianceStep_counts hnow need hfree
    refine ⟨fun hst hhi => ?_, fun hst hhi hlo => ?_, fun hst hhi hlo => ?_, fun hst hauto hside => ?_, fun hst hauto hreleased => ?_⟩
    · exact holds (some false) ((complianceNow_primary hst).trans (if_pos hhi))
    · exact holds (some true) ((complianceNow_primary hst).trans ((if_neg (Int.not_lt.mpr hhi)).trans (if_pos hlo)))
    · exact complianceStep_of_none ((complianceNow_primary hst).trans ((if_neg (Int.not_lt.mpr hhi)).trans (if_neg (Int.not_lt.mpr hlo)))) need
    · exact holds none ((complianceNow_limit hst).trans (if_pos ⟨hside, hauto⟩))
    · refine complianceStep_of_none ((complianceNow_limit hst).trans (if_neg ?_)) need
      rintro ⟨-, hauto' | hreleased'⟩
      · exact absurd (hauto.symm.trans hauto') (by simp)
      · exact absurd (hreleased.symm.trans hreleased') (by simp)

end Sys2Proof.Machine
end

section
/-! SUPPORT. Refutes O27: a write of COAST_MAX that waits for the crossover period of a range change takes effect there (06, R200), before the coasting
period is counted against it (R184, R203), while the statement compares the run with the value in force before the boundary. -/

namespace Sys2Proof.Machine

/-- A loop period boundary acts after what R51 puts before its tick. -/
theorem loopPeriodBoundary_completes {s : State} (hlive : Live s) (n : Ch) : Completes (.loopPeriodBoundary n) s
    (loopBoundary n (settleDue s.nv ⟨max s.dev.now (boundaryTick s.dev n), 3, 0⟩ [n] s.dev)) := completes_of_onDev rfl hlive rfl

/-- The crossover of a range change with ρ = 1: the states are scaled at the first boundary at or after tick 2458, and COAST_MAX 1 waits for it. -/
def coastMaxXover : LoopXover := ⟨2458, 7865, 1, 100, false, .primary, [(keyOf oCoastMax [0] 0, 1)]⟩

/-- A released device whose channel 0 coasts through that range change, one period so far, with COAST_MAX 1024 in force and every tap sample of the
period present. -/
def coastMaxWaits : State :=
  let released : Dev := { State.reset.dev with supply := { State.reset.dev.supply with released := true } }
  { State.reset with dev := updLoop 0 (fun l => { l with
    st := .rangeXover, xover := some coastMaxXover, coastRun := 1, boundary := 2400, tapV := [(some 0, false)], tapI := [(some 0, false)] }) released }

/-- The device at the loop period boundary of tick 2560, after what R51 puts before it. -/
def coastMaxReached : Dev :=
  settleDue coastMaxWaits.nv ⟨max coastMaxWaits.dev.now (boundaryTick coastMaxWaits.dev 0), 3, 0⟩ [0] coastMaxWaits.dev

/-- What acts before the boundary leaves the loop and COAST_MAX as they were. -/
theorem coastMaxReached_loop : (coastMaxReached.ch 0).loop = (coastMaxWaits.dev.ch 0).loop ∧ (coastMaxReached.ch 0).loopBefore.isNone = true ∧
    rd coastMaxReached oLoopRate [(0 : Ch).val] = 0 ∧ rd coastMaxReached oCoastMax [(0 : Ch).val] = 1024 := by decide +kernel

/-- With COAST_MAX 1 in force the second period in a row that coasts is a loss (R203). -/
theorem coastMaxReached_lost : ((loopBoundary 0 coastMaxReached).ch 0).loop.st = .safeHold := by decide +kernel

/-- Refutes O27 by its clause of a range change that coasts: at the crossover period the loop leaves RANGE_XOVER for the channel safe state. -/
theorem not_loopPeriods : ¬ Obligations.LoopPeriods := by
  intro h
  obtain ⟨-, hclosed⟩ := h coastMaxWaits 0 coastMaxReached rfl rfl
  obtain ⟨hloop, hbefore, hrate, hmax⟩ := coastMaxReached_loop
  rw [hloop, hrate, hmax] at hclosed
  obtain ⟨hxover, -⟩ := hclosed fun u m hm => by
    rw [Option.isNone_iff_eq_none.mp hbefore] at hm
    cases hm
  obtain ⟨d, hd, -, -, hst, -⟩ := hxover coastMaxXover rfl rfl ⟨rfl, rfl⟩ (by decide) rfl (by decide) rfl
  rw [ch_of_completes hd (loopPeriodBoundary_completes (s := coastMaxWaits) rfl 0) 0] at hst
  exact absurd (coastMaxReached_lost.symm.trans hst) (by decide)

end Sys2Proof.Machine
end

section
/-! SUPPORT. Refutes O29: it speaks of every bit of LOOP_FAULT in every state, while a write stores the 8 bits of the object's type (06, Table 6.7). A
store that lists a wider value, which no write of the model makes, loses its upper bits to any write. -/

namespace Sys2Proof.Machine

theorem ofChan_loopFault (n : Ch) : ofChan n (oLoopFault.ix + dimsOff oLoopFault.dims [n.val]) := ofChan_of_lt n (o := 0x61) (by decide)

theorem directWrite_loopFault (p : Port) (n : Ch) (data : List Byte) (nv : Nv) (s : Dev) :
    directWrite p oLoopFault (oLoopFault.ix + dimsOff oLoopFault.dims [n.val]) oLoopFault.sub data nv s = loopFaultClear n (ofBytes data) s := by
  rw [directWrite_of_ofChan (ofChan_loopFault n) (ownedCheck_of_not_arrayRow (not_arrayRow_of (o := 0x61) (by decide)))]
  exact congrArg (fun m => loopFaultClear m (ofBytes data) s) (chOf_of_ofChan (ofChan_loopFault n))

theorem loopFaultClear_of_open {n : Ch} {s : Dev} (h : (s.ch n).loop.st = .openState) (v : Nat) :
    loopFaultClear n v s = (.ok, wr s oLoopFault (clearMask 8 (rd s oLoopFault [n]) v) [n]) := by
  unfold loopFaultClear
  rw [h]

/-- LOOP_FAULT bits written 1 clear while the loop is OPEN (R206). -/
theorem loopFaultClear_completes {s : State} {p : Port} {n : Ch} {v : BitVec 8} (hserved : Served s p oLoopFault) (hup : LinkUp s n.die)
    (hv : v.toNat < 16) (hst : (s.dev.ch n).loop.st = .openState) : Completes (.loopFaultClear p n v) s
      (done p (wr s.dev oLoopFault (clearMask 8 (rd s.dev oLoopFault [n]) v.toNat) [n])) := by
  obtain ⟨hlive, hserves, hopen, hmay, hport⟩ := hserved
  obtain ⟨hdie, hlink⟩ := reached_of_ofChan (ofChan_loopFault n) hup
  have hdata : ofBytes (leBytes 1 v.toNat) = v.toNat := (ofBytes_leBytes 1 _).trans (Nat.mod_eq_of_lt v.isLt)
  have hwrite := directWrite_loopFault p n (leBytes 1 v.toNat) s.nv s.dev
  rw [hdata, loopFaultClear_of_open hst] at hwrite
  have hlength : lengthOk oLoopFault (leBytes 1 v.toNat).length = true := by
    rw [length_leBytes]
    rfl
  have hcheck : directCheck oLoopFault s.dev (leBytes 1 v.toNat) = .ok := by
    have hbits : directCheck oLoopFault s.dev (leBytes 1 v.toNat) = if 16 ≤ ofBytes (leBytes 1 v.toNat) then .reserved else .ok := rfl
    rw [hbits, hdata, if_neg (Nat.not_le.mpr hv)]
  exact onDev_acts hlive (request_done (rowOf_loopFault n) hserves hopen hmay hlength hdie (by decide) rfl hcheck hwrite
    (writeWaits_of_no_hold hport hlink) rfl)

/-- An answer touches no object, and what follows every command IRQ_STATUS and CH_FAULT alone. -/
theorem rd_after_done {r : Row} {places : List Nat} (hirq : keyOf r places 0 ≠ keyOf oIrqStatus [] 0)
    (hfault : ∀ n : Nat, keyOf r places 0 ≠ keyOf oChFault [n] 0) (a : Dev) (p : Port) (d : Dev) : rd (after a (done p d)) r places = rd d r places :=
  (rd_after_of_ne hirq hfault a (done p d)).trans (rd_of_objs _ _ _ _ (setAnswer_objs ..))

/-- A released device with Port N in OP and the link of Channel die 0 ACTIVE, whose store lists 256 for LOOP_FAULT of channel 0. -/
def wideLoopFault : State :=
  let start := State.reset.dev
  { State.reset with dev := { start with
    supply := { start.supply with released := true }
    control := { start.control with running := true }
    portN := { start.portN with al := .op }
    dies := start.dies.set 0 { DieState.atReset with link := { DieState.atReset.link with st := .active } }
    objs := [(keyOf oLoopFault [0] 0, 256)] } }

theorem wideLoopFault_served : Served wideLoopFault .n oLoopFault := ⟨rfl, by decide +kernel, by decide +kernel, by decide +kernel, by decide +kernel⟩

/-- The device after a write of LOOP_FAULT that clears no bit. -/
def loopFaultRewritten : Dev :=
  wr wideLoopFault.dev oLoopFault (clearMask 8 (rd wideLoopFault.dev oLoopFault [(0 : Ch).val]) (0 : BitVec 8).toNat) [(0 : Ch).val]

theorem wideLoopFault_completes : Completes (.loopFaultClear .n 0 0) wideLoopFault (done .n loopFaultRewritten) :=
  loopFaultClear_completes wideLoopFault_served rfl (by decide) rfl

/-- Refutes O29 by its clause of LOOP_FAULT: bit 8 is not written 1, and it clears. -/
theorem not_loopCommands : ¬ Obligations.LoopCommands := by
  intro h
  obtain ⟨-, -, hfault, -⟩ := h wideLoopFault .n 0 rfl
  obtain ⟨hopen, -⟩ := hfault wideLoopFault_served rfl 0 (by decide)
  obtain ⟨d, hd, -, hbits⟩ := hopen rfl
  have hirq : keyOf oLoopFault [(0 : Ch).val] 0 ≠ keyOf oIrqStatus [] 0 := by decide
  have hchan : ∀ n : Nat, keyOf oLoopFault [(0 : Ch).val] 0 ≠ keyOf oChFault [n] 0 := fun n => by
    simp [keyOf, objKey, dimsOff, oLoopFault, oChFault]
    omega
  have hafter : rd d oLoopFault [(0 : Ch).val] = 0 :=
    calc rd d oLoopFault [(0 : Ch).val]
      _ = rd (after wideLoopFault.dev (done .n d)) oLoopFault [(0 : Ch).val] := (rd_after_done hirq hchan ..).symm
      _ = rd (after wideLoopFault.dev (done .n loopFaultRewritten)) oLoopFault [(0 : Ch).val] := by
        rw [after_of_completes hd wideLoopFault_completes]
      _ = rd loopFaultRewritten oLoopFault [(0 : Ch).val] := rd_after_done hirq hchan ..
      _ = 0 := by decide +kernel
  have hbefore : rd wideLoopFault.dev oLoopFault [(0 : Ch).val] = 256 := by decide +kernel
  have hbit := hbits 8
  rw [hafter, hbefore] at hbit
  exact absurd hbit (by decide)

end Sys2Proof.Machine
end

section
/-! SUPPORT. Refutes O33: it speaks of every bit of VEC_FAIL in every state, while a write stores the 8 bits of the object's type (07, R236). A
store that lists a wider value, which no write of the model makes, loses its upper bits to the failure of a lane. -/

namespace Sys2Proof.Machine

/-- The comparison of a Course whose lane slot 0 is expected high, begun at tick 0. -/
def highExpected : Drive × Nat × Nat := (⟨0, 0, 2, none, false⟩, 0, 0)

/-- A released device at tick 100000 whose channel 0 compares lane slot 0, mapped to lane 0 and no Cut source, and whose store lists 256 for VEC_FAIL of
that channel. -/
def wideVecFail : State :=
  let start := State.reset.dev
  { State.reset with dev := updSeq 0 (fun q => { q with compare := [highExpected] }) { start with
    now := 100000
    supply := { start.supply with released := true }
    objs := [(keyOf oVecFail [0] 0, 256), (keyOf oVecMap [0] 0, 0)] } }

/-- A lane sample at the comparisons of a channel: each one that it fails has its failure (R236). -/
def laneSampled (n : Ch) (x : LaneSample) (s : Dev) : Dev :=
  let fails := compareFails s n x.lane.val x.level x.held.toNat
  (List.range ((s.ch n).seq.compare.filter fails).length).foldl (fun s _ => laneFailed n x.lane.val s)
    (updSeq n (fun q => { q with compare := q.compare.map fun e => if fails e then (e.1, e.2.1, setBit e.2.2 x.lane.val) else e }) s)

theorem vectorCompareFailure_completes {s : State} (hlive : Live s) (n : Ch) (x : LaneSample) :
    Completes (.vectorCompareFailure n x) s (laneSampled n x s.dev) := completes_of_onDev rfl hlive rfl

/-- The lane slot, low for 255 ticks where high is expected, leaves bit 0 alone of the value listed. -/
theorem rd_laneSampled_wideVecFail : rd (laneSampled 0 ⟨0, false, 255⟩ wideVecFail.dev) oVecFail [(0 : Ch).val] = 1 := by decide +kernel

/-- Refutes O33 by its clause of VEC_FAIL: bit 8 is none of a lane's, and it clears. -/
theorem not_vectorsAndMarkers : ¬ Obligations.VectorsAndMarkers := by
  intro h
  obtain ⟨-, -, hlane, -⟩ := h wideVecFail 0 rfl
  obtain ⟨-, hfails⟩ := hlane 0 false 255
  obtain ⟨d, hd, -, -, -, hbits, -⟩ := hfails (by decide +kernel) (by decide +kernel)
  have hirq : keyOf oVecFail [(0 : Ch).val] 0 ≠ keyOf oIrqStatus [] 0 := by decide
  have hchan : ∀ n : Nat, keyOf oVecFail [(0 : Ch).val] 0 ≠ keyOf oChFault [n] 0 := fun n => by
    simp [keyOf, objKey, dimsOff, oVecFail, oChFault]
    omega
  have hafter : rd d oVecFail [(0 : Ch).val] = 1 :=
    calc rd d oVecFail [(0 : Ch).val]
      _ = rd (after wideVecFail.dev d) oVecFail [(0 : Ch).val] := (rd_after_of_ne hirq hchan ..).symm
      _ = rd (after wideVecFail.dev (laneSampled 0 ⟨0, false, 255⟩ wideVecFail.dev)) oVecFail [(0 : Ch).val] := by
        rw [after_of_completes hd (vectorCompareFailure_completes (s := wideVecFail) rfl 0 _)]
      _ = rd (laneSampled 0 ⟨0, false, 255⟩ wideVecFail.dev) oVecFail [(0 : Ch).val] := rd_after_of_ne hirq hchan ..
      _ = 1 := rd_laneSampled_wideVecFail
  have hbefore : rd wideVecFail.dev oVecFail [(0 : Ch).val] = 256 := by decide +kernel
  rw [hafter, hbefore] at hbits
  exact absurd hbits (by decide)

end Sys2Proof.Machine
end

section
/-! SUPPORT. Operations on the Sequencer of one channel (07): what a read finds after each of them, and what a decision point leaves of the device. -/

namespace Sys2Proof.Machine

/-! ### One Sequencer rewritten -/

@[simp] theorem updSeq_now (n : Ch) (f : Seq → Seq) (s : Dev) : (updSeq n f s).now = s.now := rfl
@[simp] theorem updSeq_objs (n : Ch) (f : Seq → Seq) (s : Dev) : (updSeq n f s).objs = s.objs := rfl
@[simp] theorem updSeq_dies (n : Ch) (f : Seq → Seq) (s : Dev) : (updSeq n f s).dies = s.dies := rfl
@[simp] theorem rd_updSeq (n : Ch) (f : Seq → Seq) (s : Dev) (r : Row) (l : List Nat) : rd (updSeq n f s) r l = rd s r l := rfl
@[simp] theorem chanOnly_updSeq (n : Ch) (f : Seq → Seq) (a b : Dev) : chanOnly n a (updSeq n f b) ↔ chanOnly n a b := chanOnly_updCh n _ a b

@[simp] theorem updSeq_ch (n : Ch) (f : Seq → Seq) (s : Dev) : (updSeq n f s).ch n = { s.ch n with seq := f (s.ch n).seq } := updCh_ch_self n _ s

theorem updSeq_updSeq (n : Ch) (f g : Seq → Seq) (s : Dev) : updSeq n f (updSeq n g s) = updSeq n (fun q => f (g q)) s := updCh_updCh n _ _ s

theorem updSeq_congr {n : Ch} {f g : Seq → Seq} {s : Dev} (h : f (s.ch n).seq = g (s.ch n).seq) : updSeq n f s = updSeq n g s :=
  updCh_congr (congrArg (fun q => { s.ch n with seq := q }) h)

theorem updSeq_eq_self {n : Ch} {f : Seq → Seq} {s : Dev} (h : f (s.ch n).seq = (s.ch n).seq) : updSeq n f s = s :=
  updCh_eq_self (f := fun c => { c with seq := f c.seq }) (by rw [h])

@[simp] theorem slotPos_updSeq (n : Ch) (f : Seq → Seq) (s : Dev) (j : Nat) : slotPos (updSeq n f s) n j = slotPos s n j := by simp [slotPos]

@[simp] theorem slotTick_updSeq (n : Ch) (f : Seq → Seq) (s : Dev) (j : Nat) : slotTick (updSeq n f s) n j = slotTick s n j := by
  simp [slotTick, dieRecs]

/-- A channel event is none of its Sequencer (R162). -/
@[simp] theorem chEvent_seq (n : Ch) (code arg : Nat) (s : Dev) : ((chEvent n code arg s).ch n).seq = (s.ch n).seq := by
  have hseq := congrArg Chan.seq (chEvent_besideEvents n code arg s)
  exact hseq

/-- The groups of the Control die replaced. -/
def withGroups (g : Groups) (s : Dev) : Dev := { s with groups := g }

@[simp] theorem withGroups_ch (g : Groups) (s : Dev) (n : Ch) : (withGroups g s).ch n = s.ch n := rfl
@[simp] theorem withGroups_now (g : Groups) (s : Dev) : (withGroups g s).now = s.now := rfl
@[simp] theorem rd_withGroups (g : Groups) (s : Dev) (r : Row) (l : List Nat) : rd (withGroups g s) r l = rd s r l := rfl
@[simp] theorem slotPos_withGroups (g : Groups) (s : Dev) (n : Ch) (j : Nat) : slotPos (withGroups g s) n j = slotPos s n j := rfl
@[simp] theorem slotTick_withGroups (g : Groups) (s : Dev) (n : Ch) (j : Nat) : slotTick (withGroups g s) n j = slotTick s n j := rfl

@[simp] theorem chPos_updSeq (n : Ch) (f : Seq → Seq) (s : Dev) : chPos (updSeq n f s) n = chPos s n := rfl
@[simp] theorem chPos_withGroups (g : Groups) (s : Dev) (n : Ch) : chPos (withGroups g s) n = chPos s n := rfl

theorem wr_updSeq (n : Ch) (f : Seq → Seq) (s : Dev) (r : Row) (v : Nat) (l : List Nat) : wr (updSeq n f s) r v l = updSeq n f (wr s r v l) := rfl
theorem wr_withGroups (g : Groups) (s : Dev) (r : Row) (v : Nat) (l : List Nat) : wr (withGroups g s) r v l = withGroups g (wr s r v l) := rfl
theorem updSeq_withGroups (n : Ch) (f : Seq → Seq) (g : Groups) (s : Dev) : updSeq n f (withGroups g s) = withGroups g (updSeq n f s) := rfl

/-! ### What a decision point touches -/

/-- From `a` to `b` only objects, groups and channel n have changed. -/
structure SeqStep (n : Ch) (a b : Dev) : Prop where
  frame : b = { a with objs := b.objs, chans := b.chans, groups := b.groups }
  others : ∀ k : Ch, k ≠ n → b.ch k = a.ch k

namespace SeqStep

variable {n : Ch} {a b c : Dev}

theorem refl (n : Ch) (s : Dev) : SeqStep n s s := ⟨rfl, fun _ _ => rfl⟩

theorem trans (h : SeqStep n a b) (g : SeqStep n b c) : SeqStep n a c where
  frame := by
    rw [g.frame, h.frame]
  others := fun k hk => (g.others k hk).trans (h.others k hk)

theorem ite {p : Prop} [Decidable p] (hb : SeqStep n a b) (hc : SeqStep n a c) : SeqStep n a (if p then b else c) :=
  iteInduction (fun _ => hb) fun _ => hc

theorem symm (h : SeqStep n a b) : SeqStep n b a where
  frame := by rw [h.frame]
  others := fun k hk => (h.others k hk).symm

theorem now (h : SeqStep n a b) : b.now = a.now := by rw [h.frame]
theorem dies (h : SeqStep n a b) : b.dies = a.dies := by rw [h.frame]

/-- Time and records stand, and with them the position. -/
theorem chPos (h : SeqStep n a b) : chPos b n = chPos a n := by
  unfold Machine.chPos dieRecs
  rw [h.now, h.dies]

theorem updCh (n : Ch) (f : Chan → Chan) (s : Dev) : SeqStep n s (updCh n f s) := ⟨rfl, fun _ hk => updCh_ch_of_ne f s hk⟩
theorem updSeq (n : Ch) (f : Seq → Seq) (s : Dev) : SeqStep n s (updSeq n f s) := updCh n _ s
theorem updMark (n : Ch) (m : Nat) (f : Marker → Marker) (s : Dev) : SeqStep n s (updMark n m f s) := updSeq n _ s
theorem wr (n : Ch) (s : Dev) (r : Row) (v : Nat) (l : List Nat) : SeqStep n s (wr s r v l) := ⟨rfl, fun _ _ => rfl⟩
theorem withGroups (n : Ch) (g : Groups) (s : Dev) : SeqStep n s (withGroups g s) := ⟨rfl, fun _ _ => rfl⟩

theorem chEvent (n : Ch) (code arg : Nat) (s : Dev) : SeqStep n s (chEvent n code arg s) := by
  obtain ⟨honly, hnow, -, -⟩ := chEvent_step n code arg s
  refine ⟨?_, fun k hk => honly.ch_of_ne hk⟩
  rw [honly.frame, hnow]

end SeqStep

end Sys2Proof.Machine
end

section
/-! SUPPORT. Samples, waits and Course starts at a decision point (07, R213, R216, R217, R236, R238). -/

namespace Sys2Proof.Machine

/-! ### The code of a slot -/

/-- From `a` to `b` the code of slot `j` is the last one, and stands in the source queue under R213. -/
structure Supplied (n : Ch) (j : Nat) (code : Int) (a b : Dev) : Prop extends SeqStep n a b where
  seq : (b.ch n).seq = { (a.ch n).seq with last := code }
  kept : ∀ r l, keyOf r l 0 ≠ keyOf oOverflows [n] 0 → rd b r l = rd a r l
  other : rd a oSrcQOwner [n] ≠ 2 → (b.ch n).src = (a.ch n).src
  queued : rd a oSrcQOwner [n] = 2 → rd a oSrcOrigin [n] = 1 → (a.ch n).src.st = .running → (a.ch n).src.queue.length < 4096 →
    (b.ch n).src.queue = (a.ch n).src.queue ++ [codeEntry (some j) code]

/-- The source takes codes of slot `j`: it runs then, or its enable sequence is over by then. -/
def sourceLive (n : Ch) (j : Nat) (s : Dev) : Bool :=
  match (s.ch n).src.st, (s.ch n).src.enableT with
  | .running, _ => true
  | .enabling, some t => t + usTicks (enableUs s n + rd s oRelaySettleUs [n]) ≤ slotTick s n j
  | _, _ => false

theorem supply_eq (n : Ch) (j : Nat) (code : Int) (s : Dev) : supply n j code s =
    if rd s oSrcQOwner [n] = 2 && sourceLive n j s && queueFeeds s n then
      srcQueueAppend n (some j) [code] (updSeq n (fun q => { q with last := code }) s)
    else updSeq n (fun q => { q with last := code }) s := rfl

theorem supply_supplied (n : Ch) (j : Nat) (code : Int) (s : Dev) : Supplied n j code s (supply n j code s) := by
  have hstep := SeqStep.updSeq n (fun q => { q with last := code }) s
  rw [supply_eq]
  split
  · by_cases hroom : (s.ch n).src.queue.length + 1 ≤ srcQueueDepth
    · rw [srcQueueAppend_of_fits n _ _ _ (by simpa using hroom)]
      exact ⟨hstep.trans (.updCh ..), by simp, fun _ _ _ => rfl, fun hother => by simp_all, fun _ _ _ _ => by simp⟩
    · have hfull : srcQueueAppend n (some j) [code] (updSeq n (fun q => { q with last := code }) s) =
          bump oOverflows [n] (updSeq n (fun q => { q with last := code }) s) := if_neg (by simpa using hroom)
      rw [hfull]
      exact ⟨hstep.trans (.wr ..), by simp, fun r l hr => rd_bump_of_ne hr _, fun _ => by simp, fun _ _ _ hfew => absurd hfew hroom⟩
  · next hnot =>
    refine ⟨hstep, by simp, fun _ _ _ => rfl, fun _ => by simp, fun howner horigin hst _ => absurd ?_ hnot⟩
    simp [howner, queueFeeds_of_queue horigin, sourceLive, hst]

/-! ### Markers -/

/-- From `a` to `b` the markers of the channel alone have changed. -/
def MarkStep (n : Ch) (a b : Dev) : Prop := ∃ x y, b = updSeq n (fun q => { q with markA := x, markB := y }) a

theorem MarkStep.refl (n : Ch) (s : Dev) : MarkStep n s s := ⟨_, _, (updSeq_eq_self rfl).symm⟩

theorem MarkStep.trans {n : Ch} {a b c : Dev} (h : MarkStep n a b) (g : MarkStep n b c) : MarkStep n a c := by
  obtain ⟨_, _, rfl⟩ := h
  obtain ⟨x, y, rfl⟩ := g
  exact ⟨x, y, updSeq_updSeq ..⟩

theorem MarkStep.ite {n : Ch} {s a b : Dev} {c : Prop} [Decidable c] (ha : MarkStep n s a) (hb : MarkStep n s b) :
    MarkStep n s (if c then a else b) := iteInduction (fun _ => ha) fun _ => hb

theorem updMark_step (n : Ch) (m : Nat) (f : Marker → Marker) (s : Dev) : MarkStep n s (updMark n m f s) := by
  refine ⟨if m = 0 then f (s.ch n).seq.markA else (s.ch n).seq.markA, if m = 0 then (s.ch n).seq.markB else f (s.ch n).seq.markB, updSeq_congr ?_⟩
  by_cases hm : m = 0 <;> simp [hm]

theorem markAt_step (n : Ch) (m slot : Nat) (k : MarkKind) (s : Dev) : MarkStep n s (markAt n m slot k s) := updMark_step ..

theorem MarkStep.foldl {n : Ch} {f : Dev → Nat → Dev} (h : ∀ s m, MarkStep n s (f s m)) (l : List Nat) (s : Dev) : MarkStep n s (l.foldl f s) :=
  List.foldlRecOn (motive := fun d => MarkStep n s d) _ _ (.refl n s) fun d hd m _ => hd.trans (h d m)

theorem markStart_step (n : Ch) (slot : Nat) (old : Nat → Nat) (c : Nat) (s : Dev) : MarkStep n s (markStart n slot old c s) := by
  refine .foldl (fun d m => ?_) _ s
  have hedge : MarkStep n d (if coMark c m = 1 && old m ≠ 1 then markAt n m slot .up d
      else if coMark c m ≠ 1 && old m = 1 then markAt n m slot .down d else d) := .ite (markAt_step ..) (.ite (markAt_step ..) (.refl n d))
  exact .ite (hedge.trans (markAt_step ..)) hedge

theorem markEnd_step (n : Ch) (slot c : Nat) (s : Dev) : MarkStep n s (markEnd n slot c s) :=
  .foldl (fun d _ => .ite (markAt_step ..) (.refl n d)) _ s

theorem markSegment_step (n : Ch) (slot c : Nat) (s : Dev) : MarkStep n s (markSegment n slot c s) :=
  .foldl (fun d _ => .ite (markAt_step ..) (.refl n d)) _ s

/-! ### Samples -/

/-- The sample last decided, and a pending Cut armed by it (R229). -/
theorem playSample_eq (n : Ch) (j : Nat) (s : Dev) :
    let q := (s.ch n).seq
    let c := courseOf q q.bank q.idx
    playSample n j s = updSeq n (fun x => { x with landing := x.landing || (q.cut.isSome && lastOfUnit c q.seg q.i) })
      (supply n j (courseCode c q.last q.seg q.i) s) := by
  dsimp only
  unfold playSample
  dsimp only
  split
  · next h => exact updSeq_congr (by simp [h])
  · next h => exact (updSeq_eq_self (by simp [h])).symm

end Sys2Proof.Machine
end

section
/-! SUPPORT. What follows the end of a Course, a Cut or a swap (07, R216 to R219, R242; Table 7.12): HELD, the wait of the entry chosen, or END_HOLD. -/

namespace Sys2Proof.Machine

/-! ### Steps of a Course -/

/-- A Sequencer without what a Course, its wait and a hold go through: bank, entry, hold causes, Cut, banks and their states are left. -/
def Seq.besideCourse (q : Seq) : Seq :=
  { q with
    st := .stopped, seg := 0, i := 0, last := 0, wait := none, chosen := none, landing := false, starts := [], segs := [], drives := [],
    compare := [], markA := ⟨⟨false, none⟩, ⟨false, none⟩, []⟩, markB := ⟨⟨false, none⟩, ⟨false, none⟩, []⟩, marksLow := false, played := 0 }

/-- From `a` to `b` the channel goes on with the entry it stands at, and no Cut lands. -/
structure CourseStep (n : Ch) (a b : Dev) : Prop extends SeqStep n a b where
  seq : (b.ch n).seq.besideCourse = (a.ch n).seq.besideCourse
  landing : (a.ch n).seq.cut = none → (b.ch n).seq.landing = (a.ch n).seq.landing
  kept : ∀ r l, keyOf r l 0 ≠ keyOf oOverflows [n] 0 → keyOf r l 0 ≠ keyOf oHoldPos [n] 0 → rd b r l = rd a r l

namespace CourseStep

variable {n : Ch} {a b c : Dev}

theorem refl (n : Ch) (s : Dev) : CourseStep n s s := ⟨.refl n s, rfl, fun _ => rfl, fun _ _ _ _ => rfl⟩

theorem bank (h : CourseStep n a b) : (b.ch n).seq.bank = (a.ch n).seq.bank := by simpa [Seq.besideCourse] using congrArg Seq.bank h.seq
theorem idx (h : CourseStep n a b) : (b.ch n).seq.idx = (a.ch n).seq.idx := by simpa [Seq.besideCourse] using congrArg Seq.idx h.seq
theorem cut (h : CourseStep n a b) : (b.ch n).seq.cut = (a.ch n).seq.cut := by simpa [Seq.besideCourse] using congrArg Seq.cut h.seq
theorem swaps (h : CourseStep n a b) : (b.ch n).seq.swaps = (a.ch n).seq.swaps := by simpa [Seq.besideCourse] using congrArg Seq.swaps h.seq

theorem bankState (h : CourseStep n a b) (k : Nat) : bankState (b.ch n).seq k = bankState (a.ch n).seq k := by
  have hstate : Machine.bankState (b.ch n).seq.besideCourse k = Machine.bankState (a.ch n).seq.besideCourse k := by rw [h.seq]
  exact hstate

theorem trans (h : CourseStep n a b) (g : CourseStep n b c) : CourseStep n a c :=
  ⟨h.toSeqStep.trans g.toSeqStep, g.seq.trans h.seq, fun hc => (g.landing (h.cut.trans hc)).trans (h.landing hc),
    fun r l ho hp => (g.kept r l ho hp).trans (h.kept r l ho hp)⟩

theorem ite {p : Prop} [Decidable p] (hb : CourseStep n a b) (hc : CourseStep n a c) : CourseStep n a (if p then b else c) :=
  iteInduction (fun _ => hb) fun _ => hc

/-- A rewrite of what a Course goes through. -/
theorem updSeq {f : Seq → Seq} {s : Dev} (hseq : (f (s.ch n).seq).besideCourse = (s.ch n).seq.besideCourse)
    (hlanding : (s.ch n).seq.cut = none → (f (s.ch n).seq).landing = (s.ch n).seq.landing) : CourseStep n s (updSeq n f s) :=
  ⟨.updSeq n f s, by simpa using hseq, by simpa using hlanding, fun _ _ _ _ => rfl⟩

theorem withGroups (n : Ch) (g : Groups) (s : Dev) : CourseStep n s (withGroups g s) :=
  ⟨.withGroups .., rfl, fun _ => rfl, fun _ _ _ _ => rfl⟩

end CourseStep

theorem MarkStep.course {n : Ch} {a b : Dev} (h : MarkStep n a b) : CourseStep n a b := by
  obtain ⟨x, y, rfl⟩ := h
  exact .updSeq rfl fun _ => rfl

theorem supply_course (n : Ch) (j : Nat) (code : Int) (s : Dev) : CourseStep n s (supply n j code s) := by
  have h := supply_supplied n j code s
  exact ⟨h.toSeqStep, by rw [h.seq]; rfl, fun _ => by rw [h.seq], fun r l ho _ => h.kept r l ho⟩

theorem playSample_course (n : Ch) (j : Nat) (s : Dev) : CourseStep n s (playSample n j s) := by
  rw [playSample_eq]
  exact (supply_course ..).trans (.updSeq rfl fun hcut => by simp [(supply_course ..).cut.symm.trans hcut])

/-! ### Waits -/

/-- A wait ends; a group may be told (R232). -/
theorem endWait_eq (n : Ch) (s : Dev) : ∃ g, endWait n s = withGroups g (updSeq n (fun q => { q with wait := none }) s) := by
  unfold endWait
  dsimp only
  split
  · split
    · exact ⟨_, rfl⟩
    · exact ⟨s.groups, rfl⟩
  · exact ⟨s.groups, rfl⟩

theorem waitRelease_of_no_wait {s : Dev} {n : Ch} {c : Nat} (h : coWait c = 0) (j : Nat) : waitRelease s n c j = some (.pos (slotPos s n j)) := by
  simp only [waitRelease, h]

/-- A wait begins; an entry with no condition is released at its slot (Table 7.3). -/
theorem beginWait_eq (n : Ch) (e j : Nat) (s : Dev) : ∃ g r,
    beginWait n e j s = withGroups g (updSeq n (fun q => { q with st := .waiting, idx := e, wait := some ⟨s.now, j, r⟩ }) s) ∧
      (coWait (courseOf (s.ch n).seq (s.ch n).seq.bank e) = 0 → r = some (.pos (slotPos s n j))) := by
  obtain ⟨g, hend⟩ := endWait_eq n s
  have hcourse : courseOf ((endWait n s).ch n).seq ((endWait n s).ch n).seq.bank e = courseOf (s.ch n).seq (s.ch n).seq.bank e := by
    rw [hend, withGroups_ch, updSeq_ch]
    rfl
  have hpos : slotPos (endWait n s) n j = slotPos s n j := by rw [hend, slotPos_withGroups, slotPos_updSeq]
  have hbegin : ∀ r, updSeq n (fun q => { q with st := .waiting, idx := e, wait := some ⟨(endWait n s).now, j, r⟩ }) (endWait n s) =
      withGroups g (updSeq n (fun q => { q with st := .waiting, idx := e, wait := some ⟨s.now, j, r⟩ }) s) := fun r => by
    rw [hend, updSeq_withGroups, updSeq_updSeq]
    rfl
  have hrelease := fun h : coWait (courseOf (s.ch n).seq (s.ch n).seq.bank e) = 0 => (waitRelease_of_no_wait (s := endWait n s) (n := n) h j)
  unfold beginWait
  dsimp only
  rw [hcourse, hbegin]
  rw [hpos] at hrelease
  split
  · exact ⟨_, _, rfl, hrelease⟩
  · exact ⟨_, _, rfl, hrelease⟩

theorem beginWait_course (n : Ch) (e j : Nat) (s : Dev) : CourseStep n (updSeq n (fun q => { q with idx := e }) s) (beginWait n e j s) := by
  obtain ⟨g, r, hbegin, -⟩ := beginWait_eq n e j s
  have hwait : beginWait n e j s = withGroups g (updSeq n (fun q => { q with st := .waiting, wait := some ⟨s.now, j, r⟩ })
      (updSeq n (fun q => { q with idx := e }) s)) := by
    rw [hbegin, updSeq_updSeq]
  rw [hwait]
  exact (CourseStep.updSeq rfl fun _ => rfl).trans (.withGroups ..)

/-! ### Course starts -/

theorem startCourse_course (n : Ch) (j : Nat) (old : Nat → Nat) (s : Dev) : CourseStep n s (startCourse n j old s) := by
  unfold startCourse
  exact (CourseStep.updSeq rfl fun _ => rfl).trans ((markStart_step ..).course.trans (playSample_course ..))

theorem tryStart_course (n : Ch) (j : Nat) (old : Nat → Nat) (s : Dev) : CourseStep n s (tryStart n j old s) := by
  unfold tryStart
  dsimp only
  split
  · split
    · exact .ite (startCourse_course ..) (supply_course ..)
    · exact supply_course ..
  · exact supply_course ..

/-- A Course plays from its first sample, and will be in progress from its slot on (R217, R218). -/
theorem startCourse_plays (n : Ch) (j : Nat) (old : Nat → Nat) (s : Dev) :
    let q := (s.ch n).seq
    let c := courseOf q q.bank q.idx
    let p := ((startCourse n j old s).ch n).seq
    p.st = .playing ∧ p.seg = 0 ∧ p.i = 0 ∧ p.last = courseCode c q.last 0 0 ∧ p.starts = q.starts ++ [⟨j, q.bank, q.idx, coMcfg c⟩] := by
  unfold startCourse
  dsimp only
  generalize hs : updSeq n _ s = t
  obtain ⟨x, y, hm⟩ := markStart_step n j old (courseOf (s.ch n).seq (s.ch n).seq.bank (s.ch n).seq.idx) t
  rw [playSample_eq, hm, updSeq_ch, (supply_supplied ..).seq, ← hs]
  simp [courseOf, bankTable]

/-- The slot of a position never acts before the position itself (R49, R64). -/
theorem tickNear_le_slotTick (s : Dev) (n : Ch) (j : Nat) : tickNear (dieRecs s n) (slotPos s n j) ≤ slotTick s n j := by
  have hstamp : ∀ (d : DieState) (x : Nat), x ≤ actStamp d x := fun d x => by
    unfold actStamp
    split <;> omega
  have hact := hstamp s.dies[n.die] (stampNear (dieRecs s n) (slotPos s n j))
  unfold tickNear slotTick
  omega

/-- An entry with no condition and no delay starts at the slot at which its wait begins (R216, R217). -/
theorem tryStart_beginWait {n : Ch} {e j : Nat} {s : Dev} (old : Nat → Nat)
    (hwait : coWait (courseOf (s.ch n).seq (s.ch n).seq.bank e) = 0) (hdelay : coDelay (courseOf (s.ch n).seq (s.ch n).seq.bank e) = 0)
    (hunit : coDunit (courseOf (s.ch n).seq (s.ch n).seq.bank e) = false) :
    tryStart n j old (beginWait n e j s) = startCourse n j old (beginWait n e j s) := by
  obtain ⟨g, r, hbegin, hrelease⟩ := beginWait_eq n e j s
  rw [hrelease hwait] at hbegin
  have hseq := congrArg Chan.seq (updSeq_ch n (fun q => { q with st := .waiting, idx := e, wait := some ⟨s.now, j, some (.pos (slotPos s n j))⟩ }) s)
  have hcourse : courseOf ((beginWait n e j s).ch n).seq ((beginWait n e j s).ch n).seq.bank ((beginWait n e j s).ch n).seq.idx =
      courseOf (s.ch n).seq (s.ch n).seq.bank e := by
    rw [hbegin, withGroups_ch, hseq]
    rfl
  have hw : ((beginWait n e j s).ch n).seq.wait = some ⟨s.now, j, some (.pos (slotPos s n j))⟩ := by rw [hbegin, withGroups_ch, hseq]
  have htick : releaseTick (beginWait n e j s) n (courseOf (s.ch n).seq (s.ch n).seq.bank e) (.pos (slotPos s n j)) ≤
      slotTick (beginWait n e j s) n j := by
    have hpos : slotPos (beginWait n e j s) n j = slotPos s n j := by rw [hbegin, slotPos_withGroups, slotPos_updSeq]
    have hle := tickNear_le_slotTick (beginWait n e j s) n j
    rw [hpos] at hle
    simpa [releaseTick, hunit, hdelay] using hle
  unfold tryStart
  dsimp only
  rw [hw, hcourse]
  exact if_pos htick

end Sys2Proof.Machine
end

section
/-! SUPPORT. HELD, END_HOLD and the entry chosen next (07, R219, R242; Table 7.12). -/

namespace Sys2Proof.Machine

/-! ### HELD -/

/-- The Sequencer as it becomes HELD: no wait and no comparison, the markers low. -/
def heldSeq (next : Option Nat) (q : Seq) : Seq :=
  { q with
    st := .held, wait := none, chosen := next, marksLow := true, compare := [], drives := q.drives.map fun d => { d with vcmp := 0 },
    markA := ⟨⟨false, none⟩, ⟨false, none⟩, []⟩, markB := ⟨⟨false, none⟩, ⟨false, none⟩, []⟩ }

theorem enterHeld_eq (n : Ch) (next : Option Nat) (s : Dev) :
    ∃ g, enterHeld n next s = withGroups g (updSeq n (heldSeq next) (wr s oHoldPos (chPos s n) [n])) := by
  obtain ⟨g, hend⟩ := endWait_eq n s
  refine ⟨g, ?_⟩
  unfold enterHeld markersLow
  dsimp only
  rw [hend, chPos_withGroups, chPos_updSeq, wr_withGroups, wr_updSeq, updSeq_updSeq, updSeq_withGroups, updSeq_updSeq]
  rfl

theorem enterHeld_course (n : Ch) (next : Option Nat) (s : Dev) : CourseStep n s (enterHeld n next s) := by
  obtain ⟨g, h⟩ := enterHeld_eq n next s
  have hpos : CourseStep n s (wr s oHoldPos (chPos s n) [n]) :=
    ⟨.wr .., rfl, fun _ => rfl, fun r l _ hr => rd_wr_other _ _ _ _ _ _ hr⟩
  rw [h]
  exact hpos.trans ((CourseStep.updSeq rfl fun _ => rfl).trans (.withGroups ..))

/-- What HELD shows (Table 7.12): the entry chosen next, markers low, nothing compared, and its position. -/
theorem enterHeld_held (n : Ch) (next : Option Nat) (s : Dev) :
    let d := enterHeld n next s
    (d.ch n).seq.st = .held ∧ (d.ch n).seq.chosen = next ∧ markLevels (d.ch n).seq = 0 ∧ (d.ch n).seq.compare = [] ∧ (d.ch n).src = (s.ch n).src ∧
      rd d oHoldPos [n] = chPos d n := by
  obtain ⟨g, h⟩ := enterHeld_eq n next s
  have hch : (enterHeld n next s).ch n = { s.ch n with seq := heldSeq next (s.ch n).seq } := by
    rw [h, withGroups_ch, updSeq_ch]
    rfl
  refine ⟨by rw [hch]; rfl, by rw [hch]; rfl, by rw [hch]; rfl, by rw [hch]; rfl, by rw [hch], ?_⟩
  rw [(enterHeld_course n next s).chPos, h, rd_withGroups, rd_updSeq, rd_wr_same]
  exact Nat.mod_eq_of_lt (posOf_lt ..)

/-! ### The entry chosen next -/

/-- The entry a Sequencer stands at after a Course end, a Cut or a swap: the one chosen, unless a hold or END_HOLD keeps it. -/
def entryAfter (q : Seq) (next : Option Nat) : Nat := if holdCause q then q.idx else next.getD q.idx

section
variable {n : Ch} {s : Dev} {next prev : Option Nat} {j : Nat}

theorem goNext_of_hold (h : holdCause (s.ch n).seq = true) : goNext n next prev j s = enterHeld n next s := if_pos h

theorem goNext_of_none (h : holdCause (s.ch n).seq = false) :
    goNext n none prev j s = supply n j (s.ch n).seq.last (updSeq n (fun q => { q with st := .endHold }) s) := if_neg (by simp [h])

/-- The Course before ended at this decision: its markers' edges follow those of the Course that starts (R238). -/
theorem goNext_of_some {e : Nat} (h : holdCause (s.ch n).seq = false) : ∃ old,
    let t := tryStart n j old (beginWait n e j s)
    goNext n (some e) prev j s = (if (t.ch n).seq.st = .playing then t else match prev with
      | some c => markEnd n j c t
      | none => t) :=
  ⟨_, if_neg (by simp [h])⟩

end

theorem goNext_course (n : Ch) (next prev : Option Nat) (j : Nat) (s : Dev) :
    CourseStep n (updSeq n (fun q => { q with idx := entryAfter (s.ch n).seq next }) s) (goNext n next prev j s) := by
  cases hhold : holdCause (s.ch n).seq with
  | true =>
    rw [goNext_of_hold hhold, updSeq_eq_self (by simp [entryAfter, hhold])]
    exact enterHeld_course ..
  | false =>
    cases next with
    | none =>
      rw [goNext_of_none hhold, updSeq_eq_self (by simp [entryAfter])]
      exact (CourseStep.updSeq rfl fun _ => rfl).trans (supply_course ..)
    | some e =>
      obtain ⟨old, h⟩ := goNext_of_some (prev := prev) (j := j) (e := e) hhold
      have hstart := (beginWait_course n e j s).trans (tryStart_course n j old _)
      have hentry : entryAfter (s.ch n).seq (some e) = e := by simp [entryAfter, hhold]
      rw [h, hentry]
      refine .ite hstart ?_
      cases prev with
      | none => exact hstart
      | some c => exact hstart.trans (markEnd_step ..).course

/-- With no hold an entry without condition and delay plays at once (R217). -/
theorem goNext_plays {n : Ch} {e j : Nat} {s : Dev} (prev : Option Nat) (hhold : holdCause (s.ch n).seq = false)
    (hwait : coWait (courseOf (s.ch n).seq (s.ch n).seq.bank e) = 0) (hdelay : coDelay (courseOf (s.ch n).seq (s.ch n).seq.bank e) = 0)
    (hunit : coDunit (courseOf (s.ch n).seq (s.ch n).seq.bank e) = false) :
    let q := (s.ch n).seq
    let c := courseOf q q.bank e
    let p := ((goNext n (some e) prev j s).ch n).seq
    p.st = .playing ∧ p.bank = q.bank ∧ p.idx = e ∧ p.seg = 0 ∧ p.i = 0 ∧ p.last = courseCode c q.last 0 0 ∧
      p.starts = q.starts ++ [⟨j, q.bank, e, coMcfg c⟩] := by
  obtain ⟨old, h⟩ := goNext_of_some (prev := prev) (j := j) (e := e) hhold
  obtain ⟨g, r, hbegin, -⟩ := beginWait_eq n e j s
  have hseq : ((beginWait n e j s).ch n).seq = { (s.ch n).seq with st := .waiting, idx := e, wait := some ⟨s.now, j, r⟩ } := by
    rw [hbegin, withGroups_ch, updSeq_ch]
  obtain ⟨hst, hseg, hi, hlast, hstarts⟩ := startCourse_plays n j old (beginWait n e j s)
  have hcourse := goNext_course n (some e) prev j s
  have hbank := hcourse.bank
  have hidx := hcourse.idx
  rw [hseq] at hlast hstarts
  dsimp only at h
  rw [tryStart_beginWait old hwait hdelay hunit, if_pos hst] at h
  rw [updSeq_ch] at hbank hidx
  rw [h] at hbank hidx ⊢
  exact ⟨hst, hbank, hidx.trans (by simp [entryAfter, hhold]), hseg, hi, hlast, hstarts⟩

end Sys2Proof.Machine
end

section
/-! SUPPORT. Course ends, patches, swaps and Cuts at a decision point (07, R219, R220, R223 to R231). -/

namespace Sys2Proof.Machine

theorem goNext_step (n : Ch) (next prev : Option Nat) (j : Nat) (s : Dev) : SeqStep n s (goNext n next prev j s) :=
  (SeqStep.updSeq ..).trans (goNext_course ..).toSeqStep

/-! ### Patches -/

/-- From `a` to `b` a patch has landed at most (R226). -/
structure PatchStep (n : Ch) (a b : Dev) : Prop extends SeqStep n a b where
  seq : ∃ x y p, (b.ch n).seq = { (a.ch n).seq with bankA := x, bankB := y, patch := p }
  kept : ∀ r l, keyOf r l 0 ≠ keyOf oPatches [n] 0 → rd b r l = rd a r l

theorem PatchStep.refl (n : Ch) (s : Dev) : PatchStep n s s := ⟨.refl n s, ⟨_, _, _, rfl⟩, fun _ _ _ => rfl⟩

theorem landPatch_step (n : Ch) (p : Patch) (s : Dev) : PatchStep n s (landPatch n p s) := by
  unfold landPatch clearCrr
  refine ⟨(SeqStep.updSeq ..).trans ((SeqStep.updCh ..).trans (.wr ..)), ?_, fun r l hr => rd_bump_of_ne hr _⟩
  rw [bump_ch, updCh_ch_self, updSeq_ch]
  unfold setCourse
  split
  · exact ⟨_, _, _, rfl⟩
  · exact ⟨_, _, _, rfl⟩

theorem patchEnd_step (n : Ch) (b e : Nat) (s : Dev) : PatchStep n s (patchEnd n b e s) := by
  unfold patchEnd
  split
  · exact iteInduction (fun _ => landPatch_step ..) fun _ => .refl n s
  · exact .refl n s

theorem patchEnd_of_none {n : Ch} {s : Dev} (h : (s.ch n).seq.patch = none) (b e : Nat) : patchEnd n b e s = s := by
  unfold patchEnd
  rw [h]

/-! ### Course ends -/

theorem stopCompare_eq (j : Nat) (q : Seq) : ∃ x y, stopCompare j q = { q with drives := x, compare := y } := by
  unfold stopCompare
  split
  · exact ⟨_, _, rfl⟩
  · split
    · exact ⟨_, _, rfl⟩
    · exact ⟨_, _, rfl⟩

/-- At the end of a Course its segments are counted and its comparison gets its end (R236). -/
theorem closeCourse_eq (n : Ch) (j : Nat) (s : Dev) : ∃ x y, closeCourse n j s =
    updSeq n (fun q => { q with segs := ((j, q.seg + 1) :: q.segs).take 16, drives := x, compare := y }) s := by
  obtain ⟨x, y, h⟩ := stopCompare_eq j { (s.ch n).seq with segs := ((j, (s.ch n).seq.seg + 1) :: (s.ch n).seq.segs).take 16 }
  exact ⟨x, y, updSeq_congr h⟩

section
variable {n : Ch} {j c : Nat} {s : Dev}

theorem closeCourse_patch (h : (s.ch n).seq.patch = none) (b e : Nat) : patchEnd n b e (closeCourse n j s) = closeCourse n j s := by
  obtain ⟨x, y, hclose⟩ := closeCourse_eq n j s
  exact patchEnd_of_none (by rw [hclose, updSeq_ch]; exact h) b e

theorem courseEnd_of_next (hpatch : (s.ch n).seq.patch = none) (hlast : (s.ch n).seq.idx ≠ rd s oBankEnd [n, (s.ch n).seq.bank])
    (hfull : (s.ch n).seq.idx ≠ 8191) : courseEnd n j c s = goNext n (some ((s.ch n).seq.idx + 1)) (some c) j (closeCourse n j s) := by
  unfold courseEnd
  dsimp only
  rw [closeCourse_patch hpatch]
  exact (if_neg hlast).trans (if_neg hfull)

theorem courseEnd_of_swap (hpatch : (s.ch n).seq.patch = none) (hlast : (s.ch n).seq.idx = rd s oBankEnd [n, (s.ch n).seq.bank])
    (hready : bankState (s.ch n).seq (1 - (s.ch n).seq.bank) = .ready) : courseEnd n j c s = bankSwap n (some c) j (closeCourse n j s) := by
  unfold courseEnd
  dsimp only
  rw [closeCourse_patch hpatch]
  exact (if_pos hlast).trans (if_pos hready)

theorem courseEnd_of_end (hpatch : (s.ch n).seq.patch = none) (hlast : (s.ch n).seq.idx = rd s oBankEnd [n, (s.ch n).seq.bank])
    (hready : bankState (s.ch n).seq (1 - (s.ch n).seq.bank) ≠ .ready) (hloop : bitOf (rd s oBankFlags [n, (s.ch n).seq.bank]) 0 = false) :
    courseEnd n j c s = goNext n none (some c) j (if bitOf (rd s oBankFlags [n, (s.ch n).seq.bank]) 1 = true then
      bankLate n (s.ch n).seq.bank (closeCourse n j s) else closeCourse n j s) := by
  have hflags : rd (closeCourse n j s) oBankFlags [n, (s.ch n).seq.bank] = rd s oBankFlags [n, (s.ch n).seq.bank] := rfl
  unfold courseEnd
  dsimp only
  rw [closeCourse_patch hpatch, hflags, hloop]
  exact (if_pos hlast).trans (if_neg hready)

end

/-! ### Swaps -/

/-- The other bank plays (R223). -/
def swapped (q : Seq) : Seq :=
  { setBankState q.bank .idle (setBankState (1 - q.bank) .playing q) with bank := 1 - q.bank, swaps := countUp (2 ^ 32 - 1) q.swaps 1 }

theorem bankState_swapped {q : Seq} (h : q.bank < 2) :
    bankState (swapped q) (1 - q.bank) = .playing ∧ bankState (swapped q) q.bank = .idle := by
  obtain hb | hb : q.bank = 0 ∨ q.bank = 1 := by omega
  · simp [swapped, bankState, setBankState, hb]
  · simp [swapped, bankState, setBankState, hb]

theorem holdCause_swapped (q : Seq) : holdCause (swapped q) = holdCause q := by
  unfold swapped setBankState
  split <;> split <;> rfl

theorem bankSwap_eq (n : Ch) (prev : Option Nat) (j : Nat) (s : Dev) : bankSwap n prev j s =
    goNext n (some 0) prev j (chEvent n 0x07 (1 - (s.ch n).seq.bank) (updSeq n swapped s)) := by
  unfold bankSwap
  dsimp only
  exact congrArg (fun d => goNext n (some 0) prev j (chEvent n 0x07 (1 - (s.ch n).seq.bank) d)) (updSeq_congr rfl)

theorem bankLate_step (n : Ch) (b : Nat) (s : Dev) : SeqStep n s (bankLate n b s) :=
  (SeqStep.wr ..).trans ((SeqStep.wr ..).trans ((SeqStep.chEvent ..).trans (.wr ..)))

theorem bankSwap_step (n : Ch) (prev : Option Nat) (j : Nat) (s : Dev) : SeqStep n s (bankSwap n prev j s) := by
  rw [bankSwap_eq]
  exact (SeqStep.updSeq ..).trans ((SeqStep.chEvent ..).trans (goNext_step ..))

theorem courseEnd_step (n : Ch) (j c : Nat) (s : Dev) : SeqStep n s (courseEnd n j c s) := by
  have hclose : SeqStep n s (patchEnd n (s.ch n).seq.bank (s.ch n).seq.idx (closeCourse n j s)) :=
    (SeqStep.updSeq ..).trans (patchEnd_step ..).toSeqStep
  have hlate : ∀ (p : Prop) [Decidable p] (b : Nat) (d : Dev), SeqStep n d (if p then bankLate n b d else d) := fun _ _ b d =>
    .ite (bankLate_step ..) (.refl n d)
  refine hclose.trans ?_
  unfold courseEnd
  dsimp only
  split
  · exact .ite (bankSwap_step ..) ((hlate ..).trans (goNext_step ..))
  · exact .ite (goNext_step ..) (goNext_step ..)

/-! ### Cuts -/

theorem landCut_step (n : Ch) (j : Nat) (s : Dev) : SeqStep n s (landCut n j s) := by
  have hclose : ∀ (p : Prop) [Decidable p] (d : Dev), SeqStep n d (if p then closeCourse n j d else d) := fun _ _ d =>
    .ite (.updSeq ..) (.refl n d)
  have hpatch : ∀ (p : Prop) [Decidable p] (b e : Nat) (d : Dev), SeqStep n d (if p then patchEnd n b e d else d) := fun _ _ b e d =>
    .ite (patchEnd_step ..).toSeqStep (.refl n d)
  unfold landCut
  exact (hclose ..).trans ((hpatch ..).trans ((SeqStep.updSeq ..).trans ((SeqStep.wr ..).trans ((SeqStep.wr ..).trans ((SeqStep.wr ..).trans
    ((SeqStep.chEvent ..).trans (goNext_step ..)))))))

end Sys2Proof.Machine
end

section
/-! SUPPORT. The step of R220 at a decision point (07), and O30. -/

namespace Sys2Proof.Machine

/-! ### The step touches its channel alone -/

theorem playSample_step (n : Ch) (j : Nat) (s : Dev) : SeqStep n s (playSample n j s) := (playSample_course ..).toSeqStep

theorem tryStart_beginWait_step (n : Ch) (e j : Nat) (old : Nat → Nat) (s : Dev) : SeqStep n s (tryStart n j old (beginWait n e j s)) :=
  (SeqStep.updSeq ..).trans ((beginWait_course ..).trans (tryStart_course ..)).toSeqStep

theorem supply_updSeq_step (n : Ch) (j : Nat) (code : Int) (f : Seq → Seq) (s : Dev) : SeqStep n s (supply n j code (updSeq n f s)) :=
  (SeqStep.updSeq ..).trans (supply_course ..).toSeqStep

theorem segmentEnd_step (n : Ch) (j : Nat) (s : Dev) : SeqStep n s (segmentEnd n j s) := by
  have hpatch := (patchEnd_step n (s.ch n).seq.bank (s.ch n).seq.idx s).toSeqStep
  unfold segmentEnd
  exact .ite
    (hpatch.trans (.ite (courseEnd_step ..) ((SeqStep.updSeq ..).trans ((markStart_step ..).course.toSeqStep.trans (playSample_step ..)))))
    ((SeqStep.updSeq ..).trans ((markSegment_step ..).course.toSeqStep.trans (playSample_step ..)))

theorem resumeHeld_step (n : Ch) (j : Nat) (s : Dev) : SeqStep n s (resumeHeld n j s) := by
  unfold resumeHeld
  dsimp only
  refine .ite (landCut_step ..) ?_
  split
  · exact tryStart_beginWait_step ..
  · exact .ite ((SeqStep.updSeq ..).trans ((patchEnd_step ..).toSeqStep.trans (bankSwap_step ..))) (supply_updSeq_step ..)

theorem decideAt_step (n : Ch) (j : Nat) (s : Dev) : SeqStep n s (decideAt n j s) := by
  unfold decideAt
  dsimp only
  split
  · exact .refl n s
  · exact .ite (.refl n s) (resumeHeld_step ..)
  · exact .ite (landCut_step ..) (.ite (enterHeld_course ..).toSeqStep (.ite (tryStart_beginWait_step ..) (tryStart_course ..).toSeqStep))
  · refine .ite (landCut_step ..) (.ite (enterHeld_course ..).toSeqStep (.ite ?_ (supply_course ..).toSeqStep))
    exact (patchEnd_step ..).toSeqStep.trans (bankSwap_step ..)
  · refine .ite ((SeqStep.updSeq ..).trans (playSample_step ..)) ?_
    exact .ite (landCut_step ..) (.ite (segmentEnd_step ..) (courseEnd_step ..))

end Sys2Proof.Machine
end

section
/-! SUPPORT. What each decision of R220 does (07). -/

namespace Sys2Proof.Machine

/-! ### The code of a slot -/

/-- From `a` to `b` the code of slot `j` is computed, and stands in the source queue of a running source that the Sequencer feeds (R213). -/
def CodeSupplied (n : Ch) (j : Nat) (code : Int) (a b : Dev) : Prop :=
  (b.ch n).seq.last = code ∧ (rd a oSrcQOwner [n] ≠ 2 → (b.ch n).src = (a.ch n).src) ∧
    (rd a oSrcQOwner [n] = 2 → rd a oSrcOrigin [n] = 1 → (a.ch n).src.st = .running → (a.ch n).src.queue.length < 4096 →
      (b.ch n).src.queue = (a.ch n).src.queue ++ [codeEntry (some j) code])

/-- A sample leaves of the Sequencer its code, and arms a pending Cut at the last sample of its unit (R220, R229). -/
theorem playSample_plays (n : Ch) (j : Nat) (s : Dev) :
    let q := (s.ch n).seq
    let c := courseOf q q.bank q.idx
    let code := courseCode c q.last q.seg q.i
    let d := playSample n j s
    (d.ch n).seq = { q with last := code, landing := q.landing || (q.cut.isSome && lastOfUnit c q.seg q.i) } ∧ CodeSupplied n j code s d := by
  have h := supply_supplied n j (courseCode (courseOf (s.ch n).seq (s.ch n).seq.bank (s.ch n).seq.idx) (s.ch n).seq.last (s.ch n).seq.seg
    (s.ch n).seq.i) s
  dsimp only
  rw [playSample_eq, CodeSupplied, updSeq_ch]
  exact ⟨by rw [h.seq], by rw [h.seq], h.other, h.queued⟩

theorem supply_last_seq (n : Ch) (j : Nat) (s : Dev) : ((supply n j (s.ch n).seq.last s).ch n).seq = (s.ch n).seq := (supply_supplied ..).seq

section
variable {n : Ch} {j : Nat} {s : Dev} {q : Seq} (hq : (s.ch n).seq = q)
include hq

/-! ### Sequencers that stay -/

theorem decideAt_of_stopped (hst : q.st = .stopped) : decideAt n j s = s := by
  unfold decideAt
  dsimp only
  rw [hq, hst]

theorem decideAt_of_held (hst : q.st = .held) (hhold : holdCause q = true) : decideAt n j s = s := by
  unfold decideAt
  dsimp only
  rw [hq, hst]
  exact if_pos hhold

theorem tryStart_of_unreleased {w : SeqWait} (hwait : q.wait = some w) (hrelease : w.release = none) (old : Nat → Nat) :
    tryStart n j old s = supply n j q.last s := by
  unfold tryStart
  dsimp only
  rw [hq, hwait]
  dsimp only
  rw [hrelease]

theorem decideAt_of_waiting {w : SeqWait} (hst : q.st = .waiting) (hcut : q.cut = none) (hhold : holdCause q = false) (hwait : q.wait = some w)
    (hrelease : w.release = none) : decideAt n j s = supply n j q.last s := by
  rw [← tryStart_of_unreleased hq hwait hrelease fun _ => 0]
  unfold decideAt
  dsimp only
  rw [hq, hst]
  dsimp only
  rw [hcut, hhold, if_neg (by simp), if_neg (by simp), hwait, if_neg (by simp)]

theorem decideAt_of_endHold (hst : q.st = .endHold) (hcut : q.cut = none) (hhold : holdCause q = false) (hready : bankState q (1 - q.bank) ≠ .ready) :
    decideAt n j s = supply n j q.last s := by
  unfold decideAt
  dsimp only
  rw [hq, hst]
  dsimp only
  rw [hcut, hhold, if_neg (by simp), if_neg (by simp), if_neg hready]

/-! ### A Course that plays -/

theorem decideAt_playing (hst : q.st = .playing) :
    let c := courseOf q q.bank q.idx
    decideAt n j s = if q.i < coSegLen c then playSample n j (updSeq n (fun q => { q with i := q.i + 1 }) s)
      else if q.landing then landCut n j s
      else if coRepeat c = 0 || q.seg + 1 < coRepeat c then segmentEnd n j s
      else courseEnd n j c s := by
  unfold decideAt
  dsimp only
  rw [hq, hst]

/-- A Course with samples to come plays the next one. -/
theorem decideAt_of_sample (hst : q.st = .playing) (hmore : q.i < coSegLen (courseOf q q.bank q.idx)) :
    decideAt n j s = playSample n j (updSeq n (fun q => { q with i := q.i + 1 }) s) :=
  (decideAt_playing hq hst).trans (if_pos hmore)

theorem decideAt_of_landing (hst : q.st = .playing) (hend : coSegLen (courseOf q q.bank q.idx) ≤ q.i) (hland : q.landing = true) :
    decideAt n j s = landCut n j s :=
  (decideAt_playing hq hst).trans ((if_neg (Nat.not_lt.mpr hend)).trans (if_pos hland))

/-- A Course with segments to come begins the next one; with no patch pending its first sample plays. -/
theorem decideAt_of_segment (hst : q.st = .playing) (hend : coSegLen (courseOf q q.bank q.idx) ≤ q.i) (hland : q.landing = false)
    (hpatch : q.patch = none) (hmore : coRepeat (courseOf q q.bank q.idx) = 0 ∨ q.seg + 1 < coRepeat (courseOf q q.bank q.idx)) :
    ∃ x y, decideAt n j s = playSample n j (updSeq n (fun q => { q with
      seg := q.seg + 1, i := 0, segs := ((j, q.seg + 1) :: q.segs).take 16, markA := x, markB := y }) s) := by
  obtain ⟨x, y, hmark⟩ := markSegment_step n j (courseOf q q.bank q.idx)
    (updSeq n (fun q => { q with seg := q.seg + 1, i := 0, segs := ((j, q.seg + 1) :: q.segs).take 16 }) s)
  have hsegment : decideAt n j s = segmentEnd n j s :=
    (decideAt_playing hq hst).trans ((if_neg (Nat.not_lt.mpr hend)).trans ((if_neg (by simp [hland])).trans (if_pos (by simpa using hmore))))
  refine ⟨x, y, hsegment.trans ?_⟩
  unfold segmentEnd
  dsimp only
  rw [hq, hpatch, Bool.and_false, if_neg Bool.false_ne_true, hmark, updSeq_updSeq]

/-- A Course with neither sample nor segment to come ends (R219). -/
theorem decideAt_of_end (hst : q.st = .playing) (hend : coSegLen (courseOf q q.bank q.idx) ≤ q.i) (hland : q.landing = false)
    (hone : coRepeat (courseOf q q.bank q.idx) ≠ 0) (hdone : coRepeat (courseOf q q.bank q.idx) ≤ q.seg + 1) :
    decideAt n j s = courseEnd n j (courseOf q q.bank q.idx) s :=
  (decideAt_playing hq hst).trans ((if_neg (Nat.not_lt.mpr hend)).trans ((if_neg (by simp [hland])).trans (if_neg (by simp [hone, hdone]))))

/-! ### Course ends -/

theorem closeCourse_ch : ∃ x y, (closeCourse n j s).ch n =
    { s.ch n with seq := { q with segs := ((j, q.seg + 1) :: q.segs).take 16, drives := x, compare := y } } := by
  obtain ⟨x, y, h⟩ := closeCourse_eq n j s
  exact ⟨x, y, by rw [h, updSeq_ch, hq]⟩

/-- Under a hold the Sequencer is HELD with the next entry (R242). -/
theorem courseEnd_holds (c : Nat) (hpatch : q.patch = none) (hlast : q.idx ≠ rd s oBankEnd [n, q.bank]) (hfull : q.idx ≠ 8191)
    (hhold : holdCause q = true) :
    let d := courseEnd n j c s
    (d.ch n).seq.st = .held ∧ (d.ch n).seq.chosen = some (q.idx + 1) ∧ markLevels (d.ch n).seq = 0 ∧ (d.ch n).seq.compare = [] ∧
      (d.ch n).src = (s.ch n).src ∧ rd d oHoldPos [n] = chPos d n := by
  obtain ⟨x, y, hclose⟩ := closeCourse_ch (j := j) hq
  have hheld := enterHeld_held n (some (q.idx + 1)) (closeCourse n j s)
  subst hq
  rw [hclose] at hheld
  dsimp only
  rw [courseEnd_of_next hpatch hlast hfull, goNext_of_hold (by rw [hclose]; exact hhold)]
  exact hheld

/-- An entry with neither condition nor delay plays at once behind the one before. -/
theorem courseEnd_plays (c : Nat) (hpatch : q.patch = none) (hlast : q.idx ≠ rd s oBankEnd [n, q.bank]) (hfull : q.idx ≠ 8191)
    (hhold : holdCause q = false) :
    let c' := courseOf q q.bank (q.idx + 1)
    let p := ((courseEnd n j c s).ch n).seq
    coWait c' = 0 → coDelay c' = 0 → coDunit c' = false → p.st = .playing ∧ p.bank = q.bank ∧ p.idx = q.idx + 1 ∧ p.seg = 0 ∧ p.i = 0 ∧
      p.last = courseCode c' q.last 0 0 ∧ p.starts = q.starts ++ [⟨j, q.bank, q.idx + 1, coMcfg c'⟩] := by
  obtain ⟨x, y, hclose⟩ := closeCourse_ch (j := j) hq
  have hplays := goNext_plays (n := n) (s := closeCourse n j s) (e := q.idx + 1) (j := j) (some c)
  subst hq
  rw [hclose] at hplays
  dsimp only
  rw [courseEnd_of_next hpatch hlast hfull]
  exact hplays hhold

end

end Sys2Proof.Machine
end

section
/-! SUPPORT. Swaps, END_HOLD and Cuts at the end of a Course (07, R223, R224, R229 to R231). -/

namespace Sys2Proof.Machine

/-! ### Objects that follow -/

/-- What goes on with another entry leaves the objects of Cuts and banks. -/
theorem rd_goNext {r : Row} (hr : r.dims = [(0x100, 24)]) (hover : objKey r.ix r.sub 0 ≠ objKey oOverflows.ix oOverflows.sub 0)
    (hpos : objKey r.ix r.sub 0 ≠ objKey oHoldPos.ix oHoldPos.sub 0) (n : Ch) (next prev : Option Nat) (j : Nat) (s : Dev) :
    rd (goNext n next prev j s) r [n] = rd s r [n] :=
  (goNext_course n next prev j s).kept _ _ (keyOf_chan_ne hr rfl hover n) (keyOf_chan_ne hr rfl hpos n)

theorem rd_chEvent {r : Row} (hr : r.dims = [(0x100, 24)]) (hfault : objKey r.ix r.sub 0 ≠ objKey oChFault.ix oChFault.sub 0) (n : Ch) (code arg : Nat)
    (s : Dev) : rd (chEvent n code arg s) r [n] = rd s r [n] := (chEvent_step n code arg s).kept _ _ (keyOf_chan_ne hr rfl hfault n)

/-- A bit set in a byte is set in what the byte keeps. -/
theorem bitOf_setBit_zero (v : Nat) : bitOf (setBit v 0 % 2 ^ 8) 0 = true := by
  unfold setBit bitOf
  simp only [pow_zero, Nat.div_one, beq_iff_eq]
  split <;> omega

/-- BANK_LATE sets its bit and counts, and is none of the Sequencer (R223). -/
theorem bankLate_effect (n : Ch) (b : Nat) (s : Dev) : ((bankLate n b s).ch n).seq = (s.ch n).seq ∧
    rd (bankLate n b s) oBankLates [n] = min (2 ^ 32 - 1) (rd s oBankLates [n] + 1) ∧ bitOf (rd (bankLate n b s) oBankLate [n]) 0 = true := by
  have hrd : ∀ {r : Row}, r.dims = [(0x100, 24)] → objKey r.ix r.sub 0 ≠ objKey oChFault.ix oChFault.sub 0 → rd (bankLate n b s) r [n] =
      rd (bump oBankLates [n] (wr s oBankLate (setBit (rd s oBankLate [n]) 0) [n])) r [n] := fun hr hne =>
    (rd_wr_chan hr rfl hne n _ _).trans (rd_chEvent hr hne ..)
  refine ⟨?_, ?_, ?_⟩
  · exact (chEvent_seq ..).trans rfl
  · rw [hrd rfl (by decide), rd_bump_word rfl, rd_wr_chan rfl rfl (by decide)]
  · rw [hrd rfl (by decide), rd_bump_chan rfl rfl (by decide), rd_wr_same]
    exact bitOf_setBit_zero _

section
variable {n : Ch} {j : Nat} {s : Dev} {q : Seq} (hq : (s.ch n).seq = q)
include hq

/-! ### The end of a bank -/

/-- The other bank, READY, plays on from its entry 0 (R223). -/
theorem courseEnd_swaps (c : Nat) (hpatch : q.patch = none) (hlast : q.idx = rd s oBankEnd [n, q.bank]) (hready : bankState q (1 - q.bank) = .ready)
    (hbank : q.bank < 2) :
    let d := courseEnd n j c s
    let p := (d.ch n).seq
    p.bank = 1 - q.bank ∧ bankState p (1 - q.bank) = .playing ∧ bankState p q.bank = .idle ∧ p.swaps = min (2 ^ 32 - 1) (q.swaps + 1) ∧
      rd d oBankLates [n] = rd s oBankLates [n] ∧ (holdCause q = false → p.idx = 0) := by
  obtain ⟨x, y, hclose⟩ := closeCourse_ch (j := j) hq
  have hend : courseEnd n j c s = bankSwap n (some c) j (closeCourse n j s) := by
    subst hq
    exact courseEnd_of_swap hpatch hlast hready
  generalize hs : chEvent n 0x07 (1 - ((closeCourse n j s).ch n).seq.bank) (updSeq n swapped (closeCourse n j s)) = t
  have hseq : (t.ch n).seq = swapped { q with segs := ((j, q.seg + 1) :: q.segs).take 16, drives := x, compare := y } := by
    rw [← hs, chEvent_seq, updSeq_ch, hclose]
  have hlates : rd t oBankLates [n] = rd s oBankLates [n] := by
    rw [← hs, rd_chEvent rfl (by decide)]
    rfl
  have hcourse := goNext_course n (some 0) (some c) j t
  obtain ⟨hplaying, hidle⟩ := bankState_swapped (q := { q with segs := ((j, q.seg + 1) :: q.segs).take 16, drives := x, compare := y }) hbank
  have hbanks := hcourse.bankState
  have hto := hcourse.bank
  have hswaps := hcourse.swaps
  have hidx := hcourse.idx
  rw [updSeq_ch, hseq] at hto hswaps hidx
  simp only [updSeq_ch, hseq] at hbanks
  dsimp only
  rw [hend, bankSwap_eq, hs]
  refine ⟨hto, (hbanks _).trans hplaying, (hbanks _).trans hidle, hswaps.trans (countUp_eq_min ..), ?_, fun hhold => hidx.trans ?_⟩
  · rw [rd_goNext rfl (by decide) (by decide), hlates]
  · exact if_neg (by rw [holdCause_swapped]; simpa [holdCause] using hhold)

/-- With neither a bank READY nor LOOP the Sequencer is at END_HOLD and its last code repeats (R224). -/
theorem courseEnd_ends (c : Nat) (hpatch : q.patch = none) (hlast : q.idx = rd s oBankEnd [n, q.bank])
    (hready : bankState q (1 - q.bank) ≠ .ready) (hloop : bitOf (rd s oBankFlags [n, q.bank]) 0 = false) (hhold : holdCause q = false) :
    let d := courseEnd n j c s
    let p := (d.ch n).seq
    let late := bitOf (rd s oBankFlags [n, q.bank]) 1
    p.st = .endHold ∧ p.idx = q.idx ∧ p.last = q.last ∧
      rd d oBankLates [n] = (if late = true then min (2 ^ 32 - 1) (rd s oBankLates [n] + 1) else rd s oBankLates [n]) ∧
      (late = true → bitOf (rd d oBankLate [n]) 0 = true) := by
  obtain ⟨x, y, hclose⟩ := closeCourse_ch (j := j) hq
  obtain ⟨hseqLate, hlates, hbit⟩ := bankLate_effect n q.bank (closeCourse n j s)
  have hend := courseEnd_of_end (n := n) (j := j) (c := c) (s := s)
  rw [hq] at hend
  generalize ht : (if bitOf (rd s oBankFlags [n, q.bank]) 1 = true then bankLate n q.bank (closeCourse n j s) else closeCourse n j s) = t at hend
  have hseq : (t.ch n).seq = { q with segs := ((j, q.seg + 1) :: q.segs).take 16, drives := x, compare := y } := by
    rw [← ht, apply_ite (fun d : Dev => (d.ch n).seq), hseqLate, ite_self, hclose]
  have hgo := goNext_of_none (j := j) (prev := some c) (n := n) (s := t) (by rw [hseq]; exact hhold)
  have hsupplied := (supply_supplied n j (t.ch n).seq.last (updSeq n (fun q => { q with st := .endHold }) t)).seq
  rw [← hgo, updSeq_ch, hseq] at hsupplied
  dsimp only
  rw [hend hpatch hlast hready hloop]
  refine ⟨by rw [hsupplied], by rw [hsupplied], by rw [hsupplied], ?_, fun hlate => ?_⟩
  · rw [rd_goNext rfl (by decide) (by decide), ← ht, apply_ite (fun d : Dev => rd d oBankLates [n]), hlates]
    rfl
  · rw [rd_goNext rfl (by decide) (by decide), ← ht, if_pos hlate]
    exact hbit

end

/-! ### Cuts -/

/-- A Cut has landed at its target: it is counted and recorded (R231). -/
def cutRecorded (n : Ch) (src tgt : Nat) (s : Dev) : Dev :=
  let s := bump oCuts [n] (updSeq n (fun q => { q with cut := none, landing := false }) s)
  chEvent n 0x09 (tgt % 256) (wr (wr s oCutLastPos (chPos s n) [n]) oCutLast (src * 2 ^ 13 + tgt) [n])

theorem cutRecorded_effect (n : Ch) {src tgt : Nat} (hsrc : src < 8) (htgt : tgt < 8192) (s : Dev) :
    let d := cutRecorded n src tgt s
    (d.ch n).seq = { (s.ch n).seq with cut := none, landing := false } ∧ rd d oCuts [n] = min (2 ^ 32 - 1) (rd s oCuts [n] + 1) ∧
      rd d oCutLast [n] = src * 8192 + tgt ∧ rd d oCutLastPos [n] = chPos s n := by
  refine ⟨?_, ?_, ?_, ?_⟩
  · rw [cutRecorded, chEvent_seq, wr_ch, wr_ch, bump_ch, updSeq_ch]
  · rw [cutRecorded, rd_chEvent rfl (by decide), rd_wr_chan rfl rfl (by decide), rd_wr_chan rfl rfl (by decide), rd_bump_word rfl, rd_updSeq]
  · rw [cutRecorded, rd_chEvent rfl (by decide), rd_wr_same]
    exact Nat.mod_eq_of_lt (show src * 8192 + tgt < 2 ^ 16 by omega)
  · rw [cutRecorded, rd_chEvent rfl (by decide), rd_wr_chan rfl rfl (by decide), rd_wr_same]
    exact Nat.mod_eq_of_lt (posOf_lt ..)

/-- A Course ends, and a patch of its entry lands (R226). -/
theorem courseClosed_effect {n : Ch} {s : Dev} {q : Seq} (hq : (s.ch n).seq = q) (j b e : Nat) :
    let d := patchEnd n b e (closeCourse n j s)
    SeqStep n s d ∧ (d.ch n).seq.bank = q.bank ∧ holdCause (d.ch n).seq = holdCause q ∧ rd d oCuts [n] = rd s oCuts [n] := by
  obtain ⟨x, y, hclose⟩ := closeCourse_ch (j := j) hq
  have hpatch := patchEnd_step n b e (closeCourse n j s)
  obtain ⟨_, _, _, hseq⟩ := hpatch.seq
  rw [hclose] at hseq
  refine ⟨(SeqStep.updSeq ..).trans hpatch.toSeqStep, by rw [hseq], by rw [hseq]; rfl, ?_⟩
  exact hpatch.kept _ _ (keyOf_chan_ne rfl rfl (by decide) n)

theorem landCut_of_playing {n : Ch} {s : Dev} {q : Seq} {x : Cut} (hq : (s.ch n).seq = q) (hst : q.st = .playing) (hcut : q.cut = some x) (j : Nat) :
    let tgt := x.target.getD (coTarget (courseOf q q.bank q.idx))
    ∃ prev, landCut n j s = goNext n (some tgt) prev j (cutRecorded n x.source tgt (patchEnd n q.bank q.idx (closeCourse n j s))) := by
  refine ⟨if ((q.st = .playing || q.st = .endHold) && !q.marksLow) = true then some q.played else none, ?_⟩
  unfold landCut
  dsimp only
  rw [hq, hst, hcut]
  rfl

/-- A Cut lands: its target is the entry next, under a hold in HELD (R231). -/
theorem landCut_lands {n : Ch} {s : Dev} {q : Seq} {x : Cut} (hq : (s.ch n).seq = q) (hst : q.st = .playing) (hcut : q.cut = some x)
    (hsrc : x.source < 8) (htgt : ∀ v, x.target = some v → v < 8192) (j : Nat) :
    let tgt := x.target.getD (coTarget (courseOf q q.bank q.idx))
    let d := landCut n j s
    let p := (d.ch n).seq
    p.cut = none ∧ p.landing = false ∧ p.bank = q.bank ∧ (holdCause q = false → p.idx = tgt) ∧
      (holdCause q = true → p.st = .held ∧ p.chosen = some tgt) ∧ rd d oCuts [n] = min (2 ^ 32 - 1) (rd s oCuts [n] + 1) ∧
      rd d oCutLast [n] = x.source * 8192 + tgt ∧ rd d oCutLastPos [n] = chPos d n := by
  intro tgt d p
  have hlt : tgt < 8192 := by
    cases htarget : x.target with
    | none =>
      have hfield : tgt = coTarget (courseOf q q.bank q.idx) := by simp [tgt, htarget]
      rw [hfield]
      exact Nat.mod_lt _ (by decide)
    | some v => simpa [tgt, htarget] using htgt v htarget
  obtain ⟨prev, hland⟩ := landCut_of_playing hq hst hcut j
  obtain ⟨hclosed, hbank, hhold, hcuts⟩ := courseClosed_effect hq j q.bank q.idx
  obtain ⟨hseq, hcount, hlast, hpos⟩ := cutRecorded_effect n hsrc hlt (patchEnd n q.bank q.idx (closeCourse n j s))
  generalize cutRecorded n x.source tgt (patchEnd n q.bank q.idx (closeCourse n j s)) = t at hland hseq hcount hlast hpos
  generalize patchEnd n q.bank q.idx (closeCourse n j s) = u at *
  have hheld : holdCause (t.ch n).seq = holdCause q := by
    rw [hseq]
    exact hhold
  have hd : d = goNext n (some tgt) prev j t := hland
  have hcourse := goNext_course n (some tgt) prev j t
  have hcut' := hcourse.cut
  have hbank' := hcourse.bank
  have hidx := hcourse.idx
  have hlanding := hcourse.landing
  rw [updSeq_ch, hseq] at hcut' hbank' hidx hlanding
  rw [← hd] at hcut' hbank' hidx hlanding
  refine ⟨hcut', hlanding rfl, hbank'.trans hbank, fun hno => hidx.trans ?_, fun hyes => ?_, ?_, ?_, ?_⟩
  · rw [hseq] at hheld
    simp [entryAfter, hheld.trans hno]
  · obtain ⟨hst', hchosen, -⟩ := enterHeld_held n (some tgt) t
    have hd' := hd.trans (goNext_of_hold (hheld.trans hyes))
    rw [← hd'] at hst' hchosen
    exact ⟨hst', hchosen⟩
  · rw [hd, rd_goNext rfl (by decide) (by decide), hcount, hcuts]
  · rw [hd, rd_goNext rfl (by decide) (by decide), hlast]
  · have hstep : SeqStep n s d := landCut_step n j s
    rw [hstep.chPos, ← hclosed.chPos, ← hpos, hd, rd_goNext rfl (by decide) (by decide)]

end Sys2Proof.Machine
end

section
/-! SUPPORT. The decision point of a channel (07, R212, R220), and O30. -/

namespace Sys2Proof.Machine

/-! ### The command -/

theorem decisionPoint_completes {s : State} (hlive : Live s) (n : Ch) : Completes (.decisionPoint n) s
    (decisionPoint n (settleDue s.nv ⟨max s.dev.now (knownTick s (decisionTick s.dev n)), 2, 1⟩ [n] s.dev)) := completes_of_onDev rfl hlive rfl

theorem decisionPoint_of_missing {n : Ch} {s : Dev} (h : decisionTick s n = none) : decisionPoint n s = s := by
  unfold decisionPoint
  rw [h]

/-- The device after the decision of slot `q.next` at its tick. -/
def decided (n : Ch) (t : Nat) (s : Dev) : Dev :=
  updSeq n (fun q => { q with next := (s.ch n).seq.next + 1 }) (decideAt n (s.ch n).seq.next (advance t s))

theorem decisionPoint_of_tick {n : Ch} {s : Dev} {t : Nat} (h : decisionTick s n = some t) : decisionPoint n s = decided n t s := by
  unfold decisionPoint
  rw [h]
  rfl

theorem decided_frame (n : Ch) (t : Nat) (s : Dev) : (decided n t s).now = max s.now t ∧ ((decided n t s).ch n).seq.next = (s.ch n).seq.next + 1 ∧
    ∀ k, k ≠ n → (decided n t s).ch k = s.ch k := by
  have hstep := (decideAt_step n (s.ch n).seq.next (advance t s)).trans (.updSeq n (fun q => { q with next := (s.ch n).seq.next + 1 }) _)
  exact ⟨hstep.now, by rw [decided, updSeq_ch], hstep.others⟩

theorem decided_seq (n : Ch) (t : Nat) (s : Dev) : ((decided n t s).ch n).seq =
    { ((decideAt n (s.ch n).seq.next (advance t s)).ch n).seq with next := (s.ch n).seq.next + 1 } := by rw [decided, updSeq_ch]

theorem decided_src (n : Ch) (t : Nat) (s : Dev) : ((decided n t s).ch n).src = ((decideAt n (s.ch n).seq.next (advance t s)).ch n).src := by
  rw [decided, updSeq_ch]

theorem rd_decided (n : Ch) (t : Nat) (s : Dev) (r : Row) (k : List Nat) :
    rd (decided n t s) r k = rd (decideAt n (s.ch n).seq.next (advance t s)) r k := rd_updSeq ..

/-- What is known of the code carries over the count of slots. -/
theorem CodeSupplied.decided {n : Ch} {t : Nat} {s : Dev} {code : Int}
    (h : CodeSupplied n (s.ch n).seq.next code s (decideAt n (s.ch n).seq.next (advance t s))) : CodeSupplied n (s.ch n).seq.next code s (decided n t s) := by
  unfold CodeSupplied
  rw [decided_seq, decided_src]
  exact h

/-- A change of the Sequencer before the sample does not touch what the source has. -/
theorem CodeSupplied.of_updSeq {n : Ch} {j : Nat} {code : Int} {f : Seq → Seq} {s b : Dev} (h : CodeSupplied n j code (updSeq n f s) b) :
    CodeSupplied n j code s b := by
  unfold CodeSupplied at *
  simpa only [updSeq_ch, rd_updSeq] using h

/-- The decision that plays the sample of a Sequencer `p` gives its code, and leaves it PLAYING there. -/
theorem decided_plays {n : Ch} {t : Nat} {s : Dev} {f : Seq → Seq} {p : Seq}
    (hplays : decideAt n (s.ch n).seq.next (advance t s) = playSample n (s.ch n).seq.next (updSeq n f (advance t s)))
    (hp : f (s.ch n).seq = p) :
    let c := courseOf p p.bank p.idx
    let code := courseCode c p.last p.seg p.i
    let d := decided n t s
    (d.ch n).seq = { p with last := code, landing := p.landing || (p.cut.isSome && lastOfUnit c p.seg p.i), next := (s.ch n).seq.next + 1 } ∧
      CodeSupplied n (s.ch n).seq.next code s d := by
  have hseq : ((updSeq n f (advance t s)).ch n).seq = p := by rw [updSeq_ch]; exact hp
  obtain ⟨hplayed, hsupplied⟩ := playSample_plays n (s.ch n).seq.next (updSeq n f (advance t s))
  rw [hseq, ← hplays] at hplayed hsupplied
  dsimp only
  exact ⟨by rw [decided_seq, hplayed], hsupplied.of_updSeq.decided⟩

/-- Settles O30: the command by the tick of its decision point, then one lemma for each decision of R220. -/
theorem decisionPoints : Obligations.DecisionPoints := by
  intro s n st e hlive he q i c runs codeIs
  have hdone : Completes i s (decisionPoint n e) := he ▸ decisionPoint_completes hlive n
  refine ⟨fun hmissing => ?_, fun htick => ?_⟩
  · rwa [decisionPoint_of_missing hmissing] at hdone
  rw [decisionPoint_of_tick htick] at hdone
  obtain ⟨hnow, hnext, hothers⟩ := decided_frame n st e
  have hruns : ∀ P : Dev → Prop, P (decided n st e) → runs P := fun P hP => ⟨_, hdone, hnow, hnext, hothers, hP⟩
  have hq : ((advance st e).ch n).seq = q := rfl
  have hseq := decided_seq n st e
  have hsrc := decided_src n st e
  have hrd := rd_decided n st e
  refine ⟨fun hst => ?_, fun hst hhold => ?_, fun w hst hcut hhold hwait hrelease => ?_, fun hst hcut hhold hready => ?_, fun hst hmore => ?_,
    fun hst hend hland hpatch => ⟨fun hmore => ?_, fun hone hlastSegment => ?_⟩, fun x hst hend hland hcut hsource htgt => ?_⟩
  · have hstays := decideAt_of_stopped (j := q.next) hq hst
    exact hruns _ ⟨by rw [hseq, hstays, hq], by rw [decided, hstays]; rfl⟩
  · have hstays := decideAt_of_held (j := q.next) hq hst hhold
    exact hruns _ ⟨by rw [hseq, hstays, hq], by rw [decided, hstays]; rfl⟩
  · have hrepeats := decideAt_of_waiting (j := q.next) hq hst hcut hhold hwait hrelease
    refine hruns _ ?_
    rw [hseq, hrepeats]
    exact congrArg (fun p : Seq => { p with next := q.next + 1 }) (supply_last_seq n q.next (advance st e))
  · have hrepeats := decideAt_of_endHold (j := q.next) hq hst hcut hhold hready
    refine hruns _ ?_
    rw [hseq, hrepeats]
    exact congrArg (fun p : Seq => { p with next := q.next + 1 }) (supply_last_seq n q.next (advance st e))
  · have hplays := decideAt_of_sample (j := q.next) hq hst hmore
    obtain ⟨hplayed, hsupplied⟩ := decided_plays hplays rfl
    exact hruns _ (by rw [hplayed]; exact ⟨hst, rfl, rfl, rfl, hsupplied, rfl⟩)
  · obtain ⟨x, y, hplays⟩ := decideAt_of_segment (j := q.next) hq hst hend hland hpatch hmore
    obtain ⟨hplayed, hsupplied⟩ := decided_plays hplays rfl
    exact hruns _ (by rw [hplayed]; exact ⟨hst, rfl, rfl, rfl, hsupplied⟩)
  · have hends := decideAt_of_end (j := q.next) hq hst hend hland hone hlastSegment
    refine ⟨fun hlast hfull hhold hwait hdelay hunit => hruns _ ?_, fun hlast hfull hhold => hruns _ ?_, fun hlast hready hbank => hruns _ ?_,
      fun hlast hready hhold hloop => hruns _ ?_⟩
    · rw [hseq, hends]
      exact courseEnd_plays (j := q.next) hq c hpatch hlast hfull hhold hwait hdelay hunit
    · rw [hseq, hsrc, hrd, hends, decided, chPos_updSeq, hends]
      exact courseEnd_holds (j := q.next) hq c hpatch hlast hfull hhold
    · rw [hseq, hrd, hends]
      exact courseEnd_swaps (j := q.next) hq c hpatch hlast hready hbank
    · rw [hseq, hrd, hrd, hends]
      exact courseEnd_ends (j := q.next) hq c hpatch hlast hready hloop hhold
  · have hlands := decideAt_of_landing (j := q.next) hq hst hend hland
    obtain ⟨hcut', hland', hbank, hidx, hheld, hcuts, hcutLast, hcutPos⟩ := landCut_lands (s := advance st e) hq hst hcut hsource htgt q.next
    refine hruns _ ?_
    rw [← hlands] at hcut' hland' hbank hidx hheld hcuts hcutLast hcutPos
    refine ⟨?_, ?_, ?_, ?_, ?_, (hrd _ _).trans hcuts, (hrd _ _).trans hcutLast, ?_⟩
    · rw [hseq]; exact hcut'
    · rw [hseq]; exact hland'
    · rw [hseq]; exact hbank
    · rw [hseq]; exact hidx
    · rw [hseq]; exact hheld
    · rw [hrd, decided, chPos_updSeq]; exact hcutPos

end Sys2Proof.Machine
end

section
/-! SUPPORT. An edge on a trigger pin at the channels of its die (07, R216, R228). -/

namespace Sys2Proof.Machine

/-! ### Objects of different channels -/

/-- Objects on the pages of two channels have different keys (Table 0.3). -/
theorem keyOf_chan_ne_of_ne {q r : Row} (hq : q.dims = [(0x100, 24)]) (hr : r.dims = [(0x100, 24)]) (hpage : objKey q.ix q.sub 0 / 65536 = objKey r.ix r.sub 0 / 65536)
    {n m : Ch} (h : n ≠ m) : keyOf q [n] 0 ≠ keyOf r [m] 0 := by
  have hval : n.val ≠ m.val := fun e => h (Fin.ext e)
  rw [keyOf_chan hq, keyOf_chan hr]
  omega

/-- A row that a channel has once, on the pages of the channels. -/
def onChanPage (r : Row) : Prop := r.dims = [(0x100, 24)] ∧ objKey r.ix r.sub 0 / 65536 = 0x30

/-- From `a` to `b` the tick, channel n and its objects stand. -/
structure BesideChan (n : Ch) (a b : Dev) : Prop where
  now : b.now = a.now
  ch : b.ch n = a.ch n
  rd : ∀ r, onChanPage r → rd b r [n] = rd a r [n]

namespace BesideChan

variable {n m : Ch} {a b c : Dev}

theorem refl (n : Ch) (s : Dev) : BesideChan n s s := ⟨rfl, rfl, fun _ _ => rfl⟩

theorem trans (h : BesideChan n a b) (g : BesideChan n b c) : BesideChan n a c :=
  ⟨g.now.trans h.now, g.ch.trans h.ch, fun r hr => (g.rd r hr).trans (h.rd r hr)⟩

theorem ite {p : Prop} [Decidable p] (hb : BesideChan n a b) (hc : BesideChan n a c) : BesideChan n a (if p then b else c) :=
  iteInduction (fun _ => hb) fun _ => hc

theorem updSeq (h : n ≠ m) (f : Seq → Seq) (s : Dev) : BesideChan n s (updSeq m f s) := ⟨rfl, updCh_ch_of_ne _ s h, fun _ _ => rfl⟩

theorem bump (h : n ≠ m) {r : Row} (hr : onChanPage r) (s : Dev) : BesideChan n s (bump r [m] s) :=
  ⟨rfl, rfl, fun _ hq => rd_bump_of_ne (keyOf_chan_ne_of_ne hq.1 hr.1 (hq.2.trans hr.2.symm) h) s⟩

theorem cutSeen (h : n ≠ m) (src : Nat) (target : Option Nat) (s : Dev) : BesideChan n s (cutSeen m src target s) :=
  ite (bump h ⟨rfl, rfl⟩ s) (ite (bump h ⟨rfl, rfl⟩ s) (updSeq h _ s))

/-- Steps of other channels stand beside channel n. -/
theorem foldl {f : Dev → Ch → Dev} (hf : ∀ s m, n ≠ m → BesideChan n s (f s m)) {l : List Ch} (hl : n ∉ l) (s : Dev) : BesideChan n s (l.foldl f s) :=
  List.foldlRecOn (motive := fun d => BesideChan n s d) l _ (.refl n s) fun d hd m hm => hd.trans (hf d m fun e => hl (e ▸ hm))

end BesideChan

/-- Of steps over all the channels, each beside the others, channel n sees its own. -/
theorem foldl_channels {f : Dev → Ch → Dev} (hf : ∀ n s m, n ≠ m → BesideChan n s (f s m)) (n : Ch) (s : Dev) :
    ∃ a, BesideChan n s a ∧ BesideChan n (f a n) ((List.finRange 24).foldl f s) := by
  obtain ⟨l, t, hsplit⟩ := List.append_of_mem (List.mem_finRange n)
  obtain ⟨-, hback, hdisjoint⟩ := List.nodup_append.mp (hsplit ▸ List.nodup_finRange 24)
  refine ⟨l.foldl f s, .foldl (hf n) (fun hmem => hdisjoint n hmem n List.mem_cons_self rfl) s, ?_⟩
  rw [hsplit, List.foldl_append, List.foldl_cons]
  exact .foldl (hf n) (List.nodup_cons.mp hback).1 _

/-! ### The edge at one channel -/

/-- The wait of a channel after an edge that it sees: a wait for the edge is released at the tick (Table 7.3). -/
def pinWait (pin : Nat) (falling : Bool) (now : Nat) (q : Seq) : Option SeqWait :=
  let c := courseOf q q.bank q.idx
  q.wait.map fun w =>
    if coWait c = 1 && w.release.isNone && coArg c % 4 = pin && bitOf (coArg c) 2 == falling && w.since < now then
      { w with release := some (.tick now) }
    else w

/-- An edge that channel n sees: its wait, then its Cut. -/
def edgeSeen (n : Ch) (pin : Nat) (falling : Bool) (s : Dev) : Dev :=
  let s := updSeq n (fun q => { q with wait := pinWait pin falling s.now q }) s
  let z := rd s oCutSrc [n]
  if bitOf z 5 && getField z 6 2 = pin && bitOf z 8 == falling then cutSeen n 1 none s else s

/-- The edge at channel n. -/
def edgeAt (k : Die) (pin : Nat) (falling : Bool) (samples : Nat) (s : Dev) (n : Ch) : Dev :=
  if n.die = k && rd s oTrigFilter [n] = samples then edgeSeen n pin falling s else s

/-- A wait is rewritten only where the edge releases it. -/
theorem updSeq_pinWait {n : Ch} {s : Dev} {w : SeqWait} (hwait : (s.ch n).seq.wait = some w) (pin : Nat) (falling : Bool) :
    let q := (s.ch n).seq
    let c := courseOf q q.bank q.idx
    updSeq n (fun q => { q with wait := pinWait pin falling s.now q }) s =
      if coWait c = 1 && w.release.isNone && coArg c % 4 = pin && bitOf (coArg c) 2 == falling && w.since < s.now then
        updSeq n (fun q => { q with wait := some { w with release := some (.tick s.now) } }) s
      else s := by
  dsimp only
  split
  case isTrue hreleases => exact updSeq_congr (by simp only [pinWait, hwait, Option.map_some, if_pos hreleases])
  case isFalse hkeeps => exact updSeq_eq_self (by simp only [pinWait, hwait, Option.map_some, if_neg hkeeps]; rw [← hwait])

theorem trigEdge_eq (k : Die) (pin : Nat) (falling : Bool) (samples : Nat) (s : Dev) :
    trigEdge k pin falling samples s = (List.finRange 24).foldl (edgeAt k pin falling samples) s := by
  unfold trigEdge
  congr 1
  funext d n
  unfold edgeAt edgeSeen
  dsimp only
  cases hwait : (d.ch n).seq.wait with
  | none => rw [updSeq_eq_self (by rw [pinWait, hwait, Option.map_none, ← hwait])]
  | some w => rw [updSeq_pinWait hwait]

theorem BesideChan.edgeAt {n m : Ch} (h : n ≠ m) (k : Die) (pin : Nat) (falling : Bool) (samples : Nat) (s : Dev) :
    BesideChan n s (edgeAt k pin falling samples s m) :=
  ite (.trans (.updSeq h _ s) (ite (.cutSeen h ..) (.refl ..))) (.refl ..)

/-! ### A Cut seen -/

theorem cutSeen_of_stopped {n : Ch} {s : Dev} (h : (s.ch n).seq.st = .stopped) (src : Nat) (target : Option Nat) :
    cutSeen n src target s = bump oCutsDropped [n] s := if_pos h

theorem cutSeen_of_pending {n : Ch} {s : Dev} (h : (s.ch n).seq.st ≠ .stopped) (hcut : (s.ch n).seq.cut.isSome = true) (src : Nat) (target : Option Nat) :
    cutSeen n src target s = bump oCutsMerged [n] s := (if_neg h).trans (if_pos hcut)

theorem cutSeen_of_none {n : Ch} {s : Dev} (h : (s.ch n).seq.st ≠ .stopped) (hcut : (s.ch n).seq.cut = none) (src : Nat) (target : Option Nat) :
    cutSeen n src target s = updSeq n (fun q => { q with cut := some ⟨src, target⟩ }) s := (if_neg h).trans (if_neg (by simp [hcut]))

theorem cutSeen_wait (n : Ch) (src : Nat) (target : Option Nat) (s : Dev) : ((cutSeen n src target s).ch n).seq.wait = (s.ch n).seq.wait := by
  unfold cutSeen
  dsimp only
  split
  · rfl
  · split
    · rfl
    · rw [updSeq_ch]

end Sys2Proof.Machine
end

section
/-! SUPPORT. What a channel makes of an edge that it sees, chain Cut lines, groups (07, R228, R232, R234), and O32. -/

namespace Sys2Proof.Machine

/-! ### An edge seen -/

theorem pinWait_of_releases {pin : Nat} {falling : Bool} {now : Nat} {q : Seq} {w : SeqWait} (hwait : q.wait = some w)
    (h : let c := courseOf q q.bank q.idx
      coWait c = 1 ∧ w.release = none ∧ coArg c % 4 = pin ∧ bitOf (coArg c) 2 = falling ∧ w.since < now) :
    pinWait pin falling now q = some { w with release := some (.tick now) } := by
  obtain ⟨hkind, hrelease, hpin, hedge, hsince⟩ := h
  simp [pinWait, hwait, hkind, hrelease, hpin, hedge, hsince]

theorem pinWait_of_other {pin : Nat} {falling : Bool} {now : Nat} {q : Seq} {w : SeqWait} (hwait : q.wait = some w)
    (h : let c := courseOf q q.bank q.idx
      coWait c ≠ 1 ∨ coArg c % 4 ≠ pin ∨ bitOf (coArg c) 2 ≠ falling) : pinWait pin falling now q = some w := by
  unfold pinWait
  dsimp only
  rw [hwait, Option.map_some, if_neg]
  obtain hkind | hpin | hedge := h <;> simp_all

section
variable {n : Ch} {pin : Nat} {falling : Bool} {s : Dev}

theorem edgeSeen_of_cuts (h : bitOf (rd s oCutSrc [n]) 5 = true ∧ getField (rd s oCutSrc [n]) 6 2 = pin ∧ bitOf (rd s oCutSrc [n]) 8 = falling) :
    edgeSeen n pin falling s = cutSeen n 1 none (updSeq n (fun q => { q with wait := pinWait pin falling s.now q }) s) := by
  obtain ⟨hon, hpin, hedge⟩ := h
  exact if_pos (by simp [hon, hpin, hedge])

theorem edgeSeen_of_not_cuts (h : ¬ (bitOf (rd s oCutSrc [n]) 5 = true ∧ getField (rd s oCutSrc [n]) 6 2 = pin ∧ bitOf (rd s oCutSrc [n]) 8 = falling)) :
    edgeSeen n pin falling s = updSeq n (fun q => { q with wait := pinWait pin falling s.now q }) s := by
  refine if_neg fun hcuts => h ?_
  simp only [Bool.and_eq_true, decide_eq_true_eq, beq_iff_eq, and_assoc] at hcuts
  exact hcuts

theorem edgeSeen_now (n : Ch) (pin : Nat) (falling : Bool) (s : Dev) : (edgeSeen n pin falling s).now = s.now := by
  unfold edgeSeen
  dsimp only
  split
  · exact (cutSeen_step ..).now
  · rfl

theorem edgeSeen_wait (n : Ch) (pin : Nat) (falling : Bool) (s : Dev) :
    ((edgeSeen n pin falling s).ch n).seq.wait = pinWait pin falling s.now (s.ch n).seq := by
  have hwait : ((updSeq n (fun q => { q with wait := pinWait pin falling s.now q }) s).ch n).seq.wait = pinWait pin falling s.now (s.ch n).seq := by
    rw [updSeq_ch]
  unfold edgeSeen
  dsimp only
  split
  · exact (cutSeen_wait ..).trans hwait
  · exact hwait

end

/-- The Cut of a channel that sees the edge, with the counters of Cuts (R228, R230). -/
theorem edgeSeen_cut (n : Ch) (pin : Nat) (falling : Bool) (s : Dev) :
    let q := (s.ch n).seq
    let z := rd s oCutSrc [n]
    let cuts : Prop := bitOf z 5 = true ∧ getField z 6 2 = pin ∧ bitOf z 8 = falling
    let d := edgeSeen n pin falling s
    (cuts → q.st ≠ .stopped → q.cut = none → (d.ch n).seq.cut = some ⟨1, none⟩) ∧
      (cuts → q.st ≠ .stopped → q.cut.isSome = true → (d.ch n).seq.cut = q.cut ∧ rd d oCutsMerged [n] = min (2 ^ 32 - 1) (rd s oCutsMerged [n] + 1)) ∧
      (cuts → q.st = .stopped → (d.ch n).seq.cut = q.cut ∧ rd d oCutsDropped [n] = min (2 ^ 32 - 1) (rd s oCutsDropped [n] + 1)) ∧
      (¬ cuts → (d.ch n).seq.cut = q.cut ∧ rd d oCutsMerged [n] = rd s oCutsMerged [n] ∧ rd d oCutsDropped [n] = rd s oCutsDropped [n]) := by
  intro q z cuts d
  generalize ht : updSeq n (fun q => { q with wait := pinWait pin falling s.now q }) s = t
  have hseq : (t.ch n).seq = { q with wait := pinWait pin falling s.now q } := by rw [← ht, updSeq_ch]
  have hrd : ∀ r, rd t r [n] = rd s r [n] := fun r => ht ▸ rfl
  have hcuts : cuts → d = cutSeen n 1 none t := fun h => ht ▸ edgeSeen_of_cuts h
  refine ⟨fun h hst hcut => ?_, fun h hst hcut => ?_, fun h hst => ?_, fun h => ?_⟩
  · rw [hcuts h, cutSeen_of_none (by rw [hseq]; exact hst) (by rw [hseq]; exact hcut), updSeq_ch]
  · rw [hcuts h, cutSeen_of_pending (by rw [hseq]; exact hst) (by rw [hseq]; exact hcut), bump_ch, hseq, rd_bump_word rfl, hrd]
    exact ⟨rfl, rfl⟩
  · rw [hcuts h, cutSeen_of_stopped (by rw [hseq]; exact hst), bump_ch, hseq, rd_bump_word rfl, hrd]
    exact ⟨rfl, rfl⟩
  · have hd : d = t := ht ▸ edgeSeen_of_not_cuts h
    rw [hd, hseq, hrd, hrd]
    exact ⟨rfl, rfl, rfl⟩

theorem trigEdge_frame (k : Die) (pin : Nat) (falling : Bool) (samples : Nat) (s : Dev) {n : Ch} (h : n.die ≠ k) :
    BesideChan n s (trigEdge k pin falling samples s) := by
  rw [trigEdge_eq]
  refine List.foldlRecOn (motive := fun d => BesideChan n s d) _ _ (.refl n s) fun d hd m _ => hd.trans ?_
  by_cases hm : n = m
  · subst hm
    rw [edgeAt, if_neg (by simp [h])]
    exact .refl n d
  · exact .edgeAt hm ..

/-- A channel of the die sees the edge if its filter has passed it, on the device as it was but for other channels. -/
theorem trigEdge_seen (n : Ch) (pin : Nat) (falling : Bool) (samples : Nat) (s : Dev) :
    ∃ a, BesideChan n s a ∧ BesideChan n (if rd s oTrigFilter [n] = samples then edgeSeen n pin falling a else a) (trigEdge n.die pin falling samples s) := by
  obtain ⟨a, hbefore, hafter⟩ := foldl_channels (f := edgeAt n.die pin falling samples) (fun n s m h => .edgeAt h ..) n s
  rw [← trigEdge_eq, edgeAt, hbefore.rd oTrigFilter ⟨rfl, rfl⟩] at hafter
  exact ⟨a, hbefore, by simpa using hafter⟩

theorem trigInEdge_completes {s : State} (hlive : Live s) (k : Die) (pin : Fin 4) (x : TrigEdge) : Completes (.trigInEdge k pin x) s
    (trigEdge k pin.val x.falling x.samples.toNat (settleDue s.nv ⟨max s.dev.now 0, 2, 0⟩ [] s.dev)) := completes_of_onDev rfl hlive rfl

/-! ### Chain Cut lines -/

theorem chainCutRow : ClearRow oChainCut 12 where
  sized := by decide
  direct := by decide
  unchecked := rfl
  fits := by decide
  reserved := ⟨15, rfl⟩

theorem chainCut_completes {s : State} {p : Port} {v : BitVec 16} (hserved : Served s p oChainCut) (hv : v.toNat < 4096) :
    Completes (.chainCut p v) s (done p (chainCut v.toNat s.dev)) :=
  chainCutRow.completes rfl hserved rowOf_chainCut (reached_of_objDie_zero _ rfl) hv (fun _ hdata => hdata ▸ rfl) rfl

/-! ### Groups -/

/-- A message that has reached the Control die: an arrival, or a withdrawal. -/
def messageTaken (n : Ch) (g : Nat) (arrive : Bool) (rest : List (Ch × Nat × Bool)) (s : Dev) : Dev :=
  let others := s.groups.arrived.filter fun e => !(e.1 == n && e.2 == g)
  withGroups { s.groups with msgs := rest, arrived := if arrive then others ++ [(n, g)] else others } s

theorem groupArrival_completes {s : State} {n : Ch} {g : Fin 8} {arrive : Bool} {rest : List (Ch × Nat × Bool)} (hlive : Live s) (hup : LinkUp s n.die)
    (hrun : s.dev.ctlRunning = true) (htake : takeMsg n g s.dev.groups.msgs = some (arrive, rest)) :
    Completes (.groupArrival n g) s (groupEvaluate g (messageTaken n g arrive rest s.dev)) := by
  refine completes_of_onDev rfl hlive (congrArg Host.Outcome.next ?_)
  have hlink : s.dev.dies[n.die].link.st = .active := hup
  rw [hlink, hrun, htake]
  rfl

theorem groupEvaluate_of_missing {g : Nat} {s : Dev}
    (h : groupArrived s g = [] ∨ ∃ k ∈ groupMembers s g (groupArrived s g), k ∉ groupArrived s g) : groupEvaluate g s = s := by
  refine if_neg fun hall => ?_
  obtain ⟨hsome, hmembers⟩ := by simpa using hall
  obtain hnone | ⟨k, hk, hmissing⟩ := h
  · exact hsome hnone
  · exact hmissing (hmembers k hk)

/-- The position that a group takes: 12288 ticks later, rounded up to 2^-16 cycle (R232). -/
def groupPos (s : Dev) : Nat := (posOf s.cad.recs ((s.now + 12288) * 256) + 0xFFFF) / 0x10000 * 0x10000 % posMod

theorem groupEvaluate_of_all {g : Nat} {s : Dev} (hsome : groupArrived s g ≠ [])
    (hall : ∀ k ∈ groupMembers s g (groupArrived s g), k ∈ groupArrived s g) :
    groupEvaluate g s = { s with groups := ⟨s.groups.msgs, s.groups.arrived.filter (fun e => e.2 != g),
      s.groups.releases ++ (groupMembers s g (groupArrived s g)).map fun k => (k, g, groupPos s)⟩ } :=
  if_pos (by simpa using ⟨hsome, hall⟩)

theorem groupPos_rounded (s : Dev) : groupPos s % 65536 = 0 := by
  unfold groupPos posMod
  omega

theorem groupPos_bounds {s : Dev} (h : posOf s.cad.recs ((s.now + 12288) * 256) + 65535 < posMod) :
    posOf s.cad.recs ((s.now + 12288) * 256) ≤ groupPos s ∧ groupPos s < posOf s.cad.recs ((s.now + 12288) * 256) + 65536 := by
  unfold groupPos posMod at *
  omega

/-- The oldest release position of a channel is off the list of the Control die. -/
def releaseTaken (n : Ch) (g pos : Nat) (s : Dev) : Dev := withGroups { s.groups with releases := s.groups.releases.erase (n, g, pos) } s

section
variable {s : State} {n : Ch} {g : Fin 8} {pos : Nat} (hlive : Live s) (hup : s.dev.dies[n.die].link.st = .active)
  (hfind : s.dev.groups.releases.find? (fun e => e.1 == n) = some (n, g.val, pos))
include hlive hup hfind

/-- It releases a wait on its group (R232). -/
theorem groupReleasePosition_releases {w : SeqWait} (hwait : (s.dev.ch n).seq.wait = some w)
    (h : let c := courseOf (s.dev.ch n).seq (s.dev.ch n).seq.bank (s.dev.ch n).seq.idx
      coWait c = 4 ∧ coArg c % 8 = g ∧ w.release = none) :
    Completes (.groupReleasePosition n) s
      (updSeq n (fun q => { q with wait := some { w with release := some (.pos pos) } }) (releaseTaken n g pos s.dev)) := by
  refine completes_of_onDev rfl hlive (congrArg Host.Outcome.next ?_)
  rw [if_pos hup, hfind]
  generalize ht : releaseTaken n g pos s.dev = t
  have hseq : (t.ch n).seq = (s.dev.ch n).seq := ht ▸ rfl
  obtain ⟨hkind, hgroup, hrelease⟩ := h
  rw [← hseq] at hwait hkind hgroup
  unfold releaseTaken withGroups at ht
  dsimp only
  rw [ht, hwait]
  exact if_pos (by simp [hkind, hgroup, hrelease])

theorem groupReleasePosition_idle (hwait : (s.dev.ch n).seq.wait = none) :
    Completes (.groupReleasePosition n) s (releaseTaken n g pos s.dev) := by
  refine completes_of_onDev rfl hlive (congrArg Host.Outcome.next ?_)
  rw [if_pos hup, hfind]
  generalize ht : releaseTaken n g pos s.dev = t
  have hseq : (t.ch n).seq = (s.dev.ch n).seq := ht ▸ rfl
  rw [← hseq] at hwait
  unfold releaseTaken withGroups at ht
  dsimp only
  rw [ht, hwait]

end

/-- Settles O32: the edge at each channel beside the others, then the request and the two messages of a group. -/
theorem cutsAndGroups : Obligations.CutsAndGroups := by
  intro s n hlive q c
  refine ⟨fun pin falling samples e he => ?_, fun p v hserved hv => chainCut_completes hserved hv, fun g rest arrive hup hrun htake => ?_,
    fun g pos hup hfind => ?_⟩
  · intro q c z sees cuts
    obtain ⟨a, hbefore, hafter⟩ := trigEdge_seen n pin falling samples.toNat e
    refine ⟨_, he ▸ trigInEdge_completes hlive n.die pin ⟨falling, samples⟩, ?_, fun k hk => (trigEdge_frame _ _ _ _ _ hk).ch, fun hunseen => ?_,
      fun hsees => ?_⟩
    · refine hafter.now.trans (Eq.trans ?_ hbefore.now)
      split
      · exact edgeSeen_now ..
      · rfl
    · rw [if_neg hunseen] at hafter
      exact hafter.ch.trans hbefore.ch
    · rw [if_pos hsees] at hafter
      have hwait := edgeSeen_wait n pin falling a
      have hcut := edgeSeen_cut n pin falling a
      dsimp only at hcut
      rw [← hafter.ch, hbefore.now, hbefore.ch] at hwait
      rw [← hafter.ch, ← hafter.rd oCutsMerged ⟨rfl, rfl⟩, ← hafter.rd oCutsDropped ⟨rfl, rfl⟩, hbefore.rd oCutsMerged ⟨rfl, rfl⟩,
        hbefore.rd oCutsDropped ⟨rfl, rfl⟩, hbefore.rd oCutSrc ⟨rfl, rfl⟩, hbefore.ch] at hcut
      refine ⟨fun w hw hkind hrelease hpin hedge hsince => ?_, fun w hw hother => ?_, hcut⟩
      · exact hwait.trans (pinWait_of_releases hw ⟨hkind, hrelease, hpin, hedge, hsince⟩)
      · exact hwait.trans (pinWait_of_other hw hother)
  · intro others now here members
    have hdone := groupArrival_completes hlive hup hrun htake
    refine ⟨fun hmissing => ?_, fun hsome hall => ?_⟩
    · rwa [groupEvaluate_of_missing (s := messageTaken n g arrive rest s.dev) hmissing] at hdone
    · rw [groupEvaluate_of_all (s := messageTaken n g arrive rest s.dev) hsome hall] at hdone
      exact ⟨_, _, hdone, rfl, groupPos_rounded _, fun hlt => groupPos_bounds hlt⟩
  · intro taken
    refine ⟨fun w hwait hkind hgroup hrelease => ?_, fun hwait => ?_⟩
    · exact groupReleasePosition_releases hlive hup hfind hwait ⟨hkind, hgroup, hrelease⟩
    · exact groupReleasePosition_idle hlive hup hfind hwait

end Sys2Proof.Machine
end

section
/-! SUPPORT. SEQ_CMD (07, R240, R241; Table 7.12). -/

namespace Sys2Proof.Machine

/-! ### The request -/

/-- The index of SEQ_CMD (Table 7.9). -/
theorem ofChan_seqCmd (n : Ch) : ofChan n (0x3080 + 0x100 * n.val) := ofChan_of_lt n (o := 0x80) (by decide)

section
variable {s : State} {p : Port} {n : Ch} {v : Nat} (hserved : Served s p oSeqCmd)
include hserved

theorem seqWrite_of_ok (hreach : dieReachable s.dev (objDie (0x3080 + 0x100 * n.val)) = true) (hneeds : seqNeeds s.dev n v = .ok) :
    seqWrite p n v s.nv s.dev = (.ok, wr (applySeqCmd n v s.dev) oSeqCmd v [n]) := by
  obtain ⟨-, -, hopen, hmay, -⟩ := hserved
  simp [seqWrite, hopen, hmay, reachCheck, hreach, hneeds, firstBad]

theorem seqWrite_of_refused {code : Nat} (hreach : dieReachable s.dev (objDie (0x3080 + 0x100 * n.val)) = true)
    (hneeds : seqNeeds s.dev n v = .abort code) : seqWrite p n v s.nv s.dev = (.abort code, s.dev) := by
  obtain ⟨-, -, hopen, hmay, -⟩ := hserved
  simp [seqWrite, hopen, hmay, reachCheck, hreach, hneeds, firstBad]

theorem seqWrite_of_unreached (hreach : dieReachable s.dev (objDie (0x3080 + 0x100 * n.val)) = false) :
    seqWrite p n v s.nv s.dev = (.abort 0x0F100002, s.dev) := by
  obtain ⟨-, -, hopen, hmay, -⟩ := hserved
  simp [seqWrite, hopen, hmay, reachCheck, hreach, firstBad]

/-- A request that no link holds has its outcome at once. -/
theorem seqCommand_of_free (hlink : linkWaits s.dev (0x3080 + 0x100 * n.val) = none) :
    seqCommand p n v s.nv s.dev = answered p (seqWrite p n v s.nv s.dev) := by
  obtain ⟨-, hserves, -, -, hport⟩ := hserved
  simp [seqCommand, hserves, heldAt, hport, hlink]

/-- A request that may be done waits on the link that holds it (R37). -/
theorem seqCommand_of_waits {k : Die} (hlink : linkWaits s.dev (0x3080 + 0x100 * n.val) = some k) {t : Dev}
    (hok : seqWrite p n v s.nv s.dev = (.ok, t)) :
    seqCommand p n v s.nv s.dev = .next (holdRequest k p (.seq n v) s.dev) := by
  obtain ⟨-, hserves, -, -, hport⟩ := hserved
  simp [seqCommand, hserves, heldAt, hport, hlink, hok]

/-- A command of SEQ_CMD is one of its values. -/
theorem completes_of_seqCommand {i : Instr} (hi : exec i s = onDevNv s fun nv s => seqCommand p n v nv s) {d : Dev}
    (hd : seqCommand p n v s.nv s.dev = .next d) : Completes i s d := completes_of_onDev hi hserved.1 hd

variable (hup : LinkUp s n.die)
include hup

theorem seqCommand_done (hneeds : seqNeeds s.dev n v = .ok) :
    seqCommand p n v s.nv s.dev = .next (done p (wr (applySeqCmd n v s.dev) oSeqCmd v [n])) := by
  obtain ⟨hreach, hlink⟩ := reached_of_ofChan (ofChan_seqCmd n) hup
  rw [seqCommand_of_free hserved hlink, seqWrite_of_ok hserved hreach hneeds]
  rfl

theorem seqCommand_refused {code : Nat} (hneeds : seqNeeds s.dev n v = .abort code) :
    seqCommand p n v s.nv s.dev = .next (setAnswer p (.refused code) s.dev) := by
  obtain ⟨hreach, hlink⟩ := reached_of_ofChan (ofChan_seqCmd n) hup
  rw [seqCommand_of_free hserved hlink, seqWrite_of_refused hserved hreach hneeds]
  rfl

end

/-! ### Links that do not serve -/

/-- The die of a channel's object. -/
theorem dieNo_of_ofChan {n : Ch} {ix : Nat} (h : ofChan n ix) : dieNo (objDie ix) = n.die := by
  rw [objDie_of_ofChan h]
  exact Fin.ext (by have := n.die.isLt; simp only [dieNo]; omega)

theorem dieReachable_of_ofChan {n : Ch} {ix : Nat} (h : ofChan n ix) (s : Dev) :
    dieReachable s (objDie ix) = (s.dies[n.die].link.st == .active || s.dies[n.die].link.st == .retraining) := by
  have hobj := objDie_of_ofChan h
  have hdie := n.die.isLt
  have hlink : s.dies[dieNo (objDie ix)].link.st = s.dies[n.die].link.st := by simp only [dieNo_of_ofChan h]
  unfold dieReachable
  rw [hlink, if_neg (by omega), if_neg (by omega)]
  cases s.dies[n.die].link.st <;> rfl

theorem linkWaits_of_ofChan {n : Ch} {ix : Nat} (h : ofChan n ix) (s : Dev) :
    linkWaits s ix = if s.dies[n.die].link.st == .retraining then some n.die else none := by
  have hobj := objDie_of_ofChan h
  have hdie := n.die.isLt
  have hlink : s.dies[dieNo (objDie ix)].link.st = s.dies[n.die].link.st := by simp only [dieNo_of_ofChan h]
  unfold linkWaits
  dsimp only
  rw [hlink, dieNo_of_ofChan h, decide_eq_true (show 1 ≤ objDie ix by omega), decide_eq_true (show objDie ix ≤ 6 by omega)]
  rfl

/-- A SEQ_CMD of a die that is not reached is refused (R37). -/
theorem seqCommand_of_down {s : State} {p : Port} {n : Ch} {v : Nat} (hserved : Served s p oSeqCmd)
    (hdown : s.dev.dies[n.die].link.st = .lost ∨ s.dev.dies[n.die].link.st = .training) :
    seqCommand p n v s.nv s.dev = .next (setAnswer p (.refused 0x0F100002) s.dev) := by
  have hreach : dieReachable s.dev (objDie (0x3080 + 0x100 * n.val)) = false := by
    rw [dieReachable_of_ofChan (ofChan_seqCmd n)]
    obtain h | h := hdown <;> rw [h] <;> rfl
  have hlink : linkWaits s.dev (0x3080 + 0x100 * n.val) = none := by
    rw [linkWaits_of_ofChan (ofChan_seqCmd n)]
    obtain h | h := hdown <;> rw [h] <;> rfl
  rw [seqCommand_of_free hserved hlink, seqWrite_of_unreached hserved hreach]
  rfl

theorem seqCommand_of_retraining {s : State} {p : Port} {n : Ch} {v : Nat} (hserved : Served s p oSeqCmd)
    (hretrains : s.dev.dies[n.die].link.st = .retraining) (hneeds : seqNeeds s.dev n v = .ok) :
    seqCommand p n v s.nv s.dev = .next (holdRequest n.die p (.seq n v) s.dev) := by
  have hreach : dieReachable s.dev (objDie (0x3080 + 0x100 * n.val)) = true := by
    rw [dieReachable_of_ofChan (ofChan_seqCmd n), hretrains]
    rfl
  have hlink : linkWaits s.dev (0x3080 + 0x100 * n.val) = some n.die := by
    rw [linkWaits_of_ofChan (ofChan_seqCmd n), hretrains]
    rfl
  exact seqCommand_of_waits hserved hlink (seqWrite_of_ok hserved hreach hneeds)

/-! ### START -/

theorem startAllowed_iff (s : Dev) (n : Ch) :
    startAllowed s n = true ↔ (s.ch n).seq.st = .stopped ∧ bankState (s.ch n).seq (rd s oStartBank [n]) = .ready := by
  simp [startAllowed]

theorem bankState_setBankState {b : Nat} (hb : b < 2) (v : BankState) (q : Seq) :
    bankState (setBankState b v q) b = v ∧ bankState (setBankState b v q) (1 - b) = bankState q (1 - b) := by
  obtain rfl | rfl : b = 0 ∨ b = 1 := by omega
  · exact ⟨rfl, rfl⟩
  · exact ⟨rfl, rfl⟩

/-- The Sequencer as it starts (Table 7.12): the entry 0 of the bank, not yet waited for. -/
def startedSeq (b j : Nat) (log : List (Nat × Option Nat)) (q : Seq) : Seq :=
  { setBankState b .playing { q with crr := none, crrLog := log } with
    st := .waiting, bank := b, idx := 0, seg := 0, i := 0, last := 0, wait := none, chosen := none, cut := none, landing := false, next := j,
    starts := [], segs := [], marksLow := false, played := 0 }

theorem courseNow_eq (n : Ch) (c : Option Nat) (s : Dev) : ∃ log, courseNow n c s = updSeq n (fun q => { q with crr := c, crrLog := log }) s :=
  ⟨(s.now, c) :: keepSince (min (windowsFrom s (s.ch n).vm) (windowsFrom s (s.ch n).im)) (s.ch n).seq.crrLog, by
    unfold courseNow
    exact updSeq_congr rfl⟩

/-- The queue that a Sequencer feeds empties as it starts (R213). -/
def queueEmptied (n : Ch) (s : Dev) : Dev := if rd s oSrcQOwner [n] = 2 then updSrc n (fun x => { x with queue := [] }) s else s

theorem seqStart_eq {n : Ch} {s : Dev} (h : startAllowed s n = true) : ∃ j log,
    seqStart n s = updSeq n (startedSeq (rd s oStartBank [n]) j log) (queueEmptied n s) := by
  obtain ⟨log, hcourse⟩ := courseNow_eq n none (queueEmptied n s)
  refine ⟨firstSlot (courseNow n none (queueEmptied n s)) n (courseNow n none (queueEmptied n s)).now + 2, log, ?_⟩
  rw [hcourse]
  unfold queueEmptied at *
  unfold seqStart
  dsimp only
  rw [if_pos h, hcourse, updSeq_updSeq]
  rfl

theorem queueEmptied_effect (n : Ch) (s : Dev) : let d := queueEmptied n s
    chanOnly n s d ∧ d.now = s.now ∧ d.objs = s.objs ∧ (d.ch n).seq = (s.ch n).seq ∧
      (rd s oSrcQOwner [n] = 2 → (d.ch n).src = { (s.ch n).src with queue := [] }) ∧
      (rd s oSrcQOwner [n] ≠ 2 → (d.ch n).src = (s.ch n).src) := by
  unfold queueEmptied
  dsimp only
  split
  case isTrue hseq => exact ⟨by simp, rfl, rfl, by rw [updSrc_ch], fun _ => by rw [updSrc_ch], fun hno => absurd hseq hno⟩
  case isFalse hother => exact ⟨.refl n s, rfl, rfl, rfl, fun hyes => absurd hyes hother, fun _ => rfl⟩

theorem startedSeq_effect {b : Nat} (hb : b < 2) (j : Nat) (log : List (Nat × Option Nat)) (q : Seq) : let d := startedSeq b j log q
    d.st = .waiting ∧ d.bank = b ∧ d.idx = 0 ∧ d.last = 0 ∧ bankState d b = .playing ∧ bankState d (1 - b) = bankState q (1 - b) ∧
      d.crr = none ∧ d.cut = none := by
  obtain ⟨hplaying, hother⟩ := bankState_setBankState hb .playing { q with crr := none, crrLog := log }
  exact ⟨rfl, rfl, rfl, rfl, hplaying, hother, by unfold startedSeq setBankState; split <;> rfl, rfl⟩

/-! ### STOP -/

/-- The Sequencer as it stops (Table 7.12): the playing bank IDLE, markers low, no Cut. -/
def stoppedSeq (q : Seq) : Seq :=
  { setBankState q.bank .idle { q with
      wait := none, markA := ⟨⟨false, none⟩, ⟨false, none⟩, []⟩, markB := ⟨⟨false, none⟩, ⟨false, none⟩, []⟩ } with
    st := .stopped, chosen := none, cut := none, landing := false, starts := [], marksLow := false, segs := segsKept q.starts q.segs, drives := [],
    compare := [] }

theorem seqStop_of_stopped {n : Ch} {s : Dev} (h : (s.ch n).seq.st = .stopped) : seqStop n s = s := if_pos h

theorem seqStop_eq {n : Ch} {s : Dev} (h : (s.ch n).seq.st ≠ .stopped) : ∃ g, seqStop n s = withGroups g (updSeq n stoppedSeq s) := by
  obtain ⟨g, hend⟩ := endWait_eq n s
  refine ⟨g, (if_neg h).trans ?_⟩
  unfold markersLow
  rw [hend, updSeq_withGroups, updSeq_withGroups, updSeq_updSeq, updSeq_updSeq]
  rfl

theorem stoppedSeq_effect {q : Seq} (hbank : q.bank < 2) :
    (stoppedSeq q).st = .stopped ∧ bankState (stoppedSeq q) q.bank = .idle ∧ (stoppedSeq q).lanes = q.lanes ∧ markLevels (stoppedSeq q) = 0 ∧
      (stoppedSeq q).cut = none ∧ (stoppedSeq q).crr = q.crr ∧ (stoppedSeq q).holdHost = q.holdHost ∧ (stoppedSeq q).holdLink = q.holdLink := by
  unfold stoppedSeq setBankState
  obtain h | h : q.bank = 0 ∨ q.bank = 1 := by omega
  · rw [h]
    exact ⟨rfl, rfl, rfl, rfl, rfl, rfl, rfl, rfl⟩
  · rw [h]
    exact ⟨rfl, rfl, rfl, rfl, rfl, rfl, rfl, rfl⟩

/-! ### RESUME -/

theorem resumeAllowed_iff (s : Dev) (n : Ch) : let q := (s.ch n).seq
    resumeAllowed s n = true ↔ q.st = .held ∨ q.holdHost = true ∨ q.holdLink = true ∨ (q.st ≠ .stopped ∧ q.holdSupply = true) := by
  intro q
  by_cases hst : q.st = .stopped <;> simp [resumeAllowed, holdCause, q, hst, or_assoc]

end Sys2Proof.Machine
end

section
/-! SUPPORT. Writes of banks and of their headers (07, R221). -/

namespace Sys2Proof.Machine

/-! ### Bytes of entries -/

theorem length_entries (k : Nat) (l : List Nat) : (l.flatMap (leBytes k)).length = k * l.length := by
  induction l with
  | nil => rfl
  | cons e l ih =>
    rw [List.flatMap_cons, List.length_append, length_leBytes, ih, List.length_cons]
    ring

theorem take_entry {k : Nat} {l : List Nat} {i : Nat} (hi : i < l.length) :
    ((l.flatMap (leBytes k)).drop (k * i)).take k = leBytes k (l.getD i 0) := by
  induction l generalizing i with
  | nil => simp at hi
  | cons e l ih =>
    rw [List.flatMap_cons]
    cases i with
    | zero => rw [Nat.mul_zero, List.drop_zero, List.take_left' (length_leBytes k e), List.getD_cons_zero]
    | succ i =>
      have hdrop : k * (i + 1) = (leBytes k e).length + k * i := by
        rw [length_leBytes]
        ring
      rw [hdrop, List.drop_length_add_append, List.getD_cons_succ]
      exact ih (by simpa using hi)

/-- Entries of k bytes behind a first number are read back. -/
theorem entries_of_bytes {k first : Nat} (hk : 0 < k) (hfirst : first < 65536) {l : List Nat} (hl : ∀ c ∈ l, c < 256 ^ k) {data : List Byte}
    (hdata : data = leBytes 2 first ++ l.flatMap (leBytes k)) : ofBytes (data.take 2) = first ∧
      (data.length - 2) / k = l.length ∧ (List.range ((data.length - 2) / k)).map (fun i => ofBytes ((data.drop (2 + k * i)).take k)) = l := by
  have hlen : (data.length - 2) / k = l.length := by
    rw [hdata, List.length_append, length_leBytes, length_entries, Nat.add_sub_cancel_left, Nat.mul_div_cancel_left _ hk]
  refine ⟨?_, hlen, ?_⟩
  · rw [hdata, List.take_left' (length_leBytes 2 first), ofBytes_leBytes]
    exact Nat.mod_eq_of_lt hfirst
  · rw [hlen]
    refine List.ext_getElem (by simp) fun i hi hi' => ?_
    have hdrop : data.drop (2 + k * i) = (l.flatMap (leBytes k)).drop (k * i) := by
      rw [hdata, ← List.drop_drop, List.drop_left' (length_leBytes 2 first)]
    rw [List.getElem_map, List.getElem_range, hdrop, take_entry hi', ofBytes_leBytes, List.getD_eq_getElem _ _ hi']
    exact Nat.mod_eq_of_lt (hl _ (List.getElem_mem hi'))

/-! ### The entries of a bank -/

theorem clearCrr_frame (n : Ch) (reg : Nat) (s : Dev) : let d := clearCrr n reg s
    chanOnly n s d ∧ d.objs = s.objs ∧ d.fw = s.fw ∧ (d.ch n).seq = (s.ch n).seq :=
  ⟨by simp [clearCrr], rfl, rfl, by unfold clearCrr; rw [updCh_ch_self]⟩

theorem courseOf_setCourse {b : Nat} (hb : b < 2) (e v : Nat) (q : Seq) :
    (∀ j, courseOf (setCourse b e v q) b j = if j = e then v else courseOf q b j) ∧
      ∀ j, courseOf (setCourse b e v q) (1 - b) j = courseOf q (1 - b) j := by
  have hput : ∀ (t : List (Nat × Nat)) j, tabGet (tabPut t 0 e v) 0 j = if j = e then v else tabGet t 0 j := fun t j => by
    split
    case isTrue h => rw [h, tabGet_put_same]
    case isFalse h => rw [tabGet_put_other _ _ _ _ h]
  obtain rfl | rfl : b = 0 ∨ b = 1 := by omega
  · exact ⟨fun j => hput _ j, fun _ => rfl⟩
  · exact ⟨fun j => hput _ j, fun _ => rfl⟩

/-- The entries replaced are those named, and nothing else of the bank changes. -/
theorem bankStore_effect (n : Ch) {b : Nat} (hb : b < 2) (i : Nat) (l : List Nat) (s : Dev) :
    let d := bankStore n b i l s
    chanOnly n s d ∧ d.objs = s.objs ∧ d.fw = s.fw ∧ ∀ e,
      courseOf (d.ch n).seq b e = (if i ≤ e ∧ e < i + l.length then l.getD (e - i) 0 else courseOf (s.ch n).seq b e) ∧
      courseOf (d.ch n).seq (1 - b) e = courseOf (s.ch n).seq (1 - b) e := by
  induction l generalizing i s with
  | nil => exact ⟨.refl n s, rfl, rfl, fun e => ⟨by rw [if_neg (by simp)]; rfl, rfl⟩⟩
  | cons c l ih =>
    obtain ⟨honly, hobjs, hfw, hseq⟩ := clearCrr_frame n (b * 8192 + i) (updSeq n (setCourse b i c) s)
    obtain ⟨lonly, lobjs, lfw, lentries⟩ := ih (i + 1) (clearCrr n (b * 8192 + i) (updSeq n (setCourse b i c) s))
    obtain ⟨hput, hother⟩ := courseOf_setCourse hb i c (s.ch n).seq
    rw [updSeq_ch] at hseq
    simp only [hseq, hput, hother] at lentries
    refine ⟨chanOnly.trans (chanOnly.trans (by simp) honly) lonly, lobjs.trans hobjs, lfw.trans hfw,
      fun e => ⟨(lentries e).1.trans ?_, (lentries e).2⟩⟩
    rw [List.length_cons]
    by_cases hfirst : e = i
    · subst hfirst
      rw [if_neg (by omega), if_pos rfl, if_pos (by omega), Nat.sub_self, List.getD_cons_zero]
    · rw [if_neg hfirst]
      by_cases hin : i + 1 ≤ e ∧ e < i + 1 + l.length
      · rw [if_pos hin, if_pos (by omega), show e - i = (e - (i + 1)) + 1 by omega, List.getD_cons_succ]
      · rw [if_neg hin, if_neg (by omega)]

theorem bankIdle_of_idle {s : Dev} {n : Ch} {b : Nat} (h : bankState (s.ch n).seq b = .idle) : bankIdle s n b = .ok := by
  unfold bankIdle
  rw [h]

theorem bankIdle_of_ready {s : Dev} {n : Ch} {b : Nat} (h : bankState (s.ch n).seq b = .ready) : bankIdle s n b = .abort 0x0F100071 := by
  unfold bankIdle
  rw [h]

theorem bankIdle_of_playing {s : Dev} {n : Ch} {b : Nat} (h : bankState (s.ch n).seq b = .playing) : bankIdle s n b = .abort 0x0F100070 := by
  unfold bankIdle
  rw [h]

/-! ### The table -/

/-- The table of a bank. -/
def bankRow (k : Fin 2) : Row := if k = 0 then oBankA else oBankB

theorem rowOf_bankRow (n : Ch) (k : Fin 2) : rowOf ((bankRow k).ix + dimsOff (bankRow k).dims [n]) (bankRow k).sub = some (bankRow k) := by
  fin_cases k
  · exact rowOf_bankA n
  · exact rowOf_bankB n

theorem tableOf_bankRow (n : Ch) (k : Fin 2) : tableOf n ((bankRow k).ix + dimsOff (bankRow k).dims [n.val]) := by
  have hplace : (bankRow k).ix + dimsOff (bankRow k).dims [n.val] = 0x5000 + (0x10 * n.val + 0) := by fin_cases k <;> rfl
  rw [hplace, tableOf]
  omega

/-- Whole entries pass the length of the table (R332, check 3). -/
theorem lengthOk_bankRow (k : Fin 2) {len m : Nat} (hm : m ≠ 0) (hlen : len = 2 + 32 * m) : lengthOk (bankRow k) len = true := by
  have hrule : lengthOk (bankRow k) len = (decide (32 + 2 ≤ len) && (len - 2) % 32 == 0) := by fin_cases k <;> rfl
  rw [hrule, hlen]
  simp
  omega

/-- Entries of the bank with no reserved field pass its values (R332, check 6). -/
theorem valueCheck_bankRow (k : Fin 2) (ix : Nat) {data : List Byte} {l : List Nat}
    (hentries : (List.range ((data.length - 2) / 32)).map (fun i => ofBytes ((data.drop (2 + 32 * i)).take 32)) = l)
    (hfits : ofBytes (data.take 2) + (data.length - 2) / 32 ≤ 8192) (hl : ∀ c ∈ l, courseReserved c = false) :
    valueCheck (bankRow k) ix (bankRow k).sub data = .ok := by
  have hrule : valueCheck (bankRow k) ix (bankRow k).sub data = firstBad [refuseIf (8191 < ofBytes (data.take 2) + (data.length - 2) / 32 - 1) 3,
      refuseIf ((List.range ((data.length - 2) / 32)).any fun i => courseReserved (ofBytes ((data.drop (2 + 32 * i)).take 32))) 3] := by
    fin_cases k <;> rfl
  have hreserved : ((List.range ((data.length - 2) / 32)).any fun i => courseReserved (ofBytes ((data.drop (2 + 32 * i)).take 32))) = false := by
    have hall : l.any courseReserved = false := List.any_eq_false.mpr fun c hc => by simp [hl c hc]
    rwa [← hentries, List.any_map] at hall
  rw [hrule, hreserved, decide_eq_false (by omega)]
  rfl

theorem directTab_bankRow (p : Port) (n : Ch) (k : Fin 2) (data : List Byte) (s : Dev) {ix : Nat} (hix : tableOf n ix) :
    directTab p (bankRow k) ix (bankRow k).sub (ofBytes data) data s = bankWrite n k data s := by
  have hrule : directTab p (bankRow k) ix (bankRow k).sub (ofBytes data) data s = bankWrite (chOf ix) k data s := by fin_cases k <;> rfl
  rw [hrule, chOf_of_tableOf hix]

/-- A served write of whole entries is decided by the bank's own rule. -/
theorem bankWrite_completes {s : State} {p : Port} {n : Ch} {k : Fin 2} {data : List Byte} {first : Nat} {l : List Nat} {v : Verdict}
    {a : Answer} {t : Dev} (hup : LinkUp s n.die) (hserved : Served s p (bankRow k)) (hne : l ≠ []) (hdata : data = leBytes 2 first ++ l.flatMap (leBytes 32))
    (hfits : first + l.length ≤ 8192) (hl : ∀ c ∈ l, c < 2 ^ 256 ∧ courseReserved c = false)
    (hrule : actIf (bankIdle s.dev n k) s.dev (bankStore n k first l s.dev) = (v, t))
    (hanswer : answered p (v, t) = .next (setAnswer p a t)) (hfw : t.fw = s.dev.fw) : Completes (.bankWrite p n k data) s (setAnswer p a t) := by
  obtain ⟨hlive, hserves, hopen, hmay, hport⟩ := hserved
  obtain ⟨hdie, hlink⟩ := reached_of_tableOf (tableOf_bankRow n k) hup
  have hpos : l.length ≠ 0 := fun h => hne (List.length_eq_zero_iff.mp h)
  obtain ⟨hfirst, hcount, hentries⟩ := entries_of_bytes (k := 32) (by decide) (first := first) (by omega) (fun c hc => (hl c hc).1) hdata
  have hlength := lengthOk_bankRow k hpos (by rw [hdata, List.length_append, length_leBytes, length_entries] : data.length = 2 + 32 * l.length)
  have hval := valueCheck_bankRow k ((bankRow k).ix + dimsOff (bankRow k).dims [n.val]) hentries (by rw [hfirst, hcount]; exact hfits)
    fun c hc => (hl c hc).2
  have hdirect : directWrite p (bankRow k) ((bankRow k).ix + dimsOff (bankRow k).dims [n.val]) (bankRow k).sub data s.nv s.dev = (v, t) := by
    rw [directWrite_of_tableOf (tableOf_bankRow n k), directTab_bankRow p n k data s.dev (tableOf_bankRow n k), bankWrite, hentries, hfirst]
    exact hrule
  have hacc : (bankRow k).acc ≠ .rk := by fin_cases k <;> decide
  have hcheck : directCheck (bankRow k) s.dev data = .ok := by fin_cases k <;> rfl
  have hwrite : writeObj s.nv p ((bankRow k).ix + dimsOff (bankRow k).dims [n.val]) (bankRow k).sub data s.dev = (v, t) := by
    simp [writeObj, hopen, writeOpen, nameOf_of_rowOf p (rowOf_bankRow n k) (right_of_mayWrite hmay), firstBad, hmay, hlength, reachCheck, hdie, hacc,
      hval, hcheck, hdirect]
  refine onDev_acts hlive ?_
  rw [← bankRow]
  simp [request, hserves, hwrite, writeWaits_of_no_hold hport hlink, hfw, hanswer]

end Sys2Proof.Machine
end

section
/-! SUPPORT. Headers of banks and CUT_REQ as requests (07, R221, R228), and O31. -/

namespace Sys2Proof.Machine

/-! ### Headers -/

/-- The row of a header of a bank. -/
def headerRow (h : Fin 3) : Row := if h = 0 then oBankEnd else if h = 1 then oLoopStart else oBankFlags

theorem headerRow_plain (h : Fin 3) : PlainRow (headerRow h) := by
  fin_cases h
  · exact ⟨by decide, by decide, rfl⟩
  · exact ⟨by decide, by decide, rfl⟩
  · exact ⟨by decide, by decide, rfl⟩

theorem rowOf_headerRow (n : Ch) (k : Fin 2) (h : Fin 3) :
    rowOf ((headerRow h).ix + dimsOff (headerRow h).dims [n, k]) (headerRow h).sub = some (headerRow h) := by
  fin_cases h
  · exact rowOf_bankEnd n k
  · exact rowOf_loopStart n k
  · exact rowOf_bankFlags n k

/-- The headers have one set of rights (R19). -/
theorem served_headerRow {s : State} {p : Port} (h : Fin 3) (hserved : Served s p oBankEnd) : Served s p (headerRow h) := by
  obtain ⟨hlive, hserves, hopen, hmay, hport⟩ := hserved
  exact ⟨hlive, hserves, hopen, (by fin_cases h <;> rfl : mayWrite (headerRow h) p = mayWrite oBankEnd p).trans hmay, hport⟩

theorem headerRow_place (n : Ch) (k : Fin 2) (h : Fin 3) :
    (headerRow h).ix + dimsOff (headerRow h).dims [n.val, k.val] = 0x3000 + (0x81 + k.val) + (0x100 * n.val + 0) := by
  have hplace : (headerRow h).ix + dimsOff (headerRow h).dims [n.val, k.val] = 0x3081 + (0x100 * n.val + (0x1 * k.val + 0)) := by
    fin_cases h <;> rfl
  omega

theorem placesOf_headerRow (n : Ch) (k : Fin 2) (h : Fin 3) :
    (placesOf (headerRow h) ((headerRow h).ix + dimsOff (headerRow h).dims [n.val, k.val])).getD 1 0 = k := by
  have hdims : (headerRow h).dims = [(0x100, 24), (0x1, 2)] := by fin_cases h <;> rfl
  unfold placesOf
  rw [Nat.add_sub_cancel_left, hdims]
  simp only [dimsOff, dimsPlace, List.getD_cons_succ, List.getD_cons_zero]
  omega

/-- The values of a header that its limits let through. -/
def headerFits (h : Fin 3) (v : Nat) : Prop := if h = 2 then v < 4 else v ≤ 8191

theorem headerFits_of_lt (h : Fin 3) {v : Nat} (hv : v < 4) : headerFits h v := by
  unfold headerFits
  split <;> omega

theorem limitCheck_of_le {r : Row} {hi v : Nat} (hsigned : r.signed = false) (hlim : r.lim = .rng 0 hi) (hv : v ≤ hi) : limitCheck r v = .ok := by
  unfold limitCheck
  simp [hsigned, hlim, hv, refuseIf]

theorem limitCheck_headerRow {h : Fin 3} {v : Nat} (hv : headerFits h v) :
    ofBytes (leBytes (headerRow h).size v) = v ∧ limitCheck (headerRow h) v = .ok := by
  fin_cases h
  · have hle : v ≤ 8191 := hv
    exact ⟨(ofBytes_leBytes 2 v).trans (Nat.mod_eq_of_lt (by omega)), limitCheck_of_le rfl rfl hle⟩
  · have hle : v ≤ 8191 := hv
    exact ⟨(ofBytes_leBytes 2 v).trans (Nat.mod_eq_of_lt (by omega)), limitCheck_of_le rfl rfl hle⟩
  · have hlt : v < 2 ^ 2 := hv
    refine ⟨(ofBytes_leBytes 1 v).trans (Nat.mod_eq_of_lt (by omega)), ?_⟩
    change (if v &&& 2 ^ 2 * 63 ≠ 0 then Verdict.reserved else .ok) = .ok
    rw [and_high_eq_zero 63 hlt, if_neg (by decide)]

theorem directCh_headerRow (p : Port) (n : Ch) (k : Fin 2) (h : Fin 3) (v : Nat) (data : List Byte) (s : Dev) :
    directCh p (headerRow h) ((headerRow h).ix + dimsOff (headerRow h).dims [n.val, k.val]) (headerRow h).sub v data s =
      actIf (bankIdle s n k) s (wr s (headerRow h) v [n, k]) := by
  have hplace := headerRow_place n k h
  have hrow := rowOf_headerRow n k h
  have hbank := placesOf_headerRow n k h
  generalize hix : (headerRow h).ix + dimsOff (headerRow h).dims [n.val, k.val] = ix at *
  have hin : ofChan n ix := by
    rw [hplace, ofChan]
    omega
  have hrule : directCh p (headerRow h) ix (headerRow h).sub v data s =
      actIf (bankIdle s (chOf ix) ((placesOf (headerRow h) ix).getD 1 0)) s (storeObj p (headerRow h) ix (headerRow h).sub v s) := by
    fin_cases h <;> rfl
  rw [hrule, hbank, chOf_of_ofChan hin, ← hix,
    storeObj_places (by rw [hix]; exact hrow) (by fin_cases h <;> rfl) (by omega) (by fin_cases h <;> decide)]

theorem ofChan_headerRow (n : Ch) (k : Fin 2) (h : Fin 3) : ofChan n ((headerRow h).ix + dimsOff (headerRow h).dims [n.val, k.val]) := by
  rw [headerRow_place, ofChan]
  omega

theorem directWrite_headerRow {n : Ch} {k : Fin 2} {h : Fin 3} {v : Nat} (hv : headerFits h v) (p : Port) (nv : Nv) (s : Dev) :
    directWrite p (headerRow h) ((headerRow h).ix + dimsOff (headerRow h).dims [n.val, k.val]) (headerRow h).sub (leBytes (headerRow h).size v) nv s =
      actIf (bankIdle s n k) s (wr s (headerRow h) v [n, k]) := by
  have hown : ownedCheck s ((headerRow h).ix + dimsOff (headerRow h).dims [n.val, k.val]) = .ok := by
    rw [headerRow_place]
    exact ownedCheck_of_not_arrayRow (not_arrayRow_of (by omega))
  rw [directWrite_of_ofChan (ofChan_headerRow n k h) hown, (limitCheck_headerRow hv).1, directCh_headerRow]

theorem exec_bankHeaderWrite (p : Port) (n : Ch) (k : Fin 2) (h : Fin 3) (v : BitVec 16) (s : State) :
    exec (.bankHeaderWrite p n k h v) s = rowRequest p (headerRow h) [n, k] (leBytes (headerRow h).size v.toNat) s := by
  fin_cases h <;> rfl

section
variable {s : State} {p : Port} {n : Ch} {k : Fin 2} {h : Fin 3} {v : BitVec 16} (hserved : Served s p oBankEnd) (hup : LinkUp s n.die)
  (hv : headerFits h v.toNat)
include hserved hup hv

theorem bankHeaderWrite_completes (hidle : bankState (s.dev.ch n).seq k = .idle) :
    Completes (.bankHeaderWrite p n k h v) s (done p (wr s.dev (headerRow h) v.toNat [n, k])) := by
  obtain ⟨hdata, hlim⟩ := limitCheck_headerRow hv
  obtain ⟨hreach, hlink⟩ := reached_of_ofChan (ofChan_headerRow n k h) hup
  refine (exec_bankHeaderWrite ..).trans ((headerRow_plain h).rowRequest (served_headerRow h hserved) (rowOf_headerRow n k h)
    (length_leBytes ..) hreach hlink (by rw [hdata]; exact hlim) ?_ rfl)
  rw [directWrite_headerRow hv, bankIdle_of_idle hidle]
  rfl

theorem bankHeaderWrite_refused {code : Nat} (hbusy : bankIdle s.dev n k = .abort code) :
    Completes (.bankHeaderWrite p n k h v) s (setAnswer p (.refused code) s.dev) := by
  obtain ⟨hdata, hlim⟩ := limitCheck_headerRow hv
  refine (exec_bankHeaderWrite ..).trans ((headerRow_plain h).rowRequest_refused (served_headerRow h hserved)
    (rowOf_headerRow n k h) (length_leBytes ..) (reached_of_ofChan (ofChan_headerRow n k h) hup) (by rw [hdata]; exact hlim) ?_)
  rw [directWrite_headerRow hv, hbusy]
  rfl

end

/-! ### CUT_REQ -/

theorem plainRow_cutReq : PlainRow oCutReq := ⟨by decide, by decide, rfl⟩

theorem ofChan_cutReq (n : Ch) : ofChan n (oCutReq.ix + dimsOff oCutReq.dims [n.val]) := ofChan_of_lt n (o := 0x80) (by decide)

/-- A field that reads 0 has none of its bits set. -/
theorem and_field_eq_zero {v lo n : Nat} (h : getField v lo n = 0) : v &&& 2 ^ lo * (2 ^ n - 1) = 0 := by
  refine Nat.eq_of_testBit_eq fun i => ?_
  have hbit := congrArg (fun w => w.testBit (i - lo)) h
  simp only [getField, Nat.testBit_mod_two_pow, Nat.testBit_div_two_pow, Nat.zero_testBit] at hbit
  rw [Nat.testBit_and, Nat.testBit_two_pow_mul, Nat.testBit_two_pow_sub_one, Nat.zero_testBit]
  by_cases hlo : lo ≤ i
  · rw [Nat.sub_add_cancel hlo] at hbit
    simpa [hlo, Bool.and_comm] using hbit
  · simp [hlo]

theorem limitCheck_cutReq {v : BitVec 16} (hv : getField v.toNat 13 2 = 0) : limitCheck oCutReq (ofBytes (leBytes 2 v.toNat)) = .ok := by
  have hdata : ofBytes (leBytes 2 v.toNat) = v.toNat := (ofBytes_leBytes 2 _).trans (Nat.mod_eq_of_lt v.isLt)
  have hnone : v.toNat &&& 0x6000 = 0 := and_field_eq_zero hv
  rw [hdata]
  exact if_neg (not_not.mpr hnone)

theorem directWrite_cutReq (p : Port) (n : Ch) (v : BitVec 16) (nv : Nv) (s : Dev) :
    directWrite p oCutReq (oCutReq.ix + dimsOff oCutReq.dims [n.val]) oCutReq.sub (leBytes 2 v.toNat) nv s = cutReq n v.toNat s := by
  have hdata : ofBytes (leBytes 2 v.toNat) = v.toNat := (ofBytes_leBytes 2 _).trans (Nat.mod_eq_of_lt v.isLt)
  have hch : directCh p oCutReq (oCutReq.ix + dimsOff oCutReq.dims [n.val]) oCutReq.sub v.toNat (leBytes 2 v.toNat) s =
      cutReq (chOf (oCutReq.ix + dimsOff oCutReq.dims [n.val])) v.toNat s := rfl
  rw [directWrite_of_ofChan (ofChan_cutReq n) (ownedCheck_of_not_arrayRow (not_arrayRow_of (o := 0x80) (by decide))), hdata, hch,
    chOf_of_ofChan (ofChan_cutReq n)]

section
variable {s : State} {p : Port} {n : Ch} {v : BitVec 16} (hserved : Served s p oCutReq) (hup : LinkUp s n.die) (hv : getField v.toNat 13 2 = 0)
include hserved hup hv

/-- CUT_REQ of a Sequencer that listens is a Cut seen (R228). -/
theorem cutReq_completes (hst : (s.dev.ch n).seq.st ≠ .stopped) (hon : bitOf (rd s.dev oCutSrc [n]) 4 = true) :
    Completes (.cutReq p n v) s (done p (cutSeen n 0 (if bitOf v.toNat 15 then some (v.toNat % 8192) else none) s.dev)) := by
  have hreached := reached_of_ofChan (ofChan_cutReq n) hup
  refine plainRow_cutReq.rowRequest hserved (rowOf_cutReq n) (length_leBytes ..) hreached.1 hreached.2 (limitCheck_cutReq hv) ?_ ?_
  · rw [directWrite_cutReq]
    simp [cutReq, hst, hon, refuseIf, actIf]
  · rw [(cutSeen_step ..).frame]

theorem cutReq_refused (hshut : ¬ ((s.dev.ch n).seq.st ≠ .stopped ∧ bitOf (rd s.dev oCutSrc [n]) 4 = true)) :
    Completes (.cutReq p n v) s (setAnswer p (.refused 0x0F100077) s.dev) := by
  refine plainRow_cutReq.rowRequest_refused hserved (rowOf_cutReq n) (length_leBytes ..) (reached_of_ofChan (ofChan_cutReq n) hup) (limitCheck_cutReq hv) ?_
  rw [directWrite_cutReq]
  have hrefused : ((s.dev.ch n).seq.st == .stopped || !bitOf (rd s.dev oCutSrc [n]) 4) = true := by
    by_cases hst : (s.dev.ch n).seq.st = .stopped <;> simp_all
  rw [cutReq, hrefused]
  rfl

end

/-- Settles O31: SEQ_CMD by what each of its values needs, the tables and headers by the state of their bank, CUT_REQ by whether the Sequencer listens. -/
theorem sequencerCommands : Obligations.SequencerCommands := by
  intro s p n hlive q b
  refine ⟨fun hserved hup => ⟨fun hst hready hb => ?_, fun hnot => ?_, fun hst hbank => ?_, fun hst => ?_, ?_, fun hallowed => ?_,
      fun hst hhost hlink hsupply => ?_⟩, fun hserved hdown => ?_, fun hserved hretrains => ?_,
    fun k data first l hserved hup hne hdata hfits hl => ⟨fun hidle => ?_, fun hready => ?_, fun hplaying => ?_⟩,
    fun k v hserved hup => ⟨fun hidle hv => ⟨?_, ?_, fun hflags => ?_⟩, fun hready hv h => ?_, fun hplaying hv h => ?_⟩,
    fun v hserved hup hv => ⟨fun hopen hcut => ?_, fun hopen hcut => ?_, fun hshut => ?_⟩⟩
  · have hallowed := (startAllowed_iff s.dev n).mpr ⟨hst, hready⟩
    obtain ⟨j, log, hstart⟩ := seqStart_eq hallowed
    obtain ⟨qonly, qnow, qobjs, qseq, qempty, qkept⟩ := queueEmptied_effect n s.dev
    obtain ⟨est, ebank, eidx, elast, eplaying, eother, ecrr, ecut⟩ := startedSeq_effect hb j log q
    refine ⟨seqStart n s.dev, completes_of_seqCommand hserved rfl (seqCommand_done (v := 1) hserved hup (if_pos hallowed)), ?_⟩
    rw [hstart, updSeq_ch, qseq]
    exact ⟨by simpa using qonly, qnow, qobjs, est, ebank, eidx, elast, eplaying, eother, ecrr, ecut, qempty, qkept⟩
  · have hrefused : startAllowed s.dev n ≠ true := fun h => by
      obtain ⟨hst, hready⟩ := (startAllowed_iff s.dev n).mp h
      exact hnot.elim (absurd hst) (absurd hready)
    exact completes_of_seqCommand hserved rfl (seqCommand_refused (v := 1) hserved hup (if_neg hrefused))
  · obtain ⟨g, hstop⟩ := seqStop_eq hst
    refine ⟨seqStop n s.dev, completes_of_seqCommand hserved rfl (seqCommand_done (v := 2) hserved hup rfl), ?_⟩
    rw [hstop, withGroups_ch, updSeq_ch]
    exact ⟨rfl, rfl, fun m hm => (SeqStep.updSeq n stoppedSeq s.dev).others m hm, rfl, stoppedSeq_effect hbank⟩
  · have hdone := completes_of_seqCommand (i := .seqStop p n) hserved rfl (seqCommand_done (v := 2) hserved hup rfl)
    rwa [show applySeqCmd n 2 s.dev = s.dev from seqStop_of_stopped hst] at hdone
  · exact completes_of_seqCommand hserved rfl (seqCommand_done (v := 3) hserved hup rfl)
  · exact completes_of_seqCommand hserved rfl (seqCommand_done (v := 4) hserved hup (if_pos ((resumeAllowed_iff s.dev n).mpr hallowed)))
  · have hrefused : resumeAllowed s.dev n ≠ true := fun h => by
      obtain h | h | h | ⟨hrunning, h⟩ := (resumeAllowed_iff s.dev n).mp h
      · exact hst h
      · exact absurd (hhost.symm.trans h) (by decide)
      · exact absurd (hlink.symm.trans h) (by decide)
      · exact hsupply.elim hrunning fun hno => absurd (hno.symm.trans h) (by decide)
    exact completes_of_seqCommand hserved rfl (seqCommand_refused (v := 4) hserved hup (if_neg hrefused))
  · simp only [List.mem_cons, List.not_mem_nil, or_false]
    rintro i (rfl | rfl | rfl | rfl)
    · exact completes_of_seqCommand hserved rfl (seqCommand_of_down hserved hdown)
    · exact completes_of_seqCommand hserved rfl (seqCommand_of_down hserved hdown)
    · exact completes_of_seqCommand hserved rfl (seqCommand_of_down hserved hdown)
    · exact completes_of_seqCommand hserved rfl (seqCommand_of_down hserved hdown)
  · exact completes_of_seqCommand hserved rfl (seqCommand_of_retraining (v := 3) hserved hretrains rfl)
  · obtain ⟨honly, hobjs, hfw, hentries⟩ := bankStore_effect n k.isLt first l s.dev
    exact ⟨_, bankWrite_completes hup hserved hne hdata hfits hl (by rw [bankIdle_of_idle hidle]; rfl) rfl hfw, honly, hobjs, hentries⟩
  · exact bankWrite_completes hup hserved hne hdata hfits hl (by rw [bankIdle_of_ready hready]; rfl) rfl rfl
  · exact bankWrite_completes hup hserved hne hdata hfits hl (by rw [bankIdle_of_playing hplaying]; rfl) rfl rfl
  · exact bankHeaderWrite_completes (h := 0) hserved hup hv hidle
  · exact bankHeaderWrite_completes (h := 1) hserved hup hv hidle
  · exact bankHeaderWrite_completes (h := 2) hserved hup hflags hidle
  · exact bankHeaderWrite_refused hserved hup (headerFits_of_lt h hv) (bankIdle_of_ready hready)
  · exact bankHeaderWrite_refused hserved hup (headerFits_of_lt h hv) (bankIdle_of_playing hplaying)
  · have hdone := cutReq_completes hserved hup hv hopen.1 hopen.2
    rwa [cutSeen_of_none hopen.1 hcut] at hdone
  · have hdone := cutReq_completes hserved hup hv hopen.1 hopen.2
    rwa [cutSeen_of_pending hopen.1 hcut] at hdone
  · exact cutReq_refused hserved hup hv hshut

end Sys2Proof.Machine
end

section
/-! SUPPORT. Refutes O36: a verify ends in an array that is OFF with a rotation still to be performed; slices of an OFF array change places at once (04,
R130), and the spare that the statement leaves idle enters service. -/

namespace Sys2Proof.Machine

/-- What a verify that ends leaves (R260), before the request that waited for it is entered and the roles of an array that serves no slots are settled. -/
def verifyEnded (n : Ch) (m : Mon) (hi lo : Int) (g : Nat) (s : Dev) : Dev :=
  let y := monOf s n m
  let a := verifyArr m
  let s := advance (g + 123864) s
  let s := match (arrOf s n a).spare with
    | some i => updSlice n a i (fun z => { z with st := if z.st = .verify then .spareIdle else z.st }) s
    | none => s
  let s := unitRelease (verifyId n m) (pathUnit n a) s
  let s := updMon n m (fun y => { y with verifyAt := none, verifyVoid := false }) s
  if y.verifyVoid || y.st = .off then s else verifyResult n m hi lo s

/-- A verify in progress ends while DS2 of the die runs (R31, R260). -/
theorem verifyComplete_completes {s : State} {n : Ch} {m : Mon} {g : Nat} (hlive : Live s) (hruns : serviceRuns s.dev n.die 2 = true)
    (hat : (monOf s.dev n m).verifyAt = some g) (hi lo : Int) : Completes (.verifyComplete n m hi lo) s
      (verifyResume n m (idleRoles n (verifyArr m) (verifyEnded n m hi lo g s.dev))) :=
  completes_of_onDev rfl hlive (by simp only [hruns, hat]; rfl)

/-- A released device whose array VM of channel 0 is OFF with a rotation of role 0 still to be performed: its spare, slice 6, verifies monitor 0. -/
def rotationBehindVerify : State :=
  let start := State.reset.dev
  let released : Dev := { start with supply := { start.supply with released := true } }
  let verifies (x : Arr) : Arr := { x with slices := x.slices.set 6 { Slice.atReset with st := .verify }, rotRole := some 0 }
  { State.reset with dev := updMon 0 0 (fun y => { y with st := .running, verifyAt := some 0 }) (updArr 0 .vm verifies released) }

/-- The spare takes role 0 as its verify ends. -/
theorem rotationBehindVerify_rotates : ((arrOf (verifyResume 0 0 (idleRoles 0 .vm (verifyEnded 0 0 0 0 0 rotationBehindVerify.dev))) 0 .vm).slices[
    (6 : Fin 7)]).st = .active := by
  decide +kernel

/-- Refutes O36 by its clause of the spare that a verify releases. -/
theorem not_thresholdVerify : ¬ Obligations.ThresholdVerify := by
  intro h
  obtain ⟨-, -, -, hends, -⟩ := h rotationBehindVerify 0 0 rfl
  have hat : (monOf rotationBehindVerify.dev 0 0).verifyAt = some 0 := by decide +kernel
  have hruns : serviceRuns rotationBehindVerify.dev (Ch.die 0) 2 = true := by decide +kernel
  have hmodel := verifyComplete_completes (s := rotationBehindVerify) (n := 0) (m := 0) rfl hruns hat 0 0
  obtain ⟨d, hd, -, -, -, -, hspare, -⟩ := hends 0 0 0 hat (by decide +kernel) (by decide +kernel) hruns (by decide +kernel)
  have hidle := hspare 6 (by decide +kernel) (by decide +kernel)
  have hvm : arrOf d 0 .vm = _ := congrArg Chan.vm (ch_of_completes hd hmodel 0)
  have hactive := rotationBehindVerify_rotates
  exact absurd (hactive.symm.trans ((congrArg (fun x : Arr => x.slices[(6 : Fin 7)].st) hvm.symm).trans hidle)) (by decide)

end Sys2Proof.Machine
end

section
/-! SUPPORT. Operations on one guard monitor (08): what a read of it finds after each of them, and the keys of a monitor's objects. -/

namespace Sys2Proof.Machine

/-! ### One monitor -/

@[simp] theorem updMon_now (n : Ch) (m : Mon) (f : Monitor → Monitor) (s : Dev) : (updMon n m f s).now = s.now := rfl
@[simp] theorem updMon_objs (n : Ch) (m : Mon) (f : Monitor → Monitor) (s : Dev) : (updMon n m f s).objs = s.objs := rfl
@[simp] theorem rd_updMon (n : Ch) (m : Mon) (f : Monitor → Monitor) (s : Dev) (r : Row) (l : List Nat) : rd (updMon n m f s) r l = rd s r l := rfl
@[simp] theorem chanOnly_updMon (n : Ch) (m : Mon) (f : Monitor → Monitor) (a b : Dev) : chanOnly n a (updMon n m f b) ↔ chanOnly n a b :=
  chanOnly_updCh n _ a b

@[simp] theorem updMon_ch (n : Ch) (m : Mon) (f : Monitor → Monitor) (s : Dev) :
    (updMon n m f s).ch n = { s.ch n with mons := (s.ch n).mons.set m (f (monOf s n m)) } := updCh_ch_self n _ s

@[simp] theorem monOf_updMon (n : Ch) (m : Mon) (f : Monitor → Monitor) (s : Dev) : monOf (updMon n m f s) n m = f (monOf s n m) := by
  unfold monOf
  rw [updMon_ch]
  simp [monOf]

@[simp] theorem monOf_advance (t : Nat) (s : Dev) (n : Ch) (m : Mon) : monOf (advance t s) n m = monOf s n m := rfl

theorem monOf_updMon_of_ne {m k : Mon} (n : Ch) (f : Monitor → Monitor) (s : Dev) (h : k ≠ m) : monOf (updMon n m f s) n k = monOf s n k := by
  have hval : m.val ≠ k.val := fun e => h (Fin.ext e.symm)
  unfold monOf
  rw [updMon_ch]
  simp [Vector.getElem_set_ne, hval]


/-! ### Keys -/

/-- The key of an object that each monitor of a channel has (Table 8.8). -/
theorem keyOf_mon {r : Row} (hr : r.dims = [(0x100, 24), (0x1, 4)]) (n : Ch) (m : Mon) :
    keyOf r [n, m] 0 = objKey r.ix r.sub 0 + 65536 * n + 256 * m := by
  simp only [keyOf, objKey, hr, dimsOff]
  ring

theorem keyOf_mon_ne {q r : Row} (hq : q.dims = [(0x100, 24), (0x1, 4)]) (hr : r.dims = [(0x100, 24), (0x1, 4)])
    (h : objKey q.ix q.sub 0 ≠ objKey r.ix r.sub 0) (n : Ch) (m : Mon) : keyOf q [n, m] 0 ≠ keyOf r [n, m] 0 := by
  rw [keyOf_mon hq, keyOf_mon hr]
  omega

/-- An object of a monitor is none that the channel has once. -/
theorem keyOf_mon_ne_chan {q r : Row} (hq : q.dims = [(0x100, 24), (0x1, 4)]) (hr : r.dims = [(0x100, 24)])
    (h : ∀ i < 4, objKey q.ix q.sub 0 + 256 * i ≠ objKey r.ix r.sub 0) (n : Ch) (m : Mon) : keyOf q [n, m] 0 ≠ keyOf r [n] 0 := by
  have hne := h m.val m.isLt
  rw [keyOf_mon hq, keyOf_chan hr]
  omega

/-! ### What a decision touches -/

/-- From `a` to `b` channel n has had its Sequencer hear of a comparator at most: its wait, its Cut and the counters of Cuts (07, R216, R228). -/
structure HeardStep (n : Ch) (a b : Dev) : Prop where
  only : chanOnly n a b
  now : b.now = a.now
  ch : b.ch n = { a.ch n with seq := (b.ch n).seq }
  kept : ∀ r l, keyOf r l 0 ≠ keyOf oCutsDropped [n] 0 → keyOf r l 0 ≠ keyOf oCutsMerged [n] 0 → rd b r l = rd a r l

namespace HeardStep

variable {n : Ch} {a b c : Dev}

theorem refl (n : Ch) (s : Dev) : HeardStep n s s := ⟨.refl n s, rfl, rfl, fun _ _ _ _ => rfl⟩

theorem trans (h : HeardStep n a b) (g : HeardStep n b c) : HeardStep n a c where
  only := h.only.trans g.only
  now := g.now.trans h.now
  ch := by rw [g.ch, h.ch]
  kept := fun r l hd hm => (g.kept r l hd hm).trans (h.kept r l hd hm)

theorem updSeq (n : Ch) (f : Seq → Seq) (s : Dev) : HeardStep n s (updSeq n f s) := ⟨by simp, rfl, by simp, fun _ _ _ _ => rfl⟩

theorem cutSeen (n : Ch) (src : Nat) (target : Option Nat) (s : Dev) : HeardStep n s (cutSeen n src target s) := by
  unfold Machine.cutSeen
  dsimp only
  split
  · exact ⟨by simp, rfl, rfl, fun r l hd _ => rd_bump_of_ne hd s⟩
  · split
    · exact ⟨by simp, rfl, rfl, fun r l _ hm => rd_bump_of_ne hm s⟩
    · exact updSeq n _ s

theorem comparatorSeen (n : Ch) (m : Nat) (old new : Decided) (s : Dev) : HeardStep n s (comparatorSeen n m old new s) := by
  have hcut : ∀ (p : Prop) [Decidable p] (d : Dev), HeardStep n d (if p then Machine.cutSeen n 2 none d else d) := fun p _ d =>
    iteInduction (fun _ => cutSeen n 2 none d) fun _ => refl n d
  unfold Machine.comparatorSeen
  dsimp only
  split
  · split
    · exact (updSeq n _ s).trans (hcut _ _)
    · exact hcut _ s
  · exact hcut _ s

theorem monOf (h : HeardStep n a b) (m : Mon) : monOf b n m = monOf a n m := by
  unfold Machine.monOf
  rw [h.ch]

end HeardStep

/-- From `a` to `b` monitor m of channel n has changed, and the Sequencer of the channel has heard of it (R248, R249). -/
structure DecisionStep (n : Ch) (m : Mon) (a b : Dev) : Prop where
  only : chanOnly n a b
  now : b.now = a.now
  loop : (b.ch n).loop = (a.ch n).loop
  others : ∀ k, k ≠ m → monOf b n k = monOf a n k
  kept : ∀ r l, keyOf r l 0 ≠ keyOf oCutsDropped [n] 0 → keyOf r l 0 ≠ keyOf oCutsMerged [n] 0 → rd b r l = rd a r l

namespace DecisionStep

variable {n : Ch} {m : Mon} {a b c : Dev}

theorem refl (n : Ch) (m : Mon) (s : Dev) : DecisionStep n m s s := ⟨.refl n s, rfl, rfl, fun _ _ => rfl, fun _ _ _ _ => rfl⟩

theorem trans (h : DecisionStep n m a b) (g : DecisionStep n m b c) : DecisionStep n m a c where
  only := h.only.trans g.only
  now := g.now.trans h.now
  loop := g.loop.trans h.loop
  others := fun k hk => (g.others k hk).trans (h.others k hk)
  kept := fun r l hd hm => (g.kept r l hd hm).trans (h.kept r l hd hm)

theorem updMon (n : Ch) (m : Mon) (f : Monitor → Monitor) (s : Dev) : DecisionStep n m s (updMon n m f s) :=
  ⟨by simp, rfl, by simp, fun _ hk => monOf_updMon_of_ne n f s hk, fun _ _ _ _ => rfl⟩

theorem of_heard (h : HeardStep n a b) (m : Mon) : DecisionStep n m a b :=
  ⟨h.only, h.now, by rw [h.ch], fun k _ => h.monOf k, h.kept⟩

/-- The objects of the monitor stand. -/
theorem rd_mon (h : DecisionStep n m a b) {r : Row} (hr : r.dims = [(0x100, 24), (0x1, 4)])
    (hdropped : ∀ i < 4, objKey r.ix r.sub 0 + 256 * i ≠ objKey oCutsDropped.ix oCutsDropped.sub 0)
    (hmerged : ∀ i < 4, objKey r.ix r.sub 0 + 256 * i ≠ objKey oCutsMerged.ix oCutsMerged.sub 0) : rd b r [n, m] = rd a r [n, m] :=
  h.kept r _ (keyOf_mon_ne_chan hr rfl hdropped n m) (keyOf_mon_ne_chan hr rfl hmerged n m)

theorem rd_tripCond (h : DecisionStep n m a b) : rd b oTripCond [n, m] = rd a oTripCond [n, m] := h.rd_mon rfl (by decide) (by decide)

end DecisionStep

/-! ### Decisions -/

/-- A monitor after a decision with `met` the COND_MET of the new state: a changed state leaves the bands, begins a run of COND_MET or ends it with
what hangs on it (R248, R249, R254). -/
def Monitor.judged (met : Bool) (now : Nat) (new : Decided) (y : Monitor) : Monitor :=
  if y.decided = new then y
  else if met then { y with decided := new, inBand := false, condSince := if y.condSince.isSome then y.condSince else some now }
  else { y with decided := new, inBand := false, condSince := none, acted := false, esc := none, escOver := false }

theorem condUpdate_step (n : Ch) (m : Mon) (s : Dev) : DecisionStep n m s (condUpdate n m s) :=
  iteInduction (fun _ => .updMon n m _ s) fun _ => .updMon n m _ s

theorem setDecided_of_eq {n : Ch} {m : Mon} {s : Dev} {new : Decided} (h : (monOf s n m).decided = new) : setDecided n m new s = s := if_pos h

theorem setDecided_effect (n : Ch) (m : Mon) (new : Decided) (s : Dev) : DecisionStep n m s (setDecided n m new s) ∧
    monOf (setDecided n m new s) n m = (monOf s n m).judged (condMet (rd s oTripCond [n, m]) new) s.now new := by
  by_cases h : (monOf s n m).decided = new
  · rw [setDecided_of_eq h]
    exact ⟨.refl n m s, (if_pos h).symm⟩
  · generalize hheard : comparatorSeen n m.val (monOf s n m).decided new (updMon n m (fun x => { x with decided := new, inBand := false }) s) = t
    have hset : setDecided n m new s = condUpdate n m t := by
      rw [← hheard]
      exact if_neg h
    have hseen := HeardStep.comparatorSeen n m.val (monOf s n m).decided new (updMon n m (fun x => { x with decided := new, inBand := false }) s)
    rw [hheard] at hseen
    have hstep : DecisionStep n m s t := (DecisionStep.updMon n m _ s).trans (.of_heard hseen m)
    have hmon : monOf t n m = { monOf s n m with decided := new, inBand := false } := (hseen.monOf m).trans (monOf_updMon ..)
    refine ⟨hset ▸ hstep.trans (condUpdate_step n m t), ?_⟩
    rw [hset, Monitor.judged, if_neg h, condUpdate, monMet, hmon, hstep.rd_tripCond]
    cases condMet (rd s oTripCond [n, m]) new <;> simp [hmon, hstep.now]

/-- The decision of a monitor that has decided before (Table 8.2). -/
theorem decideOn_effect (n : Ch) (m : Mon) (x : Int) (s : Dev) :
    let new := nextDecided (monOf s n m).decided (code16 (rd s oThHi [n, m])) (code16 (rd s oThLo [n, m])) (code16 (rd s oHyst [n, m])) x
    DecisionStep n m s (decideOn n m false x s) ∧
      monOf (decideOn n m false x s) n m = (monOf s n m).judged (condMet (rd s oTripCond [n, m]) new) s.now new :=
  setDecided_effect n m _ s

theorem nextDecided_undecided_ne (hi lo hyst x : Int) : nextDecided .undecided hi lo hyst x ≠ .undecided := by
  simp only [nextDecided]
  split
  · exact Decided.noConfusion
  · split <;> exact Decided.noConfusion

/-- The first decision: HYST counts as 0, and a value in a band marks the monitor (R248, R250). -/
theorem decideOn_first {n : Ch} {m : Mon} {s : Dev} (h : (monOf s n m).decided = .undecided) (x : Int) :
    let hi := code16 (rd s oThHi [n, m])
    let lo := code16 (rd s oThLo [n, m])
    let new := nextDecided .undecided hi lo 0 x
    DecisionStep n m s (decideOn n m true x s) ∧ monOf (decideOn n m true x s) n m =
      { (monOf s n m).judged (condMet (rd s oTripCond [n, m]) new) s.now new with inBand := inBands hi lo (code16 (rd s oHyst [n, m])) x } := by
  intro hi lo new
  obtain ⟨hstep, hmon⟩ := setDecided_effect n m new s
  have hnew : new ≠ .undecided := nextDecided_undecided_ne _ _ _ _
  have hband : ((monOf s n m).judged (condMet (rd s oTripCond [n, m]) new) s.now new).inBand = false := by
    rw [Monitor.judged, if_neg (h ▸ hnew.symm)]
    split <;> rfl
  have hdecide : decideOn n m true x s = if inBands hi lo (code16 (rd s oHyst [n, m])) x then
      updMon n m (fun y => { y with inBand := true }) (setDecided n m new s) else setDecided n m new s := by
    unfold decideOn
    rw [h]
    simp [hi, lo, new]
  rw [hdecide]
  split
  · next hin =>
    refine ⟨hstep.trans (.updMon ..), ?_⟩
    rw [monOf_updMon, hmon, hin]
  · next hout =>
    refine ⟨hstep, ?_⟩
    rw [hmon, Bool.eq_false_of_not_eq_true hout, ← hband]

end Sys2Proof.Machine
end

section
/-! SUPPORT. Soft and hard trips of a guard monitor (08, R253 to R257): what each does to the channel, and what it leaves as it was. -/

namespace Sys2Proof.Machine

/-! ### CH_FAULT -/

theorem bitOf_setBit (v i j : Nat) : bitOf (setBit v i) j = (bitOf v j || decide (j = i)) := by
  simp only [setBit, bitOf_eq_testBit]
  split
  · next hset =>
    by_cases h : j = i
    · rw [h, hset, Bool.true_or]
    · simp [h]
  · next hclear =>
    have hv : v.testBit i = false := by simpa using hclear
    rw [Nat.add_comm]
    obtain h | rfl | h := Nat.lt_trichotomy j i
    · simp [Nat.testBit_two_pow_add_gt h, Nat.ne_of_lt h]
    · simp [Nat.testBit_two_pow_add_eq, hv]
    · simp [testBit_two_pow_add_of_lt hv h, Nat.ne_of_gt h]

/-- The bit of a cause sets, the others stand (R347). -/
theorem chFault_bits (n : Ch) (bit : Nat) (s : Dev) {i : Nat} (hi : i < 16) :
    bitOf (rd (chFault n bit s) oChFault [n]) i = (bitOf (rd s oChFault [n]) i || decide (i = bit)) := by
  unfold chFault
  rw [rd_wr_same, bitOf_mod_two_pow (n := 8 * oChFault.size) hi, bitOf_setBit]

theorem streamWrite_fault (n : Ch) (stream : Nat) (words : List Word64) (companion : Nat) (s : Dev) {i : Nat} (hi : i < 16)
    (h : bitOf (rd s oChFault [n]) i = true) : bitOf (rd (streamWrite n stream words companion s) oChFault [n]) i = true := by
  unfold streamWrite
  refine iteInduction (motive := fun d : Dev => bitOf (rd d oChFault [n]) i = true) (fun _ => ?_) fun _ => h
  rw [chFault_bits _ _ _ hi, rd_updCh, h, Bool.true_or]

/-! ### What a trip touches -/

/-- From `a` to `b` only objects and channel n have changed, and of the channel neither array. -/
structure TripFrame (n : Ch) (a b : Dev) : Prop where
  only : chanOnly n a b
  now : b.now = a.now
  vm : (b.ch n).vm = (a.ch n).vm
  im : (b.ch n).im = (a.ch n).im

/-- Of the objects, no bit of CH_FAULT has cleared, and beside SRC_ENABLE no other has changed. -/
structure TripStep (n : Ch) (a b : Dev) : Prop extends TripFrame n a b where
  fault : ∀ i < 16, bitOf (rd a oChFault [n]) i = true → bitOf (rd b oChFault [n]) i = true
  kept : ∀ r l, keyOf r l 0 ≠ keyOf oChFault [n] 0 → keyOf r l 0 ≠ keyOf oSrcEnable [n] 0 → rd b r l = rd a r l

theorem TripFrame.refl (n : Ch) (s : Dev) : TripFrame n s s := ⟨.refl n s, rfl, rfl, rfl⟩

theorem TripFrame.trans {n : Ch} {a b c : Dev} (h : TripFrame n a b) (g : TripFrame n b c) : TripFrame n a c :=
  ⟨h.only.trans g.only, g.now.trans h.now, g.vm.trans h.vm, g.im.trans h.im⟩

namespace TripStep

variable {n : Ch} {a b c : Dev}

theorem refl (n : Ch) (s : Dev) : TripStep n s s := ⟨.refl n s, fun _ _ h => h, fun _ _ _ _ => rfl⟩

theorem trans (h : TripStep n a b) (g : TripStep n b c) : TripStep n a c :=
  ⟨h.toTripFrame.trans g.toTripFrame, fun i hi hb => g.fault i hi (h.fault i hi hb),
    fun r l hf he => (g.kept r l hf he).trans (h.kept r l hf he)⟩

/-- A rewrite of the channel beside its arrays. -/
theorem updCh {f : Chan → Chan} (hvm : ∀ c, (f c).vm = c.vm) (him : ∀ c, (f c).im = c.im) (s : Dev) : TripStep n s (updCh n f s) :=
  ⟨⟨by simp, rfl, by rw [updCh_ch_self, hvm], by rw [updCh_ch_self, him]⟩, fun _ _ h => h, fun _ _ _ _ => rfl⟩

theorem updSrc (n : Ch) (f : Src → Src) (s : Dev) : TripStep n s (updSrc n f s) := updCh (by intro; rfl) (by intro; rfl) s
theorem updLoop (n : Ch) (f : Loop → Loop) (s : Dev) : TripStep n s (updLoop n f s) := updCh (by intro; rfl) (by intro; rfl) s
theorem updMon (n : Ch) (m : Mon) (f : Monitor → Monitor) (s : Dev) : TripStep n s (updMon n m f s) := updCh (by intro; rfl) (by intro; rfl) s

theorem chFault (n : Ch) (bit : Nat) (s : Dev) : TripStep n s (chFault n bit s) where
  only := by simp [Machine.chFault]
  now := rfl
  vm := rfl
  im := rfl
  fault := fun i hi h => by rw [chFault_bits n bit s hi, h, Bool.true_or]
  kept := fun r l hf _ => rd_wr_other _ _ _ _ _ _ hf

theorem chEvent (n : Ch) (code arg : Nat) (s : Dev) : TripStep n s (chEvent n code arg s) where
  only := by simp
  now := chEvent_now ..
  vm := arrOf_chEvent n code arg s .vm
  im := arrOf_chEvent n code arg s .im
  fault := fun i hi h => by
    unfold Machine.chEvent
    refine iteInduction (motive := fun d : Dev => bitOf (rd d oChFault [n]) i = true) (fun _ => ?_) fun _ => ?_
    · exact streamWrite_fault n 7 _ 0 _ hi (by rwa [rd_updCh])
    · rw [rd_updCh]
      exact streamWrite_fault n 7 _ 0 _ hi (by rwa [rd_updCh])
  kept := fun r l hf _ => (chEvent_step n code arg s).kept r l hf

theorem disable (n : Ch) (s : Dev) : TripStep n s (wr s oSrcEnable 0 [n]) where
  only := by simp
  now := rfl
  vm := rfl
  im := rfl
  fault := fun i _ h => by rwa [rd_wr_chan rfl rfl (by decide)]
  kept := fun r l _ he => rd_wr_other _ _ _ _ _ _ he

/-- The objects of a monitor stand. -/
theorem rd_mon (h : TripStep n a b) {r : Row} (hr : r.dims = [(0x100, 24), (0x1, 4)])
    (hfault : ∀ i < 4, objKey r.ix r.sub 0 + 256 * i ≠ objKey oChFault.ix oChFault.sub 0)
    (henable : ∀ i < 4, objKey r.ix r.sub 0 + 256 * i ≠ objKey oSrcEnable.ix oSrcEnable.sub 0) (m : Mon) : rd b r [n, m] = rd a r [n, m] :=
  h.kept r _ (keyOf_mon_ne_chan hr rfl hfault n m) (keyOf_mon_ne_chan hr rfl henable n m)

/-- The Guard Engine fails in no trip. -/
theorem geFailed (h : TripStep n a b) : geFailed b n = geFailed a n := by
  unfold Machine.geFailed
  rw [h.kept oEngineFault [n] (keyOf_chan_ne rfl rfl (by decide) n) (keyOf_chan_ne rfl rfl (by decide) n)]

end TripStep

/-! ### The parts of a channel that an event leaves -/

@[simp] theorem chEvent_mons (n : Ch) (code arg : Nat) (s : Dev) : ((chEvent n code arg s).ch n).mons = (s.ch n).mons := by
  have hmons := congrArg Chan.mons (chEvent_besideEvents n code arg s)
  exact hmons

@[simp] theorem chEvent_loop (n : Ch) (code arg : Nat) (s : Dev) : ((chEvent n code arg s).ch n).loop = (s.ch n).loop := by
  have hloop := congrArg Chan.loop (chEvent_besideEvents n code arg s)
  exact hloop

@[simp] theorem chEvent_src (n : Ch) (code arg : Nat) (s : Dev) : ((chEvent n code arg s).ch n).src = (s.ch n).src := (chEvent_step ..).src

/-! ### The source -/

/-- The source path clamped by a trip, before it enters TRIPPED (Table 3.3, Table 3.4). -/
def sourceClamped (n : Ch) (cause : Nat) (s : Dev) : Dev :=
  let volt := rd s oSrcMode [n] = 0
  updSrc n (fun x => { x with
    gndClamp := volt, hizClamp := !volt, clampCause := cause, forceEn := false, enableT := none, enablePending := false, rampFrom := none
    rampDone := none, hold := none, safe := none, code := 0, pin := 0 }) (rangeFinish n (srcQueueEmpty n (wr s oSrcEnable 0 [n])))

/-- A source that is OFF or TRIPPED keeps its state (Table 3.4). -/
theorem sourceTrip_of_idle {n : Ch} {s : Dev} (h : (s.ch n).src.st = .off ∨ (s.ch n).src.st = .tripped) (cause : Nat) : sourceTrip n cause s = s := by
  unfold sourceTrip
  obtain h | h := h <;> simp only [h]

theorem sourceTrip_of_active {n : Ch} {s : Dev} (h : ¬ ((s.ch n).src.st = .off ∨ (s.ch n).src.st = .tripped)) (cause : Nat) :
    sourceTrip n cause s = srcEnter n .tripped (sourceClamped n cause s) := by
  unfold sourceTrip
  dsimp only
  split
  · next hoff => exact absurd (.inl hoff) h
  · next htripped => exact absurd (.inr htripped) h
  · rfl

/-- A range change that completes at once rewrites the source path, and not its state. -/
theorem rangeFinish_eq (n : Ch) (s : Dev) : ∃ f, rangeFinish n s = updSrc n f s ∧ (f (s.ch n).src).st = (s.ch n).src.st := by
  unfold rangeFinish
  split
  · exact ⟨id, (updCh_eq_self rfl).symm, rfl⟩
  · exact ⟨_, rfl, rfl⟩

/-- The clamp of a trip is a write of SRC_ENABLE and a rewrite of the source path. -/
theorem sourceClamped_eq (n : Ch) (cause : Nat) (s : Dev) : ∃ f, sourceClamped n cause s = updSrc n f (wr s oSrcEnable 0 [n]) ∧
    (f (s.ch n).src).st = (s.ch n).src.st ∧ (f (s.ch n).src).clampCause = cause ∧ (f (s.ch n).src).forceEn = false := by
  obtain ⟨f, hf, hst⟩ := rangeFinish_eq n (srcQueueEmpty n (wr s oSrcEnable 0 [n]))
  unfold sourceClamped
  rw [hf]
  unfold srcQueueEmpty at hst ⊢
  rw [updSrc_updSrc, updSrc_updSrc]
  refine ⟨_, rfl, ?_, rfl, rfl⟩
  simpa using hst

theorem sourceClamped_enters {n : Ch} {s : Dev} (h : ¬ ((s.ch n).src.st = .off ∨ (s.ch n).src.st = .tripped)) (cause : Nat) :
    ((sourceClamped n cause s).ch n).src.st ≠ .tripped := by
  obtain ⟨f, hf, hst, -, -⟩ := sourceClamped_eq n cause s
  rw [hf, updSrc_ch]
  exact fun e => h (.inr (hst.symm.trans e))

theorem sourceTrip_step (n : Ch) (cause : Nat) (s : Dev) : TripStep n s (sourceTrip n cause s) := by
  by_cases h : (s.ch n).src.st = .off ∨ (s.ch n).src.st = .tripped
  · rw [sourceTrip_of_idle h]
    exact .refl n s
  · obtain ⟨f, hf, -⟩ := sourceClamped_eq n cause s
    rw [sourceTrip_of_active h, srcEnter_of_ne (sourceClamped_enters h cause), hf]
    exact (TripStep.disable n s).trans ((TripStep.updSrc n _ _).trans ((TripStep.updSrc n _ _).trans (.chEvent ..)))

/-- A trip of the source is none of the monitors and none of the loop. -/
theorem sourceTrip_beside (n : Ch) (cause : Nat) (s : Dev) :
    ((sourceTrip n cause s).ch n).mons = (s.ch n).mons ∧ ((sourceTrip n cause s).ch n).loop = (s.ch n).loop := by
  by_cases h : (s.ch n).src.st = .off ∨ (s.ch n).src.st = .tripped
  · rw [sourceTrip_of_idle h]
    exact ⟨rfl, rfl⟩
  · obtain ⟨f, hf, -⟩ := sourceClamped_eq n cause s
    rw [sourceTrip_of_active h, srcEnter_of_ne (sourceClamped_enters h cause), hf]
    simp

/-- A source that runs is TRIPPED with the cause, its relay open (Table 3.4). -/
theorem sourceTrip_src {n : Ch} {s : Dev} (h : ¬ ((s.ch n).src.st = .off ∨ (s.ch n).src.st = .tripped)) (cause : Nat) :
    let x := ((sourceTrip n cause s).ch n).src
    x.st = .tripped ∧ x.clampCause = cause ∧ x.forceEn = false := by
  obtain ⟨f, hf, -, hcause, hforce⟩ := sourceClamped_eq n cause s
  rw [sourceTrip_of_active h, srcEnter_of_ne (sourceClamped_enters h cause), hf]
  simp [hcause, hforce]

/-! ### The loop -/

/-- No write of a loop object waits for the crossover period of a range change (R200). -/
def loopCalm (s : Dev) (n : Ch) : Prop := ∀ z, (s.ch n).loop.xover = some z → z.writes = []

/-- The store of objects replaced. -/
def withObjs (o : List (Nat × Nat)) (s : Dev) : Dev := { s with objs := o }

@[simp] theorem withObjs_now (o : List (Nat × Nat)) (s : Dev) : (withObjs o s).now = s.now := rfl
@[simp] theorem withObjs_ch (o : List (Nat × Nat)) (s : Dev) (n : Ch) : (withObjs o s).ch n = s.ch n := rfl
@[simp] theorem chanOnly_withObjs (n : Ch) (o : List (Nat × Nat)) (a b : Dev) : chanOnly n a (withObjs o b) ↔ chanOnly n a b :=
  chanOnly.congr_right (chanOnly_iff.mpr ⟨b.now, o, b.ch n, by simp [withObjs, Dev.ch]⟩)

theorem foldl_putKey (l : List (Nat × Nat)) (s : Dev) : ∃ o, l.foldl (fun s e => putKey e.1 e.2 s) s = withObjs o s := by
  induction l generalizing s with
  | nil => exact ⟨s.objs, rfl⟩
  | cons e l ih =>
    obtain ⟨o, ho⟩ := putKey_objs e.1 e.2 s
    obtain ⟨o', ho'⟩ := ih (putKey e.1 e.2 s)
    exact ⟨o', by rw [List.foldl_cons, ho', ho]; rfl⟩

/-- The loop that opens writes what waited for its crossover, and is cleared (Table 6.5). -/
theorem loopOpen_eq (n : Ch) (s : Dev) :
    ∃ o, loopOpen n s = updLoop n (fun l => { loopClear l with st := .openState, setWaits := false }) (withObjs o s) := by
  unfold loopOpen
  dsimp only
  split
  · next x _ =>
    obtain ⟨o, ho⟩ := foldl_putKey x.writes s
    exact ⟨o, by rw [ho]⟩
  · exact ⟨s.objs, rfl⟩

theorem loopOpen_of_calm {n : Ch} {s : Dev} (h : loopCalm s n) :
    loopOpen n s = updLoop n (fun l => { loopClear l with st := .openState, setWaits := false }) s := by
  unfold loopOpen
  dsimp only
  split
  · next x hx =>
    rw [h x hx]
    rfl
  · rfl

/-- The loop opens on a hard trip unless `l`, the loop as the trip found it, was open. -/
def tripOpens (l : Loop) (n : Ch) (s : Dev) : Dev :=
  if l.st = .openState then s else loopOpen n (updSrc n (fun x => { x with safe := none }) s)

theorem tripOpens_frame (l : Loop) (n : Ch) (s : Dev) : TripFrame n s (tripOpens l n s) := by
  refine iteInduction (fun _ => .refl n s) fun _ => ?_
  obtain ⟨o, ho⟩ := loopOpen_eq n (updSrc n (fun x => { x with safe := none }) s)
  rw [ho]
  have hobjs : ∀ d, TripFrame n d (withObjs o d) := fun d => ⟨by simp, rfl, rfl, rfl⟩
  exact (TripStep.updSrc n _ s).toTripFrame.trans ((hobjs _).trans (TripStep.updLoop n _ _).toTripFrame)

theorem tripOpens_step {n : Ch} {s : Dev} (h : loopCalm s n) (l : Loop) : TripStep n s (tripOpens l n s) := by
  refine iteInduction (fun _ => .refl n s) fun _ => ?_
  rw [loopOpen_of_calm (by simpa [loopCalm] using h)]
  exact (TripStep.updSrc n _ s).trans (.updLoop n _ _)

theorem tripOpens_ch {l : Loop} {n : Ch} {s : Dev} (hl : (s.ch n).loop = l) :
    let c := (tripOpens l n s).ch n
    c.mons = (s.ch n).mons ∧ c.loop.st = .openState ∧ c.src = { (s.ch n).src with safe := c.src.safe } := by
  unfold tripOpens
  split
  · next hopen => exact ⟨rfl, hl ▸ hopen, rfl⟩
  · obtain ⟨o, ho⟩ := loopOpen_eq n (updSrc n (fun x => { x with safe := none }) s)
    rw [ho, updLoop_ch, withObjs_ch, updSrc_ch]
    exact ⟨rfl, rfl, rfl⟩

/-! ### Hard trips -/

/-- The hard latch sets, and the escalation is over (R255). -/
def hardLatched (n : Ch) (m : Mon) (s : Dev) : Dev := updMon n m (fun x => { x with hard := some s.now, esc := none, escOver := false }) s

/-- CH_FAULT [2], and the event of a hard trip unless the Guard Engine has failed (R257). -/
def tripAnnounced (n : Ch) (m : Mon) (s : Dev) : Dev :=
  if geFailed (chFault n 2 s) n then chFault n 2 s else chEvent n 0x03 m.val (chFault n 2 s)

/-- The loop as the first hard trip of a tick found it is kept for the boundary of that tick (R207). -/
def tripRemembers (l : Loop) (n : Ch) (s : Dev) : Dev :=
  if trippedNow s n then s else updCh n (fun c => { c with loopBefore := some (s.now, l) }) s

theorem hardTrip_eq (n : Ch) (m : Mon) (s : Dev) : hardTrip n m s =
    let t := sourceTrip n 3 (tripAnnounced n m (hardLatched n m s))
    tripOpens (t.ch n).loop n (tripRemembers (t.ch n).loop n t) := rfl

theorem tripAnnounced_step (n : Ch) (m : Mon) (s : Dev) : TripStep n s (tripAnnounced n m s) :=
  iteInduction (fun _ => .chFault n 2 s) fun _ => (TripStep.chFault n 2 s).trans (.chEvent ..)

theorem tripAnnounced_fault (n : Ch) (m : Mon) (s : Dev) : bitOf (rd (tripAnnounced n m s) oChFault [n]) 2 = true := by
  have hset : bitOf (rd (chFault n 2 s) oChFault [n]) 2 = true := by
    rw [chFault_bits n 2 s (by decide)]
    exact Bool.or_true _
  exact iteInduction (motive := fun d : Dev => bitOf (rd d oChFault [n]) 2 = true) (fun _ => hset)
    fun _ => (TripStep.chEvent n 0x03 m.val _).fault 2 (by decide) hset

theorem tripAnnounced_ch (n : Ch) (m : Mon) (s : Dev) : let c := (tripAnnounced n m s).ch n
    c.mons = (s.ch n).mons ∧ c.loop = (s.ch n).loop ∧ c.src = (s.ch n).src := by
  unfold tripAnnounced
  split
  · exact ⟨rfl, rfl, rfl⟩
  · exact ⟨chEvent_mons .., chEvent_loop .., chEvent_src ..⟩

theorem tripRemembers_step (l : Loop) (n : Ch) (s : Dev) : TripStep n s (tripRemembers l n s) :=
  iteInduction (fun _ => .refl n s) fun _ => .updCh (by intro; rfl) (by intro; rfl) s

theorem tripRemembers_ch (l : Loop) (n : Ch) (s : Dev) : let c := (tripRemembers l n s).ch n
    c.mons = (s.ch n).mons ∧ c.loop = (s.ch n).loop ∧ c.src = (s.ch n).src := by
  unfold tripRemembers
  split
  · exact ⟨rfl, rfl, rfl⟩
  · rw [updCh_ch_self]
    exact ⟨rfl, rfl, rfl⟩

/-- The device of a hard trip before the loop opens: it has not touched the loop, and what it has done to the source is the source's trip. -/
theorem hardTrip_before (n : Ch) (m : Mon) (s : Dev) : ∃ t : Dev, hardTrip n m s = tripOpens (t.ch n).loop n t ∧ TripStep n s t ∧
    (t.ch n).mons = ((hardLatched n m s).ch n).mons ∧ (t.ch n).loop = (s.ch n).loop ∧ bitOf (rd t oChFault [n]) 2 = true ∧
    ((s.ch n).src.st = .off ∨ (s.ch n).src.st = .tripped → (t.ch n).src = (s.ch n).src) ∧
    (¬ ((s.ch n).src.st = .off ∨ (s.ch n).src.st = .tripped) →
      (t.ch n).src.st = .tripped ∧ (t.ch n).src.clampCause = 3 ∧ (t.ch n).src.forceEn = false) := by
  obtain ⟨hmonsA, hloopA, hsrcA⟩ := tripAnnounced_ch n m (hardLatched n m s)
  have hlatched : ((hardLatched n m s).ch n).src = (s.ch n).src ∧ ((hardLatched n m s).ch n).loop = (s.ch n).loop := by simp [hardLatched]
  obtain ⟨hsrcL, hloopL⟩ := hlatched
  rw [hsrcL] at hsrcA
  rw [hloopL] at hloopA
  have hfaultA := tripAnnounced_fault n m (hardLatched n m s)
  have hstepA := (TripStep.updMon n m _ s).trans (tripAnnounced_step n m (hardLatched n m s))
  generalize hA : tripAnnounced n m (hardLatched n m s) = a at *
  obtain ⟨hmonsT, hloopT⟩ := sourceTrip_beside n 3 a
  obtain ⟨hmonsR, hloopR, hsrcR⟩ := tripRemembers_ch ((sourceTrip n 3 a).ch n).loop n (sourceTrip n 3 a)
  have hstepT := sourceTrip_step n 3 a
  have hstepR := tripRemembers_step ((sourceTrip n 3 a).ch n).loop n (sourceTrip n 3 a)
  refine ⟨tripRemembers ((sourceTrip n 3 a).ch n).loop n (sourceTrip n 3 a), ?_, hstepA.trans (hstepT.trans hstepR),
    hmonsR.trans (hmonsT.trans hmonsA), hloopR.trans (hloopT.trans hloopA), ?_, fun hidle => ?_, fun hactive => ?_⟩
  · rw [hloopR, hardTrip_eq, hA]
  · exact hstepR.fault 2 (by decide) (hstepT.fault 2 (by decide) hfaultA)
  · rw [hsrcR, sourceTrip_of_idle (hsrcA ▸ hidle), hsrcA]
  · rw [hsrcR]
    exact sourceTrip_src (hsrcA ▸ hactive) 3

theorem hardTrip_frame (n : Ch) (m : Mon) (s : Dev) : TripFrame n s (hardTrip n m s) := by
  obtain ⟨t, ht, hstep, -⟩ := hardTrip_before n m s
  rw [ht]
  exact hstep.toTripFrame.trans (tripOpens_frame ..)

theorem hardTrip_step {n : Ch} {s : Dev} (h : loopCalm s n) (m : Mon) : TripStep n s (hardTrip n m s) := by
  obtain ⟨t, ht, hstep, -, hloop, -⟩ := hardTrip_before n m s
  rw [ht]
  refine hstep.trans (tripOpens_step ?_ _)
  unfold loopCalm at h ⊢
  rwa [hloop]

/-- Of the monitors a hard trip latches its own. -/
theorem hardTrip_mon (n : Ch) (m k : Mon) (s : Dev) : monOf (hardTrip n m s) n k = monOf (hardLatched n m s) n k := by
  obtain ⟨t, ht, -, hmons, -⟩ := hardTrip_before n m s
  obtain ⟨hopens, -⟩ := tripOpens_ch (l := (t.ch n).loop) (n := n) (s := t) rfl
  unfold monOf
  rw [ht, hopens, hmons]

/-- From `e` to `d` a hard trip of monitor m has acted (R255): its latch, CH_FAULT [2], the source TRIPPED with cause 3, the loop OPEN. -/
def HardTripped (n : Ch) (m : Mon) (e d : Dev) : Prop :=
  (monOf d n m).hard = some d.now ∧ (monOf d n m).esc = none ∧ bitOf (rd d oChFault [n]) 2 = true ∧
    ((e.ch n).src.st = .running → (d.ch n).src.st = .tripped ∧ (d.ch n).src.clampCause = 3 ∧ (d.ch n).src.forceEn = false) ∧
    (d.ch n).loop.st = .openState ∧
    (((e.ch n).src.st = .off ∨ (e.ch n).src.st = .tripped) → (d.ch n).src = { (e.ch n).src with safe := (d.ch n).src.safe })

theorem hardTrip_trips {n : Ch} {s : Dev} (h : loopCalm s n) (m : Mon) : HardTripped n m s (hardTrip n m s) := by
  have hmon : monOf (hardTrip n m s) n m = { monOf s n m with hard := some s.now, esc := none, escOver := false } :=
    (hardTrip_mon n m m s).trans (monOf_updMon ..)
  have hnow := (hardTrip_frame n m s).now
  obtain ⟨t, ht, hstep, -, hloop, hfault, hidle, hactive⟩ := hardTrip_before n m s
  obtain ⟨-, hopen, hsrc⟩ := tripOpens_ch (l := (t.ch n).loop) (n := n) (s := t) rfl
  have hcalm : loopCalm t n := by
    unfold loopCalm at h ⊢
    rwa [hloop]
  refine ⟨by rw [hmon, hnow], by rw [hmon], ?_, fun hruns => ?_, ?_, fun hoff => ?_⟩
  · rw [ht]
    exact (tripOpens_step hcalm _).fault 2 (by decide) hfault
  · obtain ⟨hst, hcause, hforce⟩ := hactive (by simp [hruns])
    rw [ht, hsrc]
    exact ⟨hst, hcause, hforce⟩
  · rw [ht, hopen]
  · rw [← hidle hoff, ht]
    exact hsrc

end Sys2Proof.Machine
end

section
/-! SUPPORT. A qualified trip (08, R249, R253 to R257): its count, its soft and its hard part, its requests to the arrays and the Slate. -/

namespace Sys2Proof.Machine

/-! ### The parts of a trip -/

/-- The trip is counted, with its position, and has acted for this run of COND_MET (R249). -/
def tripCounted (n : Ch) (m : Mon) (s : Dev) : Dev :=
  updMon n m (fun x => { x with acted := true }) (wr (bump oTrips [n, m] s) oLastTripPos (posOf (dieRecs s n) (s.now * 256)) [n, m])

/-- The soft part of an ACTION. -/
def tripSoft (a : Nat) (n : Ch) (m : Mon) (s : Dev) : Dev := if bitOf a 0 then softTrip n m s else s

/-- The hard part of an ACTION: at once, or as an escalation of the soft part (R254). -/
def tripHard (a esc : Nat) (n : Ch) (m : Mon) (s : Dev) : Dev :=
  if bitOf a 1 then (if bitOf a 0 && esc ≠ 0 then updMon n m (fun x => { x with esc := some (s.now + esc) }) s else hardTrip n m s) else s

/-- The urgent request of an ACTION, to the array that the monitor watches. -/
def tripUrgent (a : Nat) (n : Ch) (m : Mon) (s : Dev) : Dev :=
  if bitOf a 2 then (if m = 0 then urgentRaise n .vm .ge s else if m = 1 then urgentRaise n .im .ge s else s) else s

/-- What the Guard Engine asks of others on a trip: nothing once it has failed (R257). -/
def tripCalls (a : Nat) (n : Ch) (m : Mon) (s : Dev) : Dev :=
  if geFailed s n then s
  else if bitOf a 3 then slateTrigger 3 (n.val * 256 + m.val) (tripUrgent a n m s) else tripUrgent a n m s

/-- A trip as far as the channel itself goes. -/
def tripActs (n : Ch) (m : Mon) (s : Dev) : Dev :=
  tripHard (rd s oAction [n, m]) (usTicks (rd s oEscUs [n, m])) n m (tripSoft (rd s oAction [n, m]) n m (tripCounted n m s))

theorem tripQualified_eq (n : Ch) (m : Mon) (s : Dev) : tripQualified n m s = tripCalls (rd s oAction [n, m]) n m (tripActs n m s) := rfl

/-! ### The count -/

theorem tripCounted_frame (n : Ch) (m : Mon) (s : Dev) : TripFrame n s (tripCounted n m s) := by
  refine ⟨by simp [tripCounted], rfl, ?_, ?_⟩ <;> simp [tripCounted]

theorem tripCounted_ch (n : Ch) (m : Mon) (s : Dev) : let c := (tripCounted n m s).ch n
    c.loop = (s.ch n).loop ∧ c.src = (s.ch n).src ∧ c.eseq = (s.ch n).eseq := by
  simp [tripCounted]

theorem tripCounted_rd (n : Ch) (m : Mon) (s : Dev) :
    rd (tripCounted n m s) oTrips [n, m] = min (2 ^ 32 - 1) (rd s oTrips [n, m] + 1) ∧
      rd (tripCounted n m s) oLastTripPos [n, m] = posOf (dieRecs s n) (s.now * 256) := by
  unfold tripCounted
  rw [rd_updMon, rd_updMon, rd_wr_same, rd_wr_other _ _ _ _ _ _ (keyOf_mon_ne rfl rfl (by decide) n m), rd_bump_word rfl]
  exact ⟨rfl, Nat.mod_eq_of_lt (posOf_lt ..)⟩

theorem tripCounted_geFailed (n : Ch) (m : Mon) (s : Dev) : geFailed (tripCounted n m s) n = geFailed s n := by
  unfold geFailed tripCounted
  rw [rd_updMon, rd_wr_other _ _ _ _ _ _ (keyOf_mon_ne_chan rfl rfl (by decide) n m).symm,
    rd_bump_of_ne (keyOf_mon_ne_chan rfl rfl (by decide) n m).symm]

/-! ### The soft part -/

/-- The soft latch sets (R253). -/
def softLatched (n : Ch) (m : Mon) (s : Dev) : Dev := updMon n m (fun x => { x with soft := some s.now }) s

/-- A soft trip on its way to the Loop Engine (R253). -/
def softSending (n : Ch) (m : Mon) (s : Dev) : Dev :=
  updLoop n (fun l => { l with softSent := l.softSent ++ [(m, tripSide (monOf s n m).decided)] }) (softLatched n m s)

theorem softTrip_of_failed {n : Ch} {s : Dev} (h : geFailed s n = true) (m : Mon) : softTrip n m s = softLatched n m s := if_pos h

theorem softTrip_of_runs {n : Ch} {s : Dev} (h : geFailed s n = false) (m : Mon) : softTrip n m s = chEvent n 0x04 m.val (softSending n m s) :=
  if_neg (Bool.eq_false_iff.mp h)

theorem softTrip_step (n : Ch) (m : Mon) (s : Dev) : TripStep n s (softTrip n m s) := by
  cases h : geFailed s n
  · rw [softTrip_of_runs h]
    exact (TripStep.updMon n m _ s).trans ((TripStep.updLoop n _ _).trans (.chEvent ..))
  · rw [softTrip_of_failed h]
    exact .updMon n m _ s

theorem softTrip_ch (n : Ch) (m : Mon) (s : Dev) : let c := (softTrip n m s).ch n
    c.mons = ((softLatched n m s).ch n).mons ∧ c.src = (s.ch n).src ∧ c.loop.xover = (s.ch n).loop.xover := by
  cases h : geFailed s n
  · rw [softTrip_of_runs h]
    simp [softSending, softLatched]
  · rw [softTrip_of_failed h]
    simp [softLatched]

theorem softTrip_mon (n : Ch) (m k : Mon) (s : Dev) : monOf (softTrip n m s) n k = monOf (softLatched n m s) n k := by
  obtain ⟨hmons, -, -⟩ := softTrip_ch n m s
  unfold monOf
  rw [hmons]

theorem tripSoft_step (a : Nat) (n : Ch) (m : Mon) (s : Dev) : TripStep n s (tripSoft a n m s) :=
  iteInduction (fun _ => softTrip_step n m s) fun _ => .refl n s

theorem tripSoft_ch (a : Nat) (n : Ch) (m : Mon) (s : Dev) : let c := (tripSoft a n m s).ch n
    c.src = (s.ch n).src ∧ c.loop.xover = (s.ch n).loop.xover := by
  unfold tripSoft
  split
  · exact (softTrip_ch n m s).2
  · exact ⟨rfl, rfl⟩

/-! ### The hard part -/

theorem loopCalm_of_xover {n : Ch} {a b : Dev} (h : loopCalm a n) (hx : (b.ch n).loop.xover = (a.ch n).loop.xover) : loopCalm b n := by
  unfold loopCalm
  rwa [hx]

theorem tripHard_frame (a esc : Nat) (n : Ch) (m : Mon) (s : Dev) : TripFrame n s (tripHard a esc n m s) :=
  iteInduction (fun _ => iteInduction (fun _ => (TripStep.updMon n m _ s).toTripFrame) fun _ => hardTrip_frame n m s) fun _ => .refl n s

theorem tripHard_step {n : Ch} {s : Dev} (h : loopCalm s n) (a esc : Nat) (m : Mon) : TripStep n s (tripHard a esc n m s) :=
  iteInduction (fun _ => iteInduction (fun _ => .updMon n m _ s) fun _ => hardTrip_step h m) fun _ => .refl n s

/-! ### The monitor after a trip -/

/-- The hard part of an ACTION waits for an escalation time (R254). -/
def escalates (a esc : Nat) : Bool := bitOf a 0 && esc ≠ 0

/-- A monitor after a qualified trip at the present tick with an ACTION and an escalation time. -/
def Monitor.tripped (a esc now : Nat) (y : Monitor) : Monitor :=
  { y with
    acted := true
    soft := if bitOf a 0 then some now else y.soft
    hard := if bitOf a 1 && !escalates a esc then some now else y.hard
    esc := if bitOf a 1 then (if escalates a esc then some (now + esc) else none) else y.esc
    escOver := if bitOf a 1 && !escalates a esc then false else y.escOver }

theorem tripSoft_mon (a : Nat) (n : Ch) (m : Mon) (s : Dev) :
    monOf (tripSoft a n m s) n m = { monOf s n m with soft := if bitOf a 0 then some s.now else (monOf s n m).soft } := by
  unfold tripSoft
  split
  · rw [softTrip_mon, softLatched, monOf_updMon]
  · rfl

theorem tripHard_mon (a esc : Nat) (n : Ch) (m : Mon) (s : Dev) : monOf (tripHard a esc n m s) n m =
    { monOf s n m with
      hard := if bitOf a 1 && !escalates a esc then some s.now else (monOf s n m).hard
      esc := if bitOf a 1 then (if escalates a esc then some (s.now + esc) else none) else (monOf s n m).esc
      escOver := if bitOf a 1 && !escalates a esc then false else (monOf s n m).escOver } := by
  have heq : tripHard a esc n m s =
      if bitOf a 1 then (if escalates a esc then updMon n m (fun x => { x with esc := some (s.now + esc) }) s else hardTrip n m s) else s := rfl
  rw [heq]
  cases bitOf a 1
  · rfl
  · cases escalates a esc
    · exact (hardTrip_mon n m m s).trans (monOf_updMon ..)
    · simp

theorem tripActs_mon (n : Ch) (m : Mon) (s : Dev) : monOf (tripActs n m s) n m =
    (monOf s n m).tripped (rd s oAction [n, m]) (usTicks (rd s oEscUs [n, m])) s.now := by
  have hcount : monOf (tripCounted n m s) n m = { monOf s n m with acted := true } := monOf_updMon ..
  have hnow := (tripSoft_step (rd s oAction [n, m]) n m (tripCounted n m s)).now
  rw [tripActs, tripHard_mon, tripSoft_mon, hcount, hnow, (tripCounted_frame n m s).now]
  rfl

theorem tripActs_mon_of_ne {m k : Mon} (h : k ≠ m) (n : Ch) (s : Dev) : monOf (tripActs n m s) n k = monOf s n k := by
  have hcount : monOf (tripCounted n m s) n k = monOf s n k := monOf_updMon_of_ne n _ _ h
  have hsoft : monOf (tripSoft (rd s oAction [n, m]) n m (tripCounted n m s)) n k = monOf s n k := by
    unfold tripSoft
    split
    · rw [softTrip_mon, softLatched, monOf_updMon_of_ne n _ _ h, hcount]
    · exact hcount
  unfold tripActs tripHard
  split
  · split
    · rw [monOf_updMon_of_ne n _ _ h, hsoft]
    · rw [hardTrip_mon, hardLatched, monOf_updMon_of_ne n _ _ h, hsoft]
  · exact hsoft

theorem tripActs_frame (n : Ch) (m : Mon) (s : Dev) : TripFrame n s (tripActs n m s) :=
  (tripCounted_frame n m s).trans ((tripSoft_step ..).toTripFrame.trans (tripHard_frame ..))

/-- After the count a trip leaves every object but CH_FAULT and SRC_ENABLE. -/
theorem tripActs_step {n : Ch} {s : Dev} (h : loopCalm s n) (m : Mon) : TripStep n (tripCounted n m s) (tripActs n m s) := by
  refine (tripSoft_step ..).trans (tripHard_step (loopCalm_of_xover h ?_) _ _ m)
  rw [(tripSoft_ch ..).2, (tripCounted_ch n m s).1]

/-! ### Requests to others -/

/-- From `a` to `b` of the channels only arrays of channel n have changed, no object and no time. -/
structure CallStep (n : Ch) (a b : Dev) : Prop where
  others : ∀ k, k ≠ n → b.ch k = a.ch k
  now : b.now = a.now
  objs : b.objs = a.objs
  mons : (b.ch n).mons = (a.ch n).mons
  src : (b.ch n).src = (a.ch n).src
  loop : (b.ch n).loop = (a.ch n).loop
  eseq : (b.ch n).eseq = (a.ch n).eseq

namespace CallStep

variable {n : Ch} {a b c : Dev}

theorem refl (n : Ch) (s : Dev) : CallStep n s s := ⟨fun _ _ => rfl, rfl, rfl, rfl, rfl, rfl, rfl⟩

theorem trans (h : CallStep n a b) (g : CallStep n b c) : CallStep n a c :=
  ⟨fun k hk => (g.others k hk).trans (h.others k hk), g.now.trans h.now, g.objs.trans h.objs, g.mons.trans h.mons, g.src.trans h.src,
    g.loop.trans h.loop, g.eseq.trans h.eseq⟩

theorem updArr (n : Ch) (a : ArrId) (f : Arr → Arr) (s : Dev) : CallStep n s (updArr n a f s) := by
  refine ⟨fun k hk => updArr_ch_of_ne a f s hk, rfl, rfl, ?_, ?_, ?_, ?_⟩ <;> cases a <;> simp [Machine.updArr, updCh_ch_self]

theorem slateTrigger (n : Ch) (bit arg : Nat) (s : Dev) : CallStep n s (slateTrigger bit arg s) :=
  iteInduction (fun _ => ⟨fun _ _ => rfl, rfl, rfl, rfl, rfl, rfl, rfl⟩) fun _ => refl n s

theorem monOf (h : CallStep n a b) (m : Mon) : monOf b n m = monOf a n m := by
  unfold Machine.monOf
  rw [h.mons]

theorem rd (h : CallStep n a b) (r : Row) (l : List Nat) : rd b r l = rd a r l := rd_of_objs _ _ _ _ h.objs

end CallStep

theorem tripUrgent_step (a : Nat) (n : Ch) (m : Mon) (s : Dev) : CallStep n s (tripUrgent a n m s) := by
  unfold tripUrgent
  split
  · exact iteInduction (fun _ => .updArr n .vm _ s) fun _ => iteInduction (fun _ => .updArr n .im _ s) fun _ => .refl n s
  · exact .refl n s

theorem tripCalls_step (a : Nat) (n : Ch) (m : Mon) (s : Dev) : CallStep n s (tripCalls a n m s) := by
  unfold tripCalls
  split
  · exact .refl n s
  · exact iteInduction (fun _ => (tripUrgent_step a n m s).trans (.slateTrigger ..)) fun _ => tripUrgent_step a n m s

theorem tripCalls_of_failed {n : Ch} {s : Dev} (h : geFailed s n = true) (a : Nat) (m : Mon) : tripCalls a n m s = s := if_pos h

/-- The Slate hears of a trip, the channels do not. -/
theorem tripCalls_ch {n : Ch} {s : Dev} (h : geFailed s n = false) (a : Nat) (m : Mon) : (tripCalls a n m s).ch n = (tripUrgent a n m s).ch n := by
  have htrigger : ∀ bit arg d, (slateTrigger bit arg d).ch n = d.ch n := fun bit arg d =>
    iteInduction (motive := fun b : Dev => b.ch n = d.ch n) (fun _ => rfl) fun _ => rfl
  unfold tripCalls
  rw [h]
  split
  · contradiction
  · split
    · exact htrigger ..
    · rfl

/-- Monitor 0 asks array VM for an urgent conversion, monitor 1 array IM (R256). -/
theorem tripCalls_urgent {n : Ch} {s : Dev} {a : Nat} (h : geFailed s n = false) (hbit : bitOf a 2 = true) (m : Mon) : let c := (tripCalls a n m s).ch n
    (m = 0 → c.vm.urgentReqs = (s.ch n).vm.urgentReqs ++ [.ge]) ∧ (m = 1 → c.im.urgentReqs = (s.ch n).im.urgentReqs ++ [.ge]) := by
  rw [tripCalls_ch h, tripUrgent, hbit]
  constructor
  · rintro rfl
    simp [urgentRaise, updArr, updCh_ch_self]
  · rintro rfl
    simp [urgentRaise, updArr, updCh_ch_self]

/-! ### The whole trip -/

section
variable (n : Ch) (m : Mon) (s : Dev)

theorem tripQualified_calls : CallStep n (tripActs n m s) (tripQualified n m s) := by
  rw [tripQualified_eq]
  exact tripCalls_step ..

theorem tripQualified_now : (tripQualified n m s).now = s.now := (tripQualified_calls n m s).now.trans (tripActs_frame n m s).now

theorem tripQualified_ch_of_ne {k : Ch} (h : k ≠ n) : (tripQualified n m s).ch k = s.ch k :=
  ((tripQualified_calls n m s).others k h).trans ((tripActs_frame n m s).only.ch_of_ne h)

theorem tripQualified_mon : monOf (tripQualified n m s) n m = (monOf s n m).tripped (rd s oAction [n, m]) (usTicks (rd s oEscUs [n, m])) s.now :=
  ((tripQualified_calls n m s).monOf m).trans (tripActs_mon n m s)

theorem tripQualified_mon_of_ne {k : Mon} (h : k ≠ m) : monOf (tripQualified n m s) n k = monOf s n k :=
  ((tripQualified_calls n m s).monOf k).trans (tripActs_mon_of_ne h n s)

end

/-- A trip is counted, with its position (R249). -/
theorem tripQualified_rd {n : Ch} {s : Dev} (h : loopCalm s n) (m : Mon) :
    rd (tripQualified n m s) oTrips [n, m] = min (2 ^ 32 - 1) (rd s oTrips [n, m] + 1) ∧
      rd (tripQualified n m s) oLastTripPos [n, m] = posOf (dieRecs s n) (s.now * 256) := by
  obtain ⟨htrips, hpos⟩ := tripCounted_rd n m s
  have hcalls := tripQualified_calls n m s
  have hacts := tripActs_step h m
  rw [hcalls.rd, hcalls.rd, hacts.rd_mon rfl (by decide) (by decide) m, hacts.rd_mon rfl (by decide) (by decide) m]
  exact ⟨htrips, hpos⟩

end Sys2Proof.Machine
end

section
/-! SUPPORT. The decisions of a guard monitor in time (08, R248 to R252), and O34. -/

namespace Sys2Proof.Machine

/-! ### A monitor that a decision has judged -/

section
variable (met : Bool) (now : Nat) (new : Decided) (y : Monitor)

@[simp] theorem Monitor.judged_decided : (y.judged met now new).decided = new := by
  unfold judged
  split
  · assumption
  · split <;> rfl

@[simp] theorem Monitor.judged_st : (y.judged met now new).st = y.st := by
  unfold judged
  split
  · rfl
  · split <;> rfl

@[simp] theorem Monitor.judged_blankTo : (y.judged met now new).blankTo = y.blankTo := by
  unfold judged
  split
  · rfl
  · split <;> rfl

@[simp] theorem Monitor.judged_hard : (y.judged met now new).hard = y.hard := by
  unfold judged
  split
  · rfl
  · split <;> rfl

end

/-- A changed state leaves the bands; it begins a run of COND_MET or ends it (R248, R249, R254). -/
theorem Monitor.judged_of_ne {y : Monitor} {new : Decided} (h : y.decided ≠ new) (met : Bool) (now : Nat) : let z := y.judged met now new
    z.inBand = false ∧ (met = true → y.condSince = none → z.condSince = some now) ∧
      (met = false → z.condSince = none ∧ z.acted = false ∧ z.esc = none) := by
  unfold judged
  rw [if_neg h]
  cases met
  · exact ⟨rfl, fun hmet => Bool.noConfusion hmet, fun _ => ⟨rfl, rfl, rfl⟩⟩
  · exact ⟨rfl, fun _ hnone => by simp [hnone], fun hmet => Bool.noConfusion hmet⟩

/-! ### Events of a monitor in their order -/

section
variable {s : State} (hlive : Live s) (n : Ch) (m : Mon) (x : Int) {e : Dev}
include hlive

theorem monitorFirstDecision_completes (he : e = settleDue s.nv ⟨max s.dev.now (knownTick s (firstTick s.dev n m)), 2, 0⟩ [] s.dev) :
    Completes (.monitorFirstDecision n m x) s (firstDecision n m x e) := he ▸ completes_of_onDev rfl hlive rfl

theorem monitorStateChange_completes (he : e = settleDue s.nv ⟨max s.dev.now 0, 2, 0⟩ [] s.dev) :
    Completes (.monitorStateChange n m x) s (stateChange n m x e) := he ▸ completes_of_onDev rfl hlive rfl

theorem blankingEnd_completes (he : e = settleDue s.nv ⟨max s.dev.now (knownTick s (blankTick s.dev n m)), 2, 0⟩ [] s.dev) :
    Completes (.blankingEnd n m x) s (blankingEnds n m x e) := he ▸ completes_of_onDev rfl hlive rfl

end

/-! ### First decisions and crossings -/

/-- A STARTING monitor as its first decision finds it. -/
def monStarts (n : Ch) (m : Mon) (s : Dev) : Dev :=
  let y := monOf s n m
  updMon n m (fun y => { y with st := .running, blankTo := none }) (advance (max (y.onAt + 2458) (y.blankTo.getD 0)) s)

theorem firstDecision_of_starting {n : Ch} {m : Mon} {s : Dev} (h : (monOf s n m).st = .starting) (x : Int) :
    firstDecision n m x s = decideOn n m true x (monStarts n m s) := by
  unfold firstDecision firstTick
  dsimp only
  rw [if_pos h]
  rfl

theorem stateChange_of_idle {n : Ch} {m : Mon} {s : Dev} (h : (monOf s n m).st ≠ .running ∨ (monOf s n m).blankTo.isSome = true) (x : Int) :
    stateChange n m x s = s := by
  refine if_neg fun hruns => ?_
  obtain ⟨hst, hblank⟩ := Bool.and_eq_true_iff.mp hruns
  obtain h | h := h
  · exact h (eq_of_beq hst)
  · rw [Option.isNone_iff_eq_none.mp hblank] at h
    contradiction

theorem stateChange_of_running {n : Ch} {m : Mon} {s : Dev} (hst : (monOf s n m).st = .running) (hblank : (monOf s n m).blankTo = none) (x : Int) :
    stateChange n m x s = decideOn n m false x s := if_pos (by rw [hst, hblank]; rfl)

/-! ### The end of a blanking hold -/

/-- The decision at the end of a blanking hold. -/
def blankDecided (n : Ch) (m : Mon) (x : Int) (t : Nat) (s : Dev) : Dev :=
  decideOn n m false x (updMon n m (fun y => { y with blankTo := none }) (advance t s))

/-- The fault of a monitor is old enough to trip: its run of COND_MET has lasted TRIP_FILTER ticks, or begins now (R252). -/
def faultRipe (n : Ch) (m : Mon) (y : Monitor) (s : Dev) : Bool :=
  match y.condSince with
  | some t => decide (t + rd s oTripFilter [n, m] ≤ s.now)
  | none => true

/-- What follows the decision at the end of the blanking hold of monitor `y` (R252, R254). -/
def blankFollowed (n : Ch) (m : Mon) (y : Monitor) (s : Dev) : Dev :=
  if !monMet s n m then s else if y.escOver then hardTrip n m s else if faultRipe n m y s && !y.acted then tripQualified n m s else s

theorem blankingEnds_eq {n : Ch} {m : Mon} {s : Dev} {t : Nat} (hst : (monOf s n m).st = .running) (hblank : (monOf s n m).blankTo = some t) (x : Int) :
    blankingEnds n m x s = blankFollowed n m (monOf s n m) (blankDecided n m x t s) := by
  unfold blankingEnds blankTick
  simp only [if_pos hst, hblank]
  rfl

section
variable {n : Ch} {m : Mon} {s : Dev} {y : Monitor}

theorem blankFollowed_of_unmet (h : monMet s n m = false) : blankFollowed n m y s = s := if_pos (by rw [h]; rfl)

theorem blankFollowed_of_deferred (h : monMet s n m = true) (hover : y.escOver = true) : blankFollowed n m y s = hardTrip n m s :=
  (if_neg (by simp [h])).trans (if_pos hover)

theorem faultRipe_of (h : y.condSince = none ∨ ∃ t, y.condSince = some t ∧ t + rd s oTripFilter [n, m] ≤ s.now) : faultRipe n m y s = true := by
  unfold faultRipe
  obtain hnone | ⟨t, hsome, hle⟩ := h
  · rw [hnone]
  · rw [hsome]
    exact decide_eq_true hle

theorem blankFollowed_of_ripe (h : monMet s n m = true) (hover : y.escOver = false) (hacted : y.acted = false) (hripe : faultRipe n m y s = true) :
    blankFollowed n m y s = tripQualified n m s :=
  (if_neg (by simp [h])).trans ((if_neg (by simp [hover])).trans (if_pos (by rw [hripe, hacted]; rfl)))

/-- The deferred hard trip, the trip of a fault that began in the hold, or nothing. -/
theorem blankFollowed_cases : blankFollowed n m y s = s ∨ blankFollowed n m y s = hardTrip n m s ∨ blankFollowed n m y s = tripQualified n m s := by
  unfold blankFollowed
  split
  · exact .inl rfl
  · split
    · exact .inr (.inl rfl)
    · split
      · exact .inr (.inr rfl)
      · exact .inl rfl

end

/-! ### What decisions do to the device -/

/-- From `e` to `d` monitor m alone has changed, to the state `new`, its run of COND_MET begun or ended with it. -/
def MonMoved (n : Ch) (m : Mon) (e d : Dev) (new : Decided) : Prop :=
  (chanOnly n e d ∧ ∀ k, k ≠ m → monOf d n k = monOf e n k) ∧ (monOf d n m).decided = new ∧
    (condMet (rd e oTripCond [n, m]) new = true → (monOf e n m).condSince = none → (monOf d n m).condSince = some d.now) ∧
    (condMet (rd e oTripCond [n, m]) new = false → (monOf d n m).condSince = none ∧ (monOf d n m).acted = false ∧ (monOf d n m).esc = none)

/-- The state that an input value gives a monitor which has decided (Table 8.2). -/
def crossing (e : Dev) (n : Ch) (m : Mon) (x : Int) : Decided :=
  nextDecided (monOf e n m).decided (code16 (rd e oThHi [n, m])) (code16 (rd e oThLo [n, m])) (code16 (rd e oHyst [n, m])) x

theorem firstDecision_moves {n : Ch} {m : Mon} {e : Dev} (hst : (monOf e n m).st = .starting) (hnone : (monOf e n m).decided = .undecided) (x : Int) :
    let d := firstDecision n m x e
    let hi := code16 (rd e oThHi [n, m])
    let lo := code16 (rd e oThLo [n, m])
    d.now = max e.now (max ((monOf e n m).onAt + 2458) ((monOf e n m).blankTo.getD 0)) ∧ MonMoved n m e d (nextDecided .undecided hi lo 0 x) ∧
      (monOf d n m).st = .running ∧ (monOf d n m).blankTo = none ∧ (monOf d n m).inBand = inBands hi lo (code16 (rd e oHyst [n, m])) x := by
  intro d hi lo
  have hd : d = decideOn n m true x (monStarts n m e) := firstDecision_of_starting hst x
  have hstarts : monOf (monStarts n m e) n m = { monOf e n m with st := .running, blankTo := none } := monOf_updMon ..
  have hothers : ∀ k, k ≠ m → monOf (monStarts n m e) n k = monOf e n k := fun k hk => monOf_updMon_of_ne n _ _ hk
  obtain ⟨hstep, hmon⟩ := decideOn_first (n := n) (m := m) (s := monStarts n m e) (by rw [hstarts]; exact hnone) x
  have hrd : ∀ r l, rd (monStarts n m e) r l = rd e r l := fun _ _ => rfl
  rw [← hd] at hstep hmon
  simp only [hrd, hstarts] at hmon
  have hne : (monOf e n m).decided ≠ nextDecided .undecided hi lo 0 x := hnone ▸ (nextDecided_undecided_ne _ _ _ _).symm
  obtain ⟨-, hbegins, hends⟩ := Monitor.judged_of_ne (y := { monOf e n m with st := .running, blankTo := none }) hne (condMet (rd e oTripCond [n, m])
    (nextDecided .undecided hi lo 0 x)) (monStarts n m e).now
  refine ⟨hstep.now, ⟨⟨chanOnly.trans (by simp [monStarts]) hstep.only, fun k hk => (hstep.others k hk).trans (hothers k hk)⟩, ?_, ?_, ?_⟩, ?_, ?_, ?_⟩ <;>
    rw [hmon]
  · simp [hi, lo]
  · rw [hstep.now]
    exact hbegins
  · exact hends
  · simp
  · simp

theorem stateChange_moves {n : Ch} {m : Mon} {e : Dev} {x : Int} (hst : (monOf e n m).st = .running) (hblank : (monOf e n m).blankTo = none)
    (hne : (monOf e n m).decided ≠ crossing e n m x) : let d := stateChange n m x e
    d.now = e.now ∧ MonMoved n m e d (crossing e n m x) ∧ (monOf d n m).st = .running ∧ (monOf d n m).inBand = false := by
  intro d
  have hd : d = decideOn n m false x e := stateChange_of_running hst hblank x
  obtain ⟨hstep, hmon⟩ := decideOn_effect n m x e
  rw [← hd] at hstep hmon
  obtain ⟨hband, hbegins, hends⟩ := Monitor.judged_of_ne hne (condMet (rd e oTripCond [n, m]) (crossing e n m x)) e.now
  refine ⟨hstep.now, ⟨⟨hstep.only, hstep.others⟩, ?_, ?_, ?_⟩, ?_, ?_⟩ <;> rw [hmon]
  · simp [crossing]
  · rw [hstep.now]
    exact hbegins
  · exact hends
  · simpa using hst
  · exact hband

theorem stateChange_of_eq {n : Ch} {m : Mon} {e : Dev} {x : Int} (hst : (monOf e n m).st = .running) (hblank : (monOf e n m).blankTo = none)
    (heq : (monOf e n m).decided = crossing e n m x) : stateChange n m x e = e :=
  (stateChange_of_running hst hblank x).trans (setDecided_of_eq heq)

theorem blankDecided_effect (n : Ch) (m : Mon) (x : Int) (t : Nat) (e : Dev) : let d := blankDecided n m x t e
    DecisionStep n m (advance t e) d ∧ monOf d n m =
      { monOf e n m with blankTo := none }.judged (condMet (rd e oTripCond [n, m]) (crossing e n m x)) (max e.now t) (crossing e n m x) := by
  have hmon : monOf (updMon n m (fun y => { y with blankTo := none }) (advance t e)) n m = { monOf e n m with blankTo := none } := monOf_updMon ..
  obtain ⟨hstep, hjudged⟩ := decideOn_effect n m x (updMon n m (fun y => { y with blankTo := none }) (advance t e))
  rw [hmon] at hjudged
  exact ⟨(DecisionStep.updMon n m _ _).trans hstep, hjudged⟩

/-! ### The device after a blanking hold -/

/-- COND_MET of the decision at the end of the hold. -/
theorem monMet_blankDecided {n : Ch} {m : Mon} {e : Dev} {t : Nat} (x : Int) :
    monMet (blankDecided n m x t e) n m = condMet (rd e oTripCond [n, m]) (crossing e n m x) := by
  obtain ⟨hstep, hmon⟩ := blankDecided_effect n m x t e
  rw [monMet, hmon, Monitor.judged_decided, hstep.rd_tripCond, rd_advance]

section
variable {n : Ch} {m : Mon} {e : Dev} {t : Nat} (x : Int) (hst : (monOf e n m).st = .running) (hblank : (monOf e n m).blankTo = some t)
include hst hblank

theorem blankingEnds_beside : let d := blankingEnds n m x e
    d.now = max e.now t ∧ (∀ k, k ≠ n → d.ch k = e.ch k) ∧ (monOf d n m).decided = crossing e n m x ∧ (monOf d n m).blankTo = none := by
  obtain ⟨hstep, hmon⟩ := blankDecided_effect n m x t e
  have hch : ∀ k, k ≠ n → (blankDecided n m x t e).ch k = e.ch k := fun k hk => hstep.only.ch_of_ne hk
  have hdecided : (monOf (blankDecided n m x t e) n m).decided = crossing e n m x := by rw [hmon, Monitor.judged_decided]
  have hended : (monOf (blankDecided n m x t e) n m).blankTo = none := by rw [hmon, Monitor.judged_blankTo]
  rw [blankingEnds_eq hst hblank]
  obtain h | h | h := blankFollowed_cases (n := n) (m := m) (y := monOf e n m) (s := blankDecided n m x t e) <;> rw [h] <;> dsimp only
  · exact ⟨hstep.now, hch, hdecided, hended⟩
  · have htrip := hardTrip_frame n m (blankDecided n m x t e)
    rw [hardTrip_mon, hardLatched, monOf_updMon]
    exact ⟨htrip.now.trans hstep.now, fun k hk => (htrip.only.ch_of_ne hk).trans (hch k hk), hdecided, hended⟩
  · rw [tripQualified_mon, tripQualified_now]
    exact ⟨hstep.now, fun k hk => (tripQualified_ch_of_ne n m _ hk).trans (hch k hk), hdecided, hended⟩

variable {x}

theorem blankingEnds_hard (hmet : condMet (rd e oTripCond [n, m]) (crossing e n m x) = true) (hover : (monOf e n m).escOver = true) :
    (monOf (blankingEnds n m x e) n m).hard.isSome = true := by
  rw [blankingEnds_eq hst hblank, blankFollowed_of_deferred ((monMet_blankDecided x).trans hmet) hover, hardTrip_mon, hardLatched, monOf_updMon]
  rfl

theorem blankingEnds_trips (hcalm : loopCalm e n) (hmet : condMet (rd e oTripCond [n, m]) (crossing e n m x) = true)
    (hover : (monOf e n m).escOver = false) (hacted : (monOf e n m).acted = false)
    (hripe : (monOf e n m).condSince = none ∨ ∃ t0, (monOf e n m).condSince = some t0 ∧ t0 + rd e oTripFilter [n, m] ≤ max e.now t) :
    (monOf (blankingEnds n m x e) n m).acted = true ∧
      rd (blankingEnds n m x e) oTrips [n, m] = min (2 ^ 32 - 1) (rd e oTrips [n, m] + 1) := by
  obtain ⟨hstep, -⟩ := blankDecided_effect n m x t e
  have hfilter : rd (blankDecided n m x t e) oTripFilter [n, m] = rd e oTripFilter [n, m] := hstep.rd_mon rfl (by decide) (by decide)
  have htrips : rd (blankDecided n m x t e) oTrips [n, m] = rd e oTrips [n, m] := hstep.rd_mon rfl (by decide) (by decide)
  have hloop : loopCalm (blankDecided n m x t e) n := loopCalm_of_xover hcalm (congrArg Loop.xover hstep.loop)
  rw [← hfilter, ← advance_now, ← hstep.now] at hripe
  rw [blankingEnds_eq hst hblank, blankFollowed_of_ripe ((monMet_blankDecided x).trans hmet) hover hacted (faultRipe_of hripe), tripQualified_mon,
    (tripQualified_rd hloop m).1, htrips]
  exact ⟨rfl, rfl⟩

theorem blankingEnds_ends (hne : (monOf e n m).decided ≠ crossing e n m x) (hunmet : condMet (rd e oTripCond [n, m]) (crossing e n m x) = false) :
    (monOf (blankingEnds n m x e) n m).esc = none ∧ (monOf (blankingEnds n m x e) n m).hard = (monOf e n m).hard := by
  obtain ⟨-, hmon⟩ := blankDecided_effect n m x t e
  obtain ⟨-, -, hends⟩ := Monitor.judged_of_ne (y := { monOf e n m with blankTo := none }) hne
    (condMet (rd e oTripCond [n, m]) (crossing e n m x)) (max e.now t)
  obtain ⟨-, -, hesc⟩ := hends hunmet
  rw [blankingEnds_eq hst hblank, blankFollowed_of_unmet ((monMet_blankDecided x).trans hunmet), hmon]
  exact ⟨hesc, Monitor.judged_hard ..⟩

end

/-! ### O34 -/

theorem inBands_eq (hi lo hyst x : Int) : inBands hi lo hyst x = decide ((hi - hyst ≤ x ∧ x ≤ hi) ∨ (lo ≤ x ∧ x ≤ lo + hyst)) := by simp [inBands]

/-- Settles O34: each event is one decision of its monitor, on a copy that has left STARTING or the blanking hold, and the end of a hold may trip
after it. -/
theorem monitorDecisions : Obligations.MonitorDecisions := by
  intro s n m x e hlive y hi lo hyst c next others moved
  have hnext : y.decided ≠ .undecided → next = crossing e n m x := by
    intro hdecided
    simp only [next, crossing]
    change y.decided ≠ .undecided at hdecided
    change _ = nextDecided y.decided hi lo hyst x
    cases hold : y.decided
    · exact absurd hold hdecided
    · rfl
    · rfl
    · rfl
  refine ⟨fun he hst hnone => ?_, fun he hst hblank hdecided => ⟨fun heq => ?_, fun hne => ?_⟩, fun he hidle => ?_, fun t he hst hblank hdecided => ?_⟩
  · obtain ⟨hnow, hmoved, hruns, hended, hband⟩ := firstDecision_moves hst hnone x
    exact ⟨_, monitorFirstDecision_completes hlive n m x he, hnow, hmoved, hruns, hended, hband.trans (inBands_eq ..)⟩
  · rw [hnext hdecided] at heq
    have hsame := monitorStateChange_completes hlive n m x he
    rwa [stateChange_of_eq hst hblank heq.symm] at hsame
  · rw [hnext hdecided] at hne ⊢
    obtain ⟨hnow, hmoved, hruns, hband⟩ := stateChange_moves hst hblank hne.symm
    exact ⟨_, monitorStateChange_completes hlive n m x he, hnow, hmoved, hruns, hband⟩
  · have hsame := monitorStateChange_completes hlive n m x he
    rwa [stateChange_of_idle hidle] at hsame
  · rw [hnext hdecided]
    obtain ⟨hnow, hch, hjudged, hended⟩ := blankingEnds_beside x hst hblank
    refine ⟨_, blankingEnd_completes hlive n m x he, hnow, hch, hjudged, hended, fun hover hmet => blankingEnds_hard hst hblank hmet hover,
      fun hcalm hmet hover hacted hripe => ?_, fun hne hunmet => blankingEnds_ends hst hblank hne.symm hunmet⟩
    rw [hnow] at hripe
    exact blankingEnds_trips hst hblank hcalm hmet hover hacted hripe

end Sys2Proof.Machine
end

section
/-! SUPPORT. Trips and escalations of a guard monitor in time (08, R249, R253 to R257), the latches (R258, R263), and O35. -/

namespace Sys2Proof.Machine

/-! ### Trips in their order -/

section
variable {s : State} (hlive : Live s) (n : Ch) (m : Mon) {e : Dev}
include hlive

theorem tripQualify_completes (he : e = settleDue s.nv ⟨max s.dev.now (knownTick s (qualifyTick s.dev n m)), 2, 0⟩ [] s.dev) :
    Completes (.tripQualify n m) s (tripQualify n m e) := he ▸ completes_of_onDev rfl hlive rfl

theorem escalationExpiry_completes (he : e = settleDue s.nv ⟨max s.dev.now (knownTick s (escTick s.dev n m)), 2, 0⟩ [] s.dev) :
    Completes (.escalationExpiry n m) s (escalationExpires n m e) := he ▸ completes_of_onDev rfl hlive rfl

end

section
variable {n : Ch} {m : Mon} {s : Dev} {t : Nat}

theorem tripQualify_of_acted (h : (monOf s n m).acted = true) : tripQualify n m s = s := by
  simp [tripQualify, qualifyTick, h]

theorem tripQualify_of_run (hsince : (monOf s n m).condSince = some t) (hst : (monOf s n m).st = .running) (hblank : (monOf s n m).blankTo = none)
    (hacted : (monOf s n m).acted = false) : tripQualify n m s = tripQualified n m (advance (t + rd s oTripFilter [n, m]) s) := by
  simp [tripQualify, qualifyTick, hsince, hst, hblank, hacted]

theorem escalationExpires_of_open (hesc : (monOf s n m).esc = some t) (hover : (monOf s n m).escOver = false)
    (hblank : (monOf s n m).blankTo = none) : escalationExpires n m s = hardTrip n m (advance t s) := by
  simp [escalationExpires, escTick, hesc, hover, hblank]

/-- Inside a blanking hold an escalation that expires waits (R254). -/
theorem escalationExpires_of_blanked (hesc : (monOf s n m).esc = some t) (hover : (monOf s n m).escOver = false)
    (hblank : (monOf s n m).blankTo.isSome = true) :
    escalationExpires n m s = updMon n m (fun x => { x with escOver := true }) (advance t s) := by
  simp [escalationExpires, escTick, hesc, hover, hblank]

end

/-! ### What a trip does beside its monitor -/

/-- A hard trip stands through what the Guard Engine asks of others. -/
theorem HardTripped.of_calls {n : Ch} {m : Mon} {a b c d : Dev} (h : HardTripped n m a b) (hsrc : (a.ch n).src = (c.ch n).src)
    (hcalls : CallStep n b d) : HardTripped n m c d := by
  unfold HardTripped at h ⊢
  rwa [hcalls.monOf, hcalls.now, hcalls.rd, hcalls.src, hcalls.loop, ← hsrc]

section
variable {n : Ch} {m : Mon} {s : Dev}

/-- The device before the hard part of a trip. -/
def tripSofted (n : Ch) (m : Mon) (s : Dev) : Dev := tripSoft (rd s oAction [n, m]) n m (tripCounted n m s)

theorem tripSofted_ch (n : Ch) (m : Mon) (s : Dev) :
    ((tripSofted n m s).ch n).src = (s.ch n).src ∧ ((tripSofted n m s).ch n).loop.xover = (s.ch n).loop.xover := by
  obtain ⟨hsrc, hxover⟩ := tripSoft_ch (rd s oAction [n, m]) n m (tripCounted n m s)
  obtain ⟨hloop, hsrc', -⟩ := tripCounted_ch n m s
  exact ⟨hsrc.trans hsrc', hxover.trans (congrArg Loop.xover hloop)⟩

/-- An ACTION with a hard part and no escalation trips at once (R253, R255). -/
theorem tripQualified_hard (hcalm : loopCalm s n) (hbit : bitOf (rd s oAction [n, m]) 1 = true)
    (hnow : escalates (rd s oAction [n, m]) (usTicks (rd s oEscUs [n, m])) = false) : HardTripped n m s (tripQualified n m s) := by
  have hacts : tripActs n m s = hardTrip n m (tripSofted n m s) := (if_pos hbit).trans (if_neg (Bool.eq_false_iff.mp hnow))
  obtain ⟨hsrc, hxover⟩ := tripSofted_ch n m s
  have hcalls := tripQualified_calls n m s
  rw [hacts] at hcalls
  exact (hardTrip_trips (loopCalm_of_xover hcalm hxover) m).of_calls hsrc hcalls

/-- Without a hard part a trip leaves the source as it was. -/
theorem tripQualified_src (hbit : bitOf (rd s oAction [n, m]) 1 = false) : ((tripQualified n m s).ch n).src = (s.ch n).src := by
  have hacts : tripActs n m s = tripSofted n m s := if_neg (Bool.eq_false_iff.mp hbit)
  rw [(tripQualified_calls n m s).src, hacts, (tripSofted_ch n m s).1]

theorem tripActs_geFailed (hcalm : loopCalm s n) : geFailed (tripActs n m s) n = geFailed s n :=
  (tripActs_step hcalm m).geFailed.trans (tripCounted_geFailed n m s)

/-- A soft trip alone is an event, and on its way to the Loop Engine (R253). -/
theorem tripQualified_soft (hsoft : bitOf (rd s oAction [n, m]) 0 = true) (hhard : bitOf (rd s oAction [n, m]) 1 = false)
    (hruns : geFailed s n = false) : let c := (tripQualified n m s).ch n
    c.loop = { (s.ch n).loop with softSent := (s.ch n).loop.softSent ++ [(m, tripSide (monOf s n m).decided)] } ∧
      c.eseq = ((s.ch n).eseq + 1) % 65536 := by
  have hmon : monOf (tripCounted n m s) n m = { monOf s n m with acted := true } := monOf_updMon ..
  have hacts : tripActs n m s = chEvent n 0x04 m.val (softSending n m (tripCounted n m s)) :=
    ((if_neg (Bool.eq_false_iff.mp hhard)).trans (if_pos hsoft)).trans (softTrip_of_runs ((tripCounted_geFailed n m s).trans hruns) m)
  obtain ⟨hloop, -, heseq⟩ := tripCounted_ch n m s
  have hcalls := tripQualified_calls n m s
  dsimp only
  rw [hcalls.loop, hcalls.eseq, hacts, chEvent_loop, chEvent_eseq]
  simp [softSending, softLatched, hloop, heseq, hmon]

theorem tripQualified_urgent (hcalm : loopCalm s n) (hbit : bitOf (rd s oAction [n, m]) 2 = true) (hruns : geFailed s n = false) :
    let c := (tripQualified n m s).ch n
    (m = 0 → c.vm.urgentReqs = (s.ch n).vm.urgentReqs ++ [.ge]) ∧ (m = 1 → c.im.urgentReqs = (s.ch n).im.urgentReqs ++ [.ge]) := by
  have hframe := tripActs_frame n m s
  rw [tripQualified_eq, ← hframe.vm, ← hframe.im]
  exact tripCalls_urgent ((tripActs_geFailed hcalm).trans hruns) hbit m

/-- A Guard Engine that has failed asks nothing of the arrays and the Slate (R257). -/
theorem tripQualified_of_failed (hcalm : loopCalm s n) (hfailed : geFailed s n = true) :
    ((tripQualified n m s).ch n).vm = (s.ch n).vm ∧ ((tripQualified n m s).ch n).im = (s.ch n).im ∧ (tripQualified n m s).slate = s.slate := by
  have hframe := tripActs_frame n m s
  rw [tripQualified_eq, tripCalls_of_failed ((tripActs_geFailed hcalm).trans hfailed)]
  exact ⟨hframe.vm, hframe.im, by rw [hframe.only.frame]⟩

end

/-! ### The latches -/

theorem updMon_congr {n : Ch} {m : Mon} {f g : Monitor → Monitor} {s : Dev} (h : f (monOf s n m) = g (monOf s n m)) : updMon n m f s = updMon n m g s := by
  have hch : ∀ k : Monitor → Monitor, updMon n m k s = updCh n (fun c => { c with mons := (s.ch n).mons.set m (k (monOf s n m)) }) s := fun k =>
    updCh_congr rfl
  rw [hch, hch, h]

/-- A rewrite of each monitor of a list, none of them twice, that may depend on the objects and the present tick. -/
theorem foldl_updMon {n : Ch} {s : Dev} (f : Mon → Dev → Dev) (g : Mon → Monitor → Monitor)
    (hf : ∀ m t, t.objs = s.objs → t.now = s.now → f m t = updMon n m (g m) t) (l : List Mon) (hl : l.Nodup) (t : Dev) (hobjs : t.objs = s.objs)
    (hnow : t.now = s.now) : let d := l.foldl (fun s m => f m s) t
    chanOnly n t d ∧ d.now = t.now ∧ d.objs = t.objs ∧ ∀ k, monOf d n k = if k ∈ l then g k (monOf t n k) else monOf t n k := by
  induction l generalizing t with
  | nil => exact ⟨.refl n t, rfl, rfl, fun k => rfl⟩
  | cons m l ih =>
    obtain ⟨hm, hl⟩ := List.nodup_cons.mp hl
    obtain ⟨honly, hnow', hobjs', hmon⟩ := ih hl (updMon n m (g m) t) hobjs hnow
    rw [List.foldl_cons, hf m t hobjs hnow]
    refine ⟨chanOnly.trans (by simp) honly, hnow', hobjs', fun k => (hmon k).trans ?_⟩
    by_cases hk : k = m
    · subst hk
      simp [hm]
    · simp [hk, monOf_updMon_of_ne n (g m) t hk]

/-- Monitor k of a channel after a write `v` of GUARD_LATCH. -/
def latchesWritten (s : Dev) (n : Ch) (v : Nat) (k : Mon) (y : Monitor) : Monitor :=
  let met := condMet (rd s oTripCond [n, k]) y.decided
  if rd s oLatchMode [n, k] = 0 then
    { y with
      soft := if bitOf v k then latchCleared met s.now y.soft else y.soft
      hard := if bitOf v (4 + k) then latchCleared met s.now y.hard else y.hard }
  else y

/-- A write of GUARD_LATCH as far as one monitor goes. -/
def clearMonLatches (n : Ch) (v : Nat) (m : Mon) (s : Dev) : Dev :=
  if rd s oLatchMode [n, m] = 0 then updMon n m (fun x => { x with
    soft := if bitOf v m then latchCleared (monMet s n m) s.now x.soft else x.soft
    hard := if bitOf v (4 + m) then latchCleared (monMet s n m) s.now x.hard else x.hard }) s else s

theorem clearGuardLatch_eq (n : Ch) (v : Nat) (s : Dev) : clearGuardLatch n v s = (List.finRange 4).foldl (fun s m => clearMonLatches n v m s) s := rfl

theorem clearMonLatches_eq (n : Ch) (v : Nat) (m : Mon) (s : Dev) : clearMonLatches n v m s = updMon n m (latchesWritten s n v m) s := by
  unfold clearMonLatches
  split
  · next h => exact updMon_congr (if_pos h).symm
  · next h => exact ((updMon_congr (g := id) (if_neg h)).trans (updCh_eq_self (by simp))).symm

theorem latchesWritten_congr {s t : Dev} (hobjs : t.objs = s.objs) (hnow : t.now = s.now) (n : Ch) (v : Nat) (m : Mon) :
    latchesWritten t n v m = latchesWritten s n v m := by
  funext y
  unfold latchesWritten
  rw [rd_of_objs t s oLatchMode _ hobjs, rd_of_objs t s oTripCond _ hobjs, hnow]

theorem clearGuardLatch_effect (n : Ch) (v : Nat) (s : Dev) : let d := clearGuardLatch n v s
    chanOnly n s d ∧ d.now = s.now ∧ d.objs = s.objs ∧ ∀ k, monOf d n k = latchesWritten s n v k (monOf s n k) := by
  obtain ⟨honly, hnow, hobjs, hmon⟩ := foldl_updMon (clearMonLatches n v) (latchesWritten s n v)
    (fun m t hobjs hnow => (clearMonLatches_eq n v m t).trans (by rw [latchesWritten_congr hobjs hnow])) (List.finRange 4) (List.nodup_finRange 4) s rfl rfl
  rw [clearGuardLatch_eq]
  exact ⟨honly, hnow, hobjs, fun k => (hmon k).trans (if_pos (List.mem_finRange k))⟩

section
variable {s : Dev} {n : Ch} {v : Nat} {k : Mon} {y : Monitor}

/-- Latches of a monitor outside LATCH_MODE 0 stand (R258). -/
theorem latchesWritten_of_held (h : rd s oLatchMode [n, k] ≠ 0) : latchesWritten s n v k y = y := if_neg h

theorem latchesWritten_of_open (h : rd s oLatchMode [n, k] = 0) : let met := condMet (rd s oTripCond [n, k]) y.decided
    (latchesWritten s n v k y).soft = (if bitOf v k then latchCleared met s.now y.soft else y.soft) ∧
      (latchesWritten s n v k y).hard = if bitOf v (4 + k) then latchCleared met s.now y.hard else y.hard := by
  unfold latchesWritten
  dsimp only
  rw [if_pos h]
  exact ⟨rfl, rfl⟩

/-- A latch that a trip sets on the tick of the write stays set (R263). -/
theorem latchCleared_of_fresh (met : Bool) (now : Nat) : latchCleared met now (some now) = some now := if_pos rfl

theorem latchCleared_of_set {met : Bool} {now : Nat} {l : Option Nat} (hset : l.isSome = true) (hold : l ≠ some now) :
    latchCleared met now l = if met = true then some (now + 1) else none := by
  unfold latchCleared
  rw [if_neg hold, hset, Bool.true_and]

/-- What a write leaves of one latch: nothing of a latch that the mode or the bit spares, and nothing of one set on this tick, has changed. -/
theorem latchesWritten_keeps : (bitOf v k = false → (latchesWritten s n v k y).soft = y.soft) ∧
    (y.soft = some s.now → (latchesWritten s n v k y).soft = y.soft) ∧ (y.hard = some s.now → (latchesWritten s n v k y).hard = y.hard) ∧
    (bitOf v (4 + k) = false → (latchesWritten s n v k y).hard = y.hard) := by
  by_cases hmode : rd s oLatchMode [n, k] = 0
  · obtain ⟨hsoft, hhard⟩ := latchesWritten_of_open (v := v) (y := y) hmode
    rw [hsoft, hhard]
    refine ⟨fun hbit => by simp [hbit], fun hfresh => ?_, fun hfresh => ?_, fun hbit => by simp [hbit]⟩ <;> rw [hfresh, latchCleared_of_fresh, ite_self]
  · rw [latchesWritten_of_held hmode]
    exact ⟨fun _ => rfl, fun _ => rfl, fun _ => rfl, fun _ => rfl⟩

end

theorem plainRow_guardLatch : PlainRow oGuardLatch := ⟨by decide, by decide, rfl⟩

theorem ofChan_guardLatch (n : Ch) : ofChan n (oGuardLatch.ix + dimsOff oGuardLatch.dims [n.val]) := ofChan_of_lt n (o := 0xA4) (by decide)

theorem directWrite_guardLatch (p : Port) (n : Ch) (data : List Byte) (nv : Nv) (s : Dev) :
    directWrite p oGuardLatch (oGuardLatch.ix + dimsOff oGuardLatch.dims [n.val]) oGuardLatch.sub data nv s = (.ok, clearGuardLatch n (ofBytes data) s) := by
  rw [directWrite_of_ofChan (ofChan_guardLatch n) (ownedCheck_of_not_arrayRow (not_arrayRow_of (o := 0xA4) (by decide)))]
  exact congrArg (fun c => (_, clearGuardLatch c (ofBytes data) s)) (chOf_of_ofChan (ofChan_guardLatch n))

theorem guardLatchClear_completes {s : State} {p : Port} {n : Ch} (v : BitVec 8) (hserved : Served s p oGuardLatch) (hup : LinkUp s n.die) :
    Completes (.guardLatchClear p n v) s (done p (clearGuardLatch n v.toNat s.dev)) := by
  have hdata : ofBytes (leBytes 1 v.toNat) = v.toNat := (ofBytes_leBytes 1 _).trans (Nat.mod_eq_of_lt v.isLt)
  have hreached := reached_of_ofChan (ofChan_guardLatch n) hup
  obtain ⟨honly, -⟩ := clearGuardLatch_effect n v.toNat s.dev
  refine plainRow_guardLatch.rowRequest hserved (rowOf_guardLatch n) (length_leBytes ..) hreached.1 hreached.2 rfl ?_ ?_
  · rw [directWrite_guardLatch, hdata]
  · rw [honly.frame]

/-! ### The monitor after a trip with a hard part, and without -/

theorem escalates_of_not {a esc : Nat} (h : bitOf a 0 = false ∨ esc = 0) : escalates a esc = false := by
  unfold escalates
  obtain h | h := h <;> simp [h]

theorem Monitor.tripped_of_escalates {a esc : Nat} (hbit : bitOf a 1 = true) (h : escalates a esc = true) (now : Nat) (y : Monitor) :
    (y.tripped a esc now).esc = some (now + esc) ∧ (y.tripped a esc now).hard = y.hard := by simp [tripped, hbit, h]

theorem Monitor.tripped_of_soft {a : Nat} (hbit : bitOf a 1 = false) (esc now : Nat) (y : Monitor) : (y.tripped a esc now).hard = y.hard := by
  simp [tripped, hbit]

/-! ### O35 -/

/-- Settles O35: a trip is `tripQualified` on its tick, part by part; an escalation is the hard trip, or waits in the hold; a write of GUARD_LATCH
is a rewrite of each monitor. -/
theorem monitorTrips : Obligations.MonitorTrips := by
  intro s n m e hlive y a esc tripped calm
  refine ⟨fun t he hsince hst hblank => ⟨fun hacted => ?_, fun hacted hcalm => ?_⟩, fun t he hesc hover => ⟨fun hblank hcalm => ?_, fun hblank => ?_⟩,
    fun p v hserved hup => ?_⟩
  · have hdone := tripQualify_completes hlive n m he
    rwa [tripQualify_of_acted hacted] at hdone
  · have hdone := tripQualify_completes hlive n m he
    rw [tripQualify_of_run hsince hst hblank hacted] at hdone
    have hmon := tripQualified_mon n m (advance (t + rd e oTripFilter [n, m]) e)
    have hnow := tripQualified_now n m (advance (t + rd e oTripFilter [n, m]) e)
    have hcalm' : loopCalm (advance (t + rd e oTripFilter [n, m]) e) n := hcalm
    obtain ⟨htrips, hpos⟩ := tripQualified_rd hcalm' m
    have hfailed : geFailed (advance (t + rd e oTripFilter [n, m]) e) n = geFailed e n := rfl
    refine ⟨_, hdone, hnow, fun k hk => tripQualified_ch_of_ne n m _ hk, fun k hk => tripQualified_mon_of_ne n m _ hk, ?_, htrips, ?_, ?_,
      fun hbit hplain => ?_, fun hbit hsoft hlater => ?_, fun hbit => ⟨tripQualified_src hbit, ?_⟩,
      fun hsoft hhard hruns => tripQualified_soft hsoft hhard (hfailed.trans hruns),
      fun hbit hruns => tripQualified_urgent hcalm' hbit (hfailed.trans hruns), fun hfails => tripQualified_of_failed hcalm' (hfailed.trans hfails)⟩
    · rw [hmon]
      rfl
    · rw [hpos, hnow]
      rfl
    · rw [hmon, hnow]
      rfl
    · exact tripQualified_hard hcalm' hbit (escalates_of_not hplain)
    · rw [hmon, hnow]
      exact Monitor.tripped_of_escalates hbit (Bool.and_eq_true_iff.mpr ⟨hsoft, decide_eq_true hlater⟩) ..
    · rw [hmon]
      exact Monitor.tripped_of_soft hbit ..
  · have hdone := escalationExpiry_completes hlive n m he
    rw [escalationExpires_of_open hesc hover hblank] at hdone
    exact ⟨_, hdone, (hardTrip_frame n m (advance t e)).now, hardTrip_trips (s := advance t e) hcalm m⟩
  · have hdone := escalationExpiry_completes hlive n m he
    rwa [escalationExpires_of_blanked hesc hover hblank] at hdone
  · obtain ⟨honly, hnow, hobjs, hmon⟩ := clearGuardLatch_effect n v.toNat s.dev
    refine ⟨_, guardLatchClear_completes v hserved hup, honly, hnow, hobjs, fun k => ?_⟩
    intro z again
    obtain ⟨hsoft, hfreshSoft, hfreshHard, hhard⟩ := latchesWritten_keeps (s := s.dev) (n := n) (v := v.toNat) (k := k) (y := z)
    rw [hmon k]
    refine ⟨latchesWritten_of_held, fun hmode hbit hset hold => ?_, hsoft, hfreshSoft, hfreshHard, fun hmode hbit hset hold => ?_, hhard⟩
    · rw [(latchesWritten_of_open hmode).1, if_pos hbit]
      exact latchCleared_of_set hset hold
    · rw [(latchesWritten_of_open hmode).2, if_pos hbit]
      exact latchCleared_of_set hset hold

end Sys2Proof.Machine
end

section
/-! SUPPORT. Refutes O59: a record whose program a reset cuts short may still complete (09, R289; 13, R381), and the model appends it whether or not the
ledger has room for its pages. -/

namespace Sys2Proof.Machine

/-- A released device that programs a CHECKPOINT record: requester 0x9009 holds the ledger (Tables 10.1, 10.2). -/
def checkpointProgrammed : Dev :=
  let start := State.reset.dev
  { start with
    supply := { start.supply with released := true }
    ledger := { start.ledger with scanDone := true, queue := [ownAppend 9 [] 0 0xFF start] }
    arb := { start.arb with units := [⟨0xA0, [⟨0x9009, 0, 0, 0, false, false, none⟩], [], 0⟩] } }

/-- A ledger whose blank pages are used up. -/
def pagesUsed : Nv := ⟨[], Config.shippedFree, 0⟩

/-- A reset has cut the program short, and LEDGER_APPEND comes while the dies are held in reset. -/
def fullLedgerReset : State := ⟨resetActs pagesUsed checkpointProgrammed, pagesUsed, [.ledgerAppend 0]⟩

theorem fullLedgerReset_meets : ledgerInv fullLedgerReset.nv := ⟨trivial, Nat.le_refl _⟩

/-- The record cut short has 290 bytes, two pages. -/
theorem fullLedgerReset_program : ∃ r, fullLedgerReset.dev.ledger.program = some (r, 2) := ⟨_, rfl⟩

/-- Held in reset, LEDGER_APPEND appends the record whose program was cut short (R381). -/
theorem step_ledgerAppend_held {s : State} {skips : Nat} {rest : List Instr} {r : LRecord} {n : Nat} (hqueue : s.pending = .ledgerAppend skips :: rest)
    (hheld : s.dev.supply.released = false) (hcut : s.dev.ledger.program = some (r, n)) :
    ∃ t, step s = .next t ∧ t.nv = { s.nv with recs := s.nv.recs ++ [r], used := s.nv.used + n } := by
  have hends : (programEnds s.nv s.dev).1 = { s.nv with recs := s.nv.recs ++ [r], used := s.nv.used + n } := by
    unfold programEnds
    rw [hcut]
  refine ⟨{ s.behind rest with dev := (programEnds s.nv s.dev).2, nv := (programEnds s.nv s.dev).1 }, ?_, hends⟩
  have hexec : exec (.ledgerAppend skips) (s.behind rest) = execLedgerAppend skips (s.behind rest) := rfl
  have hoff : (s.behind rest).dev.supply.released = false := hheld
  unfold step
  rw [hqueue]
  dsimp only
  rw [hexec, execLedgerAppend, hoff]
  rfl

/-- Refutes O59 by its ledger clause: the ledger of `fullLedgerReset` is chained and within its pages, and the record that completes leaves it. -/
theorem not_stepKeeps : ¬ Obligations.StepKeeps := by
  rintro ⟨-, hkeeps⟩
  obtain ⟨r, hcut⟩ := fullLedgerReset_program
  obtain ⟨t, hstep, hnv⟩ := step_ledgerAppend_held (s := fullLedgerReset) rfl rfl hcut
  obtain ⟨hledger, -⟩ := hkeeps fullLedgerReset t hstep
  obtain ⟨-, hpages⟩ := hledger fullLedgerReset_meets
  rw [hnv] at hpages
  have hused : Config.shippedFree + 2 ≤ Config.shippedFree := hpages
  omega

end Sys2Proof.Machine
end

section
/-! SUPPORT. Refutes O38: the start of a background comparison is the first Reel cycle boundary 1 ms after the request enters (09, R277, R280), and a
boundary past the newest record is told by CYCLE_LEN in force at that tick (10, R317). The statement tells it by CYCLE_LEN of the tick before. -/

namespace Sys2Proof.Machine

/-- The tick at which a background comparison asks for the switch: its deadline less its hold bound (R280, R303). -/
def backgroundEnters (s : Dev) : Nat := s.ref.lastComparison + rd s oCmpInterval [] * 3600000 * msTicks - cmpBound s

/-- A background comparison that is due and not barred is scheduled (R280). -/
theorem comparisonBackgroundDue_completes {s : State} {t : Dev} (hlive : Live s) (hon : rd s.dev oCmpInterval [] ≠ 0)
    (ht : t = advance (backgroundEnters s.dev) s.dev) (hfree : cmpBarred t = false) : Completes .comparisonBackgroundDue s
      (cmpSchedule 0xFF (cmpStartPos t)
        (posOf t.cad.recs ((s.dev.ref.lastComparison + rd s.dev oCmpInterval [] * 3600000 * msTicks) * 256)) t) := by
  subst ht
  refine completes_of_onDev rfl hlive (congrArg Host.Outcome.next ?_)
  rw [if_neg hon]
  exact if_neg (ne_true_of_eq_false hfree)

/-- A comparison that is scheduled starts at the position it is given. -/
theorem cmpSchedule_start (origin start deadline : Nat) (s : Dev) :
    (cmpSchedule origin start deadline s).ref.comparison.map Comparison.start = some start := by
  unfold cmpSchedule
  rw [(unitRequest_step (n := 0) (a := .vm) ..).ref]
  rfl

/-- A released device in cycle 0 of 20 ms, whose next record is 20.02 ms long. CMP_INTERVAL is 1 hour, a standard is named, and array VM of channel 0
is OFF and ready. -/
def cycleLengthens : State :=
  let start := State.reset.dev
  let released : Dev := { start with
    supply := { start.supply with released := true }
    cad := { start.cad with recs := [⟨1, resetLength, resetLength + resetLength / 1000⟩, ⟨0, 0, resetLength⟩] } }
  { State.reset with dev := wr (wr (updArr 0 .vm (fun x => { x with ready := true }) released) oCmpInterval 1 []) oStdU 1 [] }

/-- That device as the comparison asks for the switch, within the hour. -/
def lengthenedCycle : Dev := advance (backgroundEnters cycleLengthens.dev) cycleLengthens.dev

theorem lengthenedCycle_free : cmpBarred lengthenedCycle = false := by decide +kernel

/-- By then cycle 1 is in force, and S lies some 170 cycles earlier than a count by the length of cycle 0 has it. -/
theorem lengthenedCycle_start : cmpStartPos lengthenedCycle ≠ nextMultiple cycleLengthens.dev (lengthenedCycle.now + 245760) 32 := by decide +kernel

/-- Refutes O38 by its clause of the background procedure. -/
theorem not_comparisonRuns : ¬ Obligations.ComparisonRuns := by
  intro h
  have hon : rd cycleLengthens.dev oCmpInterval [] ≠ 0 := by decide +kernel
  have hmodel := comparisonBackgroundDue_completes (s := cycleLengthens) rfl hon rfl lengthenedCycle_free
  obtain ⟨-, -, -, -, -, -, hbackground⟩ := h cycleLengthens rfl
  obtain ⟨-, hscheduled⟩ := hbackground hon
  obtain ⟨d, c, hd, -, -, href, -, -, hstart, -⟩ := hscheduled (by
    rintro (hstd | hrun | hswitch | hlink | harray)
    · exact absurd hstd (by decide +kernel)
    · exact absurd hrun (by decide +kernel)
    · exact absurd hswitch (by decide +kernel)
    · exact absurd hlink (by decide +kernel)
    · exact absurd (harray 0 (by decide +kernel)) (by decide +kernel))
  have hsame : d.ref.comparison.map Comparison.start = some (cmpStartPos lengthenedCycle) := by
    rw [← after_ref cycleLengthens.dev d, after_of_completes hd hmodel, after_ref]
    exact cmpSchedule_start ..
  rw [href] at hsame
  exact lengthenedCycle_start ((Option.some.inj hsame).symm.trans hstart)

end Sys2Proof.Machine
end

section
/-! SUPPORT. Requests to the arbiters (10, R298 to R303) and records caused (09, R291): what each leaves of the device, and the queue of appends. -/

namespace Sys2Proof.Machine

/-! ### The arbiters alone -/

/-- From `s` to `t` no more than the arbiters has changed. -/
def ArbStep (s t : Dev) : Prop := t = { s with arb := t.arb }

namespace ArbStep

variable {s t u : Dev}

theorem refl (s : Dev) : ArbStep s s := rfl

theorem trans (h : ArbStep s t) (g : ArbStep t u) : ArbStep s u := by
  unfold ArbStep at *
  rw [g, h]

theorem ite {c : Prop} [Decidable c] (ht : c → ArbStep s t) (hu : ¬ c → ArbStep s u) : ArbStep s (if c then t else u) := iteInduction ht hu

theorem foldl {α : Type} {f : Dev → α → Dev} (h : ∀ d x, ArbStep d (f d x)) (l : List α) (s : Dev) : ArbStep s (l.foldl f s) :=
  List.foldlRecOn (motive := fun d => ArbStep s d) _ _ (refl s) fun d hd x _ => hd.trans (h d x)

end ArbStep

theorem rehint_arb (u : Nat) (s : Dev) : ArbStep s (rehint u s) := rfl

theorem unitRequest_arb (id u deadline : Nat) (s : Dev) : ArbStep s (unitRequest id u deadline s) := by
  unfold unitRequest
  exact .ite (fun _ => .refl s) fun _ => .ite (fun _ => .refl s) fun _ => rfl

theorem unitRelease_arb (id u : Nat) (s : Dev) : ArbStep s (unitRelease id u s) := by
  unfold unitRelease
  exact .ite (fun _ => rfl) fun _ => .refl s

theorem unitWithdraw_arb (id u : Nat) (s : Dev) : ArbStep s (unitWithdraw id u s) := by
  unfold unitWithdraw
  exact .ite (fun _ => rfl) fun _ => .refl s

theorem dropRequester_arb (id : Nat) (s : Dev) : ArbStep s (dropRequester id s) :=
  .foldl (fun d u => (unitRelease_arb id u d).trans (unitWithdraw_arb id u _)) _ s

theorem ledgerAsk_arb (s : Dev) : ArbStep s (ledgerAsk s) := .foldl (fun d _ => unitRequest_arb _ _ _ d) _ s

/-! ### A request entered -/

/-- Nothing held, nothing asked for: a request of a unit of Table 10.1 is entered with its deadline. -/
theorem unitRequest_entered {id u deadline : Nat} {s : Dev} (hunits : s.arb.units = []) (hunit : isUnit u = true) (hdeadline : deadline < posMod) :
    ∃ q ∈ (sharedOf (unitRequest id u deadline s) u).waiters, q.id = id ∧ q.deadline = deadline ∧ q.entry = s.now := by
  have hheld : unitsHeld s id = [] := by simp [unitsHeld, unitsNow, hunits]
  simp [unitRequest, hheld, hunit, rehint, updUnit, hunits, sharedPut, sharedOf, liveUnit, Nat.mod_eq_of_lt hdeadline]

/-- A unit that nobody holds or asks for has a hint (R301). -/
theorem hintTick_isSome_of_free {s : Dev} (hunits : s.arb.units = []) (u : Nat) (r : Request) : (hintTick s u r).isSome = true := by
  have hslots : slotsOf u = 1 ∨ slotsOf u = 32 := by
    unfold slotsOf
    split <;> simp
  obtain h | h := hslots <;> simp [hintTick, sharedOf, hunits, h, rankSort, afterAhead, takeMin]

/-! ### The queue of appends -/

theorem mem_appendInsert {a e : Append} {l : List Append} : e ∈ appendInsert a l ↔ e = a ∨ e ∈ l := by
  induction l with
  | nil => simp [appendInsert]
  | cons x t ih =>
    unfold appendInsert
    split
    · simp
    · simp only [List.mem_cons, ih]
      tauto

/-- A record caused joins the queue and asks for the ledger (R291, R303). -/
theorem causeRecord_frame (a : Append) (s : Dev) :
    causeRecord a s = { ledgerCause a s with arb := (causeRecord a s).arb } := ledgerAsk_arb (ledgerCause a s)

@[simp] theorem causeRecord_now (a : Append) (s : Dev) : (causeRecord a s).now = s.now := by rw [causeRecord_frame]; rfl
@[simp] theorem causeRecord_objs (a : Append) (s : Dev) : (causeRecord a s).objs = s.objs := by rw [causeRecord_frame]; rfl
@[simp] theorem causeRecord_chans (a : Append) (s : Dev) : (causeRecord a s).chans = s.chans := by rw [causeRecord_frame]; rfl
@[simp] theorem causeRecord_ref (a : Append) (s : Dev) : (causeRecord a s).ref = s.ref := by rw [causeRecord_frame]; rfl
@[simp] theorem causeRecord_control (a : Append) (s : Dev) : (causeRecord a s).control = s.control := by rw [causeRecord_frame]; rfl
@[simp] theorem causeRecord_ports (a : Append) (s : Dev) : (causeRecord a s).ports = s.ports := by rw [causeRecord_frame]; rfl
@[simp] theorem causeRecord_fw (a : Append) (s : Dev) : (causeRecord a s).fw = s.fw := by rw [causeRecord_frame]; rfl
@[simp] theorem causeRecord_ledger (a : Append) (s : Dev) :
    (causeRecord a s).ledger = { s.ledger with queue := appendInsert a s.ledger.queue } := by rw [causeRecord_frame]; rfl

theorem mem_causeRecord (a : Append) (s : Dev) : a ∈ (causeRecord a s).ledger.queue := by
  rw [causeRecord_ledger]
  exact mem_appendInsert.mpr (.inl rfl)

end Sys2Proof.Machine
end

section
/-! SUPPORT. The oven loop of the Reference die (09, R268, R270; Tables 9.1 and 9.12): the entry to a state and its OVEN_EVENT record. -/

namespace Sys2Proof.Machine

/-! ### Objects kept -/

theorem objsKept.refl (keys : List Nat) (s : Dev) : objsKept keys s s := fun _ _ => rfl

/-- A write of one of the objects. -/
theorem objsKept.wr {keys : List Nat} {a b : Dev} (h : objsKept keys a b) {r : Row} {places : List Nat} (hk : keyOf r places 0 ∈ keys) (v : Nat) :
    objsKept keys a (wr b r v places) := fun k hne =>
  (tabFind_wrJ_of_ne (fun e => hne (by rwa [e])) v b).trans (h k hne)

/-! ### Entry to a state -/

/-- The device has entered an oven state, from `s`: the heater, the count and the comparison (Table 9.1, Table 9.16, Table 9.5). -/
def OvenEntered (st : OvenState) (s d : Dev) : Prop :=
  d.ref.oven = st ∧ d.ref.ovenSince = s.now ∧ d.now = s.now ∧ d.chans = s.chans ∧
    rd d oOvenEvents [] = min (2 ^ 32 - 1) (rd s oOvenEvents [] + 1) ∧ objsKept [keyOf oOvenEvents [] 0, keyOf oHeaterPower [] 0] s d ∧
    rd d oHeaterPower [] = (if st = .warmup ∨ st = .regulating then rd s oHeaterPower [] else 0) ∧
    (d.ref.heater = true ↔ st = .warmup ∨ st = .regulating) ∧
    ∀ c, s.ref.comparison = some c → c.begun = true → d.ref.comparison = some { c with oven := c.oven ||| ((if st ≠ .regulating then 1 else 0) +
      (if d.ref.ovenOut = true then 2 else 0) + (if d.ref.ovenFault = true then 4 else 0)) }

/-- The heater's power as an oven state is entered: 0 where the heater goes off. -/
def heaterSet (st : OvenState) (s : Dev) : Dev := if heaterRuns st then s else wr s oHeaterPower 0 []

theorem heaterRuns_iff (st : OvenState) : heaterRuns st = true ↔ st = .warmup ∨ st = .regulating := by cases st <;> decide

theorem heaterSet_frame (st : OvenState) (s : Dev) : heaterSet st s = { s with objs := (heaterSet st s).objs } := by
  unfold heaterSet
  split <;> rfl

theorem heaterSet_kept (st : OvenState) (s : Dev) : objsKept [keyOf oOvenEvents [] 0, keyOf oHeaterPower [] 0] s (heaterSet st s) := by
  unfold heaterSet
  split
  · exact .refl _ s
  · exact (objsKept.refl _ s).wr (by simp) 0

theorem rd_heaterSet (st : OvenState) (s : Dev) :
    rd (heaterSet st s) oHeaterPower [] = if st = .warmup ∨ st = .regulating then rd s oHeaterPower [] else 0 := by
  unfold heaterSet
  rw [← if_congr (heaterRuns_iff st) rfl rfl]
  split
  · rfl
  · exact rd_wr_same ..

theorem rd_heaterSet_events (st : OvenState) (s : Dev) : rd (heaterSet st s) oOvenEvents [] = rd s oOvenEvents [] := by
  unfold heaterSet
  split
  · rfl
  · exact rd_wr_other _ _ _ _ _ _ (by decide)

/-- What a comparison sees of the oven in a state (Table 9.5). -/
def ovenWord (st : OvenState) (r : RefDie) : Nat :=
  (if st ≠ .regulating then 1 else 0) + (if r.ovenOut = true then 2 else 0) + (if r.ovenFault = true then 4 else 0)

/-- A comparison that runs has seen the oven (Table 9.5). -/
def Comparison.saw (bits : Nat) (c : Comparison) : Comparison := if c.begun then { c with oven := c.oven ||| bits } else c

/-- The Reference die in its new state. -/
def RefDie.entered (st : OvenState) (now : Nat) (r : RefDie) : RefDie :=
  { r with oven := st, heater := heaterRuns st, ovenSince := now, comparison := r.comparison.map (Comparison.saw (ovenWord st r)) }

theorem ovenEnter_eq (st : OvenState) (s : Dev) :
    ovenEnter st s = { s with ref := s.ref.entered st s.now, objs := (bump oOvenEvents [] (heaterSet st s)).objs } := by
  have hword : ovenBits { s with ref := { s.ref with oven := st, heater := heaterRuns st, ovenSince := s.now } } = ovenWord st s.ref := by
    cases st <;> cases h : s.ref.ovenOut <;> cases g : s.ref.ovenFault <;> simp [ovenBits, ovenWord, flagAt, h, g]
  unfold ovenEnter heaterSet RefDie.entered
  rw [← hword]
  cases heaterRuns st <;> rfl

/-- Entry to an oven state. -/
theorem ovenEnter_entered (st : OvenState) (s : Dev) : OvenEntered st s (ovenEnter st s) := by
  have hevents : rd (bump oOvenEvents [] (heaterSet st s)) oOvenEvents [] = min (2 ^ 32 - 1) (rd s oOvenEvents [] + 1) := by
    rw [rd_bump, rd_heaterSet_events]
    rfl
  have hpower : rd (bump oOvenEvents [] (heaterSet st s)) oHeaterPower [] = rd (heaterSet st s) oHeaterPower [] := rd_bump_of_ne (by decide) _
  rw [ovenEnter_eq]
  exact ⟨rfl, rfl, rfl, rfl, hevents, (heaterSet_kept st s).wr (by simp) _, hpower.trans (rd_heaterSet st s), heaterRuns_iff st,
    fun c hc hbegun => by simp [RefDie.entered, hc, Comparison.saw, hbegun, ovenWord]⟩

/-- Flags of the oven that are set as it enters a state do not count (Table 9.1). -/
theorem OvenEntered.of_updRef {st : OvenState} {f : RefDie → RefDie} {s d : Dev} (h : OvenEntered st (updRef f s) d)
    (hf : (f s.ref).comparison = s.ref.comparison) : OvenEntered st s d := by
  obtain ⟨hoven, hsince, hnow, hchans, hevents, hkept, hpower, hheater, hseen⟩ := h
  exact ⟨hoven, hsince, hnow, hchans, hevents, hkept, hpower, hheater, fun c hc => hseen c (hf.trans hc)⟩

/-! ### The record of a change -/

/-- The payload of an OVEN_EVENT record (Table 9.12). -/
def ovenPayload (old new : OvenState) (s : Dev) : List Byte :=
  leBytes 1 (ovenCode old) ++ leBytes 1 (ovenCode new) ++ leBytes 2 (rd s oRefDieTemp []) ++ leBytes 2 (rd s oSubstrateTemp [])

theorem refUnread_eq_false_iff (s : Dev) : refUnread s = false ↔ s.ref.linkFault = false ∧ s.control.running = true := by
  simp [refUnread]

theorem ovenRecord_of_read {old : OvenState} {s : Dev} (h : refUnread s = false) :
    ovenRecord old s = causeRecord (ownAppend 8 (ovenPayload old s.ref.oven s) 0 0xFF s) s := by
  unfold ovenRecord
  rw [h]
  rfl

theorem ovenRecord_of_unread {old : OvenState} {s : Dev} (h : refUnread s = true) : ovenRecord old s = updRef (fun r => { r with
    heldEvents := if r.heldEvents.length < 16 then r.heldEvents ++ [ovenPayload old s.ref.oven s] else r.heldEvents }) s := by
  unfold ovenRecord
  rw [h]
  rfl

/-- The record leaves the entry as it was. -/
theorem OvenEntered.recorded {st : OvenState} {s d : Dev} (h : OvenEntered st s d) (old : OvenState) : OvenEntered st s (ovenRecord old d) := by
  cases hread : refUnread d with
  | false =>
    have href : (ovenRecord old d).ref = d.ref := by rw [ovenRecord_of_read hread, causeRecord_ref]
    have hobjs : (ovenRecord old d).objs = d.objs := by rw [ovenRecord_of_read hread, causeRecord_objs]
    have hrd : ∀ r l, rd (ovenRecord old d) r l = rd d r l := fun r l => rd_of_objs _ _ _ _ hobjs
    have hnow : (ovenRecord old d).now = d.now := by rw [ovenRecord_of_read hread, causeRecord_now]
    have hchans : (ovenRecord old d).chans = d.chans := by rw [ovenRecord_of_read hread, causeRecord_chans]
    unfold OvenEntered objsKept
    rw [href, hobjs, hrd, hrd, hnow, hchans]
    exact h
  | true =>
    rw [ovenRecord_of_unread hread]
    exact h

/-- The change from `old` to `new` is recorded, or held while the Reference die cannot be read (R270). -/
def OvenReported (old new : OvenState) (s d : Dev) : Prop :=
  (s.ref.linkFault = false ∧ s.control.running = true → d.ref.heldEvents = s.ref.heldEvents ∧
    ∃ e ∈ d.ledger.queue, e.type = 8 ∧ e.payload = ovenPayload old new s ∧ e.cause = s.now) ∧
  (¬ (s.ref.linkFault = false ∧ s.control.running = true) → d.ledger = s.ledger ∧
    (s.ref.heldEvents.length < 16 → d.ref.heldEvents = s.ref.heldEvents ++ [ovenPayload old new s]))

/-- Entry to a state with its record. -/
theorem ovenRecord_reported (old st : OvenState) (s : Dev) : OvenReported old st s (ovenRecord old (ovenEnter st s)) := by
  have hunread : refUnread (ovenEnter st s) = refUnread s := by rw [ovenEnter_eq]; rfl
  have hpayload : ovenPayload old (ovenEnter st s).ref.oven (ovenEnter st s) = ovenPayload old st s := by
    obtain ⟨hoven, -, -, -, -, hkept, -⟩ := ovenEnter_entered st s
    have hdie : rd (ovenEnter st s) oRefDieTemp [] = rd s oRefDieTemp [] := rdJ_of_kept hkept (by decide)
    have hsub : rd (ovenEnter st s) oSubstrateTemp [] = rd s oSubstrateTemp [] := rdJ_of_kept hkept (by decide)
    rw [hoven, ovenPayload, hdie, hsub]
    rfl
  have hheld : (ovenEnter st s).ref.heldEvents = s.ref.heldEvents := by rw [ovenEnter_eq]; rfl
  have hledger : (ovenEnter st s).ledger = s.ledger := by rw [ovenEnter_eq]
  have hnow : (ovenEnter st s).now = s.now := by rw [ovenEnter_eq]
  refine ⟨fun h => ?_, fun h => ?_⟩
  · rw [ovenRecord_of_read (hunread.trans ((refUnread_eq_false_iff s).mpr h)), hpayload]
    exact ⟨by rw [causeRecord_ref, hheld], _, mem_causeRecord .., rfl, rfl, hnow⟩
  · have hheldBack : refUnread s = true := Bool.eq_true_of_not_eq_false (mt (refUnread_eq_false_iff s).mp h)
    rw [ovenRecord_of_unread (hunread.trans hheldBack), hpayload]
    refine ⟨hledger, fun hroom => ?_⟩
    simp [updRef, hheld, hroom]

end Sys2Proof.Machine
end

section
/-! SUPPORT. The commands of the oven, REF_TRIM (09, R267 to R269) and EXT_LEVEL (R274), and O37. -/

namespace Sys2Proof.Machine

/-! ### The oven's commands -/

section
variable {s : State}

theorem ovenRegulating_completes (hlive : Live s) (h : s.dev.ref.oven = .warmup) : Completes .ovenRegulating s
    (ovenEnter .regulating (updRef (fun r => { r with
      settled := true, ovenOut := false, warmupLong := false
      trim := trimIn (compTrim (compPoints s.dev) (rd s.dev oOvenSetpoint [] : Nat)).1
      clamped := (compTrim (compPoints s.dev) (rd s.dev oOvenSetpoint [] : Nat)).2 }) s.dev)) := by
  have hreleased : s.dev.supply.released = true := hlive
  exact completes_of_onDev rfl hlive (by simp [h, hreleased])

theorem ovenRegulating_idle (hlive : Live s) (h : s.dev.ref.oven ≠ .warmup) : Completes .ovenRegulating s s.dev :=
  completes_of_onDev rfl hlive (by simp [h])

theorem ovenWarmupLong_completes (hlive : Live s) (h : s.dev.ref.oven = .warmup) : Completes .ovenWarmupLong s
    (updRef (fun r => { r with warmupLong := true }) (advance (s.dev.ref.ovenSince + 1800000 * msTicks) s.dev)) := by
  have hreleased : s.dev.supply.released = true := hlive
  exact completes_of_onDev rfl hlive (by simp [h, hreleased])

theorem ovenWarmupLong_idle (hlive : Live s) (h : s.dev.ref.oven ≠ .warmup) : Completes .ovenWarmupLong s s.dev :=
  completes_of_onDev rfl hlive (by simp [h])

theorem ovenOutEntry_completes (hlive : Live s) (h : s.dev.ref.oven = .warmup ∨ s.dev.ref.oven = .regulating) : Completes .ovenOutEntry s
    (ovenRecord s.dev.ref.oven (ovenEnter .out (updRef (fun r => { r with ovenOut := true }) s.dev))) := by
  have hreleased : s.dev.supply.released = true := hlive
  exact completes_of_onDev rfl hlive (by simp [h, hreleased])

theorem ovenOutEntry_idle (hlive : Live s) (h : s.dev.ref.oven = .out ∨ s.dev.ref.oven = .fault) : Completes .ovenOutEntry s s.dev :=
  completes_of_onDev rfl hlive (by obtain h | h := h <;> simp [h])

theorem ovenOutExit_completes (hlive : Live s) (h : s.dev.ref.oven = .out) : Completes .ovenOutExit s
    (ovenRecord .out (ovenEnter .warmup s.dev)) := completes_of_onDev rfl hlive (by simp [h])

theorem ovenOutExit_idle (hlive : Live s) (h : s.dev.ref.oven ≠ .out) : Completes .ovenOutExit s s.dev :=
  completes_of_onDev rfl hlive (by simp [h])

theorem ovenFault_completes (hlive : Live s) (h : s.dev.ref.oven ≠ .fault) (failed : Bool) : Completes (.ovenFault failed) s
    (ovenRecord s.dev.ref.oven (ovenEnter .fault (updRef (fun r => { r with ovenFault := true, dieSensorFailed := failed }) s.dev))) := by
  have hreleased : s.dev.supply.released = true := hlive
  exact completes_of_onDev rfl hlive (by simp [h, hreleased])

theorem ovenFault_idle (hlive : Live s) (h : s.dev.ref.oven = .fault) (failed : Bool) : Completes (.ovenFault failed) s s.dev :=
  completes_of_onDev rfl hlive (by simp [h])

end

/-- Entry to a state behind flags of the oven, with its record. -/
theorem ovenChange {s : Dev} (f : RefDie → RefDie) (hcmp : (f s.ref).comparison = s.ref.comparison)
    (hheld : (f s.ref).heldEvents = s.ref.heldEvents) (hlink : (f s.ref).linkFault = s.ref.linkFault) (old st : OvenState) :
    OvenEntered st s (ovenRecord old (ovenEnter st (updRef f s))) ∧ OvenReported old st s (ovenRecord old (ovenEnter st (updRef f s))) := by
  refine ⟨((ovenEnter_entered st (updRef f s)).recorded old).of_updRef hcmp, ?_⟩
  have href : (updRef f s).ref = f s.ref := rfl
  have hreported := ovenRecord_reported old st (updRef f s)
  unfold OvenReported at hreported
  rw [href, hheld, hlink] at hreported
  exact hreported

/-- The flags and the trim of the Reference die stay as its record is caused (R270). -/
theorem ovenRecord_enter_ref (old st : OvenState) (s : Dev) : (ovenRecord old (ovenEnter st s)).ref =
    { s.ref.entered st s.now with heldEvents := (ovenRecord old (ovenEnter st s)).ref.heldEvents } := by
  cases hread : refUnread (ovenEnter st s) with
  | false => rw [ovenRecord_of_read hread, causeRecord_ref, ovenEnter_eq]
  | true => rw [ovenRecord_of_unread hread, ovenEnter_eq]; rfl

/-! ### REF_TRIM -/

/-- The sensors of the Reference die are read, 100 ms after the last time (R269). -/
def refSensed (die sub : Int) (heater : Nat) (s : Dev) : Dev :=
  let t := updRef (fun r => { r with trimAt := max s.now (s.ref.trimAt + 24576000) }) (advance (s.ref.trimAt + 24576000) s)
  wr (wr (wr t oRefDieTemp (ofSigned 16 die) []) oSubstrateTemp (ofSigned 16 sub) []) oHeaterPower (if s.ref.heater then heater else 0) []

/-- REF_TRIM moves toward the value of the table at a temperature (R269). -/
def RefDie.trimmed (t : Int × Bool) (r : RefDie) : RefDie :=
  { r with trim := trimIn (r.trim + clampInt (-50) 50 (t.1 - r.trim)), clamped := t.2 }

/-- The temperature at which the table is read: that of the substrate while the die's own sensor has failed (Table 9.1). -/
def RefDie.temperature (r : RefDie) (die sub : Int) : Int := if r.oven = .fault && r.dieSensorFailed then sub else die

theorem temperature_eq (r : RefDie) (die sub : Int) :
    r.temperature die sub = if r.oven = .fault ∧ r.dieSensorFailed = true then sub else die := by simp [RefDie.temperature]

theorem refSensed_kept (die sub : Int) (heater : Nat) (s : Dev) :
    objsKept [keyOf oRefDieTemp [] 0, keyOf oSubstrateTemp [] 0, keyOf oHeaterPower [] 0] s (refSensed die sub heater s) :=
  ((objsKept.wr (.refl _ _) (by simp) _).wr (by simp) _).wr (by simp) _

theorem rd_refSensed (die sub : Int) (heater : Nat) (s : Dev) :
    rd (refSensed die sub heater s) oRefDieTemp [] = ofSigned 16 die ∧ rd (refSensed die sub heater s) oSubstrateTemp [] = ofSigned 16 sub ∧
      rd (refSensed die sub heater s) oHeaterPower [] = if s.ref.heater = true then heater % 65536 else 0 := by
  refine ⟨?_, ?_, ?_⟩
  · exact (rd_wr_other _ _ _ _ _ _ (by decide)).trans ((rd_wr_other _ _ _ _ _ _ (by decide)).trans ((rd_wr_same ..).trans (ofSigned_mod 16 die)))
  · exact (rd_wr_other _ _ _ _ _ _ (by decide)).trans ((rd_wr_same ..).trans (ofSigned_mod 16 sub))
  · refine (rd_wr_same ..).trans ?_
    split <;> rfl

/-- The sensors touch no compensation point. -/
theorem compPoints_refSensed (die sub : Int) (heater : Nat) (s : Dev) : compPoints (refSensed die sub heater s) = compPoints s := by
  have hkept := refSensed_kept die sub heater s
  have hcount : rd (refSensed die sub heater s) oCompCount [] = rd s oCompCount [] := rdJ_of_kept hkept (by decide)
  have hpoint : ∀ j, rdJ (refSensed die sub heater s) oCompPoint [] j = rdJ s oCompPoint [] j := fun j => rdJ_of_kept hkept (by
    simp [keyOf, objKey, dimsOff, oCompPoint, oRefDieTemp, oSubstrateTemp, oHeaterPower]
    omega)
  have hloaded : (refSensed die sub heater s).ref.calLoaded = s.ref.calLoaded := rfl
  unfold compPoints
  rw [hloaded, hcount]
  simp only [hpoint]

theorem refTrimUpdate_completes {s : State} (hlive : Live s) (die sub : Int) (heater : Nat) : Completes (.refTrimUpdate die sub heater) s
    (if s.dev.ref.oven = .regulating then refSensed die sub heater s.dev
     else updRef (RefDie.trimmed (compTrim (compPoints s.dev) (s.dev.ref.temperature die sub))) (refSensed die sub heater s.dev)) := by
  rw [← compPoints_refSensed die sub heater]
  exact completes_of_onDev rfl hlive rfl

/-- One step of REF_TRIM: within its range, by at most 50, and at the table's value where that is nearer (R267, R269). -/
theorem trimIn_step {r : Int} (hlo : -5000000 ≤ r) (hhi : r ≤ 5000000) (t : Int) :
    -5000000 ≤ trimIn (r + clampInt (-50) 50 (t - r)) ∧ trimIn (r + clampInt (-50) 50 (t - r)) ≤ 5000000 ∧
      (trimIn (r + clampInt (-50) 50 (t - r)) - r).natAbs ≤ 50 ∧ (-5000000 ≤ t → t ≤ 5000000 → (trimIn (r + clampInt (-50) 50 (t - r)) = t ∨
        trimIn (r + clampInt (-50) 50 (t - r)) = r + 50 ∧ r + 50 < t ∨ trimIn (r + clampInt (-50) 50 (t - r)) = r - 50 ∧ t < r - 50)) := by
  unfold trimIn clampInt
  omega

theorem trimIn_range (i : Int) : -5000000 ≤ trimIn i ∧ trimIn i ≤ 5000000 ∧ (-5000000 ≤ i → i ≤ 5000000 → trimIn i = i) := by
  unfold trimIn clampInt
  omega

/-! ### EXT_LEVEL -/

/-- The level at REFX is measured, 100 ms after the last time (R274). -/
def extMeasured (microvolt : Int) (s : Dev) : Dev :=
  let t := wr (advance (s.ref.extAt + 24576000) s) oExtLevel (ofSigned 32 microvolt) []
  updRef (fun r => { r with extAt := t.now, extRangeErr := decide (microvolt < 9000000) || decide (10500000 < microvolt) }) t

theorem extLevelMeasurement_completes {s : State} (hlive : Live s) (microvolt : Int) : Completes (.extLevelMeasurement microvolt) s
    (if switchIn (switchPos s.dev) then extMeasured microvolt s.dev else s.dev) := completes_of_onDev rfl hlive rfl

theorem switchIn_switchPos (s : Dev) : switchIn (switchPos s) = true ↔ rd s oRefSwitch [] = 1 ∨ rd s oRefSwitch [] = 3 := by
  simp [switchIn, switchPos]

/-! ### O37 -/

/-- Settles O37: each command of the oven by the state it enters and its record, REF_TRIM by the sensors and one step of the trim. -/
theorem oven : Obligations.Oven := by
  intro s hlive r read moved reported code
  have hcode : ∀ x, code x = ovenCode x := fun x => by cases x <;> rfl
  refine ⟨fun h => ?_, fun h => ⟨ovenRegulating_idle hlive h, ovenWarmupLong_idle hlive h⟩, fun h => ?_, fun h => ?_, ovenOutEntry_idle hlive,
    fun h => ?_, ovenOutExit_idle hlive, fun failed => ⟨fun h => ovenFault_idle hlive h failed, fun h => ?_⟩, fun die sub heater => ?_,
    fun uv => ⟨fun h => ?_, fun h1 h3 => ?_⟩⟩
  · refine ⟨_, ovenRegulating_completes hlive h, (ovenEnter_entered _ _).of_updRef rfl, ?_⟩
    rw [ovenEnter_eq]
    obtain ⟨hlo, hhi, hexact⟩ := trimIn_range (compTrim (compPoints s.dev) (rd s.dev oOvenSetpoint [] : Nat)).1
    exact ⟨rfl, rfl, rfl, rfl, hlo, hhi, rfl, hexact⟩
  · exact ⟨_, ovenWarmupLong_completes hlive h, rfl, rfl, rfl, rfl⟩
  · obtain ⟨hmoved, hreported⟩ := ovenChange (s := s.dev) (fun r => { r with ovenOut := true }) rfl rfl rfl s.dev.ref.oven .out
    rw [hcode]
    refine ⟨_, ovenOutEntry_completes hlive h, hmoved, ?_, ?_, hreported⟩ <;> rw [ovenRecord_enter_ref] <;> rfl
  · obtain ⟨hmoved, hreported⟩ := ovenChange (s := s.dev) id rfl rfl rfl .out .warmup
    refine ⟨_, ovenOutExit_completes hlive h, hmoved, ?_, ?_, hreported⟩ <;> rw [ovenRecord_enter_ref] <;> rfl
  · obtain ⟨hmoved, hreported⟩ :=
      ovenChange (s := s.dev) (fun r => { r with ovenFault := true, dieSensorFailed := failed }) rfl rfl rfl s.dev.ref.oven .fault
    rw [hcode]
    refine ⟨_, ovenFault_completes hlive h failed, hmoved, ?_, ?_, ?_, hreported⟩ <;> rw [ovenRecord_enter_ref] <;> rfl
  · have hkept := refSensed_kept die sub heater s.dev
    obtain ⟨hdie, hsub, hpower⟩ := rd_refSensed die sub heater s.dev
    have hdone := refTrimUpdate_completes hlive die sub heater
    by_cases hreg : s.dev.ref.oven = .regulating
    · rw [if_pos hreg] at hdone
      exact ⟨_, hdone, rfl, rfl, rfl, rfl, rfl, hdie, hsub, hpower, rfl, hkept, fun _ => ⟨rfl, rfl⟩, fun h => absurd hreg h⟩
    · rw [if_neg hreg] at hdone
      refine ⟨_, hdone, rfl, rfl, rfl, rfl, rfl, hdie, hsub, hpower, rfl, hkept, fun h => absurd h hreg, fun _ hlo hhi => ?_⟩
      rw [← temperature_eq]
      exact ⟨rfl, trimIn_step hlo hhi _⟩
  · have hdone := extLevelMeasurement_completes hlive uv
    rw [if_pos ((switchIn_switchPos _).mpr h)] at hdone
    refine ⟨_, hdone, rfl, ?_, (objsKept.refl _ s.dev).wr (by simp) _, rfl, by simp [extMeasured, updRef]⟩
    exact (rd_wr_same ..).trans (ofSigned_mod 32 uv)
  · have hdone := extLevelMeasurement_completes hlive uv
    rwa [if_neg (fun h => ((switchIn_switchPos _).mp h).elim h1 h3)] at hdone

end Sys2Proof.Machine
end

section
/-! SUPPORT. Records appended and lost, marks, the scan and the records a device causes itself (09, R286, R289 to R292). -/

namespace Sys2Proof.Machine

/-! ### Commands that write the ledger -/

theorem withNv_eq {t : State} {dev : Dev} {nv : Nv} {l : List Instr} (h : t = ⟨dev, nv, l⟩) (nv' : Nv) : ({ t with nv := nv' } : State) = ⟨dev, nv', l⟩ := by
  subst h
  rfl

theorem onBoth_live {s : State} {f : Nv → Dev → Nv × Dev} {nv : Nv} {d : Dev} (hlive : Live s) (h : f s.nv s.dev = (nv, d)) :
    onBoth s f = .next ⟨after s.dev d, nv, s.pending⟩ := by
  unfold Live at hlive
  simp [onBoth, hlive, h]

theorem onBoth_acts {s : State} {f : Nv → Dev → Nv × Dev} {nv : Nv} {d : Dev} (hlive : Live s) (h : f s.nv s.dev = (nv, d)) :
    onBoth s f = .next { s.acts d with nv := nv } := by
  have hacts : s.acts d = ⟨after s.dev d, s.nv, s.pending⟩ := rfl
  exact (onBoth_live hlive h).trans (congrArg _ (withNv_eq hacts nv).symm)

theorem onBoth_acts_same {s : State} {f : Nv → Dev → Nv × Dev} {d : Dev} (hlive : Live s) (h : f s.nv s.dev = (s.nv, d)) :
    onBoth s f = .next (s.acts d) := onBoth_live hlive h

theorem exec_ledgerAppend {s : State} (hlive : Live s) (skips : Nat) : exec (.ledgerAppend skips) s = onBoth s (ledgerAppend skips) := if_pos hlive

theorem exec_applyMarkProgram (s : State) : exec .applyMarkProgram s = onBoth s applyMark := rfl

/-! ### The append -/

theorem ledgerAppend_idle {skips : Nat} {nv : Nv} {s : Dev} (h : programmed s = none ∨ s.ledger.scanDone = false) :
    ledgerAppend skips nv s = (nv, s) := by
  unfold ledgerAppend
  obtain h | h := h
  · rw [h]
  · split
    · rfl
    · simp [h]

/-- The ledger without the append, FULL. -/
def appendDropped (a : Append) (s : Dev) : Dev :=
  bump oLedgerLost [] (updLedger (fun l => { l with queue := l.queue.erase a, full := true }) s)

/-- A record for which there is no room (R291). -/
def appendLost (a : Append) (s : Dev) : Dev :=
  ledgerAsk (if a.slot.isNone || a.aborted.isSome then unitRelease (appendId a) 0xA0 (appendDropped a s) else appendDropped a s)

theorem appendLost_arb (a : Append) (s : Dev) : ArbStep (appendDropped a s) (appendLost a s) := by
  unfold appendLost
  exact (ArbStep.ite (fun _ => unitRelease_arb ..) fun _ => .refl _).trans (ledgerAsk_arb _)

/-- The append off the queue: what the record is made at. -/
def appendTaken (a : Append) (s : Dev) : Dev := updLedger (fun l => { l with queue := l.queue.erase a }) s

section
variable {skips : Nat} {nv : Nv} {s : Dev} {a : Append}

theorem ledgerAppend_of_full (ha : programmed s = some a) (hscan : s.ledger.scanDone = true) (hfull : ledgerFree nv < pagesOf (recordBytes a) + skips) :
    ledgerAppend skips nv s = (nv, appendLost a s) := by
  unfold ledgerAppend
  rw [ha]
  simp only [hscan, hfull, if_true]
  rfl

theorem ledgerAppend_of_room (ha : programmed s = some a) (hscan : s.ledger.scanDone = true) (hroom : pagesOf (recordBytes a) + skips ≤ ledgerFree nv) :
    ledgerAppend skips nv s = ({ nv with recs := nv.recs ++ [mkRecord nv (appendTaken a s) a], used := nv.used + (pagesOf (recordBytes a) + skips) },
      appended a (mkRecord nv (appendTaken a s) a).seq (bumpBy oLedgerSkips skips [] (appendTaken a s))) := by
  unfold ledgerAppend
  rw [ha]
  simp only [hscan, Nat.not_lt.mpr hroom, if_false, ← Nat.add_assoc]
  rfl

end

/-! ### What follows a durable record -/

/-- A durable record is known to its transaction, or its unit is free (R286). -/
def appendFreed (a : Append) (seq : Nat) (s : Dev) : Dev :=
  match a.slot, a.aborted with
  | some (p, i), none => updTxn (portOfClass p) i (fun t => { t with record := some seq }) s
  | _, _ => unitRelease (appendId a) 0xA0 s

/-- What a durable record leaves before the next one asks for the ledger: a comparison's SEQ is reported (R286). -/
def appendNoted (a : Append) (seq : Nat) (s : Dev) : Dev :=
  let s := if a.type = 2 then wr (appendFreed a seq s) oCmpLastSeq seq [] else appendFreed a seq s
  updLedger (fun l => { l with lastAt := s.now }) s

theorem appendFreed_frame (a : Append) (seq : Nat) (s : Dev) :
    appendFreed a seq s = { s with arb := (appendFreed a seq s).arb, ports := (appendFreed a seq s).ports } := by
  unfold appendFreed
  split
  · rfl
  · rw [unitRelease_arb]

theorem appendFreed_of_slot {a : Append} {p i : Nat} (hslot : a.slot = some (p, i)) (hkept : a.aborted = none) (seq : Nat) (s : Dev) :
    appendFreed a seq s = updTxn (portOfClass p) i (fun t => { t with record := some seq }) s := by
  unfold appendFreed
  rw [hslot, hkept]

section
variable (a : Append) (seq : Nat) (s : Dev)

theorem appendNoted_now : (appendNoted a seq s).now = s.now := by
  unfold appendNoted
  rw [appendFreed_frame]
  split <;> rfl

theorem appendNoted_ledger : (appendNoted a seq s).ledger = { s.ledger with lastAt := s.now } := by
  unfold appendNoted
  rw [appendFreed_frame]
  split <;> rfl

theorem appendNoted_ports : (appendNoted a seq s).ports = (appendFreed a seq s).ports := by
  unfold appendNoted
  split <;> rfl

theorem rd_appendNoted_cmp (h : a.type = 2) : rd (appendNoted a seq s) oCmpLastSeq [] = seq % 2 ^ 32 := by
  unfold appendNoted
  rw [if_pos h]
  exact rd_wr_same ..

theorem rd_appendNoted_of_ne {r : Row} {places : List Nat} (h : keyOf r places 0 ≠ keyOf oCmpLastSeq [] 0) :
    rd (appendNoted a seq s) r places = rd s r places := by
  unfold appendNoted
  rw [appendFreed_frame]
  split
  · exact rd_wr_other _ _ _ _ _ _ h
  · rfl

theorem appended_of_kept (h : a.aborted = none) : appended a seq s = ledgerAsk (appendNoted a seq s) := by
  unfold appended appendNoted appendFreed
  rw [h] <;> rfl

theorem appended_of_aborted {c : Nat} (h : a.aborted = some c) : appended a seq s =
    causeRecord (ownAppend 6 (abortPayload seq c) 0 0xFF (appendNoted a seq s)) (appendNoted a seq s) := by
  unfold appended appendNoted appendFreed
  rw [h] <;> rfl

/-- The next record asks, or an ABORT is caused: the objects, the ports and the time are those of the durable record. -/
theorem appended_frame : appended a seq s =
    { appendNoted a seq s with ledger := { (appendNoted a seq s).ledger with queue := (appended a seq s).ledger.queue }, arb := (appended a seq s).arb } := by
  cases h : a.aborted with
  | none =>
    rw [appended_of_kept a seq s h, ledgerAsk_arb]
  | some c =>
    rw [appended_of_aborted a seq s h, causeRecord_frame]
    rfl

theorem appended_now : (appended a seq s).now = s.now := by rw [appended_frame, ← appendNoted_now a seq s]

theorem appended_lastAt : (appended a seq s).ledger.lastAt = s.now := by
  rw [appended_frame, appendNoted_ledger]

theorem rd_appended (r : Row) (places : List Nat) : rd (appended a seq s) r places = rd (appendNoted a seq s) r places := by
  rw [appended_frame]
  rfl

theorem appended_ports : (appended a seq s).ports = (appendFreed a seq s).ports := by
  rw [appended_frame]
  exact appendNoted_ports a seq s

theorem appended_queue_of_kept (h : a.aborted = none) : (appended a seq s).ledger.queue = s.ledger.queue := by
  rw [appended_of_kept a seq s h, ledgerAsk_arb]
  show (appendNoted a seq s).ledger.queue = s.ledger.queue
  rw [appendNoted_ledger]

end

theorem portAt_idx : ∀ c : Fin 5, (portAt c.val).idx = portOfClass c.val := by decide

/-- A slot rewritten, as its port reads it. -/
theorem portTxn_updTxn {port i : Nat} (hport : port < 5) (hlow : 1 ≤ i) (hhigh : i ≤ 16) (f : Txn → Txn) {s d : Dev}
    (hd : d.ports = (updTxn (portOfClass port) i f s).ports) : portTxn d (portAt port) i = f (txnOf s (portOfClass port) i) := by
  have hidx : (portAt port).idx = portOfClass port := portAt_idx ⟨port, hport⟩
  have hslot : i - 1 < 16 := by omega
  have hi : i - 1 + 1 = i := by omega
  unfold portTxn txnOf
  rw [hidx, hd]
  simp [updTxn, hslot, hi]

theorem mkRecord_seq_lt (nv : Nv) (s : Dev) (a : Append) : (mkRecord nv s a).seq < 2 ^ 32 := Nat.mod_lt _ (Nat.two_pow_pos 32)

theorem rd_bumpBy_word {r : Row} (hr : r.size = 4) (k : Nat) (l : List Nat) (s : Dev) : rd (bumpBy r k l s) r l = min (2 ^ 32 - 1) (rd s r l + k) := by
  unfold bumpBy
  rw [rd_wr_same, countUp_eq_min, hr]
  exact Nat.mod_eq_of_lt (by omega)

/-! ### Marks -/

theorem applyMark_nil {nv : Nv} {s : Dev} (h : s.ledger.marks = []) : applyMark nv s = (nv, s) := by
  unfold applyMark
  rw [h]

/-- A record whose mark is programmed if it is the one of SEQ `seq`. -/
def markProgrammed (seq : Nat) (r : LRecord) : LRecord := if r.seq = seq && r.mark = 0xFF then { r with mark := 0 } else r

theorem markProgrammed_unmarked (seq : Nat) (r : LRecord) : (markProgrammed seq r).unmarked = r.unmarked := by
  unfold markProgrammed
  split <;> rfl

theorem markProgrammed_mark (seq : Nat) (r : LRecord) : (markProgrammed seq r).mark = if r.seq = seq ∧ r.mark = 0xFF then 0 else r.mark := by
  unfold markProgrammed
  rw [← Bool.decide_and]
  by_cases h : r.seq = seq ∧ r.mark = 0xFF <;> simp [h]

theorem applyMark_cons {nv : Nv} {s : Dev} {e : Nat × Nat} {t : List (Nat × Nat)} (h : s.ledger.marks = e :: t) :
    applyMark nv s = ({ nv with recs := nv.recs.map (markProgrammed e.1) }, updLedger (fun l => { l with marks := t, lastApplied := true }) s) := by
  unfold applyMark
  rw [h]
  rfl

/-! ### Records the device causes itself -/

/-- From `s` to `t` records have been caused and asked for the ledger, and nothing else has changed. -/
def CauseStep (s t : Dev) : Prop :=
  t = { s with ledger := { s.ledger with queue := t.ledger.queue }, arb := t.arb } ∧ s.ledger.queue ⊆ t.ledger.queue

namespace CauseStep

variable {s t u : Dev}

theorem refl (s : Dev) : CauseStep s s := ⟨rfl, List.Subset.refl _⟩

theorem trans (h : CauseStep s t) (g : CauseStep t u) : CauseStep s u := by
  obtain ⟨ht, hst⟩ := h
  obtain ⟨hu, htu⟩ := g
  refine ⟨?_, fun _ he => htu (hst he)⟩
  rw [hu, ht]

theorem ofArb (h : ArbStep s t) : CauseStep s t := by
  unfold ArbStep at h
  rw [h]
  exact ⟨rfl, List.Subset.refl _⟩

theorem causeRecord (a : Append) (s : Dev) : CauseStep s (Machine.causeRecord a s) := by
  refine ⟨?_, fun e he => ?_⟩
  · rw [causeRecord_frame]
    rfl
  · rw [causeRecord_ledger]
    exact mem_appendInsert.mpr (.inr he)

theorem now (h : CauseStep s t) : t.now = s.now := by rw [h.1]
theorem objs (h : CauseStep s t) : t.objs = s.objs := by rw [h.1]
theorem control (h : CauseStep s t) : t.control = s.control := by rw [h.1]
theorem ledger (h : CauseStep s t) : t.ledger = { s.ledger with queue := t.ledger.queue } := congrArg Dev.ledger h.1
theorem scanDone (h : CauseStep s t) : t.ledger.scanDone = s.ledger.scanDone := by rw [h.ledger]

end CauseStep

/-- A record of the device's own waits, caused at the present tick. -/
def Caused (d : Dev) (type : Nat) (payload : List Byte) : Prop := ∃ e ∈ d.ledger.queue, e.type = type ∧ e.payload = payload ∧ e.cause = d.now

theorem caused_causeRecord (type : Nat) (payload : List Byte) (effect origin : Nat) (s : Dev) :
    Caused (causeRecord (ownAppend type payload effect origin s) s) type payload := ⟨_, mem_causeRecord _ s, rfl, rfl, (causeRecord_now ..).symm⟩

theorem Caused.mono {s t : Dev} {type : Nat} {payload : List Byte} (h : Caused s type payload) (hstep : CauseStep s t) : Caused t type payload := by
  obtain ⟨e, he, htype, hpayload, hcause⟩ := h
  exact ⟨e, hstep.2 he, htype, hpayload, hcause.trans hstep.now.symm⟩

/-! ### The scan -/

/-- The ledger as the scan leaves it. -/
def scanned (torn : Bool) (broken : Option Nat) (s : Dev) : Dev :=
  updLedger (fun l => { l with torn := torn, broken := broken, scanDone := true, program := none }) s

/-- A NOTICE of the scan (Table 9.12). -/
def scanNotice (offset cause : Nat) (s : Dev) : Dev := causeRecord (ownAppend 10 (leBytes 4 offset ++ leBytes 4 cause) 0 0xFF s) s

/-- TORN is reported (R292). -/
def tornNoted (torn : Bool) (s : Dev) : Dev := if torn then scanNotice (Config.noticeOffset 0) 1 s else s

/-- BROKEN is reported (R292). -/
def breakNoted (broken : Option Nat) (s : Dev) : Dev :=
  match broken with
  | some b => scanNotice (Config.noticeOffset (b + 1)) 2 s
  | none => s

theorem tornNoted_step (torn : Bool) (s : Dev) : CauseStep s (tornNoted torn s) := by
  cases torn with
  | false => exact .refl s
  | true => exact .causeRecord _ s

theorem breakNoted_step (broken : Option Nat) (s : Dev) : CauseStep s (breakNoted broken s) := by
  cases broken with
  | none => exact .refl s
  | some b => exact .causeRecord _ s

/-- What the scan reports, before the START records that wait. -/
def scanReported (torn : Bool) (broken : Option Nat) (s : Dev) : Dev := ledgerAsk (breakNoted broken (tornNoted torn (scanned torn broken s)))

section
variable {torn : Bool} {broken : Option Nat} {s : Dev}

theorem breakNoted_reported : CauseStep (breakNoted broken (tornNoted torn (scanned torn broken s))) (scanReported torn broken s) := .ofArb (ledgerAsk_arb _)

theorem scanReported_step : CauseStep (scanned torn broken s) (scanReported torn broken s) :=
  ((tornNoted_step torn _).trans (breakNoted_step broken _)).trans breakNoted_reported

theorem scanReported_torn (h : torn = true) : Caused (scanReported torn broken s) 10 (leBytes 4 (Config.noticeOffset 0) ++ leBytes 4 1) := by
  subst h
  exact (caused_causeRecord ..).mono ((breakNoted_step broken _).trans breakNoted_reported)

theorem scanReported_broken {b : Nat} (h : broken = some b) :
    Caused (scanReported torn broken s) 10 (leBytes 4 (Config.noticeOffset (b + 1)) ++ leBytes 4 2) := by
  subst h
  exact (caused_causeRecord ..).mono breakNoted_reported

theorem scanReported_quiet (htorn : torn = false) (hbroken : broken = none) : (scanReported torn broken s).ledger.queue = s.ledger.queue := by
  subst htorn hbroken
  show (ledgerAsk _).ledger.queue = _
  rw [ledgerAsk_arb]
  rfl

end

/-- The START records of a list, caused once the scan is done. -/
theorem startRecords_caused (l : List Nat) {s : Dev} (h : s.ledger.scanDone = true) :
    CauseStep s (l.foldl (fun d c => startRecord c d) s) ∧ ∀ c ∈ l, Caused (l.foldl (fun d c => startRecord c d) s) 7 (leBytes 8 c) := by
  induction l generalizing s with
  | nil => exact ⟨.refl s, nofun⟩
  | cons c l ih =>
    have hstart : startRecord c s = causeRecord (ownAppend 7 (startPayload c) 0 0xFF s) s := if_pos h
    have hstep : CauseStep s (startRecord c s) := by
      rw [hstart]
      exact .causeRecord _ s
    obtain ⟨hrest, hcaused⟩ := ih (hstep.scanDone.trans h)
    refine ⟨hstep.trans hrest, fun e he => ?_⟩
    obtain rfl | he := List.mem_cons.mp he
    · refine Caused.mono ?_ hrest
      rw [hstart]
      exact caused_causeRecord ..
    · exact hcaused e he

/-- What the scan reports, with no START record left to wait. -/
def scanSettled (torn : Bool) (broken : Option Nat) (s : Dev) : Dev :=
  { scanReported torn broken s with control := { s.control with starts := [] } }

/-- The device as the scan ends. -/
def scanEnded (torn : Bool) (broken : Option Nat) (s : Dev) : Dev := startsFollow (scanReported torn broken s)

theorem ledgerScanComplete_done {s : State} (hlive : Live s) (torn : Bool) (broken : Option Nat) (h : s.dev.ledger.scanDone = true) :
    Completes (.ledgerScanComplete torn broken) s s.dev :=
  completes_of_onDev rfl hlive (congrArg Host.Outcome.next (if_pos (by simp [h])))

theorem ledgerScanComplete_ends {s : State} (hlive : Live s) (torn : Bool) (broken : Option Nat) (h : s.dev.ledger.scanDone = false) :
    Completes (.ledgerScanComplete torn broken) s (scanEnded (torn || s.dev.ledger.program.isSome)
      (earlierBreak broken (scanBreak Config.provAuthKey Config.shippedHash s.nv.recs)) s.dev) := by
  unfold Live at hlive
  refine completes_of_onDev rfl hlive (congrArg Host.Outcome.next ?_)
  rw [if_neg (by simp [hlive, h])]
  rfl

section
variable {torn : Bool} {broken : Option Nat} {s : Dev}

/-- The START records that wait follow, and none waits any longer. -/
theorem scanEnded_step : CauseStep (scanSettled torn broken s) (scanEnded torn broken s) ∧
    ∀ c ∈ s.control.starts, Caused (scanEnded torn broken s) 7 (leBytes 8 c) := by
  have hstep := scanReported_step (torn := torn) (broken := broken) (s := s)
  have hcontrol : (scanReported torn broken s).control = s.control := hstep.control
  have hfold : scanEnded torn broken s =
      s.control.starts.foldl (fun d c => startRecord c d) (scanSettled torn broken s) := by
    unfold scanEnded startsFollow scanSettled
    rw [hcontrol]
  rw [hfold]
  exact startRecords_caused _ hstep.scanDone

theorem scanEnded_ledger : (scanEnded torn broken s).ledger = { (scanned torn broken s).ledger with queue := (scanEnded torn broken s).ledger.queue } := by
  have hreported : (scanSettled torn broken s).ledger = { (scanned torn broken s).ledger with queue := (scanSettled torn broken s).ledger.queue } :=
    scanReported_step.ledger
  exact scanEnded_step.1.ledger.trans (by rw [hreported])

theorem scanEnded_control : (scanEnded torn broken s).control = { s.control with starts := [] } := scanEnded_step.1.control
theorem scanEnded_objs : (scanEnded torn broken s).objs = s.objs := scanEnded_step.1.objs.trans scanReported_step.objs
theorem scanEnded_now : (scanEnded torn broken s).now = s.now := scanEnded_step.1.now.trans scanReported_step.now

theorem Caused.scanEnded {type : Nat} {payload : List Byte} (h : Caused (scanReported torn broken s) type payload) :
    Caused (Machine.scanEnded torn broken s) type payload := by
  have hsettled : Caused (scanSettled torn broken s) type payload := h
  exact hsettled.mono scanEnded_step.1

theorem scanEnded_quiet (htorn : torn = false) (hbroken : broken = none) (hstarts : s.control.starts = []) :
    (Machine.scanEnded torn broken s).ledger.queue = s.ledger.queue := by
  have hcontrol : (scanReported torn broken s).control = s.control := scanReported_step.control
  unfold Machine.scanEnded startsFollow
  rw [hcontrol, hstarts]
  exact scanReported_quiet htorn hbroken

end

/-! ### Chain and signatures -/

theorem scanBreak_cons_bad {key hash : Nat} {q : LRecord} {t : List LRecord} (h : q.prevHash ≠ hash ∨ signatureBad key q = true) :
    scanBreak key hash (q :: t) = some q.seq := if_pos (by simpa using h)

theorem scanBreak_cons_good {key hash : Nat} {q : LRecord} {t : List LRecord} (hprev : q.prevHash = hash) (hsig : signatureBad key q = false) :
    scanBreak key hash (q :: t) = scanBreak (if q.type = 5 ∧ q.mark = 0 then ofBytes (q.payload.take 57) else key) (recordHash q) t := by
  rw [scanBreak, if_neg (by simp [hprev, hsig])]
  simp only [← Bool.decide_and, decide_eq_true_eq]

theorem signatureBad_iff (key : Nat) (q : LRecord) : signatureBad key q = true ↔ q.mark = 0 ∧ (q.type = 1 ∨ q.type = 5 ∧ q.flags = 1) ∧
    Config.edVerify key (statementBytes q.type q.payload q.authSeq q.utc) q.authSig = false := by
  simp [signatureBad, and_assoc]

/-! ### CHECKPOINT -/

/-- The tick at which a checkpoint is due, and its record caused (R291). -/
def checkpointed (s : Dev) : Dev :=
  let t := advance (s.ledger.lastAt + 86400000 * msTicks) s
  causeRecord (ownAppend 9 [] 0 0xFF t) t

theorem checkpoint_idle {s : State} (hlive : Live s) (h : s.dev.ledger.queue ≠ [] ∨ s.dev.ledger.scanDone = false) : Completes .checkpoint s s.dev := by
  refine completes_of_onDev rfl hlive (congrArg Host.Outcome.next (if_neg ?_))
  obtain h | h := h <;> simp [h]

theorem checkpoint_causes {s : State} (hlive : Live s) (hqueue : s.dev.ledger.queue = []) (hscan : s.dev.ledger.scanDone = true) :
    Completes .checkpoint s (checkpointed s.dev) := completes_of_onDev rfl hlive (congrArg Host.Outcome.next (if_pos (by simp [hqueue, hscan])))

theorem checkpointed_now (s : Dev) : (checkpointed s).now = max s.now (s.ledger.lastAt + 21233664000000) := causeRecord_now ..

/-! ### BASELINE_REQ -/

theorem plainRow_baselineReq : PlainRow oBaselineReq := ⟨by decide, by decide, rfl⟩

theorem reached_baselineReq (s : Dev) : reached s (oBaselineReq.ix + dimsOff oBaselineReq.dims []) := reached_of_objDie_zero s (by decide)

theorem directWrite_baselineReq (p : Port) (data : List Byte) (nv : Nv) (s : Dev) :
    directWrite p oBaselineReq (oBaselineReq.ix + dimsOff oBaselineReq.dims []) oBaselineReq.sub data nv s = baselineReq p data nv s := rfl

/-- The append of a baseline that a port asks for. -/
def baselineAppend (p : Port) (label : List Byte) (nv : Nv) (s : Dev) : Append := ownAppend 4 (baselinePayload nv s label) (ctlPos s) p.idx s

/-- Nothing held, nothing asked for: the unit of the ledger has a hint, and the baseline is caused (R320). -/
theorem baselineReq_of_free {s : Dev} (hunits : s.arb.units = []) (p : Port) (label : List Byte) (nv : Nv) :
    baselineReq p label nv s = (.ok, causeRecord (baselineAppend p label nv s) s) := by
  refine if_neg ?_
  simp only [List.any_cons, List.any_nil, Bool.or_false, Option.isNone_iff_eq_none]
  exact Option.isSome_iff_ne_none.mp (hintTick_isSome_of_free hunits _ _)

theorem baselineReq_completes {s : State} {p : Port} (label : BitVec 128) (hserved : Served s p oBaselineReq) (hunits : s.dev.arb.units = []) :
    Completes (.baselineReq p label) s (done p (causeRecord (baselineAppend p (leBytes 16 label.toNat) s.nv s.dev) s.dev)) :=
  plainRow_baselineReq.rowRequest hserved rowOf_baselineReq (length_leBytes _ _) (reached_baselineReq _).1 (reached_baselineReq _).2 rfl
    ((directWrite_baselineReq p _ _ _).trans (baselineReq_of_free hunits p _ _)) (congrArg Firmware.held (causeRecord_fw _ _))

/-- The payload of a CONFIG_BASELINE: its label, a hash of the device's objects and 24 of the channels' (Table 9.12). -/
theorem baselinePayload_shape (nv : Nv) (s : Dev) {label : List Byte} (hlabel : label.length = 16) :
    (baselinePayload nv s label).length = 1616 ∧ (baselinePayload nv s label).take 16 = label := by
  have hhashes (f : Nat → Nat) : ((List.range 24).flatMap fun n => leBytes 64 (f n)).length = 1536 := by
    simp [List.length_flatMap, length_leBytes]
  unfold baselinePayload
  constructor
  · simp [hlabel, length_leBytes, hhashes]
  · rw [List.append_assoc, ← hlabel, List.take_left']
    rfl

/-! ### O40 -/

/-- Settles O40, by what each command leaves of the ledger: the append without and with room, the mark, the checkpoint, the scan and the baseline. -/
theorem ledgerAppends : Obligations.LedgerAppends := by
  intro s hlive
  refine ⟨fun skips => ⟨fun hidle => ?_, fun a ha hscan => ⟨fun hfull => ?_, fun hroom => ?_⟩⟩, fun hmarks => ?_, fun e t hmarks => ?_,
    checkpoint_idle hlive, fun hqueue hscan => ?_, fun torn broken => ⟨ledgerScanComplete_done hlive torn broken, fun hscan => ?_⟩,
    fun _ _ => rfl, fun key hash q t => ⟨scanBreak_cons_bad, scanBreak_cons_good⟩, signatureBad_iff, fun p label hserved hunits => ?_⟩
  · exact (exec_ledgerAppend hlive skips).trans (onBoth_acts_same hlive (ledgerAppend_idle hidle))
  · have hlost := appendLost_arb a s.dev
    unfold ArbStep at hlost
    refine ⟨appendLost a s.dev, (exec_ledgerAppend hlive skips).trans (onBoth_acts_same hlive (ledgerAppend_of_full ha hscan hfull)), ?_⟩
    rw [hlost]
    exact ⟨rfl, rfl, rd_bump_word rfl _ _⟩
  · have hwrite := ledgerAppend_of_room ha hscan hroom
    refine ⟨_, mkRecord s.nv (appendTaken a s.dev) a, (exec_ledgerAppend hlive skips).trans (onBoth_acts hlive hwrite), rfl, rfl, rfl, rfl, rfl, rfl,
      rfl, rfl, rfl, rfl, rfl, appended_now .., appended_lastAt .., ?_, fun hkept => ?_, fun c hc => ?_, fun htype => ?_,
      fun port i hslot hkept hport hlow hhigh => ?_⟩
    · rw [rd_appended, rd_appendNoted_of_ne _ _ _ (by decide), rd_bumpBy_word rfl]
      rfl
    · exact appended_queue_of_kept _ _ _ hkept
    · rw [appended_of_aborted _ _ _ hc]
      exact caused_causeRecord ..
    · rw [rd_appended, rd_appendNoted_cmp _ _ _ htype]
      exact Nat.mod_eq_of_lt (mkRecord_seq_lt ..)
    · have hports := (appended_ports a (mkRecord s.nv (appendTaken a s.dev) a).seq (bumpBy oLedgerSkips skips [] (appendTaken a s.dev))).trans
        (congrArg Dev.ports (appendFreed_of_slot hslot hkept _ _))
      rw [portTxn_updTxn hport hlow hhigh _ hports]
  · exact (exec_applyMarkProgram s).trans (onBoth_acts_same hlive (applyMark_nil hmarks))
  · refine ⟨s.nv.recs.map (markProgrammed e.1), (exec_applyMarkProgram s).trans (onBoth_acts hlive (applyMark_cons hmarks)), List.length_map .., ?_, ?_⟩
    · simp [markProgrammed_unmarked]
    · intro i a b ha hb
      rw [List.getElem?_map, ha] at hb
      obtain rfl := Option.some.inj hb
      exact markProgrammed_mark e.1 a
  · exact ⟨checkpointed s.dev, checkpoint_causes hlive hqueue hscan, checkpointed_now s.dev, caused_causeRecord .., causeRecord_objs .., causeRecord_chans ..⟩
  · refine ⟨_, ledgerScanComplete_ends hlive torn broken hscan, ?_, ?_, ?_, ?_, scanEnded_objs, scanEnded_now, fun htorn => ?_, fun hfound => ?_, ?_,
      scanEnded_control, scanEnded_quiet⟩
    · rw [scanEnded_ledger]
      rfl
    · rw [scanEnded_ledger]
      rfl
    · rw [scanEnded_ledger]
      rfl
    · rw [scanEnded_ledger]
      rfl
    · exact ⟨_, (scanReported_torn htorn).scanEnded⟩
    · obtain ⟨b, hb⟩ := Option.isSome_iff_exists.mp hfound
      exact ⟨_, (scanReported_broken hb).scanEnded⟩
    · exact scanEnded_step.2
  · obtain ⟨hlen, htake⟩ := baselinePayload_shape s.nv s.dev (length_leBytes 16 label.toNat)
    exact ⟨_, baselineAppend p (leBytes 16 label.toNat) s.nv s.dev, baselineReq_completes label hserved hunits, mem_causeRecord _ _, rfl, rfl, rfl, hlen, htake,
      causeRecord_objs .., causeRecord_chans ..⟩

end Sys2Proof.Machine
end

section
/-! SUPPORT. SRC_SELFCAL and the results of its modes (09, R281; Table 9.8). -/

namespace Sys2Proof.Machine

/-! ### The request -/

theorem plainRow_srcSelfcal : PlainRow oSrcSelfcal := ⟨by decide, by decide, rfl⟩

theorem ofChan_srcSelfcal (n : Ch) : ofChan n (oSrcSelfcal.ix + dimsOff oSrcSelfcal.dims [n.val]) := ofChan_of_lt n (o := 0xC3) (by decide)

theorem ofBytes_byte (v : BitVec 8) : ofBytes (leBytes 1 v.toNat) = v.toNat := (ofBytes_leBytes 1 _).trans (Nat.mod_eq_of_lt v.isLt)

theorem directWrite_srcSelfcal (p : Port) (n : Ch) (v : BitVec 8) (nv : Nv) (s : Dev) :
    directWrite p oSrcSelfcal (oSrcSelfcal.ix + dimsOff oSrcSelfcal.dims [n.val]) oSrcSelfcal.sub (leBytes 1 v.toNat) nv s =
      srcSelfcal p n v.toNat s := by
  rw [directWrite_of_ofChan (ofChan_srcSelfcal n) (ownedCheck_of_not_arrayRow (not_arrayRow_of (o := 0xC3) (by decide))), ofBytes_byte]
  exact congrArg (fun m => srcSelfcal p m v.toNat s) (chOf_of_ofChan (ofChan_srcSelfcal n))

theorem limitCheck_srcSelfcal {v : BitVec 8} (hv : v.toNat < 4) : limitCheck oSrcSelfcal (ofBytes (leBytes 1 v.toNat)) = .ok := by
  have hlt : v.toNat < 2 ^ 2 := hv
  rw [ofBytes_byte]
  change (if v.toNat &&& 2 ^ 2 * 63 ≠ 0 then Verdict.reserved else .ok) = .ok
  rw [and_high_eq_zero 63 hlt, if_neg (by decide)]

section
variable {s : State} {p : Port} {n : Ch} {v : BitVec 8} (hserved : Served s p oSrcSelfcal) (hup : LinkUp s n.die) (hv : v.toNat < 4)
include hserved hup hv

theorem srcSelfcal_completes {t : Dev} (hok : srcSelfcal p n v.toNat s.dev = (.ok, t)) (hfw : t.fw = s.dev.fw) : Completes (.srcSelfcal p n v) s (done p t) :=
  have hreached := reached_of_ofChan (ofChan_srcSelfcal n) hup
  plainRow_srcSelfcal.rowRequest hserved (rowOf_srcSelfcal n) (length_leBytes _ _) hreached.1 hreached.2 (limitCheck_srcSelfcal hv)
    ((directWrite_srcSelfcal p n v _ _).trans hok) (congrArg Firmware.held hfw)

theorem srcSelfcal_refused {code : Nat} (hbad : srcSelfcal p n v.toNat s.dev = (.abort code, s.dev)) :
    Completes (.srcSelfcal p n v) s (setAnswer p (.refused code) s.dev) :=
  plainRow_srcSelfcal.rowRequest_refused hserved (rowOf_srcSelfcal n) (length_leBytes _ _) (reached_of_ofChan (ofChan_srcSelfcal n) hup)
    (limitCheck_srcSelfcal hv) ((directWrite_srcSelfcal p n v _ _).trans hbad)

end

/-- The source is sequenced or the voltage array has no spare (R281). -/
def SelfcalBarred (n : Ch) (s : Dev) : Prop := ((s.ch n).src.st ≠ .off ∧ (s.ch n).src.st ≠ .tripped) ∨ noSpare (s.ch n).vm = true

theorem sequenced_iff (s : Dev) (n : Ch) : sequenced s n = true ↔ (s.ch n).src.st ≠ .off ∧ (s.ch n).src.st ≠ .tripped := by
  unfold sequenced
  split <;> simp_all

theorem srcSelfcal_of_barred {n : Ch} {s : Dev} (h : SelfcalBarred n s) (p : Port) (v : Nat) : srcSelfcal p n v s = (.abort 0x0F100096, s) := by
  have hbad : (sequenced s n || noSpare (s.ch n).vm) = true := by rwa [Bool.or_eq_true, sequenced_iff]
  unfold srcSelfcal
  rw [hbad]
  rfl

/-- The hint of the verify path for a run that a port asks for. -/
def selfcalHint (p : Port) (n : Ch) (s : Dev) : Option Nat :=
  hintTick s (pathUnit n .vm) (wouldRequest s (selfcalId n) (deadlineIn s (dlOffset s p.idx)))

theorem srcSelfcal_of_free {n : Ch} {s : Dev} {p : Port} (h : ¬ SelfcalBarred n s) (hhint : (selfcalHint p n s).isSome = true) (v : Nat) :
    srcSelfcal p n v s = (.ok, selfcalStart n p v s) := by
  have hgood : (sequenced s n || noSpare (s.ch n).vm) = false := by
    rw [← Bool.not_eq_true, Bool.or_eq_true, sequenced_iff]
    exact h
  have hsome : (hintTick s (pathUnit n .vm) (wouldRequest s (selfcalId n) (deadlineIn s (dlOffset s p.idx)))).isNone = false := by
    rw [← Option.not_isSome]
    exact congrArg not hhint
  simp [srcSelfcal, hgood, refuseIf, actHint, hsome]

/-! ### The start -/

/-- The modes asked for, marked. -/
def selfcalAsked (v : Nat) (x : Selfcal) : Selfcal :=
  ⟨x.voltage || bitOf v 0, x.current || bitOf v 1, true, x.modes + (flagAt (bitOf v 0 && !x.voltage) 0 + flagAt (bitOf v 1 && !x.current) 0)⟩

theorem selfcalAsked_modes (v : Nat) (x : Selfcal) : selfcalAsked v x = ⟨x.voltage || bitOf v 0, x.current || bitOf v 1, true,
    x.modes + (if bitOf v 0 = true ∧ x.voltage = false then 1 else 0) + if bitOf v 1 = true ∧ x.current = false then 1 else 0⟩ := by
  simp only [selfcalAsked, flagAt, Bool.and_eq_true, Bool.not_eq_true', pow_zero, Nat.add_assoc]

theorem selfcalStart_none {n : Ch} {p : Port} {s : Dev} : selfcalStart n p 0 s = s := rfl

theorem selfcalStart_asks {v : Nat} (h : v % 4 ≠ 0) (n : Ch) (p : Port) (s : Dev) : selfcalStart n p v s =
    unitRequest (selfcalId n) (pathUnit n .vm) (deadlineIn s (dlOffset s p.idx)) (updSelfcal n (selfcalAsked v) s) := by
  unfold selfcalStart
  rw [if_neg h]
  rfl

theorem isUnit_pathUnit : ∀ n : Ch, isUnit (pathUnit n .vm) = true := by decide

/-! ### The result of a mode -/

/-- What a result shows: the failure bits and the trims of the two modes. -/
def selfcalRows : List Row := [oSelfcalStatus, oTrimVOffset, oTrimVGain, oTrimIOffset, oTrimIGain]

/-- The trims of a mode that its result replaces. -/
def trimsOf (current : Bool) : Row × Row := if current then (oTrimIOffset, oTrimIGain) else (oTrimVOffset, oTrimVGain)

/-- A result lies within the limits of Table 4.8. -/
def SelfcalGood (offset gain : Int) : Prop := 1000000 * offset.natAbs ≤ 50 * 2 ^ 38 ∧ 1000 * gain.natAbs ≤ 2 ^ 39

theorem within_iff (offset gain : Int) : (offsetWithin offset && gainWithin gain) = true ↔ SelfcalGood offset gain := by
  simp [offsetWithin, gainWithin, SelfcalGood]

theorem selfcalResult_of_good {offset gain : Int} (h : SelfcalGood offset gain) (n : Ch) (current : Bool) (s : Dev) :
    selfcalResult n current offset gain s = wr (wr (wr s oSelfcalStatus (clearBit (rd s oSelfcalStatus [n]) (if current then 2 else 1)) [n])
      (trimsOf current).1 (ofSigned 40 offset) [n]) (trimsOf current).2 (ofSigned 40 gain) [n] := by
  unfold selfcalResult
  rw [if_pos ((within_iff offset gain).mpr h)]
  cases current <;> rfl

theorem selfcalResult_of_bad {offset gain : Int} (h : ¬ SelfcalGood offset gain) (n : Ch) (current : Bool) (s : Dev) :
    selfcalResult n current offset gain s = wr s oSelfcalStatus (setBit (rd s oSelfcalStatus [n]) (if current then 2 else 1)) [n] :=
  if_neg fun hwithin => h ((within_iff offset gain).mp hwithin)

theorem selfcalResult_frame (n : Ch) (current : Bool) (offset gain : Int) (s : Dev) :
    selfcalResult n current offset gain s = { s with objs := (selfcalResult n current offset gain s).objs } := by
  by_cases h : SelfcalGood offset gain
  · rw [selfcalResult_of_good h]
    rfl
  · rw [selfcalResult_of_bad h]
    rfl

/-- Two objects of a channel with different subindices of C(n)+0xC3 do not share a key. -/
theorem rd_wr_selfcal {q r : Row} (hq : q.dims = [(0x100, 24)]) (hr : r.dims = [(0x100, 24)]) (h : objKey q.ix q.sub 0 ≠ objKey r.ix r.sub 0) (n : Ch) (s : Dev)
    (v : Nat) : rd (wr s r v [n]) q [n] = rd s q [n] := rd_wr_other _ _ _ _ _ _ (keyOf_chan_ne hq hr h n)

/-- What SELFCAL_STATUS and the trims of a channel show of the result of a mode (R281). -/
def ResultShown (n : Ch) (current : Bool) (offset gain : Int) (s d : Dev) : Prop :=
  (SelfcalGood offset gain → rd d oSelfcalStatus [n] = clearBit (rd s oSelfcalStatus [n]) (if current then 2 else 1) % 2 ^ 8 ∧
    rd d (trimsOf current).1 [n] = ofSigned 40 offset ∧ rd d (trimsOf current).2 [n] = ofSigned 40 gain ∧
    rd d (trimsOf !current).1 [n] = rd s (trimsOf !current).1 [n] ∧ rd d (trimsOf !current).2 [n] = rd s (trimsOf !current).2 [n]) ∧
  (¬ SelfcalGood offset gain → rd d oSelfcalStatus [n] = setBit (rd s oSelfcalStatus [n]) (if current then 2 else 1) % 2 ^ 8 ∧
    ∀ row ∈ [oTrimVOffset, oTrimVGain, oTrimIOffset, oTrimIGain], rd d row [n] = rd s row [n])

theorem selfcalResult_shown (n : Ch) (current : Bool) (offset gain : Int) (s : Dev) :
    ResultShown n current offset gain s (selfcalResult n current offset gain s) := by
  refine ⟨fun h => ?_, fun h => ?_⟩
  · rw [selfcalResult_of_good h]
    cases current <;>
    · refine ⟨?_, ?_, ?_, ?_, ?_⟩
      · rw [rd_wr_selfcal rfl rfl (by decide), rd_wr_selfcal rfl rfl (by decide), rd_wr_same]
        rfl
      · rw [rd_wr_selfcal rfl rfl (by decide), rd_wr_same]
        exact ofSigned_mod 40 offset
      · rw [rd_wr_same]
        exact ofSigned_mod 40 gain
      · rw [rd_wr_selfcal rfl rfl (by decide), rd_wr_selfcal rfl rfl (by decide), rd_wr_selfcal rfl rfl (by decide)]
      · rw [rd_wr_selfcal rfl rfl (by decide), rd_wr_selfcal rfl rfl (by decide), rd_wr_selfcal rfl rfl (by decide)]
  · rw [selfcalResult_of_bad h]
    refine ⟨rd_wr_same .., fun row hrow => ?_⟩
    fin_cases hrow <;> exact rd_wr_selfcal rfl rfl (by decide) n s _

theorem ResultShown.of_reads {n : Ch} {current : Bool} {offset gain : Int} {s d e : Dev} (h : ResultShown n current offset gain s d)
    (hreads : ∀ row ∈ selfcalRows, rd e row [n] = rd d row [n]) : ResultShown n current offset gain s e := by
  have hst : rd e oSelfcalStatus [n] = rd d oSelfcalStatus [n] := hreads _ (by simp [selfcalRows])
  have htrims : ∀ c, rd e (trimsOf c).1 [n] = rd d (trimsOf c).1 [n] ∧ rd e (trimsOf c).2 [n] = rd d (trimsOf c).2 [n] := by
    rintro (_ | _) <;> exact ⟨hreads _ (by simp [trimsOf, selfcalRows]), hreads _ (by simp [trimsOf, selfcalRows])⟩
  obtain ⟨hgood, hbad⟩ := h
  refine ⟨fun hg => ?_, fun hb => ?_⟩
  · rw [hst, (htrims current).1, (htrims current).2, (htrims !current).1, (htrims !current).2]
    exact hgood hg
  · obtain ⟨hstatus, hkept⟩ := hbad hb
    exact ⟨hst.trans hstatus, fun row hrow => (hreads row (List.mem_cons_of_mem _ hrow)).trans (hkept row hrow)⟩

/-- The failure bit of the mode alone follows the result. -/
theorem ResultShown.bits {n : Ch} {current : Bool} {offset gain : Int} {s d : Dev} (h : ResultShown n current offset gain s d) :
    (SelfcalGood offset gain → bitOf (rd d oSelfcalStatus [n]) (if current then 2 else 1) = false) ∧
    (¬ SelfcalGood offset gain → bitOf (rd d oSelfcalStatus [n]) (if current then 2 else 1) = true) ∧
    bitOf (rd d oSelfcalStatus [n]) (3 - if current then 2 else 1) = bitOf (rd s oSelfcalStatus [n]) (3 - if current then 2 else 1) := by
  obtain ⟨hgood, hbad⟩ := h
  have hbit : (if current then 2 else 1) < 8 := by cases current <;> decide
  have hother : (3 - if current then 2 else 1) < 8 := by cases current <;> decide
  have hne : (3 - if current then 2 else 1) ≠ if current then 2 else 1 := by cases current <;> decide
  refine ⟨fun hg => ?_, fun hb => ?_, ?_⟩
  · rw [(hgood hg).1, bitOf_mod_two_pow hbit, bitOf_clearBit]
    simp
  · rw [(hbad hb).1, bitOf_mod_two_pow hbit, bitOf_setBit]
    simp
  · by_cases hg : SelfcalGood offset gain
    · rw [(hgood hg).1, bitOf_mod_two_pow hother, bitOf_clearBit]
      simp [hne]
    · rw [(hbad hg).1, bitOf_mod_two_pow hother, bitOf_setBit]
      simp [hne]

/-! ### The end of a mode -/

/-- A mode is due: it was asked for, the multiplexer is held, and DS2 of the die runs (R31). -/
def SelfcalDue (n : Ch) (current : Bool) (s : Dev) : Prop :=
  (if current = true then (s.ch n).selfcal.current else (s.ch n).selfcal.voltage) = true ∧ holds s (0x6000 + n.val) (muxUnit n) = true ∧
    serviceRuns s n.die 2 = true

theorem selfcalDue_iff (n : Ch) (current : Bool) (s : Dev) : ((if current then (s.ch n).selfcal.current else (s.ch n).selfcal.voltage) &&
    holds s (selfcalId n) (muxUnit n) && serviceRuns s n.die 2) = true ↔ SelfcalDue n current s := by
  simp only [Bool.and_eq_true, and_assoc]
  rfl

/-- The run without the mode. -/
def modeEnds (current : Bool) (x : Selfcal) : Selfcal := if current then { x with current := false } else { x with voltage := false }

/-- The result taken. -/
def selfcalTaken (n : Ch) (current : Bool) (offset gain : Int) (s : Dev) : Dev :=
  updSelfcal n (modeEnds current) (selfcalResult n current offset gain s)

theorem selfcalComplete_idle {s : State} (hlive : Live s) {n : Ch} {current : Bool} (h : ¬ SelfcalDue n current s.dev) (offset gain : Int) :
    Completes (.selfcalComplete n current offset gain) s s.dev :=
  completes_of_onDev rfl hlive (congrArg Host.Outcome.next (if_neg fun hdue => h ((selfcalDue_iff n current s.dev).mp hdue)))

theorem selfcalComplete_ends {s : State} (hlive : Live s) {n : Ch} {current : Bool} (h : SelfcalDue n current s.dev) (offset gain : Int) :
    Completes (.selfcalComplete n current offset gain) s
      (if ((selfcalTaken n current offset gain s.dev).ch n).selfcal.voltage || ((selfcalTaken n current offset gain s.dev).ch n).selfcal.current
        then selfcalTaken n current offset gain s.dev else selfcalStop n (selfcalDone n (selfcalTaken n current offset gain s.dev))) :=
  completes_of_onDev rfl hlive (congrArg Host.Outcome.next ((if_pos ((selfcalDue_iff n current s.dev).mpr h)).trans rfl))

theorem selfcalTaken_ch (n : Ch) (current : Bool) (offset gain : Int) (s : Dev) :
    (selfcalTaken n current offset gain s).ch n = { s.ch n with selfcal := modeEnds current (s.ch n).selfcal } := by
  unfold selfcalTaken
  rw [selfcalResult_frame, updSelfcal, updCh_ch_self]
  rfl

theorem selfcalTaken_ch_of_ne {n k : Ch} (h : k ≠ n) (current : Bool) (offset gain : Int) (s : Dev) :
    (selfcalTaken n current offset gain s).ch k = s.ch k := by
  unfold selfcalTaken
  rw [selfcalResult_frame, updSelfcal, updCh_ch_of_ne _ _ h]
  rfl

theorem selfcalTaken_frame (n : Ch) (current : Bool) (offset gain : Int) (s : Dev) : selfcalTaken n current offset gain s =
    { s with objs := (selfcalTaken n current offset gain s).objs, chans := (selfcalTaken n current offset gain s).chans } := by
  unfold selfcalTaken
  rw [selfcalResult_frame]
  rfl

theorem rd_selfcalTaken (n : Ch) (current : Bool) (offset gain : Int) (s : Dev) (r : Row) (l : List Nat) :
    rd (selfcalTaken n current offset gain s) r l = rd (selfcalResult n current offset gain s) r l := rfl

theorem rd_selfcalTaken_pos (n : Ch) (current : Bool) (offset gain : Int) (s : Dev) :
    rd (selfcalTaken n current offset gain s) oSelfcalPos [n] = rd s oSelfcalPos [n] := by
  rw [rd_selfcalTaken]
  by_cases h : SelfcalGood offset gain
  · rw [selfcalResult_of_good h]
    cases current <;> rw [rd_wr_selfcal rfl rfl (by decide), rd_wr_selfcal rfl rfl (by decide), rd_wr_selfcal rfl rfl (by decide)]
  · rw [selfcalResult_of_bad h, rd_wr_selfcal rfl rfl (by decide)]

/-- The other mode still runs after this one. -/
theorem modeEnds_pending (current : Bool) (x : Selfcal) :
    ((modeEnds current x).voltage || (modeEnds current x).current) = if current = true then x.voltage else x.current := by
  cases current <;> simp [modeEnds]

/-! ### The end of the run -/

theorem RoleStep.ofArb {n : Ch} {a : ArrId} {s t : Dev} (h : ArbStep s t) : RoleStep n a s t := by
  unfold ArbStep at h
  rw [h]
  exact .arb _ s

theorem selfcalStop_step (n : Ch) (s : Dev) : RoleStep n .vm (updSelfcal n (fun _ => ⟨false, false, false, 0⟩) s) (selfcalStop n s) := by
  unfold selfcalStop
  refine (RoleStep.ofArb (dropRequester_arb _ _)).trans (RoleStep.trans (.ite (fun _ => ?_) fun _ => .refl ..) (idleRoles_step ..))
  split
  · exact .updSlice ..
  · exact .refl ..

section
variable {n : Ch} {a : ArrId} {s t : Dev}

theorem RoleStep.src (h : RoleStep n .vm s t) : (t.ch n).src = (s.ch n).src := by
  simpa [Chan.besideArr, Chan.besideEvents] using congrArg Chan.src h.beside

theorem RoleStep.selfcal (h : RoleStep n .vm s t) : (t.ch n).selfcal = (s.ch n).selfcal := by
  simpa [Chan.besideArr, Chan.besideEvents] using congrArg Chan.selfcal h.beside

end

/-- The last result ends the run (R281). -/
def selfcalOver (n : Ch) (current : Bool) (offset gain : Int) (s : Dev) : Dev := selfcalStop n (selfcalDone n (selfcalTaken n current offset gain s))

section
variable (n : Ch) (current : Bool) (offset gain : Int) (s : Dev)

theorem selfcalOver_step : RoleStep n .vm (updSelfcal n (fun _ => ⟨false, false, false, 0⟩) (selfcalDone n (selfcalTaken n current offset gain s)))
    (selfcalOver n current offset gain s) := selfcalStop_step n _

theorem rd_selfcalOver {r : Row} (hr : r.dims = [(0x100, 24)]) (hfault : objKey r.ix r.sub 0 ≠ objKey oChFault.ix oChFault.sub 0)
    (hpos : objKey r.ix r.sub 0 ≠ objKey oSelfcalPos.ix oSelfcalPos.sub 0) :
    rd (selfcalOver n current offset gain s) r [n] = rd (selfcalTaken n current offset gain s) r [n] :=
  ((selfcalOver_step n current offset gain s).kept r [n.val] (keyOf_chan_ne hr rfl hfault n)).trans (rd_wr_selfcal hr rfl hpos n _ _)

theorem rd_selfcalOver_pos : rd (selfcalOver n current offset gain s) oSelfcalPos [n] = posOf (dieRecs s n) (s.now * 256) := by
  rw [(selfcalOver_step n current offset gain s).kept oSelfcalPos [n.val] (keyOf_chan_ne rfl rfl (by decide) n)]
  refine (rd_wr_same ..).trans ((Nat.mod_eq_of_lt (posOf_lt _ _)).trans ?_)
  rw [selfcalTaken_frame]
  rfl

theorem selfcalOver_now : (selfcalOver n current offset gain s).now = s.now := by
  rw [(selfcalOver_step n current offset gain s).now]
  show (selfcalTaken n current offset gain s).now = s.now
  rw [selfcalTaken_frame]

theorem selfcalOver_ch_of_ne {k : Ch} (h : k ≠ n) : (selfcalOver n current offset gain s).ch k = s.ch k := by
  rw [(selfcalOver_step n current offset gain s).ch_of_ne h, updSelfcal, updCh_ch_of_ne _ _ h]
  exact selfcalTaken_ch_of_ne h ..

theorem selfcalOver_src : ((selfcalOver n current offset gain s).ch n).src = (s.ch n).src := by
  rw [(selfcalOver_step n current offset gain s).src, updSelfcal, updCh_ch_self]
  show ((selfcalTaken n current offset gain s).ch n).src = _
  rw [selfcalTaken_ch]

theorem selfcalOver_selfcal : ((selfcalOver n current offset gain s).ch n).selfcal = ⟨false, false, false, 0⟩ := by
  rw [(selfcalOver_step n current offset gain s).selfcal, updSelfcal, updCh_ch_self]

theorem selfcalOver_shown : ResultShown n current offset gain s (selfcalOver n current offset gain s) := by
  refine (selfcalResult_shown n current offset gain s).of_reads fun row hrow => ?_
  fin_cases hrow <;> exact rd_selfcalOver n current offset gain s rfl (by decide) (by decide)

theorem selfcalTaken_shown : ResultShown n current offset gain s (selfcalTaken n current offset gain s) :=
  (selfcalResult_shown n current offset gain s).of_reads fun _ _ => rfl

end

end Sys2Proof.Machine
end

section
/-! SUPPORT. The calibration seal, the load of the ledger and the drift fit (09, R285 to R287, R293; 12, R355). -/

namespace Sys2Proof.Machine

/-! ### The seal -/

theorem calSeal_exec (b : Bool) (s : State) : exec (if b = true then .calSealOpen else .calSealClose) s = onDev s fun d => .next (sealTo b d) := by
  cases b <;> rfl

theorem calSeal_completes {s : State} (hlive : Live s) (b : Bool) :
    Completes (if b = true then .calSealOpen else .calSealClose) s (sealTo b s.dev) := completes_of_onDev (calSeal_exec b s) hlive rfl

theorem sealTo_same {b : Bool} {s : Dev} (h : s.sec.sealOpen = b) : sealTo b s = s := if_pos h

theorem sealTo_changed {b : Bool} {s : Dev} (h : s.sec.sealOpen ≠ b) :
    sealTo b s = bump oCalSealChanges [] (updSec (fun x => { x with sealOpen := b }) s) := if_neg h

/-! ### Values under keys -/

theorem getKey_of_objs {s t : Dev} (h : s.objs = t.objs) (k : Nat) : getKey s k = getKey t k := by
  unfold getKey
  rw [h]

theorem getKey_putKey_other {q k : Nat} (h : q ≠ k) (v : Nat) (s : Dev) : getKey (putKey k v s) q = getKey s q := by
  unfold putKey
  split
  · unfold getKey
    split
    · exact tabGet_put_other _ _ _ _ h
    · rfl
  · rfl

theorem getKey_putKey_same {k : Nat} {r : Row} (hrow : rowOf (k / 256 % 65536) (k % 256) = some r) (v : Nat) (s : Dev) :
    getKey (putKey k v s) k = v % 2 ^ (8 * r.size) := by
  unfold putKey getKey
  rw [hrow]
  exact tabGet_put_same ..

theorem getKey_putKey_zero (k : Nat) (s : Dev) : getKey (putKey k 0 s) k = 0 := by
  cases hrow : rowOf (k / 256 % 65536) (k % 256) with
  | none =>
    unfold getKey
    rw [hrow]
  | some r => rw [getKey_putKey_same hrow, Nat.zero_mod]

theorem getKey_wr_of_ne {r : Row} {places : List Nat} {k : Nat} (h : k ≠ keyOf r places 0) (v : Nat) (s : Dev) : getKey (wr s r v places) k = getKey s k := by
  unfold getKey
  split
  · exact tabGet_put_other _ _ _ _ h
  · rfl

theorem getKey_foldl_putKey {k : Nat} {l : List (Nat × Nat)} (h : k ∉ l.map Prod.fst) (s : Dev) :
    getKey (l.foldl (fun s e => putKey e.1 e.2 s) s) k = getKey s k := by
  induction l generalizing s with
  | nil => rfl
  | cons e l ih =>
    obtain ⟨hne, hrest⟩ := List.ne_and_not_mem_of_not_mem_cons h
    exact (ih hrest _).trans (getKey_putKey_other hne _ _)

/-! ### Shipped entries that are not loaded -/

/-- One entry of the shipped records, not loaded where it lies at or after the break (R292). -/
def unloadEntry (b : Nat) (s : Dev) (k : Nat) : Dev := if b ≤ Config.shippedCalSeq k then putKey k 0 s else s

theorem unloadShipped_eq (b : Nat) (s : Dev) : unloadShipped b s = corrKeys.foldl (unloadEntry b) s := rfl

theorem getKey_unloadEntry (b : Nat) (s : Dev) (k q : Nat) :
    getKey (unloadEntry b s k) q = if q = k ∧ b ≤ Config.shippedCalSeq k then 0 else getKey s q := by
  unfold unloadEntry
  by_cases hlate : b ≤ Config.shippedCalSeq k
  · rw [if_pos hlate]
    by_cases hq : q = k
    · rw [hq, getKey_putKey_zero, if_pos ⟨rfl, hlate⟩]
    · rw [getKey_putKey_other hq, if_neg fun h => hq h.1]
  · rw [if_neg hlate, if_neg fun h => hlate h.2]

theorem getKey_unloadEntries (b : Nat) (l : List Nat) (s : Dev) (q : Nat) :
    getKey (l.foldl (unloadEntry b) s) q = if q ∈ l ∧ b ≤ Config.shippedCalSeq q then 0 else getKey s q := by
  induction l generalizing s with
  | nil => simp
  | cons k l ih =>
    rw [List.foldl_cons, ih, getKey_unloadEntry]
    by_cases hq : q = k
    · subst hq
      by_cases hlate : b ≤ Config.shippedCalSeq q <;> simp [hlate]
    · simp [hq]

theorem unloadEntries_objs (b : Nat) (l : List Nat) (s : Dev) : l.foldl (unloadEntry b) s = { s with objs := (l.foldl (unloadEntry b) s).objs } := by
  refine List.foldlRecOn (motive := fun (d : Dev) => d = { s with objs := d.objs }) l _ rfl fun d hd k _ => ?_
  obtain ⟨o, ho⟩ := putKey_objs k 0 d
  unfold unloadEntry
  split
  · rw [ho, hd]
  · exact hd

/-- The calibration objects without the entries of a list at or after the break: no other object changes. -/
theorem unloaded_loaded (b : Nat) (l : List Nat) (s : Dev) :
    let d := updRef (fun r => { r with calLoaded := true }) (l.foldl (unloadEntry b) s)
    d.ref = { s.ref with calLoaded := true } ∧ d.chans = s.chans ∧ d.ledger = s.ledger ∧
      (∀ k ∈ l, getKey d k = if b ≤ Config.shippedCalSeq k then 0 else getKey s k) ∧ ∀ k, k ∉ l → getKey d k = getKey s k := by
  have hkey (k : Nat) := getKey_unloadEntries b l s k
  refine ⟨?_, ?_, ?_, fun k hk => (hkey k).trans (by simp only [hk, true_and]), fun k hk => (hkey k).trans (if_neg fun h => hk h.1)⟩
  · rw [unloadEntries_objs]
    rfl
  · rw [unloadEntries_objs]
    rfl
  · rw [unloadEntries_objs]
    rfl

/-! ### Records loaded -/

/-- An applied record's AUTH_SEQ. -/
def authSeqTaken (r : LRecord) (s : Dev) : Dev := if r.flags = 1 then wr s oLastAuthSeq r.authSeq [] else s

/-- The objects of a CAL_SET. -/
def calTaken (r : LRecord) (s : Dev) : Dev := (calItems r.payload.length r.payload).foldl (fun s e => putKey e.1 e.2 s) s

/-- The key of an AUTHORITY_KEY. -/
def authKeyTaken (r : LRecord) (s : Dev) : Dev := wr (wr s oAuthKey (ofBytes (r.payload.take 57)) []) oAuthKeyFactory 0 []

/-- A record of an earlier power-up whose mark was never programmed, reported and aborted (R287). -/
def loadAborted (r : LRecord) (s : Dev) : Dev :=
  let s := updLedger (fun l => { l with unconfirmed := true }) s
  causeRecord (ownAppend 6 (abortPayload r.seq 0) 0 0xFF s) s

section
variable {nv : Nv} {s : Dev} {r : LRecord}

theorem beforeBroken_of_none (h : s.ledger.broken = none) : beforeBroken s r = true := by
  unfold beforeBroken
  rw [h]

/-- What a record can do to the device as it is loaded. -/
theorem loadRecord_cases (nv : Nv) (s : Dev) (r : LRecord) : loadRecord nv s r = s ∨
    r.type = 1 ∧ r.mark = 0 ∧ loadRecord nv s r = authSeqTaken r (calTaken r s) ∨
    r.type = 5 ∧ r.mark = 0 ∧ loadRecord nv s r = authSeqTaken r (authKeyTaken r s) ∨ loadRecord nv s r = loadAborted r s := by
  unfold loadRecord
  split
  · exact .inl rfl
  next hload =>
    have htype : r.type = 1 ∨ r.type = 5 := by
      simp only [Bool.or_eq_true, Bool.not_eq_true', ne_eq, Bool.and_eq_true, decide_eq_true_eq, not_or, not_and, not_not] at hload
      tauto
    split
    · next hmark =>
      obtain htype | htype := htype
      · rw [if_pos htype]
        exact .inr (.inl ⟨htype, hmark, rfl⟩)
      · rw [if_neg (show ¬ r.type = 1 by omega)]
        exact .inr (.inr (.inl ⟨htype, hmark, rfl⟩))
    · split
      · exact .inr (.inr (.inr rfl))
      · exact .inl rfl

theorem loadRecord_applied (hbroken : s.ledger.broken = none) (htype : r.type = 1) (hmark : r.mark = 0) :
    loadRecord nv s r = authSeqTaken r (calTaken r s) := by
  unfold loadRecord
  rw [beforeBroken_of_none hbroken, if_neg (by simp [htype]), if_pos hmark, if_pos htype]
  rfl

theorem loadRecord_unmarked (hbroken : s.ledger.broken = none) (htype : r.type = 1) (hmark : r.mark ≠ 0) (hearlier : r.powerUps < s.ledger.powerUps)
    (hnamed : abortNamed nv r.seq = false) : loadRecord nv s r = loadAborted r s := by
  unfold loadRecord
  rw [beforeBroken_of_none hbroken, if_neg (by simp [htype]), if_neg hmark, if_pos (by simp [hearlier, hnamed])]
  rfl

theorem authSeqTaken_frame (r : LRecord) (s : Dev) : authSeqTaken r s = { s with objs := (authSeqTaken r s).objs } := by
  unfold authSeqTaken
  split <;> rfl

theorem calTaken_frame (r : LRecord) (s : Dev) : calTaken r s = { s with objs := (calTaken r s).objs } := by
  obtain ⟨o, ho⟩ := foldl_putKey (calItems r.payload.length r.payload) s
  unfold calTaken
  rw [ho]
  rfl

theorem rd_authSeqTaken (h : r.flags = 1) (s : Dev) : rd (authSeqTaken r s) oLastAuthSeq [] = r.authSeq % 2 ^ 32 := by
  unfold authSeqTaken
  rw [if_pos h]
  exact rd_wr_same ..

theorem loadAborted_broken (r : LRecord) (s : Dev) : (loadAborted r s).ledger.broken = s.ledger.broken := by
  unfold loadAborted
  rw [causeRecord_ledger]
  rfl

theorem loadRecord_broken (nv : Nv) (s : Dev) (r : LRecord) : (loadRecord nv s r).ledger.broken = s.ledger.broken := by
  obtain h | ⟨-, -, h⟩ | ⟨-, -, h⟩ | h := loadRecord_cases nv s r
  · rw [h]
  · rw [h, authSeqTaken_frame, calTaken_frame]
  · rw [h, authSeqTaken_frame]
    rfl
  · rw [h, loadAborted_broken]

theorem loadRecords_broken (nv : Nv) (l : List LRecord) (s : Dev) : (l.foldl (loadRecord nv) s).ledger.broken = s.ledger.broken :=
  List.foldlRecOn (motive := fun d => d.ledger.broken = s.ledger.broken) l _ rfl fun d hd r _ => (loadRecord_broken nv d r).trans hd

end

/-! ### One calibration object -/

/-- The object of a calibration item: the key is none of the authority's own objects. -/
structure CalPlace (index sub : Nat) : Prop where
  cal : isCalObject index sub = true
  index_lt : index < 65536
  sub_lt : sub < 256

/-- The payload of a CAL_SET of one object (R284). -/
def oneItem (index sub : Nat) (data : List Byte) : List Byte :=
  leBytes 2 index ++ leBytes 1 sub ++ leBytes 1 data.length ++ (data ++ leBytes 16 0).take 16

theorem calItems_cons (k : Nat) {l : List Byte} (h : l ≠ []) : calItems (k + 1) l =
    (objKey (ofBytes (l.take 2)) (ofBytes ((l.drop 2).take 1)) 0, ofBytes ((l.drop 4).take (ofBytes ((l.drop 3).take 1)))) :: calItems k (l.drop 20) := by
  cases l with
  | nil => exact absurd rfl h
  | cons b t => rfl

theorem calItems_nil (k : Nat) : calItems k [] = [] := by cases k <;> rfl

theorem calItems_oneItem {index sub : Nat} {data : List Byte} (hlen : data.length ≤ 16) (hindex : index < 65536) (hsub : sub < 256) :
    calItems (oneItem index sub data).length (oneItem index sub data) = [(objKey index sub 0, ofBytes data)] := by
  have hlength : (oneItem index sub data).length = 20 := by simp [oneItem, length_leBytes]
  have hne : oneItem index sub data ≠ [] := fun h => by simp [h] at hlength
  have hix : ofBytes ((oneItem index sub data).take 2) = index := by
    simp [oneItem, List.take_append, length_leBytes, ofBytes_leBytes, Nat.mod_eq_of_lt hindex]
  have hsx : ofBytes (((oneItem index sub data).drop 2).take 1) = sub := by
    simp [oneItem, List.take_append, length_leBytes, ofBytes_leBytes, Nat.mod_eq_of_lt hsub]
  have hcount : ofBytes (((oneItem index sub data).drop 3).take 1) = data.length := by
    simp [oneItem, List.take_append, List.drop_append, length_leBytes, ofBytes_leBytes, List.drop_of_length_le]
    omega
  have hdata : ((oneItem index sub data).drop 4).take data.length = data := by
    simp [oneItem, List.take_append, List.drop_append, length_leBytes, List.drop_of_length_le, hlen]
  rw [hlength, calItems_cons 19 hne, hix, hsx, hcount, hdata, List.drop_of_length_le hlength.le, calItems_nil]

section
variable {index sub : Nat} (h : CalPlace index sub)
include h

theorem CalPlace.key_ne : objKey index sub 0 ≠ keyOf oLastAuthSeq [] 0 ∧ objKey index sub 0 ≠ keyOf oAuthKey [] 0 ∧
    objKey index sub 0 ≠ keyOf oAuthKeyFactory [] 0 := by
  obtain ⟨hcal, hindex, hsub⟩ := h
  have hauth : index ≠ 0x2610 ∧ index ≠ 0x2611 := by
    constructor <;> rintro rfl <;> simp [isCalObject, isCorrection] at hcal
  have hkeys : keyOf oLastAuthSeq [] 0 = 0x2610 * 256 + 3 ∧ keyOf oAuthKey [] 0 = 0x2611 * 256 + 1 ∧ keyOf oAuthKeyFactory [] 0 = 0x2611 * 256 + 2 :=
    ⟨rfl, rfl, rfl⟩
  obtain ⟨hlast, hkey, hfactory⟩ := hkeys
  rw [hlast, hkey, hfactory]
  unfold objKey
  omega

theorem CalPlace.getKey_authSeqTaken (r : LRecord) (s : Dev) : getKey (authSeqTaken r s) (objKey index sub 0) = getKey s (objKey index sub 0) := by
  unfold authSeqTaken
  split
  · exact getKey_wr_of_ne h.key_ne.1 _ _
  · rfl

/-- A record that is no applied CAL_SET of the object leaves it (R287). -/
theorem CalPlace.getKey_loadRecord {r : LRecord} (hother : r.type = 1 → r.mark = 0 → objKey index sub 0 ∉ (calItems r.payload.length r.payload).map Prod.fst)
    (nv : Nv) (s : Dev) : getKey (loadRecord nv s r) (objKey index sub 0) = getKey s (objKey index sub 0) := by
  obtain ⟨-, hkey, hfactory⟩ := h.key_ne
  obtain hload | ⟨htype, hmark, hload⟩ | ⟨-, -, hload⟩ | hload := loadRecord_cases nv s r
  · rw [hload]
  · rw [hload, h.getKey_authSeqTaken]
    exact getKey_foldl_putKey (hother htype hmark) s
  · rw [hload, h.getKey_authSeqTaken]
    exact (getKey_wr_of_ne hfactory _ _).trans (getKey_wr_of_ne hkey _ _)
  · rw [hload]
    exact getKey_of_objs (causeRecord_objs ..) _

theorem CalPlace.getKey_loadRecords {l : List LRecord} (hother : ∀ r ∈ l, r.type = 1 → r.mark = 0 →
    objKey index sub 0 ∉ (calItems r.payload.length r.payload).map Prod.fst) (nv : Nv) (s : Dev) :
    getKey (l.foldl (loadRecord nv) s) (objKey index sub 0) = getKey s (objKey index sub 0) :=
  List.foldlRecOn (motive := fun d => getKey d (objKey index sub 0) = getKey s (objKey index sub 0)) l _ rfl fun d hd r hr =>
    (h.getKey_loadRecord (hother r hr) nv d).trans hd

/-- An applied CAL_SET of the object gives it its value (R287). -/
theorem CalPlace.getKey_applied {row : Row} {data : List Byte} {r : LRecord} (hrow : rowOf index sub = some row) (hsize : row.size = data.length)
    (hlen : data.length ≤ 16) (hpayload : r.payload = oneItem index sub data) (s : Dev) :
    getKey (authSeqTaken r (calTaken r s)) (objKey index sub 0) = ofBytes data := by
  obtain ⟨hindex, hsub⟩ := objKey_place h.index_lt h.sub_lt
  have hvalue : ofBytes data < 2 ^ (8 * row.size) := by
    rw [hsize, Nat.pow_mul]
    exact ofBytes_lt data
  unfold calTaken
  rw [h.getKey_authSeqTaken, hpayload, calItems_oneItem hlen h.index_lt h.sub_lt]
  refine (getKey_putKey_same ?_ _ s).trans (Nat.mod_eq_of_lt hvalue)
  rwa [hindex, hsub]

end

/-! ### CAL_LOADED -/

/-- The calibration objects rebuilt from the ledger (R287). -/
def calLoad (nv : Nv) (s : Dev) : Dev :=
  updRef (fun r => { r with calLoaded := true }) (nv.recs.foldl (loadRecord nv) (match s.ledger.broken with
    | some b => unloadShipped b s
    | none => s))

theorem calLoaded_idle {s : State} (hlive : Live s) (h : s.dev.ref.calLoaded = true ∨ s.dev.ledger.scanDone = false) : Completes .calLoaded s s.dev := by
  refine completes_of_onDev rfl hlive (congrArg Host.Outcome.next (if_pos ?_))
  obtain h | h := h <;> simp [h]

theorem calLoaded_loads {s : State} (hlive : Live s) (hloaded : s.dev.ref.calLoaded = false) (hscan : s.dev.ledger.scanDone = true) :
    Completes .calLoaded s (calLoad s.nv s.dev) := by
  unfold Live at hlive
  exact completes_of_onDev rfl hlive (congrArg Host.Outcome.next ((if_neg (by simp [hlive, hloaded, hscan])).trans rfl))

theorem calLoad_of_unbroken {nv : Nv} {s : Dev} (h : s.ledger.broken = none) :
    calLoad nv s = updRef (fun r => { r with calLoaded := true }) (nv.recs.foldl (loadRecord nv) s) := by
  unfold calLoad
  rw [h]

theorem calLoad_of_broken {nv : Nv} {s : Dev} {b : Nat} (h : s.ledger.broken = some b) (hrecs : nv.recs = []) :
    calLoad nv s = updRef (fun r => { r with calLoaded := true }) (corrKeys.foldl (unloadEntry b) s) := by
  unfold calLoad
  rw [h, hrecs, List.foldl_nil]
  exact congrArg _ (unloadShipped_eq b s)

/-! ### DRIFT_RUN -/

theorem plainRow_driftRun : PlainRow oDriftRun := ⟨by decide, by decide, rfl⟩

theorem reached_driftRun (s : Dev) : reached s (oDriftRun.ix + dimsOff oDriftRun.dims []) := reached_of_objDie_zero s (by decide)

theorem directWrite_driftRun (p : Port) (data : List Byte) (nv : Nv) (s : Dev) :
    directWrite p oDriftRun (oDriftRun.ix + dimsOff oDriftRun.dims []) oDriftRun.sub data nv s =
      match driftRun p nv s with
      | some t => (.ok, t)
      | none => (.abort 0x0F100097, s) := rfl

/-- The time of a comparison that a port's fit takes (R293). -/
def driftTime (p : Port) (s : Dev) (q : DriftRec) : Nat := if bitOf (rdP s oDriftSelect p []) 0 = true then q.utc else q.age

/-- The records picked cannot be fitted: none, or all of one time (R293). -/
def DriftUnfit (p : Port) (nv : Nv) (s : Dev) : Prop := ∀ a ∈ driftPick nv s p, ∀ b ∈ driftPick nv s p, driftTime p s a = driftTime p s b

/-- A point of the fit. -/
def driftPoint (p : Port) (s : Dev) (q : DriftRec) : Int × Int × Nat := ((driftTime p s q : Int), q.v - 10000000000, q.u)

/-- The objects that the fit writes. -/
def driftKeys : List Nat := [keyOf oDriftN [] 0, keyOf oDriftSlope [] 0, keyOf oDriftUSlope [] 0, keyOf oDriftPred [] 0, keyOf oDriftUPred [] 0,
  keyOf oDriftChi2 [] 0, keyOf oDriftStatus [] 0]

/-- A fit over `n` records, written (R293). -/
def driftWritten (n : Nat) (f : Int × Int × Int × Int × Int) (s : Dev) : Dev :=
  let s := wr (wr s oDriftN n []) oDriftSlope (ofSigned 64 f.1) []
  let s := wr (wr s oDriftUSlope f.2.1.toNat []) oDriftPred (ofSigned 64 f.2.2.1) []
  let s := wr (wr s oDriftUPred f.2.2.2.1.toNat []) oDriftChi2 f.2.2.2.2.toNat []
  wr s oDriftStatus 1 []

theorem driftRun_unfit {p : Port} {nv : Nv} {s : Dev} (h : DriftUnfit p nv s) : driftRun p nv s = none := by
  unfold DriftUnfit at h
  unfold driftRun
  cases hpick : driftPick nv s p with
  | nil => rfl
  | cons r t =>
    rw [hpick] at h
    refine if_pos (List.all_eq_true.mpr fun x hx => ?_)
    obtain ⟨q, hq, rfl⟩ := List.mem_map.mp hx
    have htime := h q (List.mem_cons_of_mem _ hq) r List.mem_cons_self
    exact beq_iff_eq.mpr (congrArg Int.ofNat htime)

theorem driftRun_fits {p : Port} {nv : Nv} {s : Dev} (h : ¬ DriftUnfit p nv s) : driftRun p nv s =
    some (driftWritten (driftPick nv s p).length (driftFit ((driftPick nv s p).map (driftPoint p s)) (rdP s oDriftAt p [] : Nat)) s) := by
  unfold DriftUnfit at h
  unfold driftRun
  cases hpick : driftPick nv s p with
  | nil =>
    rw [hpick] at h
    exact absurd nofun h
  | cons r t =>
    rw [hpick] at h
    refine (if_neg fun hall => h ?_).trans ?_
    · have hsame : ∀ q ∈ r :: t, driftTime p s q = driftTime p s r := by
        intro q hq
        obtain rfl | hq := List.mem_cons.mp hq
        · rfl
        · have hpoint := List.all_eq_true.mp hall _ (List.mem_map_of_mem hq)
          exact Int.ofNat.inj (beq_iff_eq.mp hpoint)
      exact fun a ha b hb => (hsame a ha).trans (hsame b hb).symm
    · simp only [List.length_cons, List.length_map]
      rfl

theorem driftWritten_frame (n : Nat) (f : Int × Int × Int × Int × Int) (s : Dev) : driftWritten n f s = { s with objs := (driftWritten n f s).objs } := rfl

theorem driftWritten_kept (n : Nat) (f : Int × Int × Int × Int × Int) (s : Dev) : objsKept driftKeys s (driftWritten n f s) :=
  ((((((objsKept.refl driftKeys s).wr (by simp [driftKeys]) _).wr (by simp [driftKeys]) _).wr (by simp [driftKeys]) _).wr (by simp [driftKeys]) _).wr
    (by simp [driftKeys]) _ |>.wr (by simp [driftKeys]) _).wr (by simp [driftKeys]) _

theorem rd_driftWritten_status (n : Nat) (f : Int × Int × Int × Int × Int) (s : Dev) : rd (driftWritten n f s) oDriftStatus [] = 1 := rd_wr_same ..

theorem rd_driftWritten_n (n : Nat) (f : Int × Int × Int × Int × Int) (s : Dev) : rd (driftWritten n f s) oDriftN [] = n % 65536 := by
  unfold driftWritten
  rw [rd_wr_other _ _ _ _ _ _ (by decide), rd_wr_other _ _ _ _ _ _ (by decide), rd_wr_other _ _ _ _ _ _ (by decide),
    rd_wr_other _ _ _ _ _ _ (by decide), rd_wr_other _ _ _ _ _ _ (by decide), rd_wr_other _ _ _ _ _ _ (by decide), rd_wr_same]
  rfl

section
variable {s : State} {p : Port} (hserved : Served s p oDriftRun) (v : BitVec 8)
include hserved

theorem driftRun_refused (h : DriftUnfit p s.nv s.dev) : Completes (.driftRun p v) s (setAnswer p (.refused 0x0F100097) s.dev) := by
  refine plainRow_driftRun.rowRequest_refused hserved rowOf_driftRun (length_leBytes _ _) (reached_driftRun _) rfl ?_
  rw [directWrite_driftRun, driftRun_unfit h]

theorem driftRun_completes (h : ¬ DriftUnfit p s.nv s.dev) : Completes (.driftRun p v) s (done p (driftWritten (driftPick s.nv s.dev p).length
    (driftFit ((driftPick s.nv s.dev p).map (driftPoint p s.dev)) (rdP s.dev oDriftAt p [] : Nat)) s.dev)) := by
  refine plainRow_driftRun.rowRequest hserved rowOf_driftRun (length_leBytes _ _) (reached_driftRun _).1 (reached_driftRun _).2 rfl ?_ rfl
  rw [directWrite_driftRun, driftRun_fits h]

end

/-! ### O39 -/

/-- SRC_SELFCAL with modes to run: they are marked, and the verify path is asked for (R281). -/
theorem selfcalStart_marks {v : Nat} (hv : v < 4) (hne : v ≠ 0) (n : Ch) (p : Port) (s : Dev) :
    let d := selfcalStart n p v s
    d.objs = s.objs ∧ d.now = s.now ∧ d.fw = s.fw ∧ d.chans = s.chans.set n { s.ch n with selfcal := selfcalAsked v (s.ch n).selfcal } ∧
      (s.arb.units = [] → ∃ q ∈ (sharedOf d (pathUnit n .vm)).waiters, q.id = selfcalId n ∧ q.deadline = deadlineIn s (dlOffset s p.idx) ∧
        q.entry = s.now) := by
  have hmode : v % 4 ≠ 0 := by omega
  have harb := unitRequest_arb (selfcalId n) (pathUnit n .vm) (deadlineIn s (dlOffset s p.idx)) (updSelfcal n (selfcalAsked v) s)
  unfold ArbStep at harb
  rw [selfcalStart_asks hmode]
  refine ⟨by rw [harb]; rfl, by rw [harb]; rfl, by rw [harb]; rfl, by rw [harb]; rfl, fun hunits => ?_⟩
  exact unitRequest_entered (s := updSelfcal n (selfcalAsked v) s) hunits (isUnit_pathUnit n) (posOf_lt _ _)

/-- What the result of a mode leaves of the device, whether or not it ends the run (R281). -/
def ResultTaken (n : Ch) (current : Bool) (offset gain : Int) (s d : Dev) : Prop :=
  d.now = s.now ∧ (∀ k, k ≠ n → d.ch k = s.ch k) ∧ (d.ch n).src = (s.ch n).src ∧ ResultShown n current offset gain s d ∧
    ((if current = true then (s.ch n).selfcal.voltage else (s.ch n).selfcal.current) = true → (d.ch n).selfcal.running = (s.ch n).selfcal.running ∧
      d.arb = s.arb ∧ rd d oSelfcalPos [n] = rd s oSelfcalPos [n]) ∧
    ((if current = true then (s.ch n).selfcal.voltage else (s.ch n).selfcal.current) = false → (d.ch n).selfcal = ⟨false, false, false, 0⟩ ∧
      rd d oSelfcalPos [n] = posOf (dieRecs s n) (s.now * 256))

theorem selfcalTaken_taken {n : Ch} {current : Bool} {s : Dev} (offset gain : Int)
    (hother : (if current = true then (s.ch n).selfcal.voltage else (s.ch n).selfcal.current) = true) :
    ResultTaken n current offset gain s (selfcalTaken n current offset gain s) := by
  have hframe := selfcalTaken_frame n current offset gain s
  have hkept : ((selfcalTaken n current offset gain s).ch n).selfcal.running = (s.ch n).selfcal.running := by
    rw [selfcalTaken_ch]
    cases current <;> rfl
  refine ⟨?_, fun k hk => selfcalTaken_ch_of_ne hk .., ?_, selfcalTaken_shown .., fun _ => ⟨hkept, ?_, rd_selfcalTaken_pos ..⟩,
    fun hnone => absurd hother (by simp [hnone])⟩
  · rw [hframe]
  · rw [selfcalTaken_ch]
  · rw [hframe]

theorem selfcalOver_taken {n : Ch} {current : Bool} {s : Dev} (offset gain : Int)
    (hnone : ¬ (if current = true then (s.ch n).selfcal.voltage else (s.ch n).selfcal.current) = true) :
    ResultTaken n current offset gain s (selfcalOver n current offset gain s) :=
  ⟨selfcalOver_now .., fun _ hk => selfcalOver_ch_of_ne n current offset gain s hk, selfcalOver_src .., selfcalOver_shown ..,
    fun hother => absurd hother hnone, fun _ => ⟨selfcalOver_selfcal .., rd_selfcalOver_pos ..⟩⟩

theorem selfcalComplete_takes {s : State} (hlive : Live s) {n : Ch} {current : Bool} (h : SelfcalDue n current s.dev) (offset gain : Int) :
    ∃ d, Completes (.selfcalComplete n current offset gain) s d ∧ ResultTaken n current offset gain s.dev d := by
  have hends := selfcalComplete_ends hlive h offset gain
  rw [selfcalTaken_ch, modeEnds_pending] at hends
  by_cases hother : (if current = true then (s.dev.ch n).selfcal.voltage else (s.dev.ch n).selfcal.current) = true
  · rw [if_pos hother] at hends
    exact ⟨_, hends, selfcalTaken_taken offset gain hother⟩
  · rw [if_neg hother] at hends
    exact ⟨_, hends, selfcalOver_taken offset gain hother⟩

/-- The ledger holds one CAL_SET of one object: applied, it gives its value; unmarked from an earlier power-up, it is reported and aborted (R287). -/
theorem calLoad_one {nv : Nv} {s : Dev} {q : LRecord} (hbroken : s.ledger.broken = none) (hrecs : nv.recs = [q]) (htype : q.type = 1) {index sub : Nat}
    {data : List Byte} (hpayload : q.payload = oneItem index sub data) (hlen : data.length ≤ 16) (hplace : CalPlace index sub) :
    (q.mark = 0 → (∀ row, rowOf index sub = some row → row.size = data.length → getKey (calLoad nv s) (objKey index sub 0) = ofBytes data) ∧
      (q.flags = 1 → rd (calLoad nv s) oLastAuthSeq [] = q.authSeq % 2 ^ 32) ∧ (calLoad nv s).ledger = s.ledger) ∧
    (q.mark = 0xFF → q.powerUps < s.ledger.powerUps → (calLoad nv s).objs = s.objs ∧ (calLoad nv s).ledger.unconfirmed = true ∧
      ∃ e ∈ (calLoad nv s).ledger.queue, e.type = 6 ∧ e.payload = abortPayload q.seq 0) := by
  have hload : calLoad nv s = updRef (fun r => { r with calLoaded := true }) (loadRecord nv s q) := by
    rw [calLoad_of_unbroken hbroken, hrecs]
    rfl
  rw [hload]
  refine ⟨fun hmark => ?_, fun hmark hearlier => ?_⟩
  · rw [loadRecord_applied hbroken htype hmark]
    refine ⟨fun row hrow hsize => hplace.getKey_applied hrow hsize hlen hpayload s, fun hflags => rd_authSeqTaken hflags _, ?_⟩
    rw [authSeqTaken_frame, calTaken_frame]
    rfl
  · have hnamed : abortNamed nv q.seq = false := by simp [abortNamed, hrecs, htype]
    rw [loadRecord_unmarked hbroken htype (by omega) hearlier hnamed]
    refine ⟨causeRecord_objs .., ?_, _, mem_causeRecord _ _, rfl, rfl⟩
    show (loadAborted q s).ledger.unconfirmed = true
    unfold loadAborted
    rw [causeRecord_ledger]
    rfl

/-- The last applied CAL_SET of an object gives its value (R287). -/
theorem calLoad_last {nv : Nv} {s : Dev} {before after : List LRecord} {q : LRecord} (hbroken : s.ledger.broken = none)
    (hrecs : nv.recs = before ++ q :: after) (htype : q.type = 1) (hmark : q.mark = 0) {index sub : Nat} {data : List Byte} {row : Row}
    (hpayload : q.payload = oneItem index sub data) (hlen : data.length ≤ 16) (hplace : CalPlace index sub) (hrow : rowOf index sub = some row)
    (hsize : row.size = data.length)
    (hlast : ∀ x ∈ after, x.type = 1 → x.mark = 0 → objKey index sub 0 ∉ (calItems x.payload.length x.payload).map Prod.fst) :
    getKey (calLoad nv s) (objKey index sub 0) = ofBytes data := by
  have hfold : nv.recs.foldl (loadRecord nv) s = after.foldl (loadRecord nv) (loadRecord nv (before.foldl (loadRecord nv) s) q) := by
    rw [hrecs, List.foldl_append, List.foldl_cons]
  have hunbroken : (before.foldl (loadRecord nv) s).ledger.broken = none := (loadRecords_broken nv before s).trans hbroken
  have hvalue := hplace.getKey_applied hrow hsize hlen hpayload (before.foldl (loadRecord nv) s)
  rw [calLoad_of_unbroken hbroken, hfold]
  refine (hplace.getKey_loadRecords hlast nv _).trans ?_
  rwa [loadRecord_applied hunbroken htype hmark]

/-- Settles O39: the request and the results of a self-calibration, the seal, the load by what each record can do, and the fit. -/
theorem calibration : Obligations.Calibration := by
  intro s n p hlive
  refine ⟨fun v hserved hup hv => ⟨fun hbusy => ?_, fun hfree hhint hzero => ?_, fun hfree hhint hne => ?_⟩,
    fun current offset gain => ⟨fun hidle => selfcalComplete_idle hlive hidle offset gain, fun hdue => ?_⟩, fun b hb => ?_, fun b hb => ?_,
    calLoaded_idle hlive, fun b hloaded hscan hbroken hrecs => ?_, fun hloaded hscan hbroken => ⟨fun hrecs => ?_, ?_, ?_⟩,
    fun v hserved => ⟨driftRun_refused hserved v, fun hfits => ?_⟩⟩
  · exact srcSelfcal_refused hserved hup hv (srcSelfcal_of_barred hbusy p v.toNat)
  · have hok := srcSelfcal_of_free hfree hhint v.toNat
    rw [hzero, selfcalStart_none] at hok
    exact srcSelfcal_completes hserved hup hv (by rwa [hzero]) rfl
  · obtain ⟨hobjs, hnow, hfw, hchans, hentered⟩ := selfcalStart_marks hv hne n p s.dev
    rw [selfcalAsked_modes] at hchans
    exact ⟨_, srcSelfcal_completes hserved hup hv (srcSelfcal_of_free hfree hhint v.toNat) hfw, hobjs, hnow, hchans, hentered⟩
  · obtain ⟨d, hcompletes, hnow, hothers, hsrc, hshown, hpending, hover⟩ := selfcalComplete_takes hlive hdue offset gain
    obtain ⟨hclear, hset, hother⟩ := hshown.bits
    obtain ⟨hgood, hbad⟩ := hshown
    refine ⟨d, hcompletes, hnow, hothers, hsrc, fun h => ⟨hclear h, ?_, ?_⟩, fun h => ⟨hset h, (hbad h).2⟩, fun _ => hother, hpending, hover⟩
    · rintro rfl
      exact (hgood h).2
    · rintro rfl
      exact (hgood h).2
  · have hseal := calSeal_completes hlive b
    rwa [sealTo_same hb] at hseal
  · have hseal := calSeal_completes hlive b
    rw [sealTo_changed hb] at hseal
    exact ⟨_, hseal, rfl, (objsKept.refl _ s.dev).wr (by simp) _, rd_bump_word rfl _ _⟩
  · have hload := calLoaded_loads hlive hloaded hscan
    rw [calLoad_of_broken hbroken hrecs] at hload
    exact ⟨_, hload, unloaded_loaded b corrKeys s.dev⟩
  · have hload := calLoaded_loads hlive hloaded hscan
    rwa [calLoad_of_unbroken hbroken, hrecs] at hload
  · intro q index sub data hrecs htype hpayload hlen hcal hindex hsub
    obtain ⟨happlied, hunmarked⟩ := calLoad_one hbroken hrecs htype hpayload hlen ⟨hcal, hindex, hsub⟩
    exact ⟨fun hmark => ⟨_, calLoaded_loads hlive hloaded hscan, rfl, happlied hmark⟩,
      fun hmark hearlier => ⟨_, calLoaded_loads hlive hloaded hscan, rfl, hunmarked hmark hearlier⟩⟩
  · intro before_ q after_ index sub data row hrecs htype hmark hpayload hlen hcal hindex hsub hrow hsize hlast
    exact ⟨_, calLoaded_loads hlive hloaded hscan, rfl,
      calLoad_last hbroken hrecs htype hmark hpayload hlen ⟨hcal, hindex, hsub⟩ hrow hsize hlast⟩
  · exact ⟨_, driftRun_completes hserved v hfits, driftWritten_frame .., rd_driftWritten_status .., rd_driftWritten_n .., driftWritten_kept _ _ _⟩

end Sys2Proof.Machine
end
